-- ==== Sys2Proof/Word.lean ====
section
/-! DEFINITION. The data widths of the Virwald W1 and the one sparse map in which its large stores are held. -/

namespace Sys2Proof

/-- A setup register, and a scalar register (R6, Table 03-3). -/
abbrev Word := BitVec 64
/-- One 512-byte row of scratchpad or stack (R138, R295); byte i is bits 8·i + 7 down to 8·i. -/
abbrev Row := BitVec 4096
/-- A vector register (Table 03-3). -/
abbrev Vec := BitVec 512
/-- A tile register, and the data of an accumulator: 4 KiB (Table 03-3). -/
abbrev Tile := BitVec 32768

/-- A store whose keys are numbers. Its one canonical form: keys strictly rising, and no entry equal to what an
unlisted key reads as (see `Machine.Map.set`). -/
abbrev Map (α : Type) := List (Nat × α)

end Sys2Proof
end

