-- ==== Sys2Proof/Syntax.lean ====
section
/-! DEFINITION. The commands of the W1: one constructor for each row of the opcode table, and the data they carry.
Every constructor's first argument `t` is the arithmetic tick on which the step takes place. -/

namespace Sys2Proof

/-- The two instruction slots of a bundle (R77). -/
inductive Slot where
  | a
  | b
deriving DecidableEq, Repr

/-- The path on which a setup access arrives (R6, R587): the management path, a SETUP_WRITE, or a steward. -/
inductive Path where
  | mgmt
  | rdma
  | steward
deriving DecidableEq, Repr

/-- The fields of one instruction (Table 03-1), the core that issues it and its place in its bundle.
`pair` says that the other slot of the bundle also holds an instruction, given as a command of its own:
the slot A instruction first, then the slot B instruction. -/
structure CoreOp where
  core : Nat
  slot : Slot
  pair : Bool
  pneg : Bool
  pred : BitVec 3
  dst  : BitVec 6
  srca : BitVec 6
  srcb : BitVec 6
  srcc : BitVec 6
  imm  : BitVec 22
deriving DecidableEq, Repr

inductive AddOp where | add | sub | and | or | xor
deriving DecidableEq, Repr
inductive ShiftOp where | shl | shr | sra
deriving DecidableEq, Repr
inductive MinOp where | min | max | minu | maxu
deriving DecidableEq, Repr
inductive MulOp where | mul | mulh | mulhu
deriving DecidableEq, Repr
inductive Rel where | eq | ne | lt | ltu | ge | geu
deriving DecidableEq, Repr
/-- The type suffixes of vector instructions. -/
inductive LaneType where | i8 | i32 | f8e4 | f8e5 | b16 | f32
deriving DecidableEq, Repr
inductive VAddOp where | add | sub | min | max
deriving DecidableEq, Repr
inductive VBitOp where | and | or | xor | shl | shr | sra
deriving DecidableEq, Repr
inductive VRel where | eq | lt | le
deriving DecidableEq, Repr
inductive VFun where | exp2 | rcp | rsqrt
deriving DecidableEq, Repr
/-- The matrix products of Table 03-9; for F8, `true` selects e5m2 for that operand (R620). -/
inductive MmaKind where | i4 | f4 | i8 | f8 (a b : Bool) | b16
deriving DecidableEq, Repr
/-- The three destinations of Q.GET (R105). -/
inductive GetDst where | tile | vec | row
deriving DecidableEq, Repr

/-- A timed flow of a slot plan, and the arrival entry it gives its destination (R271, R276). One to a route set gives the
edges of its tree instead of `dst`: each as tile, port and depth, a leaf by its local port 4. -/
structure Flow where
  src   : Nat
  dst   : Nat
  tree  : List (Nat × Nat × Nat)
  frame : Nat
  slot  : Nat
  plane : Nat
  dstRow : Nat
  rows  : Nat
deriving DecidableEq, Repr

/-- A remote window declared in a fold image (R474): its target is a partition of a cluster or a stack region; `modules`
are the coordinates to which it is announced. -/
structure WinDecl where
  id      : Nat
  stack   : Bool
  unit    : Nat
  index   : Nat
  rows    : Nat
  modules : List Nat
deriving DecidableEq, Repr

/-- A KV pool that a fold image registers (10, KV pages): pool `index` of the hub of lea `lea`, made of the frames of
stack region `source` of stack `unit`, or of partition `source` of cluster `unit`. -/
structure PoolDecl where
  lea     : Nat
  index   : Nat
  scratch : Bool
  unit    : Nat
  source  : Nat
deriving DecidableEq, Repr

/-- What the compiled fold image tells the W1 (R69, R81, R86, R276, R366 to R369, R397, R441, R474, R551). Per model and item
kind, `worst` gives the worst case of new pages in one swath (R367) and `growth` that of new positions (R368); `pools` gives the
KV pool of each page group of a model (R375). -/
structure Image where
  clusters  : List Nat
  leaRect   : Bool
  endTick   : Nat
  drain     : Nat
  code      : List (Nat × List (BitVec 128))
  stiles    : List (Nat × List Nat)
  queues    : List (Nat × Nat × Nat)
  items     : List (Nat × List Nat)
  model     : Nat
  batchAt   : Nat × Nat
  resultAt  : Nat × Nat
  limits    : List (Nat × Nat)
  worst     : List (Nat × Nat × Nat)
  growth    : List (Nat × Nat × Nat)
  outBound  : List (Nat × Nat × Nat)
  pools     : List (Nat × List Nat)
  kvPools   : List PoolDecl
  block     : List Nat
  flows     : List Flow
  windows   : List WinDecl
  placements : List (List Nat × List Flow)
  setup     : List (Nat × Word)
  streamRows : List (Nat × Nat)
  benver    : Nat
deriving DecidableEq, Repr

/-- What a client's transport asks in a doorbell page (R420, Table 12-1). -/
inductive Verb where | write | read | send | atomic
deriving DecidableEq, Repr

/-- What a client asks of its doorbell page (R420): the verb, the byte offset in the page, the width in bytes, and the value. -/
structure PageAccess where
  verb : Verb
  off  : Nat
  len  : Nat
  v    : Word
deriving DecidableEq, Repr

/-- A connection request (R416, R417): the link by which it comes, whether it asks for a reliable connection, and its path MTU. -/
structure Caller where
  link     : Nat
  reliable : Bool
  mtu      : Nat
deriving DecidableEq, Repr

/-- An endpoint whose outstanding writes to client memory have ended, and the streams whose output could not be written (R385,
R433, R443). -/
structure Acked where
  ep  : Nat
  bad : List Nat
deriving DecidableEq, Repr

/-- A domain and the tick from which on it has stayed within 25 mV of its set point (R499). -/
structure Settled where
  q     : Nat
  since : Nat
deriving DecidableEq, Repr

/-- A cell of a row that program-and-verify could not move (R216): column, the plus cell or not, and its level. -/
structure StuckCell where
  col   : Nat
  plus  : Bool
  level : Nat
deriving DecidableEq, Repr

/-- What the weight codec expands a chunk into (R353): scratchpad rows of a cluster, rows of a stack, or programming rows of
array `a` of a cluster. -/
inductive ChunkDest where
  | scratch
  | stack
  | array (a : Nat)
deriving DecidableEq, Repr

/-- What writing one row met (R214, R216): whether some pair had left the verify window, and the cells that no pulse moved. -/
structure RowOutcome where
  drifted : Bool
  stuck   : List StuckCell
deriving DecidableEq, Repr, Inhabited

/-- The fit of one calibration run (R208, Table 05-6): the words of each column and of the array, and what the 32 canaries
gave under the new words: y of column c of canary k at 512·k + c, in eighths of a weight unit. -/
structure CalFit where
  gamma  : List Nat
  offset : List Int
  kappa  : Int
  tCal   : Int
  y      : List Int
deriving DecidableEq, Repr, Inhabited

/-- The payload of a step marker (R469); ports name the port on which it arrived. -/
structure Marker where
  port  : Nat
  src   : Nat
  tag   : Nat
  swath : Nat
  stile : Nat
  gen   : Nat
  stamp : Nat
  settings : Nat × Nat × Nat × Bool × List Nat
deriving DecidableEq, Repr

/-- A row packet header (Table 13-4). -/
structure RowHeader where
  kind   : Nat
  rows   : Nat
  index  : Nat
  cause  : Nat
  window : Nat
  gen    : Nat
  offset : Nat
  src    : Nat
  tag    : Nat
  launch : Nat
  block  : Nat
  dst    : Nat
deriving DecidableEq, Repr

/-- What a link's training found (R454 to R456): `failed` names the last step passed when it fails. -/
structure Training where
  failed   : Option Nat
  reversed : Bool
  inverted : Nat
  coord    : Nat × Nat × Nat
  link     : Nat
  role     : Nat
deriving DecidableEq, Repr

/-- The temperature sensors of Table 15-1; readings are in eighths of a degree, those of the
coolant sensors in sixteenths. -/
inductive Sensor where
  | cluster (q : Nat)
  | hub (n i : Nat)
  | stack (n : Nat)
  | inlet
  | outlet
deriving DecidableEq, Repr

/-- Why a calibration falls due (R205). -/
inductive CalCause where | program | boot | interval | temperature
deriving DecidableEq, Repr

/-- One firmware image as the ROM judges it (R567, R568, Table 17-3). -/
structure FwImage where
  version : Nat
  numeric : Nat
  svn     : Nat
  keysOk  : Bool
  ecdsaOk : Bool
  hssOk   : Bool
  bodyOk  : Bool
deriving DecidableEq, Repr

/-- What boot finds on the wafer (R56, R571, R575, R576): identity shares read, whether helper data read, record copies that
did not authenticate with their record, cores with the testers they failed, clusters with the unit that failed, arrays as
(cluster, array) that became DRIFTED or FAILED, and leas that did not align. -/
structure BootFindings where
  shares       : Nat
  helperOk     : Bool
  copiesBad    : List (Nat × Nat)
  coresFailed  : List (Nat × Nat)
  clustersFailed : List (Nat × Nat)
  arraysDrifted : List (Nat × Nat)
  arraysFailed : List (Nat × Nat)
  unaligned    : List Nat
deriving DecidableEq, Repr

/-- Where the fold image places the tensor of a directory entry (R397, R399, Table 11-6): its cluster; for an array layer
that runs analog the named group, the depth and the arrays masked in; the first row of a tensor in scratchpad; the region
and row of one in a stack; and for adapter factors the first row of their FP32 master copy (R256). -/
structure Tensor where
  cluster : Nat
  analog  : Option (Nat × Nat × Nat)
  scratch : Option Nat
  stackAt : Option (Nat × Nat)
  master  : Option Nat
deriving DecidableEq, Repr

/-- A tokeniser table (R332): the bytes of each token, the merges of a byte-pair table in rank order, and the
log-probability of each token of a unigram table (FP32 bits). -/
structure TokTable where
  kind    : Nat
  tokens  : List (List (BitVec 8))
  merges  : List (Nat × Nat × Nat)
  logp    : List Nat
deriving DecidableEq, Repr

/-- The bytes of a package in client memory and what its tensors without a byte layout in the manual say: the fold images
of kinds 8 and 9, where they place each tensor of the directory, and the tokeniser tables of kind 7 with their slots. -/
structure Package where
  bytes   : List (BitVec 8)
  places  : List Tensor
  image   : Option Image
  digitalImage : Option Image
  tables  : List (Nat × TokTable)
deriving DecidableEq, Repr

/-- The commands of the W1 (spec/opcode_table.json), in the table's order. -/
inductive Instr where
  -- the compute core (03)
  | nop (t : Nat) (o : CoreOp)
  | add (t : Nat) (o : CoreOp) (f : AddOp) (i : Bool)
  | shl (t : Nat) (o : CoreOp) (f : ShiftOp) (i : Bool)
  | min (t : Nat) (o : CoreOp) (f : MinOp)
  | mul (t : Nat) (o : CoreOp) (f : MulOp)
  | li (t : Nat) (o : CoreOp)
  | lui (t : Nat) (o : CoreOp)
  | cmp (t : Nat) (o : CoreOp) (r : Rel)
  | sysRd (t : Nat) (o : CoreOp)
  | br (t : Nat) (o : CoreOp)
  | brP (t : Nat) (o : CoreOp)
  | loop (t : Nat) (o : CoreOp)
  | jal (t : Nat) (o : CoreOp)
  | jr (t : Nat) (o : CoreOp)
  | vAdd (t : Nat) (o : CoreOp) (f : VAddOp) (ty : LaneType)
  | vAnd (t : Nat) (o : CoreOp) (f : VBitOp) (ty : LaneType)
  | vMul (t : Nat) (o : CoreOp) (fma : Bool) (ty : LaneType)
  | vCmp (t : Nat) (o : CoreOp) (r : VRel) (ty : LaneType)
  | vSel (t : Nat) (o : CoreOp) (ty : LaneType)
  | vCvt (t : Nat) (o : CoreOp) (ty : LaneType)
  | vExp2 (t : Nat) (o : CoreOp) (f : VFun) (ty : LaneType)
  | vRedAdd (t : Nat) (o : CoreOp) (isMax : Bool) (ty : LaneType)
  | vShuf (t : Nat) (o : CoreOp) (ty : LaneType)
  | vBcast (t : Nat) (o : CoreOp) (ty : LaneType)
  | vExt (t : Nat) (o : CoreOp) (ty : LaneType)
  | vIns (t : Nat) (o : CoreOp) (ty : LaneType)
  | mma (t : Nat) (o : CoreOp) (k : MmaKind) (hiA hiB : Bool)
  | mmaStart (t : Nat) (core : Nat)
  | mmaEnd (t : Nat) (core : Nat)
  | accClr (t : Nat) (o : CoreOp)
  | accMv (t : Nat) (o : CoreOp)
  | rowLd (t : Nat) (o : CoreOp) (tile : Bool)
  | rowSt (t : Nat) (o : CoreOp) (tile : Bool)
  | qPutRd (t : Nat) (o : CoreOp) (q : Nat)
  | qPutWr (t : Nat) (o : CoreOp) (q : Nat)
  | qGet (t : Nat) (o : CoreOp) (q : Nat) (d : GetDst)
  | qWait (t : Nat) (o : CoreOp) (q : Nat)
  | qWaitWr (t : Nat) (o : CoreOp) (q : Nat)
  | slotSend (t : Nat) (o : CoreOp)
  | arrIssue (t : Nat) (o : CoreOp) (g : Nat)
  | arrCollect (t : Nat) (o : CoreOp) (g : Nat)
  | leaveReq (t : Nat) (o : CoreOp)
  | leaveWait (t : Nat) (o : CoreOp)
  | stile (t : Nat) (o : CoreOp)
  | swathWait (t : Nat) (o : CoreOp)
  | engCall (t : Nat) (o : CoreOp)
  | engWait (t : Nat) (o : CoreOp)
  | recEmit (t : Nat) (o : CoreOp)
  | recordSend (t : Nat) (core : Nat)
  -- the cluster scratchpad (04)
  | bankAccess (t : Nat) (q bank : Nat)
  | scrubRead (t : Nat) (q row : Nat)
  | partitionDescriptorWrite (t : Nat) (p : Path) (q i : Nat) (cfg : Bool) (v : Word)
  | partitionClose (t : Nat) (p : Path) (q i : Nat)
  | bankClosure (t : Nat) (q bank : Nat)
  | partitionOpen (t : Nat) (p : Path) (q i : Nat)
  | bankFillDone (t : Nat) (q bank : Nat)
  -- sward arrays (05, 06)
  | layerEntryWrite (t : Nat) (p : Path) (q e r : Nat) (v : Word)
  | arrayAccept (t : Nat) (q g : Nat)
  | arrayRotationEnd (t : Nat) (q g : Nat)
  | arrayPlane (t : Nat) (q g : Nat)
  | arrayAccumulation (t : Nat) (q g : Nat)
  | arrayResultReady (t : Nat) (q g : Nat)
  | sideRowFetched (t : Nat) (q : Nat)
  | sideDelivery (t : Nat) (q : Nat)
  | calibrationDue (t : Nat) (q a : Nat) (c : CalCause)
  | calibrationSlice (t : Nat) (q a periods : Nat)
  | calibrationFitDone (t : Nat) (q a : Nat) (fit : CalFit)
  | arrayRowProgram (t : Nat) (q a row : Nat) (w : BitVec 2048) (pulses : Bool) (stuck : List StuckCell)
  -- time and swaths (02)
  | ppsEdge (t : Nat)
  | ptpSync (t : Nat) (offset : Int)
  | timeLocked (t : Nat)
  | holdover (t : Nat)
  | referenceClockLoss (t : Nat)
  | foldArm (t : Nat) (p : Path) (f : Nat) (img : Option Image)
  | foldStop (t : Nat) (p : Path) (f : Nat)
  | swathOpen (t : Nat) (f : Nat)
  | swathRunStart (t : Nat) (f : Nat)
  | stileRelease (t : Nat) (f id : Nat)
  | swathDrainEnd (t : Nat) (f : Nat)
  | outputEntry (t : Nat) (f : Nat) (a : Acked)
  | swathGuardStart (t : Nat) (f : Nat)
  | stileTimeout (t : Nat) (f : Nat)
  -- leave (07, 14)
  | leaveRequestPlace (t : Nat) (n : Nat)
  | grantStart (t : Nat) (n g : Nat)
  | grantSpanEnd (t : Nat) (n g : Nat)
  -- the fabric (07)
  | slotLaunch (t : Nat) (pkt : Nat)
  | routerRow (t : Nat) (pkt : Nat)
  | timedRowArrival (t : Nat) (pkt : Nat)
  | routerPortArrival (t : Nat) (pkt : Nat)
  -- memory stacks (08)
  | stackRequestAdmit (t : Nat) (n : Nat)
  | queueReturn (t : Nat) (q k : Nat)
  | writeAcknowledgement (t : Nat) (q k : Nat)
  | stackRefresh (t : Nat) (n bank : Nat)
  | stackTemperatureRead (t : Nat) (n : Nat) (temps : List Nat)
  | stackScrub (t : Nat) (n row : Nat)
  | selfRefreshExit (t : Nat) (n : Nat)
  | regionDescriptorWrite (t : Nat) (p : Path) (n i : Nat) (cfg : Bool) (v : Word)
  | regionClear (t : Nat) (p : Path) (n i : Nat)
  -- hub engines (09)
  | engineCallAdmit (t : Nat) (n e : Nat)
  | features (t : Nat) (n : Nat)
  | encode (t : Nat) (n : Nat)
  | decode (t : Nat) (n : Nat)
  | attend (t : Nat) (n : Nat)
  | scores (t : Nat) (n : Nat)
  | sample (t : Nat) (n e : Nat)
  | verify (t : Nat) (n e : Nat)
  | translate (t : Nat) (n : Nat)
  | extend (t : Nat) (n : Nat)
  | trim (t : Nat) (n : Nat)
  | gcmDecrypt (t : Nat) (n : Nat)
  | gcmEncrypt (t : Nat) (n : Nat)
  | sha384 (t : Nat) (n : Nat)
  | ecdsaVerify (t : Nat) (n : Nat) (pub msg sig : List (BitVec 8))
  | lmsVerify (t : Nat) (n : Nat) (pub msg sig : List (BitVec 8))
  | normSet (t : Nat) (q : Nat)
  | normSubmit (t : Nat) (q : Nat)
  | engineCallComplete (t : Nat) (n e : Nat) (parity : Bool)
  | weightCodecChunk (t : Nat) (n : Nat) (dest : ChunkDest) (unit row : Nat) (coding : Nat) (data : List (BitVec 8))
  -- the client interface (12)
  | connectionRequest (t : Nat) (ep : Nat) (c : Caller)
  | connectionFail (t : Nat) (ep : Nat)
  | submissionDoorbell (t : Nat) (ep : Nat) (key : BitVec 32) (a : PageAccess)
  | completionHead (t : Nat) (ep : Nat) (key : BitVec 32) (v : Word)
  | creditSlotWrite (t : Nat) (ep : Nat) (key : BitVec 32) (slot : Nat) (v : Word)
  | descriptorFetch (t : Nat) (ep : Nat) (d : BitVec 512)
  | accept (t : Nat) (ep : Nat)
  | reject (t : Nat) (ep : Nat)
  | carriedAccept (t : Nat) (ep : Nat)
  | openStream (t : Nat) (ep : Nat) (profile : Option (BitVec 256))
  | appendInput (t : Nat) (ep : Nat) (data : Option (List (BitVec 8)))
  | generate (t : Nat) (ep : Nat)
  | verifyDraft (t : Nat) (ep : Nat) (data : Option (List (BitVec 32)))
  | close (t : Nat) (ep : Nat)
  | adaptStep (t : Nat) (ep : Nat) (data : Option (List (BitVec 32)))
  | loadModel (t : Nat) (ep : Nat) (pkg : Option Package)
  | unloadModel (t : Nat) (ep : Nat)
  | query (t : Nat) (ep : Nat) (bufferOk : Bool)
  | fence (t : Nat) (ep : Nat)
  | setupRead (t : Nat) (ep : Nat) (bufferOk : Bool)
  | setupWrite (t : Nat) (ep : Nat)
  | replayDone (t : Nat) (a : Acked)
  -- models (11)
  | rebuild (t : Nat) (q g : Nat)
  | copyRetire (t : Nat) (handle : Nat)
  -- links (13)
  | linkTraining (t : Nat) (link : Nat) (r : Training)
  | skeltinDataFrame (t : Nat) (link : Nat) (frame : BitVec 2048)
  | nak (t : Nat) (link : Nat) (seq : Nat)
  | ackTimeout (t : Nat) (port : Nat)
  | stepMarkerArmed (t : Nat) (m : Marker)
  | stepMarkerJoin (t : Nat) (m : Marker)
  | stepMarkerDrained (t : Nat) (m : Marker)
  | windowAnnounce (t : Nat) (owner id gen rows : Nat)
  | windowRequest (t : Nat) (h : RowHeader) (row : Row)
  | refusal (t : Nat) (tag cause : Nat)
  | windowClose (t : Nat) (id : Nat)
  -- power (14)
  | inputMonitor (t : Nat) (hvDv hvDa auxDv auxDa : Nat)
  | overdrawCheck (t : Nat) (q milliamps : Nat)
  | clusterOn (t : Nat) (q : Nat)
  | reservoirConnect (t : Nat) (q mv : Nat)
  | droop (t : Nat) (q mv : Nat)
  | droopRelease (t : Nat) (d : Settled)
  | vminRearm (t : Nat) (p : Path) (q mv : Nat)
  | currentSample (t : Nat) (domain tenMilliamps : Nat)
  | supplyWarn (t : Nat) (dv : Nat) (segs : List Nat)
  | supplyOk (t : Nat) (dv : Nat) (segs : List Nat)
  | supplyQuiesce (t : Nat)
  | supplyResume (t : Nat)
  | inputLoss (t : Nat) (dv : Nat)
  | inputOvervoltage (t : Nat) (dv : Nat)
  | inputReversed (t : Nat)
  | inputPrecharge (t : Nat) (dv : Nat)
  | sliceFail (t : Nat) (q i : Nat)
  | phaseFail (t : Nat) (n i : Nat)
  | senseOpen (t : Nat) (n : Nat) (ao : Bool)
  | segmentFail (t : Nat) (s bus : Nat)
  | pwrEnAssert (t : Nat)
  | coolantCheckEnd (t : Nat) (inlet outlet : Int) (sensorsOk : Bool)
  | pwrEnDeassert (t : Nat)
  -- heat (15)
  | trayReport (t : Nat) (flow : Nat) (inlet : Int)
  | traySilent (t : Nat)
  | sensorRead (t : Nat) (k : Sensor) (reading : Option Int)
  | allowanceUpdate (t : Nat)
  | holdExit (t : Nat)
  | hotLevelStep (t : Nat) (q : Nat)
  | hotOffMark (t : Nat) (q : Nat)
  | regionHotOff (t : Nat) (q : Nat)
  | hotReturn (t : Nat) (q : Nat)
  | flowLossN (t : Nat) (level : Bool)
  | stopClear (t : Nat) (p : Path)
  | slewGovernor (t : Nat)
  -- faults (16)
  | heartbeat (t : Nat) (tile : Nat)
  | clusterFail (t : Nat) (q cause : Nat) (core : Option Nat)
  | heartbeatLost (t : Nat) (router : Bool) (unit reporter : Nat)
  | routesDone (t : Nat) (routes : List (Nat × Nat × Nat))
  | stackFail (t : Nat) (n : Nat)
  | spareTestEnd (t : Nat) (q : Nat) (pass : Bool)
  | replaceDone (t : Nat) (f : Nat)
  | recordStreamSend (t : Nat) (log : Nat)
  -- boot, identity, update (17)
  | boot (t : Nat) (found : BootFindings)
  | installSigner (t : Nat) (p : Path) (slot : Nat)
  | eraseSigner (t : Nat) (p : Path) (slot : Nat)
  | installSetupKey (t : Nat) (p : Path) (slot : Nat)
  | exportKeys (t : Nat) (p : Path)
  | attest (t : Nat) (p : Path)
  | commitSvn (t : Nat) (p : Path)
  | attestTreeBuild (t : Nat)
  | seal (t : Nat) (p : Path)
  | requestUpdate (t : Nat)
  | verifyComplete (t : Nat) (img : FwImage)
  | applyComplete (t : Nat)
  | setdasa (t : Nat) (addr : Nat)
  -- resets and low-power states (18)
  | cold (t : Nat) (p : Path)
  | warm (t : Nat) (p : Path)
  | lea (t : Nat) (p : Path) (n : Nat)
  | cluster (t : Nat) (p : Path) (q : Nat)
  | fold (t : Nat) (p : Path) (f : Nat)
  | link (t : Nat) (p : Path) (l : Nat)
  | stopN (t : Nat)
  | chiefWatchdog (t : Nat)
  | stewardWatchdog (t : Nat) (n : Nat)
  | standby (t : Nat) (p : Path)
  | active (t : Nat) (p : Path)
  | regionOff (t : Nat) (p : Path) (n k : Nat)
  | registerWrite (t : Nat) (p : Path) (addr width : Nat) (v : Word)
  | auxiliaryInputPresent (t : Nat) (dv : Nat)
  | auxiliaryInputLoss (t : Nat)
  | stopNRelease (t : Nat)
  | modelRevalidated (t : Nat) (handle : Nat)
  | idlenessSwitchOff (t : Nat) (q : Nat)
deriving DecidableEq, Repr

end Sys2Proof
end

