-- ==== Sys2Proof/Decode.lean ====
section
/-! DEFINITION. The commands that the bits of a word spell. -/

namespace Sys2Proof

/-- No row of the opcode table gives bits: the commands are operations and events, not words. -/
def decodeTableWord (_nbits _w : Nat) : Option Instr := none

end Sys2Proof
end

