-- ==== Sys2Proof/Config.lean ====
section
/-! DEFINITION. The values that the manual leaves free. None has a body: nothing can be proved of one. Each that is drawn
afresh is applied to `State.fresh`. -/

namespace Sys2Proof

/-- What a converter reads: the deviation of S·g/4 + o from its exact value through noise and drift (R191), in codes
scaled by 2¹⁶; by draw, array and column. -/
opaque Config.analogNoise : Nat → Nat → Nat → Int

/-- Which of the values within one unit in the last place V.EXP2, V.RCP or V.RSQRT gives (R230); by function and operand
bits, so that it is the same for the same operand. -/
opaque Config.ulpPick : Nat → Nat → Nat
/-- What they give where the manual states no value: 1/0, 1/√0, 1/√x of a negative x, and at infinities. -/
opaque Config.funBits : Nat → Nat → Nat

/-- What reading a row not written since a change of wclass does (R153): `true` for an uncorrectable error. -/
opaque Config.unwrittenFails : Nat → Bool
/-- The undefined data that such a read delivers, and whether corrected_count then rises. -/
opaque Config.unwrittenRow : Nat → Row
opaque Config.unwrittenCounts : Nat → Bool

/-- What a read makes of errors beyond the range of its code (R625, R627), by draw: `true` where they are reported, and the
miscorrected row otherwise. -/
opaque Config.beyondFails : Nat → Bool
opaque Config.beyondRow : Nat → Row

/-- The func values of the core's instructions (Table 03-1), which the manual does not list: class, place of the instruction
among those of its class (`Op.fn`), func. -/
opaque Config.funcs : List (Nat × Nat × Nat)

/-- The first call number that a core gives (R133); the numbers rise by one. -/
opaque Config.callBase : Word

/-- The audio front-end (R328 to R330), whose filter coefficients and roundings the manual does not give: the energies of the
mel bands (FP32 bits) and tail samples by operands and index, and, where the input and output rates differ, whether one more output
sample falls into the call and the resampler's new phase. The operands are the parameters and every row read. -/
opaque Config.bandEnergy : List Row → Nat → BitVec 32
opaque Config.tailSample : List Row → Nat → BitVec 16
opaque Config.resampleMore : List Row → Bool
opaque Config.resamplePhase : List Row → BitVec 64

/-- What stands in a result row behind the bytes that a function writes; by the call block and those bytes, so that it is the
same for the same operands (R326). -/
opaque Config.rowRest : Row → List (BitVec 8) → Row
/-- The log-probability and u of a token that was not drawn, and which token a draw takes among infinite values (R342 to
R344); by the penalised logits, seed, position and draw index. -/
opaque Config.undrawn : List Nat → Nat → Nat → Nat → BitVec 64

/-- The first row of the page table of a request entry, in the stack of its lea, and how many page table entries it holds
(Table 10-1); by global index. -/
opaque Config.pageTableRow : Nat → BitVec 28
opaque Config.pageTableCap : Nat → BitVec 32

/-- What the compiled program of a training step computes (R255, R259): the logits of a position, in token order, as FP32 bits;
by draw and position. And the gradient of 2^λ·L with respect to an element of a factor tensor, as FP32 bits; by draw, tensor
and element. -/
opaque Config.logits : Nat → Nat → List Nat
opaque Config.gradient : Nat → Nat → Nat → Nat

/-- The W1's own secrets and identities: the private key of its package key pair (R393), the identity public key that
boot derives from the wafer's fuses, and the digest of its boot ROM (17). -/
opaque Config.packageKey : Nat
opaque Config.identityPublic : List (BitVec 8)
opaque Config.romHash : List (BitVec 8)

/-- The signatures of the identity key and of the attestation key over an attestation report, by draw or index and message;
the measurement of a firmware image and the digest of the repair record, whose bytes the manual does not give; and the 512
bytes of the identity statement, by draw (17). -/
opaque Config.identitySig : Nat → List (BitVec 8) → BitVec 768
opaque Config.attestSig : Nat → List (BitVec 8) → BitVec 28256
opaque Config.imageHash : FwImage → BitVec 384
opaque Config.repairHash : List (Nat × Nat) → BitVec 384
opaque Config.identityStatement : Nat → BitVec 4096

/-- The HKDF salt with which a setup key is unwrapped (R583): R393 takes that of a manifest, and here there is none. -/
opaque Config.setupSalt : List (BitVec 8)

/-- Whether a lea (n) or a cluster (64 + q) aligns to the running frame marker as it leaves an L or C reset (R56); by draw and
unit. -/
opaque Config.aligns : Nat → Nat → Bool

/-- The set point of a cluster's rail as trimmed on its module, in millivolts (Table 14-18); by cluster. -/
opaque Config.setMv : Nat → Nat

/-- The first calibration of an array after programming inside a load (R205, R208); by draw and array. -/
opaque Config.firstFit : Nat → Nat → CalFit

/-- What the write-verify loop meets at a row that firmware programs (R214, R216); by draw, array and row. -/
opaque Config.rowOutcome : Nat → Nat → Nat → RowOutcome

/-- The 4-bit element of row r in canary vector k of an array (R205): what its seed draws; by array, k and r. -/
opaque Config.canary : Nat → Nat → Nat → BitVec 4

/-- How E is rounded to 2⁻¹⁶, where it lies between two codes: `true` for the upper one; and E where no canary of the array
expects an output (R208). -/
opaque Config.metricUp : Nat → Bool
opaque Config.metricNone : Nat → Nat

/-- The level of a cell of a reference pair (R179): by array, pair, row, and `true` for the plus cell; and the bytes of the
reserved rows 0 to 3, set at manufacture (R573): by array and row. -/
opaque Config.referenceLevel : Nat → Nat → Nat → Bool → Nat
opaque Config.factoryRow : Nat → Nat → BitVec 2048

/-- Whether the arrays of a position that becomes failed still read (R574); by draw and position. -/
opaque Config.arraysRead : Nat → Nat → Bool

/-- The bytes of a row of the record store, whose record formats the manual does not give (R573, R574): by array, row, and how
often the records that lie in it have been written. -/
opaque Config.recordRow : Nat → Nat → Nat → BitVec 2048

/-- What a monitor measures at the tick of a read where no command of the table brings its value; by draw or tick, and
monitor. -/
opaque Config.measured : Nat → Nat → Nat

/-- The doorbell key of a boot (R423). -/
opaque Config.dbKey : Nat → BitVec 32

end Sys2Proof
end

