-- ==== Sys2Proof/Machine/Maps.lean ====
section
/-! DEFINITION. Reading and writing a sparse store. A store is a list of (key, value) pairs in one canonical form:
keys strictly rising, and no pair whose value is what an unlisted key reads as. -/

namespace Sys2Proof

/-- The value listed for a key. -/
def Map.find {α : Type} (m : Map α) (k : Nat) : Option α :=
  match m with
  | [] => none
  | (a, x) :: r => if k = a then some x else Map.find r k

/-- The value of a key, `d` where none is listed. -/
def Map.get {α : Type} (d : α) (m : Map α) (k : Nat) : α := (Map.find m k).getD d

/-- Lists a value for a key, in order. -/
def Map.put {α : Type} (m : Map α) (k : Nat) (v : α) : Map α :=
  match m with
  | [] => [(k, v)]
  | (a, x) :: r =>
    if k < a then (k, v) :: (a, x) :: r else if k = a then (k, v) :: r else (a, x) :: Map.put r k v

/-- Takes a key out. -/
def Map.del {α : Type} (m : Map α) (k : Nat) : Map α :=
  match m with
  | [] => []
  | (a, x) :: r => if k = a then Map.del r k else (a, x) :: Map.del r k

/-- Gives a key a value, `d` being what an unlisted key reads as. -/
def Map.set {α : Type} [DecidableEq α] (d : α) (m : Map α) (k : Nat) (v : α) : Map α :=
  if v = d then Map.del m k else Map.put m k v

/-- The canonical form, with every key above `lo`. -/
def Map.wfFrom {α : Type} [DecidableEq α] (d : α) (lo : Option Nat) (m : Map α) : Bool :=
  match m with
  | [] => true
  | (a, x) :: r => (lo.all (fun l => decide (l < a))) && decide (x ≠ d) && Map.wfFrom d (some a) r

/-- The canonical form. -/
def Map.wf {α : Type} [DecidableEq α] (d : α) (m : Map α) : Bool := Map.wfFrom d none m

/-- Gives the keys from `k` on the values of a list. -/
def Map.setList {α : Type} [DecidableEq α] (d : α) (m : Map α) (k : Nat) (vs : List α) : Map α :=
  match vs with
  | [] => m
  | v :: r => Map.setList d (Map.set d m k v) (k + 1) r

/-- Takes out every key that a test names. -/
def Map.drop {α : Type} (m : Map α) (p : Nat → Bool) : Map α := m.filter (fun e => !p e.1)

/-- Changes every listed value whose key a test names. -/
def Map.mapOn {α : Type} [DecidableEq α] (d : α) (m : Map α) (p : Nat → Bool) (f : α → α) : Map α :=
  m.foldl (fun acc e => if p e.1 then Map.set d acc e.1 (f e.2) else acc) m

/-- The keys listed. -/
def Map.keys {α : Type} (m : Map α) : List Nat := m.map Prod.fst

end Sys2Proof
end

