-- ==== Sys2Proof/Machine/State.lean ====
section
/-! DEFINITION. The state of one W1 module: every register, row, queue, counter, mode and pin the manual gives it,
as plain data, and the queue of commands that wait. -/

namespace Sys2Proof.Machine

/-- Why a step can stop with a fault. -/
inductive Fault where
  /-- Raised by every meaning whose command names a unit that no W1 has (a core, cluster, lea, stack, fold, endpoint,
  link or port outside the numbers of 01_wafer_leas_clusters.md). Safe: the model stops where no hardware step exists. -/
  | noSuchUnit
deriving DecidableEq, Repr

/-- Why a step can be refused. -/
inductive Refusal where
  /-- Raised by the arm of a command that has no meaning yet. Safe: nothing is claimed of such a command. -/
  | notModelled (mnemonic : String)
deriving DecidableEq, Repr

/-- Event records (Table 16-3), kept by field; `Rec.encode` lays one out. Source kinds: 0 core, 1 cluster agent, 2 hub,
3 link, 4 module. -/
structure Rec where
  code  : Nat
  kind  : Nat
  src   : Nat
  fold  : Option Nat
  swath : Option Nat
  lost  : Bool
  time  : Nat
  p0    : Nat
  p1    : Nat
deriving DecidableEq, Repr

/-- A circular event log (R559): newest record first, the records overwritten, and how many of the newest have not been
looked at for the record stream (R560). -/
structure Log where
  recs : List Rec
  lapped : Nat
  unsent : Nat
deriving DecidableEq, Repr

/-! ### The compute core (03) -/

/-- The type tag of an accumulator (R93). -/
inductive AccTag where | none | int32 | fp32
deriving DecidableEq, Repr

/-- An MMA in the running or the waiting slot (R92): its accumulator, operand tiles and halves, the tick at which it
may start and, once it runs, the tick at which it ends; `grant` is the hardware leave request it waits for (R129). One
that is gated off (`off`) takes its time and changes nothing (R85). -/
structure Mma where
  kind  : MmaKind
  acc   : Nat
  tA    : Nat
  hiA   : Bool
  tB    : Nat
  hiB   : Bool
  ends  : Nat
  grant : Option Nat
  off   : Bool
deriving DecidableEq, Repr

/-- The register files of one core (Table 03-3). Keys are register numbers; an unlisted register holds zero. -/
structure Files where
  sreg : Map Word
  vreg : Map Vec
  preg : Map Word
  treg : Map Tile
  acc  : Map Tile
  tags : Map AccTag
deriving DecidableEq, Repr

/-- What a core waits for (R79, R106, R127, R130, R131, R135). `stileOff` is the wait of a STILE that is gated off, which began
at tick `at0` (R85). -/
inductive Wait where
  | none
  | issue
  | rows (q n dst : Nat)
  | acks (q dst : Nat)
  | leave (cls : Nat)
  | stile (id gen : Nat)
  | stileOff (id gen at0 : Nat)
  | swath (dst : Nat)
  | engine (call dst : Nat)
deriving DecidableEq, Repr

/-- A call as its core knows it (R133 to R135): the hub and engine called, and its status once completed. -/
structure CoreCall where
  lea    : Nat
  engine : Nat
  status : Option Nat
deriving DecidableEq, Repr

/-- One compute core. `ready` gives, by register code, the tick from which a bundle may read a register; `await` the
registers whose bank access or row has yet to be served. `leaves` names the grants (class, grant) that LEAVE.REQ asked for in
the core's name, or hardware for one of its operations (R129), and that it has not yet waited on (R127). `held` is the slot A
instruction of a bundle whose slot B instruction has yet to be given. `waitOff` says that the core waits for an instruction
that is gated off, which changes nothing when its wait ends (R85). -/
structure Core where
  files   : Files
  pc      : Nat
  entry   : Nat
  issueAt : Nat
  ready   : Map Nat
  await   : List Nat
  held    : Option Instr
  wait    : Wait
  waitOff : Bool
  faulted : Bool
  mmaRun  : Option Mma
  mmaWait : Option Mma
  lastEdge : Option Nat
  rowGrant : Option Nat
  calls   : Map CoreCall
  nextCall : Nat
  records : List Rec
  sentAt  : Option Nat
  covered : Map Nat
  sends   : Nat
  leaves  : List (Nat × Nat)
  joins   : Map Nat
deriving DecidableEq, Repr

/-! ### The cluster: scratchpad, arrays, side path (04, 05, 06) -/

/-- Agents on the banks, in the order of R144. -/
inductive Agent where
  | routerTimed
  | rotation (g : Nat)
  | accumulator (g : Nat)
  | core (j : Nat)
  | routerElastic
  | scrubber
deriving DecidableEq, Repr

/-- What an access does with its row. `port` is one of row `index` of an operation of the router port: a write of `data`, by
its writer, or a read where it has none. `result` is a row of the ARR.COLLECT that names the register of code `dst`. -/
inductive AccessOp where
  | toTile (t slice : Nat)
  | toVec (d : Nat)
  | toGroup (index : Nat)
  | toSend (pkt : Nat)
  | write (writer : Nat) (row : Row)
  | result (dst writer : Nat) (row : Row)
  | port (job index : Nat) (data : Option (Nat × Row))
deriving DecidableEq, Repr

/-- An access presented to a bank (R143): it competes at bank edge `edge`. `late` marks one
that has waited for a late timed row (R277). -/
structure Access where
  agent : Agent
  row   : Nat
  edge  : Nat
  op    : AccessOp
  fold  : Nat
  core  : Nat
  late  : Bool
deriving DecidableEq, Repr

/-- What stands against a stored row: bits of its 576 bytes that have turned over since it was written, the 512 data bytes
first and then the 64 check bytes (R139, R154, R155), or a change of its partition's class since (R153). A row holds the bytes
written and the check bytes that go with them, so these bits are all by which its physical bytes differ. -/
inductive RowErr where
  | flipped (bits : BitVec 4608)
  | unwritten
deriving DecidableEq, Repr

/-- What the router port does with the rows of one operation (Table 04-2): it reads the rows that a Q.PUT.WR sends, writes a
row of a slot send (`late` where the row was sent in a slot but came round a dead router), writes or reads the rows of a queue
request from elsewhere or of a request that came over a link, reads a data row of an engine call of hub `n` (`near` for the
cluster's own norm watch), or writes a row of a call that has ended: its call block row, the `last`, after the others. -/
inductive PortWork where
  | put (core k : Nat) (addr : Word)
  | slot (core : Nat) (late : Option Nat)
  | write (core k fold : Nat)
  | read (core k fold : Nat)
  | link
  | operand (n core number fold : Nat) (addr : Word) (near : Bool)
  | result (core number fold : Nat) (last : Option (Nat × Row))
deriving DecidableEq, Repr

/-- An operation of a cluster's router port: how many rows it has, how many are still to be served, and what was read. -/
structure PortJob where
  work : PortWork
  n    : Nat
  left : Nat
  rows : Map (Option Row)
deriving DecidableEq, Repr

/-- A writer tag (R171). -/
structure Tag where
  writer : Nat
  count  : Nat
deriving DecidableEq, Repr

/-- One place of a queue pair's inbound side: a row, or a place that counts as arrived without one (R312, R479). -/
structure InRow where
  row : Option Row
deriving DecidableEq, Repr

/-- A request put on a queue pair (R102, R103) or by the side path (R243). Its role: 0 a core's own, 1 a fetch of shadow
rows, 2 the place of a side job's delivery among the returns (R246). `got` counts the rows of a read that have landed. -/
structure QReq where
  tag   : Nat
  write : Bool
  addr  : Word
  n     : Nat
  data  : List Row
  core  : Nat
  role  : Nat
  launch : Nat
  gen   : Nat
  got   : Nat
deriving DecidableEq, Repr

/-- What a target has answered: the rows still to land, or a refusal with its cause (Table 13-4). -/
structure Answer where
  tag     : Nat
  rows    : List InRow
  refused : Option Nat
deriving DecidableEq, Repr

/-- One queue pair of a cluster (R104 to R107): requests not yet admitted, requests under way in request order, answers,
arrived rows, and the places taken on each side. -/
structure Queue where
  reqs  : List QReq
  flight : List QReq
  back  : List Answer
  inb   : List InRow
  owed  : Nat
  outb  : Nat
deriving DecidableEq, Repr

/-- The stages of a vector in its group. -/
inductive Stage where | issued | rotating | planes | accumulating | ready
deriving DecidableEq, Repr

/-- A sub-plane still to be driven: plane, first row, last row and whether it is a re-run half (R196, R197). -/
structure SubPlane where
  plane : Nat
  lo    : Nat
  hi    : Nat
  half  : Bool
  drive : Bool
deriving DecidableEq, Repr

/-- A vector of an array group, from ARR.ISSUE until it is collected (R115 to R122, R234 to R253). `id` is its number among the
requests of its side queue, drawn at acceptance; `left` the input rows still to be read; `driven` the value that each input
element drives; `asks` says that leave was to be asked for it while all 16 grants were held (R125); `raw` the weighted sum of
the conversions so far, by 512·i + column. -/
structure ArrVec where
  id      : Nat
  entry   : Nat
  core    : Nat
  fold    : Nat
  row0    : Nat
  issued  : Nat
  stage   : Stage
  accepted : Nat
  grant   : Option Nat
  asks    : Bool
  input   : Map Row
  left    : Nat
  lastRead : Nat
  badRow  : Bool
  notReady : Bool
  nonfinite : Bool
  e       : Int
  driven  : List Int
  strays  : Nat
  clipped : Bool
  redo    : Bool
  allZero : Bool
  subs    : List SubPlane
  planeT  : Nat
  raw     : List Int
  extra   : Nat
  nPlanes : Nat
  reruns  : Nat
  splits  : Nat
  overrun : Bool
  out     : List Nat
  normN   : Nat
  normFlag : Bool
  normRedo : Bool
  normFail : Bool
  ready   : Nat
deriving DecidableEq, Repr

/-- An array group (R120, R189): the vectors it holds, oldest first, the first tick at which it may accept again, and what
its accumulator still has to write, for each ARR.COLLECT: the core, its register code and the rows left (R121). -/
structure Group where
  vecs : List ArrVec
  next : Nat
  writing : List (Nat × Nat × Nat)
deriving DecidableEq, Repr

/-- What a job of the side path computes: the served strays, or the whole array part under REDO or REDO-DIGITAL. -/
inductive SideMode where | strays | redo | digital
deriving DecidableEq, Repr

/-- A job of the side path (R243 to R247): its elements, the fetches outstanding as (tag, element), the rows fetched by
4·element + index, and its header and term rows once they stand. -/
structure SideJob where
  id      : Nat
  group   : Nat
  entry   : Nat
  core    : Nat
  fold    : Nat
  accepted : Nat
  queue   : Nat
  mode    : SideMode
  started : Bool
  z       : List Nat
  e       : Int
  elems   : List Nat
  left    : List (Nat × Nat)
  rows    : Map Row
  fault   : Bool
  decided : Bool
  head    : Row
deriving DecidableEq, Repr

/-- The words of one array's calibration (R202). An unlisted column has γ = 16,384 and o = 0. -/
structure CalWords where
  gamma  : Map Nat
  offset : Map Int
  kappa  : Int
  tCal   : Int
deriving DecidableEq, Repr

/-- One sward array (R175 to R223): the level of each cell by 1,024·row + bit line, L_0 where unlisted (R175, R176). Its
state, wear and canary figures are in its registers. `driveBeat` is the guard beat in which slices of a calibration last
ran, with the plane periods that they took in it (R206). -/
structure Arr where
  cells   : Map Nat
  words   : CalWords
  staged  : Option CalWords
  due     : Option CalCause
  driven  : Nat
  driveBeat : Option (Nat × Nat)
  driveEnd : Nat
  lastCal : Nat
  fresh   : Bool
deriving DecidableEq, Repr

/-- A norm watch slot (Table 06-5): policy 0 OFF, 1 REPORT, 2 REDO-DIGITAL, 3 FAIL-ITEM; the running mean is FP32 bits. -/
structure NormSlot where
  policy  : Nat
  warmup  : Nat
  hi      : Nat
  lo      : Nat
  mean    : Nat
  left    : Nat
  state   : Nat
  triggers : Nat
deriving DecidableEq, Repr

/-- What a layer entry runs from: its numeric row and its column scales (R241). -/
structure LayerCopy where
  numeric : Row
  scale   : List Nat
deriving DecidableEq, Repr

/-- A timed row that a cluster of an exact-mode fold expects (R276, R277). -/
structure Arrival where
  flow     : Flow
  readable : Nat
  left     : List Nat
deriving DecidableEq, Repr

/-- One cluster: everything of it that is not a setup register. `coded` gives the class under which a row was last written
(`true` for the weight class); an unlisted row was never written and holds zeros, valid in both. `spoiled` names the rows that a
read found uncorrectable and that have not been written since (R158). `flight` lists bank and end of each access under way,
`used` the edge of the bank cycle that a bank last gave, `opens` the bank edge at which a partition opens (R164), `port` the
operations of the router port. `records` counts the writes of the cluster's own records (R574). -/
structure Cluster where
  rows    : Map Row
  err     : Map RowErr
  coded   : Map Bool
  spoiled : List Nat
  tags    : Map Tag
  count   : Nat
  access  : List Access
  flight  : List (Nat × Nat)
  used    : Map Nat
  port    : Map PortJob
  closing : List Nat
  filling : Map Nat
  opens   : Map Nat
  scrubbed : Nat
  queues  : Map Queue
  groups  : Map Group
  arrays  : Map Arr
  jobs    : List SideJob
  norm    : Map NormSlot
  layers  : Map LayerCopy
  arrivals : List Arrival
  overdraw : Nat
  overAt   : Nat
  droopAt  : Option Nat
  sensor   : Int
  tSwath   : Int
  hotSince : Option Nat
  coolSince : Option Nat
  hotAt    : Nat
  marked   : Bool
  regionOff : Bool
  coreFail : List Nat
  beatAt   : Nat
  testedOn : Bool
  steady   : Bool
  records  : Nat
deriving DecidableEq, Repr

/-! ### The fabric (07) -/

/-- What a packet on the bulk mesh is (R266, R280): a row of a slot send, a row of write data or a read request of a queue
pair; a returned row, an acknowledgement, and a refusal with its cause (Table 13-4); the refusal of a slot send (`dropped`). The
`link` kinds serve a request of another module between the hub of its link and its target; `windowRefusal` brings a refusal from
a link to the core that asked; `relay` crosses the module on the virtual channel of its frame. `hubRead` asks another hub's stack
for a data row of an engine call, `operand` brings such a row to its engine, and `result` is a row that an ended call writes (its
call block row is the `last`). -/
inductive PacketKind where
  | slot
  | queueWrite
  | queueRead
  | back
  | ack
  | refusal (cause : Nat)
  | dropped
  | linkRow
  | linkRead
  | linkBack
  | linkAck
  | linkRefusal (cause : Nat)
  | windowRefusal (cause : Nat)
  | relay (vc : Nat)
  | hubRead (addr : Word)
  | operand (addr : Word)
  | result (last : Bool)
deriving DecidableEq, Repr

/-- One packet on the bulk mesh: a row, or a request or answer without one. `srcCore` and `srcK` name the core and queue pair
whose request it serves, `tag` the request; `from_` is the tile of the port that sent it. `first`, `index` and `count` name
its destination rows; `start` is the slot of a timed send; `via` holds the tiles of a detour still to pass, `out` the port
that its route set gives it at this router; `atPort` says that it has reached the local port of its destination, `detour` that it
was a timed row before it was sent round a dead router (R542). -/
structure Packet where
  kind   : PacketKind
  plane  : Nat
  timed  : Bool
  from_  : Nat
  start  : Nat
  srcCore : Nat
  srcK   : Nat
  fold   : Nat
  route  : Option Nat
  dst    : Nat
  tile   : Nat
  inPort : Nat
  hops   : Nat
  entered : Nat
  launch : Option Nat
  first  : Nat
  index  : Nat
  count  : Nat
  tag    : Nat
  row    : Option Row
  held   : Bool
  via    : List Nat
  out    : Option Nat
  atPort : Bool
  detour : Bool
deriving DecidableEq, Repr

/-- One bulk router: the tick from which each output port and plane is free, the input port each served last on each
virtual channel, the tick at which a timed row last took it, the rows that its hold buffer keeps, whether it is dead and since
when, its override entries (destination tile, port), and when its control node last sent a heartbeat. -/
structure Router where
  cells : Map Nat
  served : Map Nat
  timedAt : Map Nat
  hold  : List Nat
  dead   : Bool
  deadAt : Nat
  overrides : List (Nat × Nat)
  beatAt : Nat
deriving DecidableEq, Repr

/-! ### The hub: arbiter, engines, serving (09, 10, 14) -/

/-- A grant in an arbiter's calendar (R124, R492). Its span has `frames` phase frames and ends at `ends`, as lengthened by the
bubble ticks that each named core has taken since its start (R490). -/
structure Grant where
  id     : Nat
  cls    : Nat
  q      : Nat
  mask   : Nat
  units  : Nat
  wanted : Nat
  start  : Nat
  ends   : Nat
  frames : Nat
  begun  : Bool
  bank   : Option Nat
  bubbles : Map Nat
deriving DecidableEq, Repr

/-- When a heavy operation for which hardware asks leave may begin: at a tick of a grid of `period` ticks from `base` on, at
least `lead` ticks after the grant's start; `busy` is its busy time (R129). -/
structure Begin where
  busy   : Nat
  base   : Nat
  period : Nat
  lead   : Nat
deriving DecidableEq, Repr

/-- A leave request that waits for placement (R123, R129, R494). Where hardware asks for an operation, `op` gives its span
instead of `span`. -/
structure LeaveReq where
  id     : Nat
  cls    : Nat
  q      : Nat
  mask   : Nat
  units  : Nat
  span   : Nat
  offset : Nat
  asked  : Nat
  bank   : Option Nat
  op     : Option Begin
deriving DecidableEq, Repr

/-- The power arbiter of a lea (R492 to R494). `notBefore` is the bound that a lifted freeze sets (R503); `firsts` holds
the clusters and classes whose first grant after the last release is placed (R292). -/
structure Arbiter where
  waiting : List LeaveReq
  placed  : List Grant
  notBefore : Nat
  firsts  : List (Nat × Nat)
deriving DecidableEq, Repr

/-- A call at an engine (R319 to R324): `reply` is set once the function has run. -/
structure EngReply where
  status : Nat
  units  : Nat
  result : List Row
  at0    : Nat
  state  : List Row
  stateAt : Nat
  tagBytes : Option Nat
deriving DecidableEq, Repr

/-- A call that a hub engine holds. With `early` its reply was formed at admission: it ends without being served, or is a
steward's check. `hub` is the engine's hub; `asked` names the data rows that it has asked for, by remote address (Table 03-11). -/
structure EngCall where
  hub    : Nat
  core   : Nat
  number : Nat
  engine : Nat
  fn     : Nat
  at0    : Nat
  fold   : Nat
  block  : Row
  admitted : Nat
  reply  : Option EngReply
  server : Nat
  steward : Bool
  early  : Bool
  asked  : List Word
deriving DecidableEq, Repr

/-- A data row of an engine call that has come to the hub, or could not be delivered. -/
structure Fetched where
  core   : Nat
  number : Nat
  addr   : Word
  row    : Option Row
deriving DecidableEq, Repr

/-- A crypto key slot (R350): its owning fold, or none for the firmware, and its key. -/
structure KeySlot where
  owner : Option Nat
  key   : List (BitVec 8)
deriving DecidableEq, Repr

/-- A KV pool (Table 10-11): its region or partition, its frames as runs (first, count), and the reference counts of its
frames (R374); an unlisted frame has count zero. -/
structure Pool where
  scratch : Bool
  unit    : Nat
  index   : Nat
  runs    : List (Nat × Nat)
  counts  : Map Nat
deriving DecidableEq, Repr

/-- A look-aside entry of the page walker (R347). -/
structure Lookaside where
  entry : Nat
  gen   : Nat
  page  : Nat
  pte   : Word
deriving DecidableEq, Repr

/-- A sampler profile (Table 10-6). -/
structure Profile where
  temp   : Nat
  topP   : Nat
  topK   : Nat
  countIn : Bool
  countOut : Bool
  rho    : Nat
  alphaF : Nat
  alphaP : Nat
deriving DecidableEq, Repr

/-- One lea hub: everything of it that is not a setup register. `fetched` holds the data rows of the calls at its engines, and
`wants` those that an engine lacks in the call that it takes up. -/
structure Hub where
  arb      : Arbiter
  arriving : List EngCall
  engines  : Map (List EngCall)
  fetched  : List Fetched
  wants    : List Word
  tokens   : Map TokTable
  keys     : Map KeySlot
  pools    : Map Pool
  walker   : List Lookaside
  profiles : Map Profile
  nextProfiles : Map Profile
  log      : Log
  sensors  : Map Int
  failedSensors : List Nat
  stopped  : Bool
  dead     : Bool
  phasesOut : List Nat
deriving DecidableEq, Repr

/-- Where a request to a stack comes from (R302, R303): a queue pair of a cluster, a link, by the tag of its transit, an engine
of hub `n` for a call, or the weight codec. -/
inductive ReqFrom where
  | queue (q k : Nat)
  | link (tag : Nat)
  | engine (n core number fold : Nat)
  | codec
deriving DecidableEq, Repr

/-- A request that has reached the hub of a stack. -/
structure StackReq where
  source : ReqFrom
  req  : QReq
deriving DecidableEq, Repr

/-- The bits of a stored row of a stack that have turned over: the 512 data bytes first and then the 10 check bits of each 32-byte
word of an activation-class row (R309). In a weight-class region the data bytes, and those of the check rows, are the symbols of
its codewords (R310). -/
abbrev StackErr := BitVec 4256

/-- One memory stack (08): its rows, the errors that its codes meet, what waits for the controller, whose turn it is, and the
rows that showed errors in the last second as (die, row, tick). -/
structure Stack where
  rows   : Map Row
  err    : Map StackErr
  remote : List StackReq
  agents : List StackReq
  turn   : Nat
  left   : Nat
  queueTurn : Map Nat
  busy   : Map Nat
  temps  : List Nat
  sensor : Int
  sensorDead : Bool
  exitAt : Option Nat
  errRows : List (Nat × Nat × Nat)
  failedDies : List Nat
  scrubbed : Nat
deriving DecidableEq, Repr

/-! ### Folds and serving (02, 10) -/

/-- The phase a fold's swath is in (Table 02-4). -/
inductive Phase where | idle | opened | run | drain | guard
deriving DecidableEq, Repr

/-- A batch record (Table 10-3): the request entry with its tag, the item's ring sequence and kind. `overflow` tells that a
gradient norm submitted for it was not finite (R257, R356). -/
structure BatchItem where
  entry : Nat
  gen   : Nat
  seq   : Nat
  ep    : Nat
  kind  : Nat
  status : Option Nat
  overflow : Bool
deriving DecidableEq, Repr

/-- Why a struck fold is being re-placed, and since when (R546 to R556). -/
structure Replacing where
  cause : Nat
  since : Nat
  lost  : List Nat
  picks : List (Nat × Nat)
  waits : Bool
deriving DecidableEq, Repr

/-- One fold: everything of it that is not a setup register. `owed` holds the endpoints whose OUTPUT entry of a swath is not
written yet, with the streams written, that swath, and whether it was late; `formed` says that the batch of the swath at
`nextBeat` stands; `markers` holds the step markers received, each with its kind (0 JOIN, 1 DRAINED, 2 ARMED) and the tick of
its arrival, the fold's own ARMED among them; `lateFor` is the boundary by which a swath is numbered that opens after it (R472).
-/
structure Fold where
  image    : Option Image
  phase    : Phase
  swath    : Nat
  edgeBeat : Nat
  tick0    : Nat
  drainAt  : Nat
  guardEnd : Nat
  late     : Bool
  failed   : Bool
  drained  : Bool
  gens     : Map Nat
  lastJoin : Map Nat
  release  : Nat
  batch    : List BatchItem
  owed     : List (Nat × Nat × Nat × Bool)
  formed   : Bool
  nextBeat : Nat
  recorded : List (Nat × Nat × Nat)
  replacing : Option Replacing
  rearm    : Bool
  markers  : List (Nat × Nat × Marker)
  relayed  : List (Nat × Nat × Nat × Nat × Nat)
  frozen   : Nat
  lateFor  : Option Nat
deriving DecidableEq, Repr

/-- A request table entry (Table 10-1) and the stream's output bookkeeping (R440, R441). `parent` is the stream whose prefix the
entry is yet to share, by its handle, with the length (R379); `lost` says that it has entered FAILED (R362). -/
structure Entry where
  state    : Nat
  priority : Nat
  outMode  : Nat
  evicted  : Bool
  draft    : Bool
  gen      : Nat
  model    : Nat
  adapter  : Nat
  c        : Nat
  tent     : Nat
  ptBase   : Word
  ptCap    : Nat
  linked   : Nat
  profile  : Nat
  deadline : Nat
  seed     : Nat
  counts   : Map (Nat × Nat × Nat)
  countPage : Nat
  seq      : Nat
  ep       : Nat
  fold     : Nat
  pages    : Map Word
  parent   : Option (Nat × Nat)
  lost     : Bool
  bufVa    : Nat
  bufKey   : Nat
  bufLen   : Nat
  credit   : Nat
  produced : Nat
  consumed : Nat
  tokens   : Nat
  carry    : List (BitVec 8)
  closed   : Option Nat
deriving DecidableEq, Repr

/-- The mirror of a request entry (12, Replay): the entry at its last commit, that swath's output and where it lies in
the stream, the sequence of the item that produced it, and the finals of completed
items as (ring sequence, status, value). `late` and `told` say whether that swath was late and whether its OUTPUT entry is
written, if it has one. -/
structure Mirror where
  entry  : Entry
  swath  : Nat
  data   : List (BitVec 8)
  offset : Nat
  byItem : Nat
  finals : List (Nat × Nat × Nat)
  late   : Bool
  told   : Bool
deriving DecidableEq, Repr

/-- An accepted item (R431): its descriptor, the time and completion sequence of its ACCEPT, how far it has come, the status
that swaths already committed have given it (R435), its input, and, once it is decided, the status, swath and handle of the
final that is owed. -/
structure Item where
  seq     : Nat
  opcode  : Nat
  flags   : Nat
  desc    : BitVec 512
  at0     : Nat
  cseq    : Nat
  begun   : Bool
  left    : Nat
  value   : Nat
  placed  : Bool
  status  : Option Nat
  data    : List (BitVec 32)
  fin     : Option (Nat × Nat × Nat)
deriving DecidableEq, Repr

/-- A completion entry (Table 12-7); `CEntry.encode` lays it out. -/
structure CEntry where
  kind   : Nat
  status : Nat
  replayed : Bool
  carried : Bool
  opcode : Nat
  c      : Nat
  seq    : Nat
  handle : Nat
  floor  : Nat
  swath  : Nat
  value  : Nat
  phase  : Bool
deriving DecidableEq, Repr

/-- One endpoint (12). The fields marked N of Tables 12-13 and 12-14 live here, because a selector shows them. `ring` is the
completion ring in client memory, by slot; `due` the descriptor handled last with the status of its checks, zero where all
passed; `headSeen` says that replay has written what it owes. -/
structure Endpoint where
  cfg     : Word
  subVa   : Word
  cmpVa   : Word
  keys    : Word
  isOpen  : Bool
  state   : Nat
  nextSub : Nat
  nextCmp : Nat
  head    : Nat
  tail    : Nat
  headSeen : Bool
  due     : Option (BitVec 512 × Nat)
  items   : List Item
  ring    : Map CEntry
  resumeClass : Nat
  badPeriod : Option Nat
  link    : Nat
deriving DecidableEq, Repr

/-- What the W1 has written to client memory or sent out, newest first. -/
inductive Out where
  | write (ep va key : Nat) (data : List (BitVec 8))
  | entry (ep : Nat) (e : CEntry)
  | fetch (ep va key len : Nat)
  | report (kind : Nat) (data : List (BitVec 8))
  | records (n : Nat) (first : Nat) (recs : List Rec)
  | frame (port link : Nat) (bytes : List (BitVec 8))
  | marker (f kind stile gen swath stamp : Nat)
  | announce (modules : List Nat) (id gen rows : Nat)
  | heartbeat (tile : Nat) (router cluster : Nat)
  | access (path : Path) (addr : Nat) (ok : Bool)
  | swathOut (f : Nat) (t : Nat)
deriving DecidableEq, Repr

/-- A tensor of a copy where it was placed (Table 11-6): its cluster, its named group with depth and array mask, its first
row in scratchpad, and the stack, region and first row of its copy there; `data` is what the package source holds. -/
structure Placed where
  kind    : Nat
  layer   : Nat
  cluster : Nat
  analog  : Option (Nat × Nat × Nat)
  scratch : Option Nat
  master  : Option Nat
  stack   : Nat
  region  : Nat
  row     : Nat
  data    : List Row
deriving DecidableEq, Repr

/-- A copy of a model (R404): its fold, version and manifest hash, whether it is placed digitally, its page geometry, the
model that drafts for it, its tensors, and the tokeniser slots it loaded. -/
structure Copy where
  fold    : Nat
  version : Nat
  hash    : List (BitVec 8)
  digital : Bool
  g       : Nat
  ppp     : Nat
  paired  : Nat
  tensors : List Placed
  tables  : List Nat
deriving DecidableEq, Repr

/-- A model record (Table 11-11) with the copies it stands for: the current one, the new version that is building or READY, and
the older ones that retire, the newest first. `unload` and `loading` name the items (endpoint, sequence) that its retirement and
its load will complete; `lambda` and `clean` are the loss-scale exponent of an adapter and its clean steps (R257). -/
structure Model where
  state   : Nat
  adapter : Bool
  waiting : Bool
  cur     : Copy
  next    : Option Copy
  old     : List Copy
  ident   : Nat
  base    : Nat
  unload  : List (Nat × Nat)
  loading : Option (Nat × Nat)
  lambda  : Int
  clean   : Nat
deriving DecidableEq, Repr

/-- A rebuild under way (R405, R406): a named group of a cluster and the physical group that is to stand behind it; none
while it waits for one. -/
structure Rebuild where
  q     : Nat
  named : Nat
  phys  : Option Nat
deriving DecidableEq, Repr

/-! ### Links and windows (13) -/

/-- What waits to be sent on a port: a data frame of a virtual channel (kind 1) or a step marker (kind 2), and its
payload. -/
structure Tx where
  kind    : Nat
  vc      : Nat
  payload : List (BitVec 8)
deriving DecidableEq, Repr

/-- A frame in a port's replay buffer (R459): the link that last carried it, and when it was first sent. -/
structure Frame where
  seq   : Nat
  link  : Nat
  first : Nat
  tx    : Tx
deriving DecidableEq, Repr

/-- A Skeltin port (R457 to R463): what waits to be sent, the replay buffer, the sequence numbers, whether frames are being
discarded until a failed one comes again, the credits it holds and those it owes by virtual channel, the frames that came ahead
of their order with the link that carried them, and the packet of each channel that has begun. `turn` says that VC0 is served
next. -/
structure Port where
  waiting : List Tx
  replay  : List Frame
  txSeq   : Nat
  rxSeq   : Nat
  dropping : Bool
  credits : Map Nat
  owed    : Map Nat
  ahead   : Map (Nat × List (BitVec 8))
  parts   : Map (List (BitVec 8))
  turn    : Bool
  nextLink : Nat
deriving DecidableEq, Repr

/-- The mode and port in force on a link: a write takes effect at the next K reset (R453). `kReset` is the cause code and
beat of a K reset that its training will end. -/
structure Link where
  mode : Nat
  port : Nat
  trainAt : Nat
  idled : Bool
  kReset : Option (Nat × Nat)
deriving DecidableEq, Repr

/-- A window the module owns (R474 to R478). -/
structure Window where
  isOpen  : Bool
  fold    : Nat
  gen     : Nat
  rows    : Nat
  target  : WinDecl
  closing : Bool
  opened  : Nat
deriving DecidableEq, Repr

/-- A row packet of a link as its port delivered it: the port, the lea of the link, and the packet. -/
structure Inbound where
  port   : Nat
  lea    : Nat
  header : RowHeader
  row    : Row
deriving DecidableEq, Repr

/-- A request that came over a link, on its way through the module: the port by which its answers go back, the hub at which it
entered, its header, the fold that it acts for, its target (none for a slot send), how many of its rows have yet to come over the
link and to be answered, and what has reached the target's hub. For a packet that is only relayed (`relay`) port and hub are those
by which it leaves. -/
structure Transit where
  port   : Nat
  lea    : Nat
  header : RowHeader
  fold   : Nat
  target : Option WinDecl
  come   : Nat
  left   : Nat
  rows   : List Row
  relay  : Bool
deriving DecidableEq, Repr

/-- A request that the module relays (R465): the ports by which it came and left, its core and its tag. -/
structure Relay where
  inPort  : Nat
  outPort : Nat
  src     : Nat
  tag     : Nat
deriving DecidableEq, Repr

/-- A remote window entry (R476). -/
structure RemoteWin where
  owner : Nat
  gen   : Nat
  rows  : Nat
deriving DecidableEq, Repr

/-! ### Time, power, heat, boot -/

/-- Device time (02): the time `atNs` in nanoseconds held on tick `atTick`, whether the written TAI second is fresh, and
what the lock rules count. -/
structure Time where
  atTick   : Nat
  atNs     : Nat
  mayStep  : Bool
  fresh    : Bool
  goodSince : Option Nat
  lastEdge : Option Nat
  lastSync : Option Nat
  onBoard  : Bool
deriving DecidableEq, Repr

/-- The power chain of the module (14) as its input monitor and comparators see it. `beats` holds the input power of up to
1,000,000 beats, newest first, in units of 10 mW; `frozenAt`, `quietAt` and `goodAt` say since when the supply is frozen,
quiesced, and good again; `chargeAt` when the 400 V input appeared. -/
structure Power where
  chargeAt : Option Nat
  beats    : List Nat
  frozenAt : Option Nat
  quietAt  : Option Nat
  goodAt   : Option Nat
  samples  : Map (List Nat)
  stopHeld : Bool
deriving DecidableEq, Repr

/-- Heat and coolant (15): reports, sensors, the governor and a stop's causes. -/
structure Thermal where
  trayAt   : Option Nat
  inletS   : Int
  outletS  : Int
  inletDead : Bool
  outletDead : Bool
  heating  : Option Nat
  holdGood : Option Nat
  stopAt   : Option Nat
  causes   : List Sensor
  governor : Bool
  derated  : Nat
deriving DecidableEq, Repr

/-- The module records (R574, R575): the sequence number of the last write, and the cluster positions whose arrays hold each
of the four copies. -/
structure RecordStore where
  seq    : Nat
  copies : List (List Nat)
deriving DecidableEq, Repr

/-- Boot control, images, identity and keys (17). -/
structure Sec where
  slotA    : Option FwImage
  slotB    : Option FwImage
  attemptsA : Nat
  attemptsB : Nat
  badA     : Bool
  badB     : Bool
  stagedB  : Option Bool
  transfer : Option Bool
  identity : Bool
  signers  : Map (List (BitVec 8))
  setupKeys : Map (List (BitVec 8) × Nat)
  reserved : Nat
  tree     : Nat
  attesting : Option (List (BitVec 8))
  update   : Nat
  i3c      : Option Nat
  halted   : Bool
deriving DecidableEq, Repr

/-- What the restore report names (Table 18-4): its sequence, and for a P or W reset its class, cause and first beat. `was`
holds what the reset took from settings of the classes of Table 18-5, and the masks what it took besides. `bootAt` is the
tick from which the boot counts, `standbyFolds` the folds that entry to Standby stopped, `leaveBeat` the beat at which the
return from it began; `inReset` lasts until READY. -/
structure Restore where
  seq   : Nat
  bootClass : Nat
  bootCause : Nat
  bootBeat : Nat
  was : Map Word
  defaulted : Nat
  rebuilt : Nat
  lost : Nat
  bootAt : Nat
  standbyFolds : List Nat
  leaveBeat : Nat
  inReset : Bool
deriving DecidableEq, Repr

/-- The whole module. `pending` is the queue of commands that wait, first in, first out; `blanked` names the entries whose words
SRV_REQ_DATA_w an L reset has cleared since the last formation (R11); `inbox` holds the window requests and refusals that ports
have delivered and that have not been handled, `transits` the requests of links under way by their tag, `relays` those that the
module relays, `early` the step markers of blocks that it does not know yet, each with its kind and arrival. `fresh` counts the
free values drawn so far; it is the model's own field, and no statement rests on its value. So is `funcs`, the codes of the
core's instructions, which the manual does not list: the class, the place of the instruction among those of its class, and its
func. -/
structure State where
  pending   : List Instr
  funcs     : List (Nat × Nat × Nat)
  now       : Nat
  fresh     : Nat
  nextTag   : Nat
  regs      : Map Word
  positions : Map Nat
  time      : Time
  cores     : Map Core
  clusters  : Map Cluster
  routers   : Map Router
  packets   : Map Packet
  hubs      : Map Hub
  drams     : Map Stack
  folds     : Map Fold
  entries   : Map Entry
  mirrors   : Map Mirror
  shown     : Map Entry
  blanked   : List Nat
  endpoints : Map Endpoint
  models    : Map Model
  rebuilds  : List Rebuild
  links     : Map Link
  ports     : Map Port
  windows   : Map Window
  remotes   : Map RemoteWin
  inbox     : List Inbound
  transits  : Map Transit
  relays    : List Relay
  early     : List (Nat × Nat × Marker)
  power     : Power
  thermal   : Thermal
  sec       : Sec
  store     : RecordStore
  restore   : Restore
  globalLog : Log
  streamed  : Nat
  out       : List Out
deriving DecidableEq, Repr

/-! ### What a part that is not listed holds: its state after reset -/

def Files.reset : Files := ⟨[], [], [], [], [], []⟩

def Core.reset : Core :=
  { files := Files.reset, pc := 0, entry := 0, issueAt := 0, ready := [], await := [], held := none, wait := .none, waitOff := false,
    faulted := false, mmaRun := none, mmaWait := none, lastEdge := none, rowGrant := none, calls := [],
    nextCall := 0, records := [], sentAt := none, covered := [], sends := 0, leaves := [], joins := [] }

def Queue.reset : Queue := { reqs := [], flight := [], back := [], inb := [], owed := 0, outb := 0 }

def Group.reset : Group := { vecs := [], next := 0, writing := [] }

def CalWords.reset : CalWords := { gamma := [], offset := [], kappa := 0, tCal := 25 }

def Arr.reset : Arr :=
  { cells := [], words := CalWords.reset, staged := none, due := none, driven := 0, driveBeat := none,
    driveEnd := 0, lastCal := 0, fresh := false }

def NormSlot.reset : NormSlot :=
  { policy := 0, warmup := 0, hi := 0, lo := 0, mean := 0, left := 0, state := 0, triggers := 0 }

def LayerCopy.reset : LayerCopy := { numeric := 0, scale := [] }

def Cluster.reset : Cluster :=
  { rows := [], err := [], coded := [], spoiled := [], tags := [], count := 0, access := [],
    flight := [], used := [], port := [], closing := [], filling := [], opens := [], scrubbed := 0,
    queues := [], groups := [], arrays := [], jobs := [], norm := [], layers := [], arrivals := [], overdraw := 0, overAt := 0,
    droopAt := none, sensor := 200, tSwath := 25, hotSince := none, coolSince := none, hotAt := 0, marked := false,
    regionOff := false, coreFail := [], beatAt := 0, testedOn := false, steady := false, records := 0 }

def Router.reset : Router := { cells := [], served := [], timedAt := [], hold := [], dead := false, deadAt := 0, overrides := [], beatAt := 0 }

def Log.reset : Log := ⟨[], 0, 0⟩

def Arbiter.reset : Arbiter := { waiting := [], placed := [], notBefore := 0, firsts := [] }

def Hub.reset : Hub :=
  { arb := Arbiter.reset, arriving := [], engines := [], fetched := [], wants := [], tokens := [], keys := [], pools := [], walker := [],
    profiles := [], nextProfiles := [], log := Log.reset, sensors := [], failedSensors := [], stopped := false, dead := false,
    phasesOut := [] }

/-- The greedy default of a profile that holds no written value (R384): ρ and top_p are 1.0 in FP32. -/
def Profile.reset : Profile :=
  { temp := 0, topP := 0x3F800000, topK := 1, countIn := false, countOut := true, rho := 0x3F800000, alphaF := 0,
    alphaP := 0 }

def Stack.reset : Stack :=
  { rows := [], err := [], remote := [], agents := [], turn := 0, left := 0, queueTurn := [],
    busy := [], temps := [], sensor := 200, sensorDead := false, exitAt := none, errRows := [],
    failedDies := [], scrubbed := 0 }

def Fold.reset : Fold :=
  { image := none, phase := .idle, swath := 0, edgeBeat := 0, tick0 := 0, drainAt := 0, guardEnd := 0, late := false,
    failed := false, drained := false, gens := [], lastJoin := [], release := 0, batch := [], owed := [],
    formed := false, nextBeat := 0, recorded := [], replacing := none, rearm := false, markers := [], relayed := [],
    frozen := 0, lateFor := none }

def Entry.reset : Entry :=
  { state := 0, priority := 0, outMode := 0, evicted := false, draft := false, gen := 0, model := 0, adapter := 0, c := 0,
    tent := 0, ptBase := 0, ptCap := 0, linked := 0xFFFF, profile := 0, deadline := 0, seed := 0, counts := [],
    countPage := 0, seq := 0, ep := 0, fold := 0, pages := [], parent := none, lost := false, bufVa := 0, bufKey := 0, bufLen := 0,
    credit := 0, produced := 0, consumed := 0, tokens := 0, carry := [], closed := none }

def Endpoint.reset : Endpoint :=
  { cfg := 0, subVa := 0, cmpVa := 0, keys := 0, isOpen := false, state := 0, nextSub := 0, nextCmp := 0, head := 0,
    tail := 0, headSeen := false, due := none, items := [], ring := [],
    resumeClass := 0, badPeriod := none, link := 0 }

def Copy.reset : Copy :=
  { fold := 0, version := 0, hash := [], digital := false, g := 1, ppp := 1, paired := 0, tensors := [], tables := [] }

def Model.reset : Model :=
  { state := 0, adapter := false, waiting := false, cur := Copy.reset, next := none, old := [], ident := 0, base := 0,
    unload := [], loading := none, lambda := 0, clean := 0 }

def Port.reset : Port :=
  { waiting := [], replay := [], txSeq := 0, rxSeq := 0xFFFF, dropping := false, credits := [], owed := [], ahead := [],
    parts := [], turn := false, nextLink := 0 }

/-- Links 8·e + 7 are Ethernet, the rest Skeltin (Table 13-2): the mode and port a link has when nothing was written. -/
def Link.reset (l : Nat) : Link :=
  let e := l / 8
  let torus := (if e = 3 ∨ e = 4 then 0 else if e = 9 ∨ e = 10 then 1 else if e = 6 ∨ e = 7 then 2
    else if e = 0 ∨ e = 1 then 3 else if e = 2 ∨ e = 5 then 4 else 5)
  if l % 8 = 7 then { mode := 2, port := 6 + e, trainAt := 0, idled := false, kReset := none }
  else { mode := 1, port := torus, trainAt := 0, idled := false, kReset := none }

def Time.reset : Time :=
  { atTick := 0, atNs := 0, mayStep := true, fresh := false, goodSince := none, lastEdge := none, lastSync := none,
    onBoard := true }

def Power.reset : Power :=
  { chargeAt := none, beats := [], frozenAt := none, quietAt := none,
    goodAt := none, samples := [], stopHeld := false }

def Thermal.reset : Thermal :=
  { trayAt := none, inletS := 400, outletS := 400, inletDead := false, outletDead := false,
    heating := none, holdGood := none, stopAt := none, causes := [], governor := false,
    derated := 0 }

/-- Copy c lies in the first four positions of bus segment c. -/
def RecordStore.reset : RecordStore := { seq := 0, copies := (List.range 4).map (fun c => (List.range 4).map (fun k => 384 * c + k)) }

/-- The image a module is shipped with: slot A holds one that verifies (DESIGN CHOICE, log entry 5). -/
def Sec.reset : Sec :=
  { slotA := some { version := 1, numeric := 1, svn := 0, keysOk := true, ecdsaOk := true, hssOk := true, bodyOk := true },
    slotB := none, attemptsA := 0, attemptsB := 0, badA := false, badB := false, stagedB := none, transfer := none,
    identity := false, signers := [], setupKeys := [], reserved := 0, tree := 0, attesting := none,
    update := 0, i3c := none, halted := false }

def Restore.reset : Restore :=
  { seq := 0, bootClass := 1, bootCause := 0, bootBeat := 0, was := [], defaulted := 0, rebuilt := 0, lost := 0, bootAt := 0,
    standbyFolds := [], leaveBeat := 0, inReset := true }

/-- The exposure map of a shipped module whose 1,536 positions are all good: R32 makes cluster 23 of leas 32 to 63 spare
(2). Unlisted positions are exposed (1). DESIGN CHOICE, log entry 3. -/
def shippedPositions : Map Nat := (List.range 32).map (fun i => (24 * (32 + i) + 23, 2))

/-- The module right after a P reset with no supply at its connector (R588, Table 14-6): every setup register at its
reset value, nothing in any queue, no command waiting. Boot has not run. -/
def State.reset : State :=
  { pending := [], funcs := Config.funcs, now := 0, fresh := 0, nextTag := 1, regs := [], positions := shippedPositions, time := Time.reset,
    cores := [], clusters := [], routers := [], packets := [], hubs := [], drams := [], folds := [], entries := [],
    mirrors := [], shown := [], blanked := [], endpoints := [], models := [], rebuilds := [], links := [], ports := [], windows := [],
    remotes := [], inbox := [], transits := [], relays := [], early := [], power := Power.reset, thermal := Thermal.reset,
    sec := Sec.reset, store := RecordStore.reset, restore := Restore.reset,
    globalLog := Log.reset, streamed := 0, out := [] }

end Sys2Proof.Machine
end

