-- ==== Sys2Proof/Machine/Regs.lean ====
section
/-! DEFINITION. The setup registers: where each lies (Table 00-5), and the fields of each with their access, reset value
and the reset classes that clear them, as the register tables of the manual give them. -/

namespace Sys2Proof.Machine

/-- The register names of the manual, without their index suffix. -/
inductive Reg where
  | cluCoreMap | glbLeaMap | glbClusterCount | timSrcCtl | timStatus | timBeat
  | timPpsTai | timAlignStatus | timFoldCfg | timFoldStat | timFoldCnt | glbNumericProfile
  | cluCoreFault | cluPartBanks | cluPartCfg | cluSpEcc | cluBankPower | cluBankPending
  | cluSpContract | cluArrLayerCfg | cluArrLayerSeed | cluArrLayerNum | cluArrState | cluArrWear
  | cluArrStat | cluArrCalCtl | cluArrCalSel | cluArrCalData | cluNumStat | cluSideStat
  | cluNormSel | cluNormData | cluRtrRsv | cluRtrOwner | cluFabContract | cluFabRefused
  | cluRtrSet | timFoldHedge | hubStkStatus | hubStkEcc | hubStkLastErr | hubStkArb
  | hubStkRegion | hubStkRegionCfg | hubEngCnt | hubEngErr | hubTokTable | hubTokFold
  | srvReqSel | srvReqData | srvStat | hubKvPool | wgtCtl | wgtModelSel
  | wgtModelData | wgtStat | cluArrGroupMap | cliEpSel | cliEpCfg | cliEpSubVa
  | cliEpCmpVa | cliEpKeys | cliEpState | cliEpCmpPos | cliDbKey | cliStat
  | lnkCfg | lnkStatus | lnkCnt | lnkFec | lnkTorus | lnkPort
  | lnkFold | lnkWinSel | lnkWinData | lnkWinStat | pwrStatus | pwrInput
  | pwrLimit | pwrSeg | pwrEvtCnt | pwrIlogSel | pwrIlogData | pwrIlogHead
  | hubPwrBudget | hubPwrArb | hubPwrRail | cluPwrCfg | cluPwrState | cluPwrVmin
  | cluPwrVminTs | cluPwrCnt | thmCfg | thmCoolant | thmMeas | thmStatus
  | thmStopClr | thmSlew | thmCnt | thmFoldMode | cluThm | hubThm
  | fltLogSel | fltLogData | fltLogStat | fltStreamCfg | fltStreamAddr | fltStreamStat
  | fltReserve | fltReplaceStat | glbBootStatus | glbSeal | secCmd | secStatus
  | secFw | secFwStaged | secAttest | secKeybuf | glbResetCtl | glbResetCause
  | glbLpCtl | glbLpStatus | glbRestore | glbLpOff | glbSwathOut
deriving DecidableEq, Repr

/-- The blocks in which registers repeat: once in the module, per link, per hub, per cluster, or per router
(a cluster tile, or a hub tile as unit 1,536 + n). -/
inductive Scope where | glob | link | hub | cluster | router
deriving DecidableEq, Repr

/-- The access codes of Table 00-6. -/
inductive Acc where | rw | ro | w1c | wo | rws | lck
deriving DecidableEq, Repr

/-- A field of a register: lowest bit, width, access, reset value, and the reset classes that clear it as a mask
(1 P, 2 W, 4 L, 8 C, 16 F, 32 K; 0 for N, and for a field whose reset value is the record it already shows). -/
structure FieldDesc where
  lo    : Nat
  width : Nat
  acc   : Acc
  reset : Nat
  cls   : Nat
deriving DecidableEq, Repr

/-- A register's scope, offset of its first instance in its block, stride and number of instances. -/
structure Place where
  scope  : Scope
  base   : Nat
  stride : Nat
  count  : Nat
deriving DecidableEq, Repr

def Reg.place : Reg → Place
  | .cluCoreMap => ⟨.cluster, 0x10, 8, 1⟩
  | .glbLeaMap => ⟨.glob, 0x400, 8, 64⟩
  | .glbClusterCount => ⟨.glob, 0x600, 8, 1⟩
  | .timSrcCtl => ⟨.glob, 0x10000, 8, 1⟩
  | .timStatus => ⟨.glob, 0x10008, 8, 1⟩
  | .timBeat => ⟨.glob, 0x10010, 8, 1⟩
  | .timPpsTai => ⟨.glob, 0x10018, 8, 1⟩
  | .timAlignStatus => ⟨.glob, 0x10020, 8, 1⟩
  | .timFoldCfg => ⟨.glob, 0x11000, 32, 256⟩
  | .timFoldStat => ⟨.glob, 0x11008, 32, 256⟩
  | .timFoldCnt => ⟨.glob, 0x11010, 32, 256⟩
  | .glbNumericProfile => ⟨.glob, 0x80, 8, 1⟩
  | .cluCoreFault => ⟨.cluster, 0x1000, 8, 48⟩
  | .cluPartBanks => ⟨.cluster, 0x2000, 16, 64⟩
  | .cluPartCfg => ⟨.cluster, 0x2008, 16, 64⟩
  | .cluSpEcc => ⟨.cluster, 0x2410, 8, 1⟩
  | .cluBankPower => ⟨.cluster, 0x2400, 8, 1⟩
  | .cluBankPending => ⟨.cluster, 0x2408, 8, 1⟩
  | .cluSpContract => ⟨.cluster, 0x2418, 8, 1⟩
  | .cluArrLayerCfg => ⟨.cluster, 0x4000, 32, 256⟩
  | .cluArrLayerSeed => ⟨.cluster, 0x4008, 32, 256⟩
  | .cluArrLayerNum => ⟨.cluster, 0x4010, 32, 256⟩
  | .cluArrState => ⟨.cluster, 0x3000, 8, 32⟩
  | .cluArrWear => ⟨.cluster, 0x3100, 8, 32⟩
  | .cluArrStat => ⟨.cluster, 0x3200, 8, 4⟩
  | .cluArrCalCtl => ⟨.cluster, 0x3300, 8, 1⟩
  | .cluArrCalSel => ⟨.cluster, 0x3308, 8, 1⟩
  | .cluArrCalData => ⟨.cluster, 0x3310, 8, 1⟩
  | .cluNumStat => ⟨.cluster, 0x6000, 8, 1⟩
  | .cluSideStat => ⟨.cluster, 0x6008, 8, 1⟩
  | .cluNormSel => ⟨.cluster, 0x6010, 8, 1⟩
  | .cluNormData => ⟨.cluster, 0x6018, 8, 1⟩
  | .cluRtrRsv => ⟨.router, 0x7000, 8, 10⟩
  | .cluRtrOwner => ⟨.router, 0x7050, 8, 1⟩
  | .cluFabContract => ⟨.router, 0x7080, 8, 1⟩
  | .cluFabRefused => ⟨.router, 0x7088, 8, 1⟩
  | .cluRtrSet => ⟨.router, 0x7400, 8, 256⟩
  | .timFoldHedge => ⟨.glob, 0x11018, 32, 256⟩
  | .hubStkStatus => ⟨.hub, 0x8000, 8, 1⟩
  | .hubStkEcc => ⟨.hub, 0x8008, 8, 1⟩
  | .hubStkLastErr => ⟨.hub, 0x8010, 8, 1⟩
  | .hubStkArb => ⟨.hub, 0x8018, 8, 1⟩
  | .hubStkRegion => ⟨.hub, 0x8100, 16, 64⟩
  | .hubStkRegionCfg => ⟨.hub, 0x8108, 16, 64⟩
  | .hubEngCnt => ⟨.hub, 0x9000, 8, 7⟩
  | .hubEngErr => ⟨.hub, 0x9040, 8, 7⟩
  | .hubTokTable => ⟨.hub, 0x9100, 8, 4⟩
  | .hubTokFold => ⟨.hub, 0x9120, 8, 16⟩
  | .srvReqSel => ⟨.glob, 0x60000, 8, 1⟩
  | .srvReqData => ⟨.glob, 0x60008, 8, 8⟩
  | .srvStat => ⟨.glob, 0x60048, 8, 1⟩
  | .hubKvPool => ⟨.hub, 0xa000, 8, 16⟩
  | .wgtCtl => ⟨.glob, 0x70000, 8, 1⟩
  | .wgtModelSel => ⟨.glob, 0x70008, 8, 1⟩
  | .wgtModelData => ⟨.glob, 0x70010, 8, 4⟩
  | .wgtStat => ⟨.glob, 0x70030, 8, 1⟩
  | .cluArrGroupMap => ⟨.cluster, 0x3318, 8, 1⟩
  | .cliEpSel => ⟨.glob, 0x50000, 8, 1⟩
  | .cliEpCfg => ⟨.glob, 0x50008, 8, 1⟩
  | .cliEpSubVa => ⟨.glob, 0x50010, 8, 1⟩
  | .cliEpCmpVa => ⟨.glob, 0x50018, 8, 1⟩
  | .cliEpKeys => ⟨.glob, 0x50020, 8, 1⟩
  | .cliEpState => ⟨.glob, 0x50028, 8, 1⟩
  | .cliEpCmpPos => ⟨.glob, 0x50030, 8, 1⟩
  | .cliDbKey => ⟨.glob, 0x50038, 8, 1⟩
  | .cliStat => ⟨.glob, 0x50040, 8, 1⟩
  | .lnkCfg => ⟨.link, 0x0, 8, 1⟩
  | .lnkStatus => ⟨.link, 0x8, 8, 1⟩
  | .lnkCnt => ⟨.link, 0x10, 8, 1⟩
  | .lnkFec => ⟨.link, 0x18, 8, 1⟩
  | .lnkTorus => ⟨.glob, 0x160000, 8, 1⟩
  | .lnkPort => ⟨.glob, 0x161000, 32, 96⟩
  | .lnkFold => ⟨.glob, 0x164000, 8, 256⟩
  | .lnkWinSel => ⟨.glob, 0x162000, 8, 1⟩
  | .lnkWinData => ⟨.glob, 0x162008, 8, 1⟩
  | .lnkWinStat => ⟨.glob, 0x162010, 8, 1⟩
  | .pwrStatus => ⟨.glob, 0x20000, 8, 1⟩
  | .pwrInput => ⟨.glob, 0x20008, 8, 1⟩
  | .pwrLimit => ⟨.glob, 0x20010, 8, 1⟩
  | .pwrSeg => ⟨.glob, 0x20020, 8, 4⟩
  | .pwrEvtCnt => ⟨.glob, 0x20040, 8, 1⟩
  | .pwrIlogSel => ⟨.glob, 0x20100, 8, 1⟩
  | .pwrIlogData => ⟨.glob, 0x20108, 8, 1⟩
  | .pwrIlogHead => ⟨.glob, 0x20110, 8, 1⟩
  | .hubPwrBudget => ⟨.hub, 0xb000, 8, 1⟩
  | .hubPwrArb => ⟨.hub, 0xb008, 8, 1⟩
  | .hubPwrRail => ⟨.hub, 0xb010, 8, 1⟩
  | .cluPwrCfg => ⟨.cluster, 0x8000, 8, 1⟩
  | .cluPwrState => ⟨.cluster, 0x8008, 8, 1⟩
  | .cluPwrVmin => ⟨.cluster, 0x8010, 8, 1⟩
  | .cluPwrVminTs => ⟨.cluster, 0x8018, 8, 1⟩
  | .cluPwrCnt => ⟨.cluster, 0x8020, 8, 1⟩
  | .thmCfg => ⟨.glob, 0x30000, 8, 1⟩
  | .thmCoolant => ⟨.glob, 0x30008, 8, 1⟩
  | .thmMeas => ⟨.glob, 0x30010, 8, 1⟩
  | .thmStatus => ⟨.glob, 0x30018, 8, 1⟩
  | .thmStopClr => ⟨.glob, 0x30020, 8, 1⟩
  | .thmSlew => ⟨.glob, 0x30028, 8, 1⟩
  | .thmCnt => ⟨.glob, 0x30030, 8, 1⟩
  | .thmFoldMode => ⟨.glob, 0x31000, 8, 256⟩
  | .cluThm => ⟨.cluster, 0x9000, 8, 1⟩
  | .hubThm => ⟨.hub, 0xc000, 8, 1⟩
  | .fltLogSel => ⟨.glob, 0x80000, 8, 1⟩
  | .fltLogData => ⟨.glob, 0x80008, 8, 4⟩
  | .fltLogStat => ⟨.glob, 0x80028, 8, 1⟩
  | .fltStreamCfg => ⟨.glob, 0x80030, 8, 1⟩
  | .fltStreamAddr => ⟨.glob, 0x80038, 8, 2⟩
  | .fltStreamStat => ⟨.glob, 0x80048, 8, 1⟩
  | .fltReserve => ⟨.glob, 0x80100, 8, 64⟩
  | .fltReplaceStat => ⟨.glob, 0x80300, 8, 1⟩
  | .glbBootStatus => ⟨.glob, 0x100, 8, 1⟩
  | .glbSeal => ⟨.glob, 0x108, 8, 1⟩
  | .secCmd => ⟨.glob, 0x40000, 8, 1⟩
  | .secStatus => ⟨.glob, 0x40008, 8, 1⟩
  | .secFw => ⟨.glob, 0x40010, 8, 1⟩
  | .secFwStaged => ⟨.glob, 0x40018, 8, 1⟩
  | .secAttest => ⟨.glob, 0x40020, 8, 1⟩
  | .secKeybuf => ⟨.glob, 0x40100, 8, 64⟩
  | .glbResetCtl => ⟨.glob, 0x200, 8, 1⟩
  | .glbResetCause => ⟨.glob, 0x208, 8, 1⟩
  | .glbLpCtl => ⟨.glob, 0x210, 8, 1⟩
  | .glbLpStatus => ⟨.glob, 0x218, 8, 1⟩
  | .glbRestore => ⟨.glob, 0x280, 8, 8⟩
  | .glbLpOff => ⟨.glob, 0x800, 8, 64⟩
  | .glbSwathOut => ⟨.glob, 0x300, 8, 1⟩

def Reg.all : List Reg :=
  [.cluCoreMap, .glbLeaMap, .glbClusterCount, .timSrcCtl, .timStatus, .timBeat,
   .timPpsTai, .timAlignStatus, .timFoldCfg, .timFoldStat, .timFoldCnt, .glbNumericProfile,
   .cluCoreFault, .cluPartBanks, .cluPartCfg, .cluSpEcc, .cluBankPower, .cluBankPending,
   .cluSpContract, .cluArrLayerCfg, .cluArrLayerSeed, .cluArrLayerNum, .cluArrState, .cluArrWear,
   .cluArrStat, .cluArrCalCtl, .cluArrCalSel, .cluArrCalData, .cluNumStat, .cluSideStat,
   .cluNormSel, .cluNormData, .cluRtrRsv, .cluRtrOwner, .cluFabContract, .cluFabRefused,
   .cluRtrSet, .timFoldHedge, .hubStkStatus, .hubStkEcc, .hubStkLastErr, .hubStkArb,
   .hubStkRegion, .hubStkRegionCfg, .hubEngCnt, .hubEngErr, .hubTokTable, .hubTokFold,
   .srvReqSel, .srvReqData, .srvStat, .hubKvPool, .wgtCtl, .wgtModelSel,
   .wgtModelData, .wgtStat, .cluArrGroupMap, .cliEpSel, .cliEpCfg, .cliEpSubVa,
   .cliEpCmpVa, .cliEpKeys, .cliEpState, .cliEpCmpPos, .cliDbKey, .cliStat,
   .lnkCfg, .lnkStatus, .lnkCnt, .lnkFec, .lnkTorus, .lnkPort,
   .lnkFold, .lnkWinSel, .lnkWinData, .lnkWinStat, .pwrStatus, .pwrInput,
   .pwrLimit, .pwrSeg, .pwrEvtCnt, .pwrIlogSel, .pwrIlogData, .pwrIlogHead,
   .hubPwrBudget, .hubPwrArb, .hubPwrRail, .cluPwrCfg, .cluPwrState, .cluPwrVmin,
   .cluPwrVminTs, .cluPwrCnt, .thmCfg, .thmCoolant, .thmMeas, .thmStatus,
   .thmStopClr, .thmSlew, .thmCnt, .thmFoldMode, .cluThm, .hubThm,
   .fltLogSel, .fltLogData, .fltLogStat, .fltStreamCfg, .fltStreamAddr, .fltStreamStat,
   .fltReserve, .fltReplaceStat, .glbBootStatus, .glbSeal, .secCmd, .secStatus,
   .secFw, .secFwStaged, .secAttest, .secKeybuf, .glbResetCtl, .glbResetCause,
   .glbLpCtl, .glbLpStatus, .glbRestore, .glbLpOff, .glbSwathOut]

/-- The fields of each register; the bits between them are reserved and read zero (R9). -/
def Reg.fields : Reg → List FieldDesc
  | .cluCoreMap =>
    [⟨15, 1, .ro, 0, 0⟩, ⟨8, 6, .ro, 0, 0⟩, ⟨7, 1, .ro, 0, 0⟩, ⟨0, 6, .ro, 0, 0⟩]
  | .glbLeaMap =>
    [⟨0, 2, .ro, 0, 3⟩, ⟨2, 2, .ro, 0, 3⟩, ⟨4, 2, .ro, 0, 3⟩, ⟨6, 2, .ro, 0, 3⟩, ⟨8, 2, .ro, 0, 3⟩,
     ⟨10, 2, .ro, 0, 3⟩, ⟨12, 2, .ro, 0, 3⟩, ⟨14, 2, .ro, 0, 3⟩, ⟨16, 2, .ro, 0, 3⟩, ⟨18, 2, .ro, 0, 3⟩,
     ⟨20, 2, .ro, 0, 3⟩, ⟨22, 2, .ro, 0, 3⟩, ⟨24, 2, .ro, 0, 3⟩, ⟨26, 2, .ro, 0, 3⟩, ⟨28, 2, .ro, 0, 3⟩,
     ⟨30, 2, .ro, 0, 3⟩, ⟨32, 2, .ro, 0, 3⟩, ⟨34, 2, .ro, 0, 3⟩, ⟨36, 2, .ro, 0, 3⟩, ⟨38, 2, .ro, 0, 3⟩,
     ⟨40, 2, .ro, 0, 3⟩, ⟨42, 2, .ro, 0, 3⟩, ⟨44, 2, .ro, 0, 3⟩, ⟨46, 2, .ro, 0, 3⟩]
  | .glbClusterCount =>
    [⟨32, 11, .ro, 0, 3⟩, ⟨16, 11, .ro, 0, 3⟩, ⟨0, 11, .ro, 0, 3⟩]
  | .timSrcCtl =>
    [⟨16, 8, .rws, 0, 1⟩, ⟨8, 7, .rws, 0, 1⟩, ⟨0, 2, .rws, 2, 1⟩]
  | .timStatus =>
    [⟨32, 32, .ro, 0, 3⟩, ⟨0, 3, .ro, 0, 3⟩]
  | .timBeat =>
    [⟨0, 64, .ro, 0, 3⟩]
  | .timPpsTai =>
    [⟨0, 64, .rw, 0, 3⟩]
  | .timAlignStatus =>
    [⟨0, 64, .ro, 0, 7⟩]
  | .timFoldCfg =>
    [⟨63, 1, .rw, 0, 3⟩, ⟨62, 1, .rw, 0, 3⟩, ⟨61, 1, .rw, 1, 3⟩, ⟨60, 1, .rw, 0, 3⟩, ⟨48, 8, .rw, 2, 3⟩,
     ⟨34, 14, .rw, 0, 3⟩, ⟨20, 14, .rw, 100, 3⟩]
  | .timFoldStat =>
    [⟨61, 3, .ro, 0, 19⟩, ⟨32, 27, .ro, 0, 19⟩, ⟨0, 32, .ro, 0, 19⟩]
  | .timFoldCnt =>
    [⟨32, 32, .ro, 0, 19⟩, ⟨0, 32, .ro, 0, 19⟩]
  | .glbNumericProfile =>
    [⟨48, 16, .ro, 0, 0⟩, ⟨44, 4, .ro, 10, 0⟩, ⟨16, 16, .ro, 0, 3⟩, ⟨0, 16, .ro, 0, 3⟩]
  | .cluCoreFault =>
    [⟨32, 32, .ro, 0, 31⟩, ⟨20, 12, .ro, 0, 31⟩, ⟨16, 1, .ro, 0, 31⟩, ⟨8, 8, .ro, 0, 31⟩, ⟨0, 8, .ro, 0, 31⟩]
  | .cluPartBanks =>
    [⟨0, 48, .rw, 0, 3⟩]
  | .cluPartCfg =>
    [⟨63, 1, .rw, 0, 3⟩, ⟨62, 1, .rw, 0, 3⟩, ⟨61, 1, .rw, 0, 3⟩, ⟨60, 1, .rw, 0, 3⟩, ⟨52, 8, .rw, 0, 3⟩,
     ⟨32, 11, .rw, 0, 3⟩, ⟨0, 10, .rw, 0, 3⟩]
  | .cluSpEcc =>
    [⟨32, 32, .ro, 0, 3⟩, ⟨16, 16, .ro, 0, 3⟩, ⟨10, 6, .ro, 0, 3⟩, ⟨0, 10, .ro, 0, 3⟩]
  | .cluBankPower =>
    [⟨0, 48, .ro, 0, 1⟩]
  | .cluBankPending =>
    [⟨0, 48, .ro, 0, 1⟩]
  | .cluSpContract =>
    [⟨32, 32, .ro, 0, 15⟩, ⟨16, 16, .ro, 0, 15⟩, ⟨0, 16, .ro, 0, 15⟩]
  | .cluArrLayerCfg =>
    [⟨63, 1, .rw, 0, 3⟩, ⟨48, 8, .rw, 0, 3⟩, ⟨46, 2, .rw, 0, 3⟩, ⟨44, 2, .rw, 2, 3⟩, ⟨40, 4, .rw, 7, 3⟩,
     ⟨32, 8, .rw, 0, 3⟩, ⟨24, 8, .rw, 255, 3⟩]
  | .cluArrLayerSeed =>
    [⟨0, 64, .rw, 0, 3⟩]
  | .cluArrLayerNum =>
    [⟨48, 16, .rw, 0, 3⟩, ⟨32, 16, .rw, 0, 3⟩, ⟨16, 8, .rw, 0, 3⟩, ⟨0, 1, .rw, 0, 3⟩]
  | .cluArrState =>
    [⟨48, 16, .ro, 0, 0⟩, ⟨32, 16, .ro, 0, 3⟩, ⟨16, 16, .ro, 0, 0⟩, ⟨0, 3, .ro, 0, 0⟩]
  | .cluArrWear =>
    [⟨32, 10, .ro, 0, 0⟩, ⟨0, 32, .ro, 0, 0⟩]
  | .cluArrStat =>
    [⟨48, 16, .ro, 0, 15⟩, ⟨32, 16, .ro, 0, 15⟩, ⟨16, 16, .ro, 0, 15⟩, ⟨0, 16, .ro, 0, 15⟩]
  | .cluArrCalCtl =>
    [⟨32, 16, .rw, 600, 3⟩, ⟨24, 8, .rw, 8, 3⟩, ⟨0, 16, .rw, 655, 3⟩]
  | .cluArrCalSel =>
    [⟨9, 5, .rw, 0, 3⟩, ⟨0, 9, .rw, 0, 3⟩]
  | .cluArrCalData =>
    [⟨48, 16, .ro, 0, 3⟩, ⟨40, 8, .ro, 0, 3⟩, ⟨32, 8, .ro, 0, 3⟩, ⟨0, 16, .ro, 0x4000, 3⟩]
  | .cluNumStat =>
    [⟨48, 16, .ro, 0, 15⟩, ⟨32, 16, .ro, 0, 15⟩, ⟨16, 16, .ro, 0, 15⟩, ⟨0, 16, .ro, 0, 15⟩]
  | .cluSideStat =>
    [⟨32, 32, .ro, 0, 15⟩, ⟨0, 16, .ro, 0, 15⟩]
  | .cluNormSel =>
    [⟨0, 9, .rw, 0, 3⟩]
  | .cluNormData =>
    [⟨32, 32, .ro, 0, 31⟩, ⟨24, 8, .ro, 0, 31⟩, ⟨16, 2, .ro, 0, 31⟩, ⟨0, 16, .ro, 0, 31⟩]
  | .cluRtrRsv =>
    [⟨0, 64, .ro, 0, 7⟩]
  | .cluRtrOwner =>
    [⟨63, 1, .ro, 0, 7⟩, ⟨0, 8, .ro, 0, 7⟩]
  | .cluFabContract =>
    [⟨48, 16, .ro, 0, 15⟩, ⟨32, 16, .ro, 0, 15⟩, ⟨16, 16, .ro, 0, 15⟩, ⟨0, 16, .ro, 0, 15⟩]
  | .cluFabRefused =>
    [⟨16, 16, .ro, 0, 15⟩, ⟨0, 16, .ro, 0, 15⟩]
  | .cluRtrSet =>
    [⟨63, 1, .rw, 0, 3⟩, ⟨48, 8, .rw, 0, 3⟩, ⟨40, 3, .rw, 0, 3⟩, ⟨32, 5, .rw, 0, 3⟩]
  | .timFoldHedge =>
    [⟨14, 1, .rw, 0, 3⟩, ⟨29, 1, .rw, 0, 3⟩, ⟨44, 1, .rw, 0, 3⟩, ⟨59, 1, .rw, 0, 3⟩, ⟨6, 8, .rw, 0, 3⟩,
     ⟨21, 8, .rw, 0, 3⟩, ⟨36, 8, .rw, 0, 3⟩, ⟨51, 8, .rw, 0, 3⟩, ⟨0, 6, .rw, 0, 3⟩, ⟨15, 6, .rw, 0, 3⟩,
     ⟨30, 6, .rw, 0, 3⟩, ⟨45, 6, .rw, 0, 3⟩]
  | .hubStkStatus =>
    [⟨56, 8, .ro, 0, 3⟩, ⟨52, 4, .ro, 15, 0⟩, ⟨50, 2, .ro, 0, 3⟩, ⟨49, 1, .ro, 0, 3⟩]
  | .hubStkEcc =>
    [⟨32, 32, .ro, 0, 3⟩, ⟨0, 32, .ro, 0, 3⟩]
  | .hubStkLastErr =>
    [⟨63, 1, .ro, 0, 3⟩, ⟨32, 4, .ro, 15, 3⟩, ⟨0, 28, .ro, 0, 3⟩]
  | .hubStkArb =>
    [⟨0, 4, .rw, 2, 3⟩]
  | .hubStkRegion =>
    [⟨32, 28, .rw, 0, 3⟩, ⟨0, 28, .rw, 0, 3⟩]
  | .hubStkRegionCfg =>
    [⟨63, 1, .rw, 0, 3⟩, ⟨62, 1, .rw, 0, 3⟩, ⟨61, 1, .rw, 0, 3⟩, ⟨60, 1, .rw, 0, 3⟩, ⟨48, 8, .rw, 0, 3⟩]
  | .hubEngCnt =>
    [⟨32, 32, .ro, 0, 7⟩, ⟨16, 16, .ro, 0, 7⟩, ⟨0, 16, .ro, 0, 7⟩]
  | .hubEngErr =>
    [⟨30, 17, .ro, 0, 7⟩, ⟨0, 16, .ro, 0, 7⟩]
  | .hubTokTable =>
    [⟨63, 1, .ro, 0, 7⟩, ⟨62, 1, .ro, 0, 7⟩, ⟨32, 19, .ro, 0, 7⟩, ⟨0, 32, .ro, 0, 7⟩]
  | .hubTokFold =>
    [⟨0, 8, .ro, 0, 7⟩, ⟨8, 8, .ro, 0, 7⟩, ⟨16, 8, .ro, 0, 7⟩, ⟨24, 8, .ro, 0, 7⟩, ⟨32, 8, .ro, 0, 7⟩,
     ⟨40, 8, .ro, 0, 7⟩, ⟨48, 8, .ro, 0, 7⟩, ⟨56, 8, .ro, 0, 7⟩]
  | .srvReqSel =>
    [⟨0, 15, .rw, 0, 3⟩]
  | .srvReqData =>
    [⟨0, 64, .ro, 0, 7⟩]
  | .srvStat =>
    [⟨48, 16, .ro, 0x8000, 3⟩, ⟨32, 16, .ro, 0, 3⟩, ⟨16, 16, .ro, 0, 3⟩, ⟨0, 16, .ro, 0, 3⟩]
  | .hubKvPool =>
    [⟨63, 1, .ro, 0, 7⟩, ⟨62, 1, .ro, 0, 7⟩, ⟨56, 6, .ro, 0, 7⟩, ⟨32, 21, .ro, 0, 7⟩, ⟨0, 21, .ro, 0, 7⟩]
  | .wgtCtl =>
    [⟨32, 1, .lck, 0, 3⟩, ⟨16, 16, .rw, 600, 3⟩]
  | .wgtModelSel =>
    [⟨0, 12, .rw, 0, 3⟩]
  | .wgtModelData =>
    [⟨0, 64, .ro, 0, 0⟩]
  | .wgtStat =>
    [⟨48, 16, .ro, 0, 3⟩, ⟨32, 16, .ro, 0, 3⟩, ⟨16, 16, .ro, 0, 3⟩, ⟨0, 16, .ro, 0, 3⟩]
  | .cluArrGroupMap =>
    [⟨0, 8, .ro, 228, 15⟩]
  | .cliEpSel =>
    [⟨0, 12, .rw, 0, 3⟩]
  | .cliEpCfg =>
    [⟨63, 1, .rw, 0, 0⟩, ⟨62, 1, .rw, 0, 0⟩, ⟨61, 1, .rw, 0, 3⟩, ⟨60, 1, .rw, 0, 0⟩, ⟨55, 5, .rw, 0, 0⟩,
     ⟨50, 5, .rw, 0, 0⟩, ⟨32, 8, .rw, 0, 0⟩, ⟨0, 32, .rw, 0, 0⟩]
  | .cliEpSubVa =>
    [⟨0, 64, .rw, 0, 0⟩]
  | .cliEpCmpVa =>
    [⟨0, 64, .rw, 0, 0⟩]
  | .cliEpKeys =>
    [⟨32, 32, .rw, 0, 0⟩, ⟨0, 32, .rw, 0, 0⟩]
  | .cliEpState =>
    [⟨61, 3, .ro, 0, 3⟩, ⟨32, 17, .ro, 0, 3⟩, ⟨0, 32, .ro, 0, 3⟩]
  | .cliEpCmpPos =>
    [⟨32, 32, .ro, 0, 3⟩, ⟨0, 32, .ro, 0, 3⟩]
  | .cliDbKey =>
    [⟨0, 32, .ro, 0, 3⟩]
  | .cliStat =>
    [⟨48, 16, .ro, 0, 3⟩, ⟨32, 16, .ro, 0, 3⟩, ⟨16, 16, .ro, 0, 3⟩, ⟨0, 16, .ro, 0, 3⟩]
  | .lnkCfg =>
    [⟨8, 8, .rws, 0, 1⟩, ⟨1, 2, .rws, 0, 1⟩, ⟨0, 1, .rws, 1, 1⟩]
  | .lnkStatus =>
    [⟨61, 3, .ro, 0, 35⟩, ⟨48, 8, .ro, 0, 35⟩, ⟨42, 5, .ro, 0, 35⟩, ⟨37, 5, .ro, 0, 35⟩, ⟨32, 5, .ro, 0, 35⟩,
     ⟨8, 1, .ro, 0, 35⟩, ⟨0, 4, .ro, 0, 35⟩]
  | .lnkCnt =>
    [⟨48, 16, .ro, 0, 3⟩, ⟨0, 48, .ro, 0, 3⟩]
  | .lnkFec =>
    [⟨48, 16, .ro, 0, 3⟩, ⟨0, 48, .ro, 0, 3⟩]
  | .lnkTorus =>
    [⟨63, 1, .rws, 0, 1⟩, ⟨40, 5, .rws, 0, 1⟩, ⟨32, 5, .rws, 0, 1⟩, ⟨24, 5, .rws, 0, 1⟩, ⟨16, 5, .rws, 0, 1⟩,
     ⟨8, 5, .rws, 0, 1⟩, ⟨0, 5, .rws, 0, 1⟩]
  | .lnkPort =>
    [⟨61, 3, .ro, 0, 3⟩, ⟨48, 5, .ro, 0, 3⟩, ⟨0, 4, .rws, 0, 1⟩]
  | .lnkFold =>
    [⟨63, 1, .rw, 0, 3⟩, ⟨57, 6, .rw, 0, 3⟩, ⟨48, 9, .rw, 0, 3⟩, ⟨0, 32, .rw, 0, 3⟩]
  | .lnkWinSel =>
    [⟨0, 16, .rw, 0, 3⟩]
  | .lnkWinData =>
    [⟨63, 1, .ro, 0, 3⟩, ⟨48, 8, .ro, 0, 3⟩, ⟨32, 16, .ro, 0, 3⟩, ⟨0, 32, .ro, 0, 3⟩]
  | .lnkWinStat =>
    [⟨32, 32, .ro, 0, 3⟩, ⟨16, 16, .ro, 0, 3⟩, ⟨0, 16, .ro, 0, 3⟩]
  | .pwrStatus =>
    [⟨61, 3, .ro, 0, 1⟩, ⟨56, 4, .ro, 0, 1⟩, ⟨52, 4, .ro, 0, 1⟩, ⟨46, 6, .ro, 0, 3⟩, ⟨35, 1, .ro, 0, 1⟩,
     ⟨34, 1, .ro, 0, 1⟩, ⟨33, 1, .ro, 0, 1⟩, ⟨32, 1, .ro, 0, 1⟩, ⟨0, 16, .ro, 0, 1⟩]
  | .pwrInput =>
    [⟨32, 16, .ro, 0, 1⟩, ⟨16, 16, .ro, 0, 1⟩, ⟨0, 16, .ro, 0, 1⟩]
  | .pwrLimit =>
    [⟨16, 16, .rw, 0x6978, 3⟩, ⟨0, 16, .rw, 0x5dc0, 3⟩]
  | .pwrSeg =>
    [⟨62, 2, .ro, 0, 1⟩, ⟨16, 16, .ro, 0, 1⟩, ⟨0, 16, .ro, 0, 1⟩]
  | .pwrEvtCnt =>
    [⟨48, 16, .ro, 0, 1⟩, ⟨32, 16, .ro, 0, 1⟩, ⟨0, 32, .ro, 0, 3⟩]
  | .pwrIlogSel =>
    [⟨16, 11, .rw, 0, 3⟩, ⟨0, 12, .rw, 0, 3⟩]
  | .pwrIlogData =>
    [⟨0, 16, .ro, 0xffff, 3⟩, ⟨16, 16, .ro, 0xffff, 3⟩, ⟨32, 16, .ro, 0xffff, 3⟩, ⟨48, 16, .ro, 0xffff, 3⟩]
  | .pwrIlogHead =>
    [⟨0, 64, .ro, 0, 3⟩]
  | .hubPwrBudget =>
    [⟨16, 9, .rw, 320, 7⟩, ⟨0, 11, .rw, 0x44c, 7⟩]
  | .hubPwrArb =>
    [⟨61, 1, .ro, 0, 7⟩, ⟨40, 9, .ro, 0, 7⟩, ⟨24, 12, .ro, 0, 7⟩, ⟨0, 24, .ro, 0, 7⟩]
  | .hubPwrRail =>
    [⟨48, 16, .ro, 0, 7⟩, ⟨32, 16, .ro, 0, 7⟩, ⟨24, 3, .ro, 4, 0⟩, ⟨16, 5, .ro, 16, 0⟩, ⟨1, 1, .ro, 0, 3⟩,
     ⟨0, 1, .ro, 0, 3⟩]
  | .cluPwrCfg =>
    [⟨24, 8, .rw, 24, 3⟩, ⟨16, 8, .rw, 1, 3⟩, ⟨8, 8, .rw, 1, 3⟩, ⟨0, 8, .rw, 1, 3⟩]
  | .cluPwrState =>
    [⟨62, 2, .ro, 0, 15⟩, ⟨38, 10, .ro, 800, 0⟩, ⟨32, 4, .ro, 15, 0⟩, ⟨24, 8, .ro, 72, 3⟩, ⟨8, 6, .ro, 0, 15⟩]
  | .cluPwrVmin =>
    [⟨63, 1, .wo, 0, 1⟩, ⟨62, 1, .ro, 0, 15⟩, ⟨0, 10, .ro, 0, 15⟩]
  | .cluPwrVminTs =>
    [⟨0, 64, .ro, 0, 15⟩]
  | .cluPwrCnt =>
    [⟨32, 32, .ro, 0, 15⟩, ⟨16, 16, .ro, 0, 15⟩, ⟨0, 16, .ro, 0, 15⟩]
  | .thmCfg =>
    [⟨56, 8, .rw, 95, 3⟩, ⟨48, 8, .rw, 95, 3⟩, ⟨40, 8, .rw, 80, 3⟩]
  | .thmCoolant =>
    [⟨32, 16, .rw, 0, 3⟩, ⟨16, 16, .rw, 0, 3⟩]
  | .thmMeas =>
    [⟨48, 16, .ro, 0, 3⟩, ⟨32, 16, .ro, 0, 3⟩, ⟨16, 16, .ro, 0, 3⟩, ⟨0, 16, .ro, 0, 3⟩]
  | .thmStatus =>
    [⟨61, 3, .ro, 0, 1⟩, ⟨48, 8, .ro, 0, 1⟩, ⟨47, 1, .ro, 1, 1⟩, ⟨46, 1, .ro, 0, 1⟩, ⟨45, 1, .ro, 0, 3⟩,
     ⟨38, 6, .ro, 0, 3⟩]
  | .thmStopClr =>
    [⟨0, 1, .wo, 0, 1⟩]
  | .thmSlew =>
    [⟨48, 16, .ro, 0, 3⟩, ⟨32, 16, .ro, 0, 3⟩, ⟨18, 7, .ro, 64, 3⟩]
  | .thmCnt =>
    [⟨48, 16, .ro, 0, 1⟩, ⟨32, 16, .ro, 0, 3⟩, ⟨0, 32, .ro, 0, 3⟩]
  | .thmFoldMode =>
    [⟨0, 1, .rw, 0, 3⟩]
  | .cluThm =>
    [⟨56, 8, .ro, 0, 15⟩, ⟨50, 6, .ro, 0, 15⟩, ⟨48, 2, .ro, 0, 15⟩, ⟨47, 1, .ro, 0, 3⟩, ⟨45, 2, .ro, 0, 15⟩]
  | .hubThm =>
    [⟨40, 4, .ro, 0, 3⟩, ⟨32, 8, .ro, 0, 3⟩, ⟨0, 8, .ro, 0, 7⟩, ⟨8, 8, .ro, 0, 7⟩, ⟨16, 8, .ro, 0, 7⟩,
     ⟨24, 8, .ro, 0, 7⟩]
  | .fltLogSel =>
    [⟨63, 1, .rw, 0, 3⟩, ⟨16, 6, .rw, 0, 3⟩, ⟨0, 14, .rw, 0, 3⟩]
  | .fltLogData =>
    [⟨0, 64, .ro, 0, 3⟩]
  | .fltLogStat =>
    [⟨32, 32, .ro, 0, 3⟩, ⟨0, 32, .ro, 0, 3⟩]
  | .fltStreamCfg =>
    [⟨63, 1, .rw, 0, 3⟩, ⟨62, 1, .rw, 0, 3⟩, ⟨61, 1, .rw, 0, 3⟩, ⟨48, 7, .rw, 0, 3⟩, ⟨32, 16, .rw, 0, 3⟩,
     ⟨1, 9, .rw, 511, 3⟩]
  | .fltStreamAddr =>
    [⟨0, 64, .rw, 0, 3⟩]
  | .fltStreamStat =>
    [⟨32, 32, .ro, 0, 3⟩, ⟨0, 32, .ro, 0, 3⟩]
  | .fltReserve =>
    [⟨0, 24, .rw, 0, 3⟩]
  | .fltReplaceStat =>
    [⟨48, 16, .ro, 0, 3⟩, ⟨32, 16, .ro, 0, 3⟩, ⟨16, 16, .ro, 0, 3⟩, ⟨0, 16, .ro, 0, 3⟩]
  | .glbBootStatus =>
    [⟨60, 4, .ro, 0, 3⟩, ⟨59, 1, .ro, 0, 3⟩, ⟨58, 1, .ro, 0, 3⟩, ⟨57, 1, .ro, 0, 3⟩, ⟨48, 7, .ro, 0, 3⟩,
     ⟨0, 32, .ro, 0, 3⟩]
  | .glbSeal =>
    [⟨63, 1, .ro, 0, 3⟩, ⟨0, 1, .wo, 0, 1⟩]
  | .secCmd =>
    [⟨8, 8, .wo, 0, 1⟩, ⟨0, 8, .wo, 0, 1⟩]
  | .secStatus =>
    [⟨62, 2, .ro, 0, 3⟩, ⟨32, 16, .ro, 0, 0⟩, ⟨0, 32, .ro, 0, 0⟩]
  | .secFw =>
    [⟨48, 16, .ro, 0, 0⟩, ⟨32, 16, .ro, 0, 3⟩, ⟨0, 32, .ro, 0, 3⟩]
  | .secFwStaged =>
    [⟨63, 1, .ro, 0, 0⟩, ⟨62, 1, .ro, 0, 0⟩, ⟨0, 32, .ro, 0, 0⟩]
  | .secAttest =>
    [⟨40, 1, .ro, 0, 3⟩, ⟨0, 40, .ro, 0, 0⟩]
  | .secKeybuf =>
    [⟨0, 64, .rw, 0, 3⟩]
  | .glbResetCtl =>
    [⟨8, 16, .wo, 0, 1⟩, ⟨0, 4, .wo, 0, 1⟩]
  | .glbResetCause =>
    [⟨60, 4, .ro, 1, 0⟩, ⟨52, 8, .ro, 0, 0⟩, ⟨0, 32, .ro, 0, 0⟩]
  | .glbLpCtl =>
    [⟨0, 2, .rw, 0, 3⟩]
  | .glbLpStatus =>
    [⟨62, 2, .ro, 0, 3⟩, ⟨0, 32, .ro, 0, 1⟩]
  | .glbRestore =>
    [⟨0, 64, .ro, 0, 3⟩]
  | .glbLpOff =>
    [⟨0, 24, .rw, 0, 3⟩]
  | .glbSwathOut =>
    [⟨63, 1, .rw, 0, 3⟩, ⟨48, 8, .rw, 0, 3⟩]

/-- A named field: its register, lowest bit and width. -/
structure Fld where
  reg   : Reg
  lo    : Nat
  width : Nat
deriving DecidableEq, Repr

namespace Fld

def cluCoreMapS1Used : Fld := ⟨.cluCoreMap, 15, 1⟩
def cluCoreMapS1Index : Fld := ⟨.cluCoreMap, 8, 6⟩
def cluCoreMapS0Used : Fld := ⟨.cluCoreMap, 7, 1⟩
def cluCoreMapS0Index : Fld := ⟨.cluCoreMap, 0, 6⟩
def glbLeaMapState0 : Fld := ⟨.glbLeaMap, 0, 2⟩
def glbLeaMapState1 : Fld := ⟨.glbLeaMap, 2, 2⟩
def glbLeaMapState2 : Fld := ⟨.glbLeaMap, 4, 2⟩
def glbLeaMapState3 : Fld := ⟨.glbLeaMap, 6, 2⟩
def glbLeaMapState4 : Fld := ⟨.glbLeaMap, 8, 2⟩
def glbLeaMapState5 : Fld := ⟨.glbLeaMap, 10, 2⟩
def glbLeaMapState6 : Fld := ⟨.glbLeaMap, 12, 2⟩
def glbLeaMapState7 : Fld := ⟨.glbLeaMap, 14, 2⟩
def glbLeaMapState8 : Fld := ⟨.glbLeaMap, 16, 2⟩
def glbLeaMapState9 : Fld := ⟨.glbLeaMap, 18, 2⟩
def glbLeaMapState10 : Fld := ⟨.glbLeaMap, 20, 2⟩
def glbLeaMapState11 : Fld := ⟨.glbLeaMap, 22, 2⟩
def glbLeaMapState12 : Fld := ⟨.glbLeaMap, 24, 2⟩
def glbLeaMapState13 : Fld := ⟨.glbLeaMap, 26, 2⟩
def glbLeaMapState14 : Fld := ⟨.glbLeaMap, 28, 2⟩
def glbLeaMapState15 : Fld := ⟨.glbLeaMap, 30, 2⟩
def glbLeaMapState16 : Fld := ⟨.glbLeaMap, 32, 2⟩
def glbLeaMapState17 : Fld := ⟨.glbLeaMap, 34, 2⟩
def glbLeaMapState18 : Fld := ⟨.glbLeaMap, 36, 2⟩
def glbLeaMapState19 : Fld := ⟨.glbLeaMap, 38, 2⟩
def glbLeaMapState20 : Fld := ⟨.glbLeaMap, 40, 2⟩
def glbLeaMapState21 : Fld := ⟨.glbLeaMap, 42, 2⟩
def glbLeaMapState22 : Fld := ⟨.glbLeaMap, 44, 2⟩
def glbLeaMapState23 : Fld := ⟨.glbLeaMap, 46, 2⟩
def glbClusterCountFailedCount : Fld := ⟨.glbClusterCount, 32, 11⟩
def glbClusterCountSpareCount : Fld := ⟨.glbClusterCount, 16, 11⟩
def glbClusterCountExposedCount : Fld := ⟨.glbClusterCount, 0, 11⟩
def timSrcCtlPtpDomain : Fld := ⟨.timSrcCtl, 16, 8⟩
def timSrcCtlPtpLink : Fld := ⟨.timSrcCtl, 8, 7⟩
def timSrcCtlSrc : Fld := ⟨.timSrcCtl, 0, 2⟩
def timStatusOffsetNs : Fld := ⟨.timStatus, 32, 32⟩
def timStatusLockState : Fld := ⟨.timStatus, 0, 3⟩
def timBeatBeat : Fld := ⟨.timBeat, 0, 64⟩
def timPpsTaiTaiSeconds : Fld := ⟨.timPpsTai, 0, 64⟩
def timAlignStatusAligned : Fld := ⟨.timAlignStatus, 0, 64⟩
def timFoldCfgEnable : Fld := ⟨.timFoldCfg, 63, 1⟩
def timFoldCfgDigitalExact : Fld := ⟨.timFoldCfg, 62, 1⟩
def timFoldCfgMode : Fld := ⟨.timFoldCfg, 61, 1⟩
def timFoldCfgLagPolicy : Fld := ⟨.timFoldCfg, 60, 1⟩
def timFoldCfgGuard : Fld := ⟨.timFoldCfg, 48, 8⟩
def timFoldCfgPhase : Fld := ⟨.timFoldCfg, 34, 14⟩
def timFoldCfgPeriod : Fld := ⟨.timFoldCfg, 20, 14⟩
def timFoldStatState : Fld := ⟨.timFoldStat, 61, 3⟩
def timFoldStatLastDrainTick : Fld := ⟨.timFoldStat, 32, 27⟩
def timFoldStatLastSwath : Fld := ⟨.timFoldStat, 0, 32⟩
def timFoldCntSkippedCount : Fld := ⟨.timFoldCnt, 32, 32⟩
def timFoldCntOverrunCount : Fld := ⟨.timFoldCnt, 0, 32⟩
def glbNumericProfileSteppingId : Fld := ⟨.glbNumericProfile, 48, 16⟩
def glbNumericProfileGrade : Fld := ⟨.glbNumericProfile, 44, 4⟩
def glbNumericProfileFwNumeric : Fld := ⟨.glbNumericProfile, 16, 16⟩
def glbNumericProfileCalVersion : Fld := ⟨.glbNumericProfile, 0, 16⟩
def cluCoreFaultFaultSwath : Fld := ⟨.cluCoreFault, 32, 32⟩
def cluCoreFaultFaultPc : Fld := ⟨.cluCoreFault, 20, 12⟩
def cluCoreFaultFaultSlot : Fld := ⟨.cluCoreFault, 16, 1⟩
def cluCoreFaultFaultCount : Fld := ⟨.cluCoreFault, 8, 8⟩
def cluCoreFaultCause : Fld := ⟨.cluCoreFault, 0, 8⟩
def cluPartBanksBankMask : Fld := ⟨.cluPartBanks, 0, 48⟩
def cluPartCfgValid : Fld := ⟨.cluPartCfg, 63, 1⟩
def cluPartCfgGate : Fld := ⟨.cluPartCfg, 62, 1⟩
def cluPartCfgRetain : Fld := ⟨.cluPartCfg, 61, 1⟩
def cluPartCfgWclass : Fld := ⟨.cluPartCfg, 60, 1⟩
def cluPartCfgFold : Fld := ⟨.cluPartCfg, 52, 8⟩
def cluPartCfgRowCount : Fld := ⟨.cluPartCfg, 32, 11⟩
def cluPartCfgBaseRow : Fld := ⟨.cluPartCfg, 0, 10⟩
def cluSpEccCorrectedCount : Fld := ⟨.cluSpEcc, 32, 32⟩
def cluSpEccUncorrectedCount : Fld := ⟨.cluSpEcc, 16, 16⟩
def cluSpEccLastBank : Fld := ⟨.cluSpEcc, 10, 6⟩
def cluSpEccLastRow : Fld := ⟨.cluSpEcc, 0, 10⟩
def cluBankPowerPowered : Fld := ⟨.cluBankPower, 0, 48⟩
def cluBankPendingPending : Fld := ⟨.cluBankPending, 0, 48⟩
def cluSpContractConflictCount : Fld := ⟨.cluSpContract, 32, 32⟩
def cluSpContractUnorderedCount : Fld := ⟨.cluSpContract, 16, 16⟩
def cluSpContractGatedCount : Fld := ⟨.cluSpContract, 0, 16⟩
def cluArrLayerCfgValid : Fld := ⟨.cluArrLayerCfg, 63, 1⟩
def cluArrLayerCfgFold : Fld := ⟨.cluArrLayerCfg, 48, 8⟩
def cluArrLayerCfgDepth : Fld := ⟨.cluArrLayerCfg, 46, 2⟩
def cluArrLayerCfgGain : Fld := ⟨.cluArrLayerCfg, 44, 2⟩
def cluArrLayerCfgRangeCap : Fld := ⟨.cluArrLayerCfg, 40, 4⟩
def cluArrLayerCfgSplitBudget : Fld := ⟨.cluArrLayerCfg, 32, 8⟩
def cluArrLayerCfgArrayMask : Fld := ⟨.cluArrLayerCfg, 24, 8⟩
def cluArrLayerSeedRotSeed : Fld := ⟨.cluArrLayerSeed, 0, 64⟩
def cluArrLayerNumColscaleRow : Fld := ⟨.cluArrLayerNum, 48, 16⟩
def cluArrLayerNumOutlierRow : Fld := ⟨.cluArrLayerNum, 32, 16⟩
def cluArrLayerNumOutlierCount : Fld := ⟨.cluArrLayerNum, 16, 8⟩
def cluArrLayerNumStrayPolicy : Fld := ⟨.cluArrLayerNum, 0, 1⟩
def cluArrStateStuckPairs : Fld := ⟨.cluArrState, 48, 16⟩
def cluArrStateCanaryErr : Fld := ⟨.cluArrState, 32, 16⟩
def cluArrStateCanaryBase : Fld := ⟨.cluArrState, 16, 16⟩
def cluArrStateState : Fld := ⟨.cluArrState, 0, 3⟩
def cluArrWearRowRem : Fld := ⟨.cluArrWear, 32, 10⟩
def cluArrWearWearCount : Fld := ⟨.cluArrWear, 0, 32⟩
def cluArrStatSplitCount : Fld := ⟨.cluArrStat, 48, 16⟩
def cluArrStatRerunCount : Fld := ⟨.cluArrStat, 32, 16⟩
def cluArrStatClampCount : Fld := ⟨.cluArrStat, 16, 16⟩
def cluArrStatOverrunCount : Fld := ⟨.cluArrStat, 0, 16⟩
def cluArrCalCtlIntervalS : Fld := ⟨.cluArrCalCtl, 32, 16⟩
def cluArrCalCtlTempTriggerK : Fld := ⟨.cluArrCalCtl, 24, 8⟩
def cluArrCalCtlDriftMargin : Fld := ⟨.cluArrCalCtl, 0, 16⟩
def cluArrCalSelArray : Fld := ⟨.cluArrCalSel, 9, 5⟩
def cluArrCalSelColumn : Fld := ⟨.cluArrCalSel, 0, 9⟩
def cluArrCalDataKappa : Fld := ⟨.cluArrCalData, 48, 16⟩
def cluArrCalDataTCal : Fld := ⟨.cluArrCalData, 40, 8⟩
def cluArrCalDataOffset : Fld := ⟨.cluArrCalData, 32, 8⟩
def cluArrCalDataGain : Fld := ⟨.cluArrCalData, 0, 16⟩
def cluNumStatStrayVectors : Fld := ⟨.cluNumStat, 48, 16⟩
def cluNumStatClippedVectors : Fld := ⟨.cluNumStat, 32, 16⟩
def cluNumStatRedoVectors : Fld := ⟨.cluNumStat, 16, 16⟩
def cluNumStatNonfiniteVectors : Fld := ⟨.cluNumStat, 0, 16⟩
def cluSideStatSideRows : Fld := ⟨.cluSideStat, 32, 32⟩
def cluSideStatLateCount : Fld := ⟨.cluSideStat, 0, 16⟩
def cluNormSelSlot : Fld := ⟨.cluNormSel, 0, 9⟩
def cluNormDataMean : Fld := ⟨.cluNormData, 32, 32⟩
def cluNormDataWarmLeft : Fld := ⟨.cluNormData, 24, 8⟩
def cluNormDataState : Fld := ⟨.cluNormData, 16, 2⟩
def cluNormDataTriggerCount : Fld := ⟨.cluNormData, 0, 16⟩
def cluRtrRsvCells : Fld := ⟨.cluRtrRsv, 0, 64⟩
def cluRtrOwnerOwned : Fld := ⟨.cluRtrOwner, 63, 1⟩
def cluRtrOwnerFold : Fld := ⟨.cluRtrOwner, 0, 8⟩
def cluFabContractCollisionCount : Fld := ⟨.cluFabContract, 48, 16⟩
def cluFabContractLateRowCount : Fld := ⟨.cluFabContract, 32, 16⟩
def cluFabContractEarlyGetCount : Fld := ⟨.cluFabContract, 16, 16⟩
def cluFabContractMissingLeaveCount : Fld := ⟨.cluFabContract, 0, 16⟩
def cluFabRefusedHedgeRefusedCount : Fld := ⟨.cluFabRefused, 16, 16⟩
def cluFabRefusedRouteSetCount : Fld := ⟨.cluFabRefused, 0, 16⟩
def cluRtrSetValid : Fld := ⟨.cluRtrSet, 63, 1⟩
def cluRtrSetFold : Fld := ⟨.cluRtrSet, 48, 8⟩
def cluRtrSetInPort : Fld := ⟨.cluRtrSet, 40, 3⟩
def cluRtrSetOutMask : Fld := ⟨.cluRtrSet, 32, 5⟩
def timFoldHedgeWinValid0 : Fld := ⟨.timFoldHedge, 14, 1⟩
def timFoldHedgeWinValid1 : Fld := ⟨.timFoldHedge, 29, 1⟩
def timFoldHedgeWinValid2 : Fld := ⟨.timFoldHedge, 44, 1⟩
def timFoldHedgeWinValid3 : Fld := ⟨.timFoldHedge, 59, 1⟩
def timFoldHedgeWinFold0 : Fld := ⟨.timFoldHedge, 6, 8⟩
def timFoldHedgeWinFold1 : Fld := ⟨.timFoldHedge, 21, 8⟩
def timFoldHedgeWinFold2 : Fld := ⟨.timFoldHedge, 36, 8⟩
def timFoldHedgeWinFold3 : Fld := ⟨.timFoldHedge, 51, 8⟩
def timFoldHedgeWinPart0 : Fld := ⟨.timFoldHedge, 0, 6⟩
def timFoldHedgeWinPart1 : Fld := ⟨.timFoldHedge, 15, 6⟩
def timFoldHedgeWinPart2 : Fld := ⟨.timFoldHedge, 30, 6⟩
def timFoldHedgeWinPart3 : Fld := ⟨.timFoldHedge, 45, 6⟩
def hubStkStatusTemp : Fld := ⟨.hubStkStatus, 56, 8⟩
def hubStkStatusFailedDie : Fld := ⟨.hubStkStatus, 52, 4⟩
def hubStkStatusState : Fld := ⟨.hubStkStatus, 50, 2⟩
def hubStkStatusHotRefresh : Fld := ⟨.hubStkStatus, 49, 1⟩
def hubStkEccCorrectedCount : Fld := ⟨.hubStkEcc, 32, 32⟩
def hubStkEccUncorrectedCount : Fld := ⟨.hubStkEcc, 0, 32⟩
def hubStkLastErrValid : Fld := ⟨.hubStkLastErr, 63, 1⟩
def hubStkLastErrDie : Fld := ⟨.hubStkLastErr, 32, 4⟩
def hubStkLastErrRow : Fld := ⟨.hubStkLastErr, 0, 28⟩
def hubStkArbRemoteWeight : Fld := ⟨.hubStkArb, 0, 4⟩
def hubStkRegionRowCount : Fld := ⟨.hubStkRegion, 32, 28⟩
def hubStkRegionBaseRow : Fld := ⟨.hubStkRegion, 0, 28⟩
def hubStkRegionCfgValid : Fld := ⟨.hubStkRegionCfg, 63, 1⟩
def hubStkRegionCfgWclass : Fld := ⟨.hubStkRegionCfg, 62, 1⟩
def hubStkRegionCfgShare : Fld := ⟨.hubStkRegionCfg, 61, 1⟩
def hubStkRegionCfgFwOwned : Fld := ⟨.hubStkRegionCfg, 60, 1⟩
def hubStkRegionCfgFold : Fld := ⟨.hubStkRegionCfg, 48, 8⟩
def hubEngCntCallsDone : Fld := ⟨.hubEngCnt, 32, 32⟩
def hubEngCntBusyCount : Fld := ⟨.hubEngCnt, 16, 16⟩
def hubEngCntFailedCount : Fld := ⟨.hubEngCnt, 0, 16⟩
def hubEngErrCore : Fld := ⟨.hubEngErr, 30, 17⟩
def hubEngErrStatus : Fld := ⟨.hubEngErr, 0, 16⟩
def hubTokTableLoaded : Fld := ⟨.hubTokTable, 63, 1⟩
def hubTokTableKind : Fld := ⟨.hubTokTable, 62, 1⟩
def hubTokTableEntries : Fld := ⟨.hubTokTable, 32, 19⟩
def hubTokTableFoldMask : Fld := ⟨.hubTokTable, 0, 32⟩
def hubTokFoldFold0 : Fld := ⟨.hubTokFold, 0, 8⟩
def hubTokFoldFold1 : Fld := ⟨.hubTokFold, 8, 8⟩
def hubTokFoldFold2 : Fld := ⟨.hubTokFold, 16, 8⟩
def hubTokFoldFold3 : Fld := ⟨.hubTokFold, 24, 8⟩
def hubTokFoldFold4 : Fld := ⟨.hubTokFold, 32, 8⟩
def hubTokFoldFold5 : Fld := ⟨.hubTokFold, 40, 8⟩
def hubTokFoldFold6 : Fld := ⟨.hubTokFold, 48, 8⟩
def hubTokFoldFold7 : Fld := ⟨.hubTokFold, 56, 8⟩
def srvReqSelEntry : Fld := ⟨.srvReqSel, 0, 15⟩
def srvReqDataWord : Fld := ⟨.srvReqData, 0, 64⟩
def srvStatFreeEntries : Fld := ⟨.srvStat, 48, 16⟩
def srvStatRunningEntries : Fld := ⟨.srvStat, 32, 16⟩
def srvStatDeadlineFailed : Fld := ⟨.srvStat, 16, 16⟩
def srvStatLengthFailed : Fld := ⟨.srvStat, 0, 16⟩
def hubKvPoolValid : Fld := ⟨.hubKvPool, 63, 1⟩
def hubKvPoolScratchpad : Fld := ⟨.hubKvPool, 62, 1⟩
def hubKvPoolIndex : Fld := ⟨.hubKvPool, 56, 6⟩
def hubKvPoolFreeFrames : Fld := ⟨.hubKvPool, 32, 21⟩
def hubKvPoolTotalFrames : Fld := ⟨.hubKvPool, 0, 21⟩
def wgtCtlEcdsaOnly : Fld := ⟨.wgtCtl, 32, 1⟩
def wgtCtlMinArrayS : Fld := ⟨.wgtCtl, 16, 16⟩
def wgtModelSelHandle : Fld := ⟨.wgtModelSel, 0, 12⟩
def wgtModelDataWord : Fld := ⟨.wgtModelData, 0, 64⟩
def wgtStatLoadsDone : Fld := ⟨.wgtStat, 48, 16⟩
def wgtStatLoadsFailed : Fld := ⟨.wgtStat, 32, 16⟩
def wgtStatSwitches : Fld := ⟨.wgtStat, 16, 16⟩
def wgtStatRebuildWaits : Fld := ⟨.wgtStat, 0, 16⟩
def cluArrGroupMapPhys : Fld := ⟨.cluArrGroupMap, 0, 8⟩
def cliEpSelEp : Fld := ⟨.cliEpSel, 0, 12⟩
def cliEpCfgValid : Fld := ⟨.cliEpCfg, 63, 1⟩
def cliEpCfgSetupMode : Fld := ⟨.cliEpCfg, 62, 1⟩
def cliEpCfgSetupOpen : Fld := ⟨.cliEpCfg, 61, 1⟩
def cliEpCfgModelsAllowed : Fld := ⟨.cliEpCfg, 60, 1⟩
def cliEpCfgSubLog2 : Fld := ⟨.cliEpCfg, 55, 5⟩
def cliEpCfgCmpLog2 : Fld := ⟨.cliEpCfg, 50, 5⟩
def cliEpCfgSetupSlot : Fld := ⟨.cliEpCfg, 32, 8⟩
def cliEpCfgFirstSeq : Fld := ⟨.cliEpCfg, 0, 32⟩
def cliEpSubVaSubVa : Fld := ⟨.cliEpSubVa, 0, 64⟩
def cliEpCmpVaCmpVa : Fld := ⟨.cliEpCmpVa, 0, 64⟩
def cliEpKeysSubKey : Fld := ⟨.cliEpKeys, 32, 32⟩
def cliEpKeysCmpKey : Fld := ⟨.cliEpKeys, 0, 32⟩
def cliEpStateState : Fld := ⟨.cliEpState, 61, 3⟩
def cliEpStateUnresolved : Fld := ⟨.cliEpState, 32, 17⟩
def cliEpStateNextSub : Fld := ⟨.cliEpState, 0, 32⟩
def cliEpCmpPosNextCmp : Fld := ⟨.cliEpCmpPos, 32, 32⟩
def cliEpCmpPosFloor : Fld := ⟨.cliEpCmpPos, 0, 32⟩
def cliDbKeyDbKey : Fld := ⟨.cliDbKey, 0, 32⟩
def cliStatRejected : Fld := ⟨.cliStat, 48, 16⟩
def cliStatBadDoorbells : Fld := ⟨.cliStat, 32, 16⟩
def cliStatReplays : Fld := ⟨.cliStat, 16, 16⟩
def cliStatCarries : Fld := ⟨.cliStat, 0, 16⟩
def lnkCfgPort : Fld := ⟨.lnkCfg, 8, 8⟩
def lnkCfgMode : Fld := ⟨.lnkCfg, 1, 2⟩
def lnkCfgEnable : Fld := ⟨.lnkCfg, 0, 1⟩
def lnkStatusState : Fld := ⟨.lnkStatus, 61, 3⟩
def lnkStatusPartnerLink : Fld := ⟨.lnkStatus, 48, 8⟩
def lnkStatusPartnerZ : Fld := ⟨.lnkStatus, 42, 5⟩
def lnkStatusPartnerY : Fld := ⟨.lnkStatus, 37, 5⟩
def lnkStatusPartnerX : Fld := ⟨.lnkStatus, 32, 5⟩
def lnkStatusReversed : Fld := ⟨.lnkStatus, 8, 1⟩
def lnkStatusInverted : Fld := ⟨.lnkStatus, 0, 4⟩
def lnkCntDownCount : Fld := ⟨.lnkCnt, 48, 16⟩
def lnkCntRetryCount : Fld := ⟨.lnkCnt, 0, 48⟩
def lnkFecCrcFail : Fld := ⟨.lnkFec, 48, 16⟩
def lnkFecFecCorrected : Fld := ⟨.lnkFec, 0, 48⟩
def lnkTorusValid : Fld := ⟨.lnkTorus, 63, 1⟩
def lnkTorusSizeZ : Fld := ⟨.lnkTorus, 40, 5⟩
def lnkTorusSizeY : Fld := ⟨.lnkTorus, 32, 5⟩
def lnkTorusSizeX : Fld := ⟨.lnkTorus, 24, 5⟩
def lnkTorusZ : Fld := ⟨.lnkTorus, 16, 5⟩
def lnkTorusY : Fld := ⟨.lnkTorus, 8, 5⟩
def lnkTorusX : Fld := ⟨.lnkTorus, 0, 5⟩
def lnkPortState : Fld := ⟨.lnkPort, 61, 3⟩
def lnkPortLinksUp : Fld := ⟨.lnkPort, 48, 5⟩
def lnkPortRole : Fld := ⟨.lnkPort, 0, 4⟩
def lnkFoldMulti : Fld := ⟨.lnkFold, 63, 1⟩
def lnkFoldHMax : Fld := ⟨.lnkFold, 57, 6⟩
def lnkFoldFibreM : Fld := ⟨.lnkFold, 48, 9⟩
def lnkFoldBlockTag : Fld := ⟨.lnkFold, 0, 32⟩
def lnkWinSelWindow : Fld := ⟨.lnkWinSel, 0, 16⟩
def lnkWinDataOpen : Fld := ⟨.lnkWinData, 63, 1⟩
def lnkWinDataFold : Fld := ⟨.lnkWinData, 48, 8⟩
def lnkWinDataGeneration : Fld := ⟨.lnkWinData, 32, 16⟩
def lnkWinDataRows : Fld := ⟨.lnkWinData, 0, 32⟩
def lnkWinStatClosedRefusals : Fld := ⟨.lnkWinStat, 32, 32⟩
def lnkWinStatRangeRefusals : Fld := ⟨.lnkWinStat, 16, 16⟩
def lnkWinStatMarkerLate : Fld := ⟨.lnkWinStat, 0, 16⟩
def pwrStatusSupplyState : Fld := ⟨.pwrStatus, 61, 3⟩
def pwrStatusSegUp : Fld := ⟨.pwrStatus, 56, 4⟩
def pwrStatusSegLost : Fld := ⟨.pwrStatus, 52, 4⟩
def pwrStatusThrottle : Fld := ⟨.pwrStatus, 46, 6⟩
def pwrStatusReversedSeen : Fld := ⟨.pwrStatus, 35, 1⟩
def pwrStatusAuxPresent : Fld := ⟨.pwrStatus, 34, 1⟩
def pwrStatusHvPresent : Fld := ⟨.pwrStatus, 33, 1⟩
def pwrStatusPwrEn : Fld := ⟨.pwrStatus, 32, 1⟩
def pwrStatusInputDv : Fld := ⟨.pwrStatus, 0, 16⟩
def pwrInputPBeatW : Fld := ⟨.pwrInput, 32, 16⟩
def pwrInputP2msW : Fld := ⟨.pwrInput, 16, 16⟩
def pwrInputP1sW : Fld := ⟨.pwrInput, 0, 16⟩
def pwrLimitWindowW : Fld := ⟨.pwrLimit, 16, 16⟩
def pwrLimitSustainedW : Fld := ⟨.pwrLimit, 0, 16⟩
def pwrSegState : Fld := ⟨.pwrSeg, 62, 2⟩
def pwrSegBus10mv : Fld := ⟨.pwrSeg, 16, 16⟩
def pwrSegOutW : Fld := ⟨.pwrSeg, 0, 16⟩
def pwrEvtCntWarnCount : Fld := ⟨.pwrEvtCnt, 48, 16⟩
def pwrEvtCntQuiesceCount : Fld := ⟨.pwrEvtCnt, 32, 16⟩
def pwrEvtCntThrottleBeats : Fld := ⟨.pwrEvtCnt, 0, 32⟩
def pwrIlogSelDomain : Fld := ⟨.pwrIlogSel, 16, 11⟩
def pwrIlogSelAge : Fld := ⟨.pwrIlogSel, 0, 12⟩
def pwrIlogDataSample0 : Fld := ⟨.pwrIlogData, 0, 16⟩
def pwrIlogDataSample1 : Fld := ⟨.pwrIlogData, 16, 16⟩
def pwrIlogDataSample2 : Fld := ⟨.pwrIlogData, 32, 16⟩
def pwrIlogDataSample3 : Fld := ⟨.pwrIlogData, 48, 16⟩
def pwrIlogHeadHeadTs : Fld := ⟨.pwrIlogHead, 0, 64⟩
def hubPwrBudgetWindowUnits : Fld := ⟨.hubPwrBudget, 16, 9⟩
def hubPwrBudgetBudget : Fld := ⟨.hubPwrBudget, 0, 11⟩
def hubPwrArbFrozen : Fld := ⟨.hubPwrArb, 61, 1⟩
def hubPwrArbWaiting : Fld := ⟨.hubPwrArb, 40, 9⟩
def hubPwrArbCommitted : Fld := ⟨.hubPwrArb, 24, 12⟩
def hubPwrArbDelayedGrants : Fld := ⟨.hubPwrArb, 0, 24⟩
def hubPwrRailLeaRailDa : Fld := ⟨.hubPwrRail, 48, 16⟩
def hubPwrRailAoRailDa : Fld := ⟨.hubPwrRail, 32, 16⟩
def hubPwrRailAoPhasesOk : Fld := ⟨.hubPwrRail, 24, 3⟩
def hubPwrRailLeaPhasesOk : Fld := ⟨.hubPwrRail, 16, 5⟩
def hubPwrRailAoSenseOpen : Fld := ⟨.hubPwrRail, 1, 1⟩
def hubPwrRailLeaSenseOpen : Fld := ⟨.hubPwrRail, 0, 1⟩
def cluPwrCfgStanding : Fld := ⟨.cluPwrCfg, 24, 8⟩
def cluPwrCfgBankDefault : Fld := ⟨.cluPwrCfg, 16, 8⟩
def cluPwrCfgArrayDefault : Fld := ⟨.cluPwrCfg, 8, 8⟩
def cluPwrCfgMatrixDefault : Fld := ⟨.cluPwrCfg, 0, 8⟩
def cluPwrStateState : Fld := ⟨.cluPwrState, 62, 2⟩
def cluPwrStateSetMv : Fld := ⟨.cluPwrState, 38, 10⟩
def cluPwrStateSlicesOk : Fld := ⟨.cluPwrState, 32, 4⟩
def cluPwrStateCapUnits : Fld := ⟨.cluPwrState, 24, 8⟩
def cluPwrStateThrottle : Fld := ⟨.cluPwrState, 8, 6⟩
def cluPwrVminRearm : Fld := ⟨.cluPwrVmin, 63, 1⟩
def cluPwrVminValid : Fld := ⟨.cluPwrVmin, 62, 1⟩
def cluPwrVminVminMv : Fld := ⟨.cluPwrVmin, 0, 10⟩
def cluPwrVminTsVminTs : Fld := ⟨.cluPwrVminTs, 0, 64⟩
def cluPwrCntReservoirCount : Fld := ⟨.cluPwrCnt, 32, 32⟩
def cluPwrCntDroopCount : Fld := ⟨.cluPwrCnt, 16, 16⟩
def cluPwrCntCappedCount : Fld := ⟨.cluPwrCnt, 0, 16⟩
def thmCfgTHot : Fld := ⟨.thmCfg, 56, 8⟩
def thmCfgStackHot : Fld := ⟨.thmCfg, 48, 8⟩
def thmCfgTOpen : Fld := ⟨.thmCfg, 40, 8⟩
def thmCoolantFlowDl : Fld := ⟨.thmCoolant, 32, 16⟩
def thmCoolantInletDc : Fld := ⟨.thmCoolant, 16, 16⟩
def thmMeasPAllowW : Fld := ⟨.thmMeas, 48, 16⟩
def thmMeasFUsedDl : Fld := ⟨.thmMeas, 32, 16⟩
def thmMeasTOutDc : Fld := ⟨.thmMeas, 16, 16⟩
def thmMeasTInDc : Fld := ⟨.thmMeas, 0, 16⟩
def thmStatusState : Fld := ⟨.thmStatus, 61, 3⟩
def thmStatusStopCause : Fld := ⟨.thmStatus, 48, 8⟩
def thmStatusFlowLossN : Fld := ⟨.thmStatus, 47, 1⟩
def thmStatusSwapped : Fld := ⟨.thmStatus, 46, 1⟩
def thmStatusTraySilent : Fld := ⟨.thmStatus, 45, 1⟩
def thmStatusTCool : Fld := ⟨.thmStatus, 38, 6⟩
def thmStopClrClear : Fld := ⟨.thmStopClr, 0, 1⟩
def thmSlewRefW : Fld := ⟨.thmSlew, 48, 16⟩
def thmSlewBallastW : Fld := ⟨.thmSlew, 32, 16⟩
def thmSlewGrantFactor : Fld := ⟨.thmSlew, 18, 7⟩
def thmCntStopCount : Fld := ⟨.thmCnt, 48, 16⟩
def thmCntHotOffCount : Fld := ⟨.thmCnt, 32, 16⟩
def thmCntDeratedS : Fld := ⟨.thmCnt, 0, 32⟩
def thmFoldModeOpen : Fld := ⟨.thmFoldMode, 0, 1⟩
def cluThmTempC : Fld := ⟨.cluThm, 56, 8⟩
def cluThmHotLevel : Fld := ⟨.cluThm, 50, 6⟩
def cluThmState : Fld := ⟨.cluThm, 48, 2⟩
def cluThmSensorFail : Fld := ⟨.cluThm, 47, 1⟩
def cluThmFreqStep : Fld := ⟨.cluThm, 45, 2⟩
def hubThmFail : Fld := ⟨.hubThm, 40, 4⟩
def hubThmStackC : Fld := ⟨.hubThm, 32, 8⟩
def hubThmTemp0 : Fld := ⟨.hubThm, 0, 8⟩
def hubThmTemp1 : Fld := ⟨.hubThm, 8, 8⟩
def hubThmTemp2 : Fld := ⟨.hubThm, 16, 8⟩
def hubThmTemp3 : Fld := ⟨.hubThm, 24, 8⟩
def fltLogSelGlobal : Fld := ⟨.fltLogSel, 63, 1⟩
def fltLogSelLea : Fld := ⟨.fltLogSel, 16, 6⟩
def fltLogSelAge : Fld := ⟨.fltLogSel, 0, 14⟩
def fltLogDataWord : Fld := ⟨.fltLogData, 0, 64⟩
def fltLogStatOverflow : Fld := ⟨.fltLogStat, 32, 32⟩
def fltLogStatHeld : Fld := ⟨.fltLogStat, 0, 32⟩
def fltStreamCfgEnable : Fld := ⟨.fltStreamCfg, 63, 1⟩
def fltStreamCfgTarget : Fld := ⟨.fltStreamCfg, 62, 1⟩
def fltStreamCfgIpv6 : Fld := ⟨.fltStreamCfg, 61, 1⟩
def fltStreamCfgLink : Fld := ⟨.fltStreamCfg, 48, 7⟩
def fltStreamCfgUdpPort : Fld := ⟨.fltStreamCfg, 32, 16⟩
def fltStreamCfgClassMask : Fld := ⟨.fltStreamCfg, 1, 9⟩
def fltStreamAddrAddr : Fld := ⟨.fltStreamAddr, 0, 64⟩
def fltStreamStatSent : Fld := ⟨.fltStreamStat, 32, 32⟩
def fltStreamStatDropped : Fld := ⟨.fltStreamStat, 0, 32⟩
def fltReserveMask : Fld := ⟨.fltReserve, 0, 24⟩
def fltReplaceStatDone : Fld := ⟨.fltReplaceStat, 48, 16⟩
def fltReplaceStatWaiting : Fld := ⟨.fltReplaceStat, 32, 16⟩
def fltReplaceStatLastMs : Fld := ⟨.fltReplaceStat, 16, 16⟩
def fltReplaceStatDeadRouters : Fld := ⟨.fltReplaceStat, 0, 16⟩
def glbBootStatusStep : Fld := ⟨.glbBootStatus, 60, 4⟩
def glbBootStatusSlot : Fld := ⟨.glbBootStatus, 59, 1⟩
def glbBootStatusFallback : Fld := ⟨.glbBootStatus, 58, 1⟩
def glbBootStatusWarm : Fld := ⟨.glbBootStatus, 57, 1⟩
def glbBootStatusShares : Fld := ⟨.glbBootStatus, 48, 7⟩
def glbBootStatusBootMs : Fld := ⟨.glbBootStatus, 0, 32⟩
def glbSealSealed : Fld := ⟨.glbSeal, 63, 1⟩
def glbSealSeal : Fld := ⟨.glbSeal, 0, 1⟩
def secCmdSlot : Fld := ⟨.secCmd, 8, 8⟩
def secCmdOp : Fld := ⟨.secCmd, 0, 8⟩
def secStatusResult : Fld := ⟨.secStatus, 62, 2⟩
def secStatusSignerMap : Fld := ⟨.secStatus, 32, 16⟩
def secStatusSetupInstalls : Fld := ⟨.secStatus, 0, 32⟩
def secFwMinSvn : Fld := ⟨.secFw, 48, 16⟩
def secFwSvn : Fld := ⟨.secFw, 32, 16⟩
def secFwVersion : Fld := ⟨.secFw, 0, 32⟩
def secFwStagedStaged : Fld := ⟨.secFwStaged, 63, 1⟩
def secFwStagedIncomplete : Fld := ⟨.secFwStaged, 62, 1⟩
def secFwStagedVersion : Fld := ⟨.secFwStaged, 0, 32⟩
def secAttestNextTreeReady : Fld := ⟨.secAttest, 40, 1⟩
def secAttestNextIndex : Fld := ⟨.secAttest, 0, 40⟩
def secKeybufWord : Fld := ⟨.secKeybuf, 0, 64⟩
def glbResetCtlTarget : Fld := ⟨.glbResetCtl, 8, 16⟩
def glbResetCtlOp : Fld := ⟨.glbResetCtl, 0, 4⟩
def glbResetCauseClass : Fld := ⟨.glbResetCause, 60, 4⟩
def glbResetCauseCause : Fld := ⟨.glbResetCause, 52, 8⟩
def glbResetCauseResetCount : Fld := ⟨.glbResetCause, 0, 32⟩
def glbLpCtlState : Fld := ⟨.glbLpCtl, 0, 2⟩
def glbLpStatusState : Fld := ⟨.glbLpStatus, 62, 2⟩
def glbLpStatusStandbyCount : Fld := ⟨.glbLpStatus, 0, 32⟩
def glbRestoreWord : Fld := ⟨.glbRestore, 0, 64⟩
def glbLpOffMask : Fld := ⟨.glbLpOff, 0, 24⟩
def glbSwathOutEnable : Fld := ⟨.glbSwathOut, 63, 1⟩
def glbSwathOutFold : Fld := ⟨.glbSwathOut, 48, 8⟩

end Fld

/-! ### Addresses -/

/-- How many units a scope has. -/
def Scope.units : Scope → Nat
  | .glob => 1
  | .link => 96
  | .hub => 64
  | .cluster => 1536
  | .router => 1600

/-- Table 00-5: the base of lea n. -/
def leaBase (n : Nat) : Nat := 0x0200000000 + n * 0x02000000

/-- Table 00-5: where the block of a unit begins. Clusters are numbered 24·n + k. -/
def Scope.origin : Scope → Nat → Nat
  | .glob, _ => 0
  | .link, l => 0x100000 + l * 0x1000
  | .hub, n => leaBase n
  | .cluster, q => leaBase (q / 24) + (q % 24 + 1) * 0x100000
  | .router, u => if u < 1536 then leaBase (u / 24) + (u % 24 + 1) * 0x100000 else leaBase (u - 1536)

/-- The address of instance `i` of a register of unit `u`. -/
def Reg.addr (r : Reg) (u i : Nat) : Nat := r.place.scope.origin u + r.place.base + r.place.stride * i

/-- The instance of a register that an offset in its block names. -/
def Reg.inst (r : Reg) (off : Nat) : Option Nat :=
  let p := r.place
  if p.base ≤ off ∧ (off - p.base) % p.stride = 0 ∧ (off - p.base) / p.stride < p.count then
    some ((off - p.base) / p.stride) else none

/-- The register among some that holds an offset of a block. -/
def Reg.atOffset (ok : Scope → Bool) (off : Nat) : List Reg → Option (Reg × Nat)
  | [] => none
  | r :: rest =>
    if ok r.place.scope then
      match r.inst off with
      | some i => some (r, i)
      | none => Reg.atOffset ok off rest
    else Reg.atOffset ok off rest

/-- R6, R8, Table 00-5: the register, unit and instance that an address names, if it names one. -/
def Reg.decode (a : Nat) : Option (Reg × Nat × Nat) :=
  if a < 0x100000 ∨ (0x160000 ≤ a ∧ a < 0x0200000000) then
    (Reg.atOffset (· == .glob) a Reg.all).map (fun x => (x.1, 0, x.2))
  else if a < 0x100000 + 96 * 0x1000 then
    (Reg.atOffset (· == .link) ((a - 0x100000) % 0x1000) Reg.all).map
      (fun x => (x.1, (a - 0x100000) / 0x1000, x.2))
  else
    let n := (a - 0x0200000000) / 0x02000000
    let o := (a - 0x0200000000) % 0x02000000
    if 64 ≤ n then none
    else if o < 0x100000 then
      (Reg.atOffset (fun c => c == .hub || c == .router) o Reg.all).map
        (fun x => (x.1, if x.1.place.scope = .router then 1536 + n else n, x.2))
    else if o / 0x100000 ≤ 24 then
      (Reg.atOffset (fun c => c == .cluster || c == .router) (o % 0x100000) Reg.all).map
        (fun x => (x.1, 24 * n + o / 0x100000 - 1, x.2))
    else none

/-! ### Words and fields -/

/-- The bits of a field in a word. -/
def getBits (w : Word) (lo width : Nat) : Nat := w.toNat / 2 ^ lo % 2 ^ width

/-- The word with a field set, modulo its width. -/
def setBits (w : Word) (lo width v : Nat) : Word :=
  BitVec.ofNat 64 (w.toNat - getBits w lo width * 2 ^ lo + v % 2 ^ width * 2 ^ lo)

/-- The reset value that a register's fields give it. -/
def Reg.resetOf (fs : List FieldDesc) : Word :=
  BitVec.ofNat 64 (fs.foldl (fun acc f => acc + f.reset * 2 ^ f.lo) 0)

/-- What a register reads as when nothing has changed it since a P reset. Table 13-2 gives the links: links 8·e + 7 are
Ethernet on a port of their own, the rest form the six torus ports of 14 links; roles are 0 none, 1 to 6 torus,
7 Ethernet. -/
def Reg.resetWord (r : Reg) (u i : Nat) : Word :=
  match r with
  | .lnkCfg => setBits (setBits (Reg.resetOf r.fields) Fld.lnkCfgMode.lo 2 (Link.reset u).mode)
      Fld.lnkCfgPort.lo Fld.lnkCfgPort.width (Link.reset u).port
  | .lnkPort => setBits (Reg.resetOf r.fields) Fld.lnkPortRole.lo 4 (if i < 6 then i + 1 else if i < 18 then 7 else 0)
  | _ => Reg.resetOf r.fields

/-- The stored word of a register. -/
def State.reg (s : State) (r : Reg) (u i : Nat) : Word := Map.get (r.resetWord u i) s.regs (r.addr u i)

def State.setReg (s : State) (r : Reg) (u i : Nat) (w : Word) : State :=
  { s with regs := Map.set (r.resetWord u i) s.regs (r.addr u i) w }

/-- A field of a register. -/
def State.fld (s : State) (f : Fld) (u i : Nat) : Nat := getBits (s.reg f.reg u i) f.lo f.width

def State.setFld (s : State) (f : Fld) (u i v : Nat) : State :=
  s.setReg f.reg u i (setBits (s.reg f.reg u i) f.lo f.width v)

/-- Adds to a counter, which saturates (Table 18-6). -/
def State.bumpBy (s : State) (f : Fld) (u i n : Nat) : State :=
  s.setFld f u i (Nat.min (s.fld f u i + n) (2 ^ f.width - 1))

def State.bump (s : State) (f : Fld) (u i : Nat) : State := s.bumpBy f u i 1

/-- Sets or clears bit `b` of a field that is a mask. -/
def State.setBit (s : State) (f : Fld) (u i b : Nat) (on : Bool) : State :=
  let v := s.fld f u i
  let has := v / 2 ^ b % 2 = 1
  s.setFld f u i (if on then (if has then v else v + 2 ^ b) else if has then v - 2 ^ b else v)

def State.bit (s : State) (f : Fld) (u i b : Nat) : Bool := s.fld f u i / 2 ^ b % 2 == 1

/-! ### What a reset class returns to its reset value (R11) -/

/-- The word of a register after a reset of the classes in `mask`: each field that lists one of them takes its reset
value. -/
def Reg.clearWord (r : Reg) (u i mask : Nat) (w : Word) : Word :=
  r.fields.foldl (fun acc f => if f.cls &&& mask = 0 then acc
    else setBits acc f.lo f.width (getBits (r.resetWord u i) f.lo f.width)) w

/-- Clears every listed register that `here` names, for the classes in `mask`. -/
def State.clearRegs (s : State) (mask : Nat) (here : Reg → Nat → Nat → Bool) : State :=
  s.regs.foldl (fun acc e =>
    match Reg.decode e.1 with
    | some (r, u, i) => if here r u i then acc.setReg r u i (r.clearWord u i mask e.2) else acc
    | none => acc) s

end Sys2Proof.Machine
end

