-- ==== Sys2Proof/Machine/Ops.lean ====
section
/-! DEFINITION. The operations that every family of commands shares: the parts of the state, places on the wafer, time,
event records, and the status that an item takes. -/

namespace Sys2Proof.Machine

/-! ### Outcomes -/

/-- A command that names units the W1 has changes the state; one that names a unit no W1 has stops. -/
def onUnit (known : Bool) (s : State) : Host.Outcome State Fault Refusal :=
  if known then .next s else .fault .noSuchUnit

/-- An event comes about only when its condition holds. -/
def whenever (c : Bool) (f : State → State) (s : State) : State := if c then f s else s

/-! ### The parts of the state -/

/-- Commands arrive in the order of their ticks. -/
def State.at (s : State) (t : Nat) : State := { s with now := Nat.max s.now t }

def State.core (s : State) (c : Nat) : Core := Map.get Core.reset s.cores c
def State.setCore (s : State) (c : Nat) (x : Core) : State := { s with cores := Map.set Core.reset s.cores c x }
def State.modCore (s : State) (c : Nat) (f : Core → Core) : State := s.setCore c (f (s.core c))

def State.cluster (s : State) (q : Nat) : Cluster := Map.get Cluster.reset s.clusters q
def State.setCluster (s : State) (q : Nat) (x : Cluster) : State :=
  { s with clusters := Map.set Cluster.reset s.clusters q x }
def State.modCluster (s : State) (q : Nat) (f : Cluster → Cluster) : State := s.setCluster q (f (s.cluster q))

def State.router (s : State) (x : Nat) : Router := Map.get Router.reset s.routers x
def State.modRouter (s : State) (x : Nat) (f : Router → Router) : State :=
  { s with routers := Map.set Router.reset s.routers x (f (s.router x)) }

def State.hub (s : State) (n : Nat) : Hub := Map.get Hub.reset s.hubs n
def State.modHub (s : State) (n : Nat) (f : Hub → Hub) : State :=
  { s with hubs := Map.set Hub.reset s.hubs n (f (s.hub n)) }

def State.dram (s : State) (n : Nat) : Stack := Map.get Stack.reset s.drams n
def State.modDram (s : State) (n : Nat) (f : Stack → Stack) : State :=
  { s with drams := Map.set Stack.reset s.drams n (f (s.dram n)) }

def State.fold (s : State) (f : Nat) : Fold := Map.get Fold.reset s.folds f
def State.setFold (s : State) (f : Nat) (x : Fold) : State := { s with folds := Map.set Fold.reset s.folds f x }
def State.modFold (s : State) (f : Nat) (g : Fold → Fold) : State := s.setFold f (g (s.fold f))

def State.entry (s : State) (g : Nat) : Entry := Map.get Entry.reset s.entries g
def State.modEntry (s : State) (g : Nat) (f : Entry → Entry) : State :=
  { s with entries := Map.set Entry.reset s.entries g (f (s.entry g)) }

def State.endpoint (s : State) (e : Nat) : Endpoint := Map.get Endpoint.reset s.endpoints e
def State.modEndpoint (s : State) (e : Nat) (f : Endpoint → Endpoint) : State :=
  { s with endpoints := Map.set Endpoint.reset s.endpoints e (f (s.endpoint e)) }

/-- R575: a module record is written to copies 0 to 3 in turn, under the next sequence number. -/
def State.recordModule (s : State) : State := { s with store := { s.store with seq := (s.store.seq + 1) % 2 ^ 64 } }

def State.modModel (s : State) (h : Nat) (f : Model → Model) : State :=
  match Map.find s.models h with
  | some m => { s with models := Map.put s.models h (f m) }
  | none => s

def State.linkOf (s : State) (l : Nat) : Link := Map.get (Link.reset l) s.links l
def State.modLink (s : State) (l : Nat) (f : Link → Link) : State :=
  { s with links := Map.set (Link.reset l) s.links l (f (s.linkOf l)) }

def State.port (s : State) (p : Nat) : Port := Map.get Port.reset s.ports p
def State.modPort (s : State) (p : Nat) (f : Port → Port) : State :=
  { s with ports := Map.set Port.reset s.ports p (f (s.port p)) }

def State.modPower (s : State) (f : Power → Power) : State := { s with power := f s.power }
def State.modThermal (s : State) (f : Thermal → Thermal) : State := { s with thermal := f s.thermal }
def State.modSec (s : State) (f : Sec → Sec) : State := { s with sec := f s.sec }

/-- A free value has been drawn: the next one is another. -/
def State.drew (s : State) : State := { s with fresh := s.fresh + 1 }

/-- What leaves the module is kept, newest first. -/
def State.send (s : State) (o : Out) : State := { s with out := o :: s.out }

/-- R7, R8, R47, R619: an access to the setup space completes on the path that carried it; `ok` is false for one that
completes with an error status. -/
def State.completes (s : State) (p : Path) (addr : Nat) (ok : Bool) : State := s.send (.access p addr ok)

/-! ### Places (R15 to R22, R25) -/

/-- A core address (00, Addresses): n in bits 16 to 11, k in 10 to 6, j in 5 to 0. -/
def coreAddr (q j : Nat) : Nat := q / 24 * 2048 + q % 24 * 64 + j
/-- The cluster 24·n + k of a core address. -/
def clusterOf (c : Nat) : Nat := 24 * (c / 2048) + c / 64 % 32
def coreIndex (c : Nat) : Nat := c % 64
/-- A cluster's agent in the form of a core address (R557). -/
def agentAddr (q : Nat) : Nat := coreAddr q 0
def hubAddr (n : Nat) : Nat := n * 2048

def validCore (c : Nat) : Bool := c < 131072 && c / 64 % 32 < 24 && c % 64 < 48
def validCluster (q : Nat) : Bool := q < 1536
def validLea (n : Nat) : Bool := n < 64
def validFold (f : Nat) : Bool := f < 256
def validEp (e : Nat) : Bool := e < 4096
def validLink (l : Nat) : Bool := l < 96

/-- R17: cluster k is the tile t = 5·r + c of its lea, k = t below the hub tile 12 and t − 1 above it. -/
def tileInLea (k : Nat) : Nat := if k < 12 then k else k + 1
def clusterX (q : Nat) : Nat := 5 * (q / 24 % 8) + tileInLea (q % 24) % 5
def clusterY (q : Nat) : Nat := 5 * (q / 24 / 8) + tileInLea (q % 24) / 5
/-- A tile as x + 64·y. -/
def tileOf (q : Nat) : Nat := clusterX q + 64 * clusterY q
/-- R18. -/
def hubTile (n : Nat) : Nat := 5 * (n % 8) + 2 + 64 * (5 * (n / 8) + 2)
def tileX (x : Nat) : Nat := x % 64
def tileY (x : Nat) : Nat := x / 64
def validTile (x : Nat) : Bool := tileX x < 40 && tileY x < 40
def leaOfTile (x : Nat) : Nat := tileY x / 5 * 8 + tileX x / 5
/-- The cluster of a tile; none for a hub tile. -/
def clusterOfTile (x : Nat) : Option Nat :=
  let t := 5 * (tileY x % 5) + tileX x % 5
  if t = 12 then none else some (24 * leaOfTile x + (if t < 12 then t else t - 1))
/-- The unit of a tile in the numbering of router registers. -/
def routerUnit (x : Nat) : Nat :=
  match clusterOfTile x with
  | some q => q
  | none => 1536 + leaOfTile x
def dist (a b : Nat) : Nat := (a - b) + (b - a)
/-- Hops between tiles: the Manhattan distance (R264). -/
def hops (a b : Nat) : Nat := dist (tileX a) (tileX b) + dist (tileY a) (tileY b)

/-- R22, Table 01-3: the lea that carries a link. -/
def perimeter : List Nat :=
  [1, 2, 3, 4, 5, 6, 15, 23, 31, 39, 47, 55, 62, 61, 60, 59, 58, 57, 48, 40, 32, 24, 16, 8]
def linkLea (l : Nat) : Nat := perimeter.getD (l / 4) 0

/-! ### Which positions are exposed (R32 to R36) -/

/-- 0 failed, 1 exposed, 2 spare. -/
def State.position (s : State) (q : Nat) : Nat := Map.get 1 s.positions q
/-- R56: a lea that is held in reset, or lost, exposes nothing. -/
def State.exposed (s : State) (q : Nat) : Bool := s.position q == 1 && !(s.hub (q / 24)).dead
def State.countPos (s : State) (v : Nat) : Nat := ((List.range 1536).filter (fun q => s.position q == v)).length

/-! ### The ordering code and the clocks (R46, R53 to R57, R184) -/

/-- GLB_NUMERIC_PROFILE.grade is 0xA on grade A and 0xB on grade B. -/
def State.gradeB (s : State) : Bool := s.fld Fld.glbNumericProfileGrade 0 0 == 0xB
def State.beatTicks (s : State) : Nat := if s.gradeB then 3200 else 3600
/-- Ticks in a second. -/
def State.second (s : State) : Nat := s.beatTicks * 1000000
def State.planeTicks (s : State) : Nat := if s.gradeB then 128 else 144
def State.gradeCount (s : State) : Nat := if s.gradeB then 1472 else 1504

/-- Device time on a tick, in nanoseconds. -/
def State.nsAt (s : State) (x : Nat) : Nat := s.time.atNs + (x - s.time.atTick) * 1000 / s.beatTicks
def State.ns (s : State) : Nat := s.nsAt s.now
/-- R45. -/
def State.beat (s : State) : Nat := s.ns / 1000
/-- The tick of the starting edge of beat `b`, for a beat after the last correction of the time. -/
def State.edgeTick (s : State) (b : Nat) : Nat :=
  s.time.atTick + ((1000 * b - s.time.atNs) * s.beatTicks + 999) / 1000

/-- The tick of a device time-stamp, rounded as an edge is. -/
def State.tickOfNs (s : State) (n : Nat) : Nat := s.time.atTick + ((n - s.time.atNs) * s.beatTicks + 999) / 1000

/-- The first tick of a grid of period `p` from `base` at or after `x`. -/
def gridUp (base p x : Nat) : Nat := base + (x - base + (p - 1)) / p * p

/-- R57: how many ticks after an edge of beat `b` the next phase-frame boundary comes. -/
def State.frameOffset (s : State) (b : Nat) : Nat :=
  if s.gradeB then (if b % 3 = 1 then 4 else if b % 3 = 2 then 8 else 0) else 0
/-- The first phase-frame boundary at or after tick `x`. -/
def State.frameUp (s : State) (x : Nat) : Nat :=
  let b := s.nsAt x / 1000
  gridUp (s.edgeTick b + s.frameOffset b) 12 x

/-! ### Folds as the other parts see them -/

def State.foldState (s : State) (f : Nat) : Nat := s.fld Fld.timFoldStatState 0 f
def State.setFoldState (s : State) (f v : Nat) : State := s.setFld Fld.timFoldStatState 0 f v
/-- ARMED or RUNNING (R47). -/
def State.foldBusy (s : State) (f : Nat) : Bool := s.foldState f == 1 || s.foldState f == 2
def State.foldClusters (s : State) (f : Nat) : List Nat :=
  match (s.fold f).image with
  | some im => im.clusters
  | none => []
/-- The fold that a cluster belongs to (R59). -/
def State.foldOf (s : State) (q : Nat) : Option Nat :=
  ((Map.keys s.folds).filter (fun f => s.foldState f != 0 && (s.foldClusters f).contains q)).head?
def State.foldExact (s : State) (f : Nat) : Bool := s.fld Fld.timFoldCfgMode 0 f == 0
def State.inRun (s : State) (f : Nat) : Bool := s.foldState f == 2 && (s.fold f).phase == Phase.run
def State.inGuard (s : State) (f : Nat) : Bool := (s.fold f).phase == Phase.guard
/-- R58, R70: the lea whose hub is the stile root. -/
def State.rootLea (s : State) (f : Nat) : Nat :=
  ((s.foldClusters f).map (· / 24)).foldl Nat.min 63
/-- The leas of a fold, in ascending order. -/
def State.foldLeas (s : State) (f : Nat) : List Nat :=
  (List.range 64).filter (fun n => (s.foldClusters f).any (fun q => q / 24 == n))
/-- The first bank edge at or after a tick; bank edges are counted from tick 0 of the swath (R99). -/
def State.bankEdge (s : State) (f x : Nat) : Nat := gridUp (s.fold f).tick0 3 x
def State.swathTick (s : State) (f : Nat) : Nat := s.now - (s.fold f).tick0

/-! ### Event records (R557 to R559) -/

/-- Where a record comes from: its kind and number of Table 16-3, its lea if it lies in one, and its fold. -/
structure Source where
  kind : Nat
  src  : Nat
  fold : Option Nat
deriving DecidableEq, Repr

def srcCore (c : Nat) (f : Option Nat) : Source := ⟨0, c, f⟩
def srcAgent (q : Nat) (f : Option Nat) : Source := ⟨1, agentAddr q, f⟩
def srcHub (n : Nat) (f : Option Nat) : Source := ⟨2, hubAddr n, f⟩
def srcLink (l : Nat) : Source := ⟨3, l, none⟩
def srcModule (f : Option Nat) : Source := ⟨4, 0, f⟩

/-- The lea in which a source lies. -/
def Source.lea (k : Source) : Option Nat :=
  if k.kind ≤ 2 then some (k.src / 2048) else if k.kind = 3 then some (linkLea k.src) else none

/-- R559: a copy of a record enters a circular log of `cap` records. -/
def Log.push (cap : Nat) (l : Log) (r : Rec) : Log :=
  if l.recs.length < cap then { l with recs := { r with lost := false } :: l.recs, unsent := l.unsent + 1 }
  else { recs := { r with lost := true } :: l.recs.take (cap - 1), lapped := Nat.min (l.lapped + 1) (2 ^ 32 - 1)
         unsent := Nat.min cap (l.unsent + 1) }

/-- R559: which logs a code goes to. -/
def goesHub (kind code : Nat) : Bool := kind ≤ 3 && !(0x7001 ≤ code && code ≤ 0x7013)
def goesGlobal (kind code : Nat) : Bool :=
  kind == 4 || (0x7001 ≤ code && code ≤ 0x7013) || [1, 2, 3, 4, 6, 8, 9].contains (code / 0x1000)

/-- R560: a record is streamed from the global log if it goes there, else from its hub log; its class is set in class_mask. -/
def State.streams (s : State) (glob : Bool) (r : Rec) : Bool :=
  goesGlobal r.kind r.code == glob && s.bit Fld.fltStreamCfgClassMask 0 0 (r.code / 0x1000 - 1)

/-- R560: the oldest record of a full log is overwritten before it was sent. -/
def State.countDropped (s : State) (glob : Bool) (cap : Nat) (l : Log) : State :=
  if s.fld Fld.fltStreamCfgEnable 0 0 = 1 ∧ cap ≤ l.unsent ∧ l.recs.getLast?.any (s.streams glob) then
    s.bump Fld.fltStreamStatDropped 0 0
  else s

def State.logRecord (s : State) (k : Source) (r : Rec) : State :=
  let s := if goesGlobal r.kind r.code then
      { s.countDropped true 16384 s.globalLog with globalLog := s.globalLog.push 16384 r } else s
  match k.lea with
  | some n =>
    if goesHub r.kind r.code then
      (s.countDropped false 4096 (s.hub n).log).modHub n (fun h => { h with log := h.log.push 4096 r })
    else s
  | none => s

/-- A fold has a swath number only once it has run. -/
def State.swathOf (s : State) (f : Option Nat) : Option Nat :=
  f.bind (fun f => if (s.fold f).phase = Phase.idle then none else some (s.fold f).swath)

/-- Records an event. R558: a code of class 0x5xxx is recorded once per source and code in each swath of the fold. -/
def State.report (s : State) (k : Source) (code p0 p1 : Nat) : State :=
  let r : Rec := ⟨code, k.kind, k.src, k.fold, s.swathOf k.fold, false, s.ns, p0 % 2 ^ 64, p1 % 2 ^ 48⟩
  match code / 0x1000, k.fold with
  | 5, some f =>
    if (s.fold f).recorded.contains (code, k.kind, k.src) then s
    else (s.modFold f (fun x => { x with recorded := (code, k.kind, k.src) :: x.recorded })).logRecord k r
  | _, _ => s.logRecord k r

/-- The 32 bytes of a record (Table 16-3), as a number. -/
def Rec.encode (r : Rec) : Nat :=
  r.code + 2 ^ 16 * (r.src + 2 ^ 17 * r.kind + (if r.fold.isSome then 2 ^ 20 else 0) +
      (if r.swath.isSome then 2 ^ 21 else 0) + (if r.lost then 2 ^ 22 else 0)) +
    2 ^ 40 * r.fold.getD 0 + 2 ^ 48 * r.swath.getD 0 + 2 ^ 80 * (r.time % 2 ^ 64) + 2 ^ 144 * r.p1 + 2 ^ 192 * r.p0

/-! ### The status of an item (R254, R435) -/

/-- A failure outranks OK_CLIPPED (2), which outranks OK_LATE (1), which outranks OK (0). -/
def rankOf (st : Nat) : Nat := if 0x10 ≤ st then 3 else st
/-- The higher ranking of two statuses; the earlier one where they rank alike. -/
def worse (old new : Nat) : Nat := if rankOf old < rankOf new then new else old

def BatchItem.mark (st : Nat) (b : BatchItem) : BatchItem :=
  { b with status := some (match b.status with | some o => worse o st | none => st) }

/-- In place of a core: every item of the fold is served, or none of this module. -/
def noCore : Nat := 131072
def noItems : Nat := 131073

/-- The batch positions that the image assigns to a core; all of them when it assigns none (R86). -/
def State.itemsOf (s : State) (f c : Nat) : Option (List Nat) :=
  if c = noItems then some []
  else match (s.fold f).image with
    | some im =>
      match im.items.find? (fun e => e.1 == c) with
      | some e => if e.2.isEmpty then none else some e.2
      | none => none
    | none => none

def markAt (st : Nat) (ps : Option (List Nat)) (i : Nat) : List BatchItem → List BatchItem
  | [] => []
  | b :: r => (match ps with
      | some l => if l.contains i then b.mark st else b
      | none => b.mark st) :: markAt st ps (i + 1) r

/-- The items of the swath that core `c` serves take a status. -/
def State.failItems (s : State) (f c st : Nat) : State :=
  s.modFold f (fun x => { x with batch := markAt st (s.itemsOf f c) 0 x.batch })
/-- A gradient norm submitted for the items that core `c` serves was not finite (R257). -/
def State.noteOverflow (s : State) (f c : Nat) : State :=
  s.modFold f (fun x => { x with batch := x.batch.mapIdx (fun i b =>
    if (s.itemsOf f c).all (fun l => l.contains i) then { b with overflow := true } else b) })
def State.failItems? (s : State) (f : Option Nat) (c st : Nat) : State :=
  match f with
  | some f => s.failItems f c st
  | none => s
/-- All items of a fold's swath take a status. -/
def State.failBatch (s : State) (f st : Nat) : State :=
  s.modFold f (fun x => { x with batch := x.batch.map (BatchItem.mark st) })

/-! ### Power domains and bubbles (R488) -/

def State.domain (s : State) (q : Nat) : Nat := s.fld Fld.cluPwrStateState q 0
/-- R41, Table 14-18: the set point of a cluster's rail, between 0.55 V and 0.90 V. -/
def setPoint (q : Nat) : Nat := Nat.max 550 (Nat.min 900 (Config.setMv q))

def State.domainOn (s : State) (q : Nat) : Bool := s.domain q == 2

/-- bitrev6 of R488. -/
def bitrev6 (x : Nat) : Nat :=
  x % 2 * 32 + x / 2 % 2 * 16 + x / 4 % 2 * 8 + x / 8 % 2 * 4 + x / 16 % 2 * 2 + x / 32 % 2
def State.bubble (s : State) (q x : Nat) : Bool := bitrev6 (x % 64) < s.fld Fld.cluPwrStateThrottle q 0

/-! ### Bytes -/

/-- Byte `i` of a number written little-endian. -/
def byteAt (v i : Nat) : Nat := v / 256 ^ i % 256
/-- `n` bytes from byte `i` on, as a number. -/
def bytesAt (v i n : Nat) : Nat := v / 256 ^ i % 256 ^ n
/-- A number with `n` bytes from byte `i` on replaced. -/
def putBytes (v i n x : Nat) : Nat := v - bytesAt v i n * 256 ^ i + x % 256 ^ n * 256 ^ i
/-- The number that a list of bytes spells, least significant first. -/
def ofBytes : List (BitVec 8) → Nat
  | [] => 0
  | b :: r => b.toNat + 256 * ofBytes r
/-- The `n` low bytes of a number, least significant first. -/
def toBytes : Nat → Nat → List (BitVec 8)
  | 0, _ => []
  | n + 1, v => BitVec.ofNat 8 v :: toBytes n (v / 256)
/-- A big-endian number. -/
def ofBytesBE (l : List (BitVec 8)) : Nat := l.foldl (fun a b => a * 256 + b.toNat) 0
def toBytesBE (n v : Nat) : List (BitVec 8) := (toBytes n v).reverse

/-- A number read as two's complement of `w` bits. -/
def toSigned (w v : Nat) : Int := if v % 2 ^ w < 2 ^ (w - 1) then (v % 2 ^ w : Nat) else (v % 2 ^ w : Nat) - (2 ^ w : Nat)
/-- Two's complement of `w` bits. -/
def ofSigned (w : Nat) (v : Int) : Nat := (v % (2 ^ w : Nat)).toNat

end Sys2Proof.Machine
end

