-- ==== Sys2Proof/Machine/Operands.lean ====
section
/-! DEFINITION. The register operands of the compute core (Tables 03-1 and 03-3): reading and writing each file, and the
code by which readiness of a register is tracked. -/

namespace Sys2Proof.Machine

/-! ### Reading and writing the files. s0 reads zero, p0 reads all ones, and writes to either are discarded (R83). -/

def Files.s (f : Files) (n : Nat) : Word := if n = 0 then 0 else Map.get 0 f.sreg n
def Files.v (f : Files) (n : Nat) : Vec := Map.get 0 f.vreg n
def Files.p (f : Files) (n : Nat) : Word := if n = 0 then BitVec.allOnes 64 else Map.get 0 f.preg n
def Files.t (f : Files) (n : Nat) : Tile := Map.get 0 f.treg n
def Files.a (f : Files) (n : Nat) : Tile := Map.get 0 f.acc n
def Files.tag (f : Files) (n : Nat) : AccTag := Map.get .none f.tags n

def Files.setS (f : Files) (n : Nat) (x : Word) : Files :=
  if n = 0 then f else { f with sreg := Map.set 0 f.sreg n x }
def Files.setV (f : Files) (n : Nat) (x : Vec) : Files := { f with vreg := Map.set 0 f.vreg n x }
def Files.setP (f : Files) (n : Nat) (x : Word) : Files :=
  if n = 0 then f else { f with preg := Map.set 0 f.preg n x }
def Files.setT (f : Files) (n : Nat) (x : Tile) : Files := { f with treg := Map.set 0 f.treg n x }
def Files.setA (f : Files) (n : Nat) (x : Tile) : Files := { f with acc := Map.set 0 f.acc n x }
def Files.setTag (f : Files) (n : Nat) (x : AccTag) : Files := { f with tags := Map.set .none f.tags n x }

/-! ### Register codes -/

def sCode (n : Nat) : Nat := n
def vCode (n : Nat) : Nat := 64 + n
def pCode (n : Nat) : Nat := 128 + n
def tCode (n : Nat) : Nat := 192 + n
def aCode (n : Nat) : Nat := 256 + n
/-- Eight vector registers from D on. -/
def vCodes (d : Nat) : List Nat := (List.range 8).map (fun i => vCode (d + i))

end Sys2Proof.Machine

namespace Sys2Proof

open Machine

/-! ### The fields of an instruction -/

def CoreOp.d (o : CoreOp) : Nat := o.dst.toNat
def CoreOp.a (o : CoreOp) : Nat := o.srca.toNat
def CoreOp.b (o : CoreOp) : Nat := o.srcb.toNat
def CoreOp.c (o : CoreOp) : Nat := o.srcc.toNat
/-- The immediate read as unsigned. -/
def CoreOp.u (o : CoreOp) : Nat := o.imm.toNat
/-- The immediate, signed (Table 03-1). -/
def CoreOp.i (o : CoreOp) : Word := o.imm.signExtend 64
def CoreOp.q (o : CoreOp) : Nat := clusterOf o.core

/-- The predicate word an instruction is gated by: its predicate register, inverted by pneg. -/
def CoreOp.gate (o : CoreOp) (f : Files) : Word :=
  if o.pneg then ~~~ (f.p o.pred.toNat) else f.p o.pred.toNat

end Sys2Proof

namespace Sys2Proof.Machine

/-! ### Slices (03, Registers): slice s of a tile is bytes 512·s to 512·s + 511; a row fills eight vector registers. -/

def Tile.slice (t : Tile) (s : Nat) : Row := BitVec.extractLsb' (4096 * s) 4096 t
def Tile.setSlice (t : Tile) (s : Nat) (r : Row) : Tile :=
  (t &&& ~~~ ((BitVec.allOnes 4096).setWidth 32768 <<< (4096 * s))) ||| (r.setWidth 32768 <<< (4096 * s))
def Row.part (r : Row) (i : Nat) : Vec := BitVec.extractLsb' (512 * i) 512 r
def Files.rowOfV (f : Files) (d : Nat) : Row :=
  (List.range 8).foldl (fun acc i => acc ||| ((f.v (d + i)).setWidth 4096 <<< (512 * i))) 0
def Files.setRowV (f : Files) (d : Nat) (r : Row) : Files :=
  (List.range 8).foldl (fun acc i => acc.setV (d + i) (Row.part r i)) f
def Files.setRowT (f : Files) (t s : Nat) (r : Row) : Files := f.setT t (Tile.setSlice (f.t t) s r)

end Sys2Proof.Machine
end

