-- ==== Sys2Proof/Machine/Issue.lean ====
section
/-! DEFINITION. How a core issues an instruction (R77 to R88): when a bundle may issue, the two slots of a bundle, gating,
faults, and the tick from which a result may be read. -/

namespace Sys2Proof.Machine

/-! ### Fault causes (Table 03-4) -/

def causeIllegal : Nat := 1
def causeFetch : Nat := 2
def causePartition : Nat := 3
def causeAccType : Nat := 4
def causeQueueOwner : Nat := 5
def causeDigital : Nat := 6
def causeHedge : Nat := 7
def causeEngine : Nat := 8
def causeStileSet : Nat := 9

/-- What an instruction did: the new state and, after a taken branch, its target and the idle ticks it costs; or it waits
for leave; or a fault with its cause. -/
inductive Done where
  | ok (s : State)
  | jump (s : State) (target idle : Nat)
  | stall (s : State)
  | fault (cause : Nat) (s : State)

/-- What an instruction asks of issue: the slots it may stand in, the register it names as its destination, the registers
it reads, whether its encoding is legal, whether bit 0 of its predicate gates it whole, whether its unit accepts it, and
its effect, given the registers as they stood before the bundle. `idle` is the time that it takes when it is gated off
whole (R85). `cls` is its class (Table 03-2), `fn` its place among the instructions of the class, types and forms counted,
and `low`, where the manual gives them, bits 1 and 0 of its func. -/
structure Op where
  cls   : Nat
  fn    : Nat
  inA   : Bool
  inB   : Bool
  dst   : Option Nat
  srcs  : List Nat
  legal : Bool
  whole : Bool
  room  : Bool
  run   : Files → State → Done
  idle  : Files → State → Done := fun _ s => .ok s
  low   : Option Nat := none

/-! ### Results -/

/-- A register whose value may be read from tick `x` on (R79). -/
def State.readyAt (s : State) (c code x : Nat) : State :=
  s.modCore c (fun k => { k with ready := Map.set 0 k.ready code x })

/-- A register that a gated-off instruction names is ready no sooner than after an active one (R85). -/
def State.readyNoSooner (s : State) (c code x : Nat) : State :=
  s.readyAt c code (Nat.max (Map.get 0 (s.core c).ready code) x)

def State.files (s : State) (c : Nat) : Files := (s.core c).files
def State.modFiles (s : State) (c : Nat) (f : Files → Files) : State :=
  s.modCore c (fun k => { k with files := f k.files })

def State.putS (s : State) (c n : Nat) (v : Word) (lat : Nat) : State :=
  (s.modFiles c (fun f => f.setS n v)).readyAt c (sCode n) (s.now + lat)
def State.putV (s : State) (c n : Nat) (v : Vec) (lat : Nat) : State :=
  (s.modFiles c (fun f => f.setV n v)).readyAt c (vCode n) (s.now + lat)
def State.putP (s : State) (c n : Nat) (v : Word) (lat : Nat) : State :=
  (s.modFiles c (fun f => f.setP n v)).readyAt c (pCode n) (s.now + lat)

/-- The core waits; for an instruction that is gated off it waits as long (R85). -/
def Core.awaiting (k : Core) (w : Wait) (off : Bool) : Core := { k with wait := w, waitOff := off }

/-- A register waits for a bank access, a row or a call. -/
def State.awaits (s : State) (c : Nat) (codes : List Nat) : State :=
  s.modCore c (fun k => { k with await := codes ++ k.await })
def State.landed (s : State) (c : Nat) (codes : List Nat) (x : Nat) : State :=
  s.modCore c (fun k => { k with
    await := codes.foldl List.erase k.await
    ready := codes.foldl (fun m a => Map.set 0 m a (Nat.max (Map.get 0 m a) x)) k.ready })

/-- s0 and p0 hold fixed values and are always ready (R83). -/
def Core.isReady (k : Core) (x code : Nat) : Bool :=
  code == sCode 0 || code == pCode 0 || (decide (Map.get 0 k.ready code ≤ x) && !k.await.contains code)

/-! ### Arriving at stiles (R69, R70, R86, R279) -/

/-- The participant set of a stile: every core of the fold for stile 0, the declared set for the others. -/
def State.stileSet (s : State) (f id : Nat) : List Nat :=
  if id = 0 then (s.foldClusters f).flatMap (fun q => (List.range 48).map (coreAddr q))
  else match (s.fold f).image with
    | some im => match im.stiles.find? (fun e => e.1 == id) with
      | some e => e.2
      | none => []
    | none => []
def State.inStile (s : State) (f id c : Nat) : Bool :=
  if id = 0 then (s.foldClusters f).contains (clusterOf c) else (s.stileSet f id).contains c

/-- A participant of a stile arrives now. -/
def State.arriveAt (s : State) (f id : Nat) : State :=
  s.modFold f (fun x => { x with lastJoin := Map.put x.lastJoin id s.now })

/-- A core that waits at a stile arrives once every row of its slot sends has been written (R279). -/
def State.arrive (s : State) (c : Nat) : State :=
  match (s.core c).wait, s.foldOf (clusterOf c) with
  | .stile id _, some f => if (s.core c).sends = 0 then s.arriveAt f id else s
  | _, _ => s

/-! ### Faults (R86) -/

/-- Records a fault against a slot and stops the core for the swath. From here it counts as joined to every stile
generation of the swath (`Core.faulted`), and what it has outstanding is discarded when it comes: of an engine call the core
keeps no record. -/
def State.coreFault (s : State) (c slot cause : Nat) : State :=
  let q := clusterOf c
  let j := coreIndex c
  let f := s.foldOf q
  let pc := (s.core c).pc
  let s := s.setFld Fld.cluCoreFaultFaultSwath q j ((s.swathOf f).getD 0)
  let s := s.setFld Fld.cluCoreFaultFaultPc q j pc
  let s := s.setFld Fld.cluCoreFaultFaultSlot q j slot
  let s := s.bump Fld.cluCoreFaultFaultCount q j
  let s := s.setFld Fld.cluCoreFaultCause q j cause
  let s := s.modCore c (fun k => { k with
    faulted := true, wait := .none, waitOff := false, held := none, calls := k.calls.filter (fun c => c.2.status.isSome) })
  let s := s.modCluster q (fun x => { x with groups := Map.mapOn Group.reset x.groups (fun _ => true) (fun g =>
    { g with vecs := g.vecs.filter (fun v => v.core != c || v.stage != .ready) }) })
  let s := match f with
    | some f => (List.range 16).foldl (fun (s : State) id => if s.inStile f id c then s.arriveAt f id else s) s
    | none => s
  let s := s.report (srcCore c f) 0x5010 cause pc
  s.failItems? f c 0x10

/-! ### Issue (R78, R79, R85, R132, R488) -/

/-- A core of an exposed cluster whose domain is on, of a fold that is armed or runs. -/
def State.coreLive (s : State) (c : Nat) : Bool :=
  s.exposed (clusterOf c) && s.domainOn (clusterOf c) &&
  (match s.foldOf (clusterOf c) with
   | some f => s.foldState f == 1 || s.foldState f == 2 || s.foldState f == 3
   | none => false)

/-- R77, R81: the bundles that the image loaded into a core's instruction store, which holds 4,096. -/
def State.codeOf (s : State) (c : Nat) : List (BitVec 128) :=
  match s.foldOf (clusterOf c) with
  | some f => match (s.fold f).image with
    | some im => match im.code.find? (fun e => e.1 == c) with
      | some e => e.2.take 4096
      | none => []
    | none => []
  | none => []

/-- The bundle at the core's program counter; none past the last that was loaded. -/
def State.bundle (s : State) (c : Nat) : Option (BitVec 128) := (s.codeOf c)[(s.core c).pc]?

/-- R77: bits 63 to 0 of a bundle are its slot A instruction, bits 127 to 64 its slot B instruction. -/
def slotWord (slot : Slot) (b : BitVec 128) : BitVec 64 :=
  match slot with
  | .a => b.extractLsb' 0 64
  | .b => b.extractLsb' 64 64

/-- Table 03-2: the classes that may stand in a slot. -/
def slotClasses : Slot → List Nat
  | .a => [0x01, 0x02, 0x06, 0x09, 0x0A, 0x0B, 0x0C]
  | .b => [0x03, 0x04, 0x05, 0x06, 0x07, 0x08, 0x0B]

/-- Table 03-2: where the two slots share a class, the instructions in places from this one on stand in slot A. -/
def slotPlace (cls : Nat) : Nat := if cls = 0x06 then 5 else 1
def placeIn (slot : Slot) (cls p : Nat) : Bool :=
  if (slotClasses .a).contains cls && (slotClasses .b).contains cls then
    (if slot = .a then decide (slotPlace cls ≤ p) else decide (p < slotPlace cls))
  else (slotClasses slot).contains cls

/-- R82, R620: a word that is no instruction in its slot: its class is not listed, or its func is that of no instruction of the
class in this slot; in class 0x00 the func of NOP is zero. -/
def badWord (funcs : List (Nat × Nat × Nat)) (slot : Slot) (w : BitVec 64) : Bool :=
  let cls := (w.extractLsb' 58 6).toNat
  let func := (w.extractLsb' 50 8).toNat
  if cls = 0 then func != 0 else !funcs.any (fun e => e.1 == cls && e.2.2 == func && placeIn slot cls e.2.1)

/-- In exact mode the run phase ends at the compiled end tick (Table 02-4). -/
def State.phaseNow (s : State) (f : Nat) : Phase :=
  match (s.fold f).phase, (s.fold f).image with
  | .run, some im => if s.foldExact f ∧ im.endTick ≤ s.swathTick f then .drain else .run
  | p, _ => p

def State.phaseOf (s : State) (c : Nat) : Phase :=
  match s.foldOf (clusterOf c) with
  | some f => s.phaseNow f
  | none => .idle

/-- The fold has run no swath since it was armed. -/
def State.firstSwath (s : State) (c : Nat) : Bool := (s.foldOf (clusterOf c)).any (fun f => (s.fold f).guardEnd == 0)

/-- Bundles issue in the run phase, from tick 12 of a swath on (Table 02-4), and between arming and the first swath, where
a core runs up to its first SWATH.WAIT (R131). -/
def State.mayIssue (s : State) (c : Nat) : Bool :=
  match s.phaseOf c with
  | .run => true
  | .idle => (s.foldOf (clusterOf c)).any (fun f => s.foldState f == 1)
  | _ => false

/-- The span of R132: the drain and the guard, and the open phase of every later swath. -/
def State.betweenRuns (s : State) (c : Nat) : Bool :=
  match s.phaseOf c with
  | .drain => true
  | .guard => true
  | .opened => !s.firstSwath c
  | _ => false

/-- Whether a core is free to issue its next bundle on this tick, bubbles apart. -/
def State.coreFree (s : State) (c : Nat) : Bool :=
  let k := s.core c
  s.coreLive c && !k.faulted && k.wait == .none && decide (k.issueAt ≤ s.now)

/-- R488: whether this tick is a bubble for a core. -/
def State.coreBubble (s : State) (c : Nat) : Bool :=
  match s.foldOf (clusterOf c) with
  | some f => s.bubble (clusterOf c) (s.swathTick f)
  | none => false

/-- The span of a grant as placed. -/
def Grant.base (g : Grant) : Nat := g.start + 12 * g.frames

/-- R490: a grant after core `j` has taken a bubble. Each core's own bubble ticks count. DESIGN CHOICE (log 124): the one span of a
grant that names several cores is lengthened by the most that one of them has taken. -/
def Grant.bubble (g : Grant) (j : Nat) : Grant :=
  let n := Map.get 0 g.bubbles j + 1
  { g with bubbles := Map.set 0 g.bubbles j n, ends := Nat.max g.ends (g.base + n) }

/-- R490: a bubble taken lengthens every active grant that names the core. The core issues again on the next tick. -/
def State.takeBubble (s : State) (c : Nat) : State :=
  (s.modHub (clusterOf c / 24) (fun h => { h with arb := { h.arb with
    placed := h.arb.placed.map (fun g =>
      if g.q == clusterOf c && g.mask / 2 ^ coreIndex c % 2 == 1 && decide (g.start ≤ s.now) && decide (s.now < g.ends)
      then g.bubble (coreIndex c) else g) } })).modCore c (fun k => { k with issueAt := s.now + 1 })

/-- The core's next bundle is at `pc`; it issues on the tick after this one, `idle` ticks later after a taken branch
(R80). -/
def State.goOn (s : State) (c pc idle : Nat) : State :=
  s.modCore c (fun k => { k with issueAt := s.now + 1 + idle, pc := pc, held := none })

/-- R132: the core behaves as if SWATH.WAIT with destination s0 had preceded the bundle. -/
def State.holdBack (s : State) (c : Nat) : State :=
  s.modCore c (fun k => { k with wait := .swath 0, entry := k.pc, held := none })

end Sys2Proof.Machine

namespace Sys2Proof

open Machine

/-- Table 03-1: the word that holds an instruction's fields, its class and a func. -/
def CoreOp.word (o : CoreOp) (cls func : Nat) : BitVec 64 :=
  BitVec.ofNat 6 cls ++ BitVec.ofNat 8 func ++ BitVec.ofBool o.pneg ++ o.pred ++ o.dst ++ o.srca ++ o.srcb ++ o.srcc ++ o.imm

/-- Whether a word spells an instruction: its class, its func and every field. -/
def CoreOp.spelt (o : CoreOp) (op : Op) (funcs : List (Nat × Nat × Nat)) (w : BitVec 64) : Bool :=
  let func := (w.extractLsb' 50 8).toNat
  w == o.word op.cls func && op.low.all (fun l => func % 4 == l) &&
  (if op.cls = 0 then func == 0 else funcs.contains (op.cls, op.fn, func))

/-- The other slot of a bundle. -/
def Slot.other : Slot → Slot
  | .a => .b
  | .b => .a

/-- What an instruction does once its bundle issues: an encoding its slot does not admit faults (R82), one that bit 0 of
its predicate gates off changes nothing (R85). -/
def CoreOp.act (o : CoreOp) (op : Op) (f : Files) (s : State) : Done :=
  if ¬ (if o.slot = .a then op.inA else op.inB) ∨ ¬ op.legal then .fault causeIllegal s
  else if op.whole ∧ (o.gate f).getLsbD 0 = false then op.idle f s
  else op.run f s

/-- R79: every register the instruction reads is ready and its unit accepts it. -/
def CoreOp.accepted (o : CoreOp) (op : Op) (s : State) : Bool :=
  op.srcs.all ((s.core o.core).isReady s.now) && (s.core o.core).isReady s.now (pCode o.pred.toNat) && op.room

def CoreOp.slotNo (o : CoreOp) : Nat := if o.slot = .a then 0 else 1

/-- A bundle of one instruction; its other slot holds NOP. -/
def CoreOp.alone (o : CoreOp) (op : Op) (s : State) : State :=
  let next := (s.core o.core).pc + 1
  match o.act op (s.files o.core) s with
  | .ok s => s.goOn o.core next 0
  | .jump s target idle => s.goOn o.core target idle
  | .stall s => s
  | .fault cause s => s.coreFault o.core o.slotNo cause

/-- A bundle of two instructions, `a` in slot A and `b` in slot B (R78, R79). Both read the registers as they stood before
the bundle; when both fault, the fault of slot A is recorded; when both name one destination register, the bundle faults
against slot B and writes nothing. -/
def CoreOp.both (a : CoreOp) (opA : Op) (b : CoreOp) (opB : Op) (s : State) : State :=
  let f := s.files b.core
  let next := (s.core b.core).pc + 1
  if opA.dst.isSome ∧ opA.dst = opB.dst then s.coreFault b.core 1 causeIllegal
  else match b.act opB f s with
    | .stall s => s
    | .fault cause s =>
      match a.act opA f s with
      | .fault first s => s.coreFault b.core 0 first
      | .ok s | .jump s _ _ | .stall s => s.coreFault b.core 1 cause
    | .ok s | .jump s _ _ =>
      match a.act opA f s with
      | .ok s => s.goOn b.core next 0
      | .jump s target idle => s.goOn b.core target idle
      | .stall s => s
      | .fault cause s => s.coreFault b.core 0 cause

/-- A bundle whose slot B word is no instruction (R82): it issues with its slot A instruction, whose own fault is the one
recorded (R78). -/
def CoreOp.besideBad (o : CoreOp) (op : Op) (s : State) : State :=
  match o.act op (s.files o.core) s with
  | .stall s => s
  | .fault cause s => s.coreFault o.core 0 cause
  | .ok _ | .jump _ _ _ => s.coreFault o.core 1 causeIllegal

/-- A bundle whose turn it is: it issues if it may and both of its instructions are accepted, or it waits (R79, R81, R132,
R488). Between two run phases only SWATH.WAIT issues. `spelt` says which bundles hold the instructions that the command
gives: at a bundle that holds others the command has no effect. A bundle that is no instruction in a slot faults (R82).
DESIGN CHOICE (log 105): the manual gives no slot for the fault of a bundle that does not exist; slot A is recorded. -/
def Machine.State.issue (s : State) (c : Nat) (swathWait accepted : Bool) (spelt : BitVec 128 → Bool)
    (beside act : State → State) : State :=
  if s.mayIssue c ∨ (s.betweenRuns c ∧ swathWait) then
    if s.coreBubble c then s.takeBubble c
    else match s.bundle c with
      | none => s.coreFault c 0 causeFetch
      | some b =>
        if badWord s.funcs .a (slotWord .a b) then s.coreFault c 0 causeIllegal
        else if badWord s.funcs .b (slotWord .b b) then
          if slotWord .a b = 0 then s.coreFault c 1 causeIllegal else beside s
        else if spelt b ∧ accepted then act s else s
  else if s.betweenRuns c then s.holdBack c
  else s

end Sys2Proof
end

