-- ==== Sys2Proof/Machine/Leave.lean ====
section
/-! DEFINITION. Leave: what a cluster asks of its lea's power arbiter, where the arbiter places it, and what a grant
covers (R123 to R129, R292, R491 to R497). -/

namespace Sys2Proof.Machine

/-! ### The throttle level of a cluster (R488) -/

def ceilDiv (a b : Nat) : Nat := (a + b - 1) / b

/-- R488: the cap level of a grant that was capped. -/
def Grant.capLevel (g : Grant) : Nat :=
  if g.units < g.wanted then Nat.min 32 (ceilDiv (64 * (g.wanted - g.units)) g.wanted) else 0

def Grant.active (g : Grant) (x : Nat) : Bool := decide (g.start ≤ x) && decide (x < g.ends)

def State.grants (s : State) (n : Nat) : List Grant := (s.hub n).arb.placed

def maxOf (l : List Nat) : Nat := l.foldl Nat.max 0

/-- The largest of t_mod, the over-draw level, the cap level of the active grants, the thermal level, and 32 while a
droop is held (R499). -/
def State.throttleLevel (s : State) (q : Nat) : Nat :=
  Nat.min 32 (maxOf [s.fld Fld.pwrStatusThrottle 0 0, (s.cluster q).overdraw,
    maxOf (((s.grants (q / 24)).filter (fun g => g.q == q && g.active s.now)).map Grant.capLevel),
    s.fld Fld.thmStatusTCool 0 0, s.fld Fld.cluThmHotLevel q 0, if (s.cluster q).droopAt.isSome then 32 else 0])

/-- The cluster takes its throttle level. One above 0 ends the steady swath of R535. -/
def State.setThrottle (s : State) (q : Nat) : State :=
  let v := s.throttleLevel q
  let s := s.setFld Fld.cluPwrStateThrottle q 0 v
  if v = 0 then s else s.modCluster q (fun c => { c with steady := false })

/-! ### Asking -/

def clsMatrix : Nat := 0
def clsArray : Nat := 1
def clsBank : Nat := 2
def clsPowerOn : Nat := 3
def clsLinkWake : Nat := 4

/-- A class with ramp ballast (Table 14-3). -/
def hasBallast (cls : Nat) : Bool := cls < 3

def State.modArb (s : State) (n : Nat) (f : Arbiter → Arbiter) : State := s.modHub n (fun h => { h with arb := f h.arb })

/-- A request enters the arbiter of its cluster's lea. -/
def State.enterReq (s : State) (r : LeaveReq) : State :=
  { s.modArb (r.q / 24) (fun a => { a with waiting := a.waiting ++ [r] }) with nextTag := s.nextTag + 1 }

/-- A request whose number is the state's next tag. -/
def State.askLeave (s : State) (cls q mask units span offset : Nat) (bank : Option Nat) : State :=
  s.enterReq ⟨s.nextTag, cls, q, mask, units, span, offset, s.now, bank, none⟩

/-- R125: the grants a cluster's power agent holds, from request to the end of their spans. A mask of zero marks the
request of a hub agent. -/
def State.held (s : State) (q : Nat) : Nat :=
  let a := (s.hub (q / 24)).arb
  (a.waiting.filter (fun r => r.q == q && r.mask != 0)).length +
    (a.placed.filter (fun g => g.q == q && g.mask != 0 && decide (s.now < g.ends))).length

/-- R128: a span of the class that names the core holds the whole time from `lo` to `hi`. -/
def State.covered (s : State) (c cls lo hi : Nat) : Bool :=
  (s.grants (clusterOf c / 24)).any (fun g =>
    g.cls == cls && g.q == clusterOf c && g.mask / 2 ^ coreIndex c % 2 == 1 && decide (g.start ≤ lo) &&
    decide (hi ≤ g.ends))

/-- The class default units of the cluster power agent (R129). -/
def State.classDefault (s : State) (q cls : Nat) : Nat :=
  if cls = clsMatrix then s.fld Fld.cluPwrCfgMatrixDefault q 0
  else if cls = clsArray then s.fld Fld.cluPwrCfgArrayDefault q 0
  else s.fld Fld.cluPwrCfgBankDefault q 0

/-- R129: hardware asks leave for an uncovered operation in the name of its core, and the mistake is reported: counted in
both modes, recorded in exact mode (Table 07-3). For an operation that is gated off (`off`) it asks as for an active one, whose time
the gated one takes, and reports nothing (R85): DEDUCED (log 108). -/
def State.hardwareLeave (s : State) (c cls : Nat) (off : Bool) (op : Begin) : State :=
  let q := clusterOf c
  let f := s.foldOf q
  let tick := s.swathTick (f.getD 0)
  let id := s.nextTag
  let s := s.enterReq ⟨id, cls, q, 2 ^ coreIndex c, s.classDefault q cls, 0, 0, s.now, none, some op⟩
  if off then s
  else
    let s := s.modCore c (fun k => { k with leaves := k.leaves ++ [(cls, id)] })
    let s := s.bump Fld.cluFabContractMissingLeaveCount q 0
    if s.foldExact (f.getD 0) then s.report (srcCore c f) 0x5006 cls tick else s

/-- Where a request stands: still waiting, or placed with a start. -/
def State.grantStart? (s : State) (n id : Nat) : Option Nat :=
  ((s.grants n).find? (fun g => g.id == id)).map Grant.start
def State.stillAsked (s : State) (n id : Nat) : Bool := (s.hub n).arb.waiting.any (fun r => r.id == id)
/-- Whether a request's grant has yet to begin. -/
def State.unbegun (s : State) (n id : Nat) : Bool :=
  s.stillAsked n id || (s.grantStart? n id).any (fun x => decide (s.now < x))

/-! ### LEAVE.REQ and LEAVE.WAIT -/

/-- Table 03-13. -/
structure LeaveDesc where
  cls    : Nat
  units  : Nat
  offset : Nat
  span   : Nat
deriving DecidableEq, Repr

def leaveDesc (b : Word) : LeaveDesc := ⟨getBits b 0 3, getBits b 4 12, getBits b 32 16, getBits b 48 16⟩
/-- R123: what makes a descriptor illegal. -/
def leaveLegal (a b : Word) : Bool :=
  let d := leaveDesc b
  getBits a 48 16 == 0 && d.cls < 3 && d.units != 0 && d.span != 0 && getBits b 3 1 == 0 && getBits b 16 16 == 0

/-- Every core that a mask names. -/
def maskCores (q mask : Nat) : List Nat :=
  ((List.range 48).filter (fun j => mask / 2 ^ j % 2 == 1)).map (coreAddr q)

def leaveReqOp (o : CoreOp) (s : State) : Op :=
  { cls := 0x09, fn := 0, inA := true, inB := false, dst := none, srcs := [sCode o.a, sCode o.b],
    legal := decide (o.a < 32) && decide (o.b < 32), whole := true, room := decide (s.held o.q < 16),
    run := fun f s =>
      if leaveLegal (f.s o.a) (f.s o.b) then
        let d := leaveDesc (f.s o.b)
        let named := getBits (f.s o.a) 0 48
        let mask := if named = 0 then 2 ^ coreIndex o.core else named
        let s' := s.askLeave d.cls o.q mask d.units d.span d.offset none
        .ok ((maskCores o.q mask).foldl (fun s c => s.modCore c (fun k =>
          { k with leaves := k.leaves ++ [(d.cls, s'.nextTag - 1)] })) s')
      else .fault causeIllegal s }

/-- R127: the oldest grant or request of the class that the core has not yet waited on. DESIGN CHOICE (log 103): a grant
whose span has ended is no longer held (R125), and the wait passes it over. -/
def State.oldestLeave (s : State) (c cls : Nat) : Option Nat :=
  let n := clusterOf c / 24
  ((s.core c).leaves.find? (fun e => e.1 == cls &&
    (s.stillAsked n e.2 || (s.grants n).any (fun g => g.id == e.2 && decide (s.now < g.ends))))).map Prod.snd

def Core.dropLeave (k : Core) (id : Nat) : Core := { k with leaves := k.leaves.filter (fun e => e.2 != id) }

def leaveWaitOp (o : CoreOp) : Op :=
  { cls := 0x09, fn := 1, inA := true, inB := false, dst := none, srcs := [], legal := true, whole := true, room := true,
    run := fun _ s =>
      match s.oldestLeave o.core o.u with
      | none => .fault causeIllegal s
      | some id =>
        if s.unbegun (o.q / 24) id then .ok (s.modCore o.core (fun k => k.awaiting (.leave o.u) false))
        else .ok (s.modCore o.core (fun k => k.dropLeave id)),
    idle := fun _ s =>
      .ok (if (s.oldestLeave o.core o.u).any (s.unbegun (o.q / 24)) then
        s.modCore o.core (fun k => k.awaiting (.leave o.u) true) else s) }

/-! ### Placing (R492 to R497) -/

/-- The standing sum of a lea: the standing allowance of every cluster that is ON. -/
def State.standing (s : State) (n : Nat) : Nat :=
  ((List.range 24).map (fun k =>
    if s.domainOn (24 * n + k) then s.fld Fld.cluPwrCfgStanding (24 * n + k) 0 else 0)).foldl (· + ·) 0

/-- The ticks over which a grant occupies the calendar (R492); without an end for the power-up of a domain, whose standing
allowance takes its place; none for LINK_WAKE. -/
def Grant.span (g : Grant) : Option (Nat × Option Nat) :=
  if hasBallast g.cls then some (g.start - 7200, some (g.ends + 7200))
  else if g.cls = clsPowerOn then some (g.start, if g.bank.isSome then some (g.start + 10272) else none)
  else none

def Grant.occupies (g : Grant) (x : Nat) : Nat :=
  match g.span with
  | some (lo, some hi) => if lo ≤ x ∧ x < hi then g.units else 0
  | some (lo, none) => if lo ≤ x then g.units else 0
  | none => 0

def occupancy (l : List Grant) (x : Nat) : Nat := (l.map (fun g => g.occupies x)).foldl (· + ·) 0

/-- R493 step 2 for one grant among those placed. -/
def fits (placed : List Grant) (standing budget : Nat) (g : Grant) : Bool :=
  match g.span with
  | none => true
  | some (lo, hi) =>
    let points := lo :: (placed.filterMap Grant.span).filterMap (fun p =>
      if lo < p.1 ∧ hi.all (fun h => decide (p.1 < h)) then some p.1 else none)
    points.all (fun x => decide (standing + occupancy placed x + g.units ≤ budget))

/-- R493 step 3. -/
def paced (placed : List Grant) (window : Nat) (g : Grant) : Bool :=
  if !hasBallast g.cls then true
  else
    let others := placed.filter (fun h => hasBallast h.cls && decide (dist h.start g.start < 7200))
    if window < g.units then others.isEmpty
    else (g :: others).all (fun a =>
      if a.start ≤ g.start then
        decide ((((g :: others).filter (fun h => decide (a.start ≤ h.start) && decide (h.start < a.start + 7200))).map
          Grant.units).foldl (· + ·) 0 ≤ window)
      else true)

/-- R494: order of arrival; within one control cycle of 4 ticks, hub agents first, then clusters in ascending index. -/
def LeaveReq.before (a b : LeaveReq) : Bool :=
  let ka := a.asked / 4
  let kb := b.asked / 4
  if ka ≠ kb then decide (ka < kb)
  else if (a.mask = 0) ≠ (b.mask = 0) then a.mask == 0
  else if a.q ≠ b.q then decide (a.q < b.q) else decide (a.id < b.id)

/-- A request takes its place among others in that order. -/
def insertReq (r : LeaveReq) : List LeaveReq → List LeaveReq
  | [] => [r]
  | x :: l => if r.before x then r :: x :: l else x :: insertReq r l

/-- The requests that wait, in the order in which they are placed. -/
def inOrder (l : List LeaveReq) : List LeaveReq := l.foldl (fun acc r => insertReq r acc) []

/-- R292: the rank of the lea among the fold's leas and of the cluster among the fold's clusters in its lea. -/
def State.skew (s : State) (f q : Nat) : Nat :=
  let a := ((s.foldLeas f).filter (fun n => decide (n < q / 24))).length
  let b := ((s.foldClusters f).filter (fun r => r / 24 == q / 24 && decide (r < q))).length
  7296 + 540 * a + 360 * (b / 4)

/-- The bounds of R124, R292 and R503 on the start of a request. -/
def State.earliest (s : State) (n : Nat) (r : LeaveReq) : Nat :=
  let a := (s.hub n).arb
  let base := r.asked + Nat.max r.offset 7296
  let skewed := match s.foldOf r.q with
    | some f => if r.cls < 2 ∧ r.mask ≠ 0 ∧ ¬ a.firsts.contains (r.q, r.cls)
        then (s.fold f).release + s.skew f r.q else 0
    | none => 0
  Nat.max base skewed

/-- R129: the phase frames from a grant's start to the end of an operation that begins as early as it may. -/
def Begin.frames (b : Begin) (start : Nat) : Nat := ceilDiv (gridUp b.base b.period (start + b.lead) - start + b.busy) 12

def LeaveReq.frames (r : LeaveReq) (start : Nat) : Nat := (r.op.map (fun b => b.frames start)).getD r.span

def LeaveReq.grant (r : LeaveReq) (units start : Nat) : Grant :=
  { id := r.id, cls := r.cls, q := r.q, mask := r.mask, units := units, wanted := r.units, start := start,
    ends := start + 12 * r.frames start, frames := r.frames start, begun := false, bank := r.bank,
    bubbles := [] }

/-- The starts at which some bound on a grant gives way. -/
def candidates (placed : List Grant) (bound : Nat) : List Nat :=
  bound :: placed.flatMap (fun g =>
    (match g.span with
     | some (_, some hi) => [hi, hi + 7200]
     | _ => []) ++ [g.start + 7200])

def leastFrom (ok : Nat → Bool) : List Nat → Option Nat
  | [] => none
  | x :: l => match leastFrom ok l with
    | none => if ok x then some x else none
    | some y => if ok x ∧ x < y then some x else some y

/-- R126: what the cluster may draw. -/
def State.capUnits (s : State) (r : LeaveReq) : Nat :=
  if hasBallast r.cls ∧ r.mask ≠ 0 then Nat.min r.units (s.fld Fld.cluPwrStateCapUnits r.q 0) else r.units

/-- What clusters will add to the standing sum whose power-up is placed and that are not ON yet. -/
def State.rising (s : State) (n : Nat) : Nat :=
  (((s.grants n).filter (fun g => g.cls == clsPowerOn && g.bank.isNone && !s.domainOn g.q)).map Grant.units).foldl (· + ·) 0

/-- R493, R496, R531: the earliest phase-frame boundary that meets every condition; LINK_WAKE waits for another to end. -/
def State.placeAt (s : State) (n : Nat) (r : LeaveReq) : Option Nat :=
  let a := (s.hub n).arb
  let u := s.capUnits r
  let b := s.fld Fld.hubPwrBudgetBudget n 0
  let w := s.fld Fld.hubPwrBudgetWindowUnits n 0
  let st := s.standing n
  if 3 ≤ s.fld Fld.pwrStatusSupplyState 0 0 ∨ s.fld Fld.thmStatusState 0 0 = 3 then none
  else if r.cls = clsPowerOn ∧ r.bank.isNone ∧ b < st + s.rising n + u + 72 then none
  else if r.cls = clsLinkWake ∧ a.placed.any (fun g => g.cls == clsLinkWake && decide (s.now < g.ends)) then none
  else
    let bound := s.frameUp (Nat.max (s.earliest n r) a.notBefore)
    let eff := st + Nat.max 72 (s.fld Fld.thmSlewGrantFactor 0 0 * (b - st) / 64)
    leastFrom (fun x => decide (bound ≤ x) && fits a.placed st eff (r.grant u x) && paced a.placed w (r.grant u x))
      ((candidates a.placed bound).map s.frameUp)

/-- R494: the first request in order that has a place, and its start. One that has none holds up no later one. -/
def State.nextPlace (s : State) (n : Nat) : Option (LeaveReq × Nat) :=
  (inOrder (s.hub n).arb.waiting).findSome? (fun r => (s.placeAt n r).map (fun x => (r, x)))

/-- The arbiter of lea `n` places one request. -/
def State.placeRequest (s : State) (n : Nat) : State :=
  match s.nextPlace n with
  | none => s
  | some (r, x) =>
    let u := s.capUnits r
    let late := decide (s.frameUp (s.earliest n r) < x)
    let s := s.modArb n (fun a => { a with
      waiting := a.waiting.filter (fun w => w.id != r.id)
      placed := a.placed ++ [r.grant u x]
      firsts := if r.cls < 2 ∧ r.mask ≠ 0 then (r.q, r.cls) :: a.firsts else a.firsts })
    let s := if late then s.bump Fld.hubPwrArbDelayedGrants n 0 else s
    if u < r.units then
      (s.bump Fld.cluPwrCntCappedCount r.q 0).report (srcAgent r.q (s.foldOf r.q)) 0x1002 r.units u
    else s

def execLeaveRequestPlace (t n : Nat) (s : State) : Host.Outcome State Fault Refusal :=
  onUnit (validLea n) ((s.at t).placeRequest n)

/-- A grant begins: cores that wait on it go on, a domain ramps, a bank ramps. -/
def State.startGrant (s : State) (n : Nat) (g : Grant) : State :=
  let s := s.modArb n (fun a => { a with
    placed := a.placed.map (fun h => if h.id == g.id then { h with begun := true } else h) })
  let s := (maskCores g.q g.mask).foldl (fun s c =>
    if (s.core c).wait = .leave g.cls ∧ s.oldestLeave c g.cls = some g.id then
      s.modCore c (fun k => { (if k.waitOff then k else k.dropLeave g.id) with wait := .none, waitOff := false, issueAt := s.now })
    else s) s
  let s := if g.cls = clsPowerOn then
    (match g.bank with
     | some _ => s
     | none => s.setFld Fld.cluPwrStateState g.q 0 1) else s
  s.setThrottle g.q

def execGrantStart (t n g : Nat) (s : State) : Host.Outcome State Fault Refusal :=
  let s := s.at t
  onUnit (validLea n) (match (s.grants n).find? (fun x => x.id == g) with
    | some x => if x.start ≤ s.now ∧ ¬ x.begun then s.startGrant n x else s
    | none => s)

/-! ### Ramp ballast (R495) -/

/-- The units of a linear ramp over 7,200 ticks, summed between two of its ticks. -/
def rampSum (units lo hi : Nat) : Nat := units * (hi * hi - lo * lo) / 14400

/-- The ballast units that a grant draws, summed over the ticks from `lo` to `hi`: rising to its units until its start, and falling
from its end. -/
def Grant.ballastSum (g : Grant) (lo hi : Nat) : Nat :=
  let up := fun (x : Nat) => Nat.min 7200 (x + 7200 - g.start)
  let down := fun (x : Nat) => Nat.min 7200 (g.ends + 7200 - x)
  if hasBallast g.cls then rampSum g.units (up lo) (up hi) + rampSum g.units (down hi) (down lo) else 0

/-- The mean ballast current of a cluster over the last ticks, in mA. -/
def State.ballastMa (s : State) (q ticks : Nat) : Nat :=
  250 * ((((s.grants (q / 24)).filter (fun g => g.q == q)).map (fun g => g.ballastSum (s.now - ticks) s.now)).foldl (· + ·) 0) / ticks

/-- The time over which a domain's current is sampled (R501). -/
def State.sampleTicks (s : State) : Nat := 1000 * s.beatTicks

/-- A grant that neither occupies the calendar nor shows in a current sample any more. -/
def Grant.isOver (g : Grant) (x : Nat) : Bool :=
  g.cls != clsPowerOn && decide ((if hasBallast g.cls then g.ends + 7200 else g.ends) ≤ x)

/-- A span ends, and with it the cap level of a capped grant. Its tail ballast still occupies the calendar; grants whose
tail no sample shows any more leave it. -/
def State.endSpan (s : State) (n : Nat) (g : Grant) : State :=
  (s.modArb n (fun a => { a with placed := a.placed.filter (fun h => h.id == g.id || !h.isOver (s.now - s.sampleTicks)) })).setThrottle g.q

/-- Takes a grant out of the calendar. -/
def State.dropGrants (s : State) (n : Nat) (p : Grant → Bool) : State :=
  s.modArb n (fun a => { a with placed := a.placed.filter (fun g => !p g) })

end Sys2Proof.Machine
end

