-- ==== Sys2Proof/Machine/Partition.lean ====
section
/-! DEFINITION. The partitions of a cluster's scratchpad, the power of its banks, and one row of it (R138 to R174). -/

namespace Sys2Proof.Machine

/-! ### Partition descriptors (R147 to R150) -/

def State.partValid (s : State) (q i : Nat) : Bool := s.fld Fld.cluPartCfgValid q i == 1
def State.partOpen (s : State) (q i : Nat) : Bool := s.fld Fld.cluPartCfgGate q i == 1
def State.partFold (s : State) (q i : Nat) : Nat := s.fld Fld.cluPartCfgFold q i
def State.partMask (s : State) (q i : Nat) : Nat := s.fld Fld.cluPartBanksBankMask q i
def State.partWclass (s : State) (q i : Nat) : Bool := s.fld Fld.cluPartCfgWclass q i == 1

/-- R147: whether descriptor words cover row `a` (R98: bank a / 1,024, row a mod 1,024 in it). -/
def coversRow (banks cfg : Word) (a : Nat) : Bool :=
  let base := getBits cfg Fld.cluPartCfgBaseRow.lo Fld.cluPartCfgBaseRow.width
  let count := getBits cfg Fld.cluPartCfgRowCount.lo Fld.cluPartCfgRowCount.width
  banks.toNat / 2 ^ (a / 1024) % 2 == 1 && decide (a / 1024 < 48) && decide (base ≤ a % 1024) &&
    decide (a % 1024 < base + count)

def State.partCovers (s : State) (q i a : Nat) : Bool :=
  s.partValid q i && coversRow (s.reg .cluPartBanks q i) (s.reg .cluPartCfg q i) a

/-- The valid descriptor that covers a row. -/
def State.partOf (s : State) (q a : Nat) : Option Nat := (List.range 64).find? (fun i => s.partCovers q i a)

/-- R150: the row lies in a partition that the fold owns. -/
def State.reaches (s : State) (f q a : Nat) : Bool :=
  match s.partOf q a with
  | some i => s.partFold q i == f
  | none => false
/-- R151: every one of `n` rows does. -/
def State.reachesAll (s : State) (f q a n : Nat) : Bool :=
  decide (a + n ≤ 49152) && (List.range n).all (fun i => s.reaches f q (a + i))

/-- Whether a row lies in a weight-class partition. -/
def State.rowWclass (s : State) (q a : Nat) : Bool := (s.partOf q a).any (s.partWclass q)

/-! ### Banks (R160 to R166) -/

def State.bankPowered (s : State) (q b : Nat) : Bool := s.bit Fld.cluBankPowerPowered q 0 b
/-- R163: some valid open partition includes the bank. -/
def State.bankWanted (s : State) (q b : Nat) : Bool :=
  (List.range 64).any (fun i => s.partValid q i && s.partOpen q i && s.partMask q i / 2 ^ b % 2 == 1)
/-- A closure that waits for its bank. -/
def closingKey (b i : Nat) : Nat := 64 * b + i
def State.banksOf (s : State) (q i : Nat) : List Nat :=
  (List.range 48).filter (fun b => s.partMask q i / 2 ^ b % 2 == 1)

/-- R160, R164: an access to the row is refused. -/
def State.rowRefused (s : State) (q a : Nat) : Bool :=
  match s.partOf q a with
  | some i =>
    if s.partOpen q i then
      (s.banksOf q i).any (fun b => !s.bankPowered q b) || (Map.find (s.cluster q).opens i).any (fun e => decide (s.now < e))
    else !(s.cluster q).closing.contains (closingKey (a / 1024) i)
  | none => false

/-- R143, R161: what is in flight at a bank. -/
def State.inFlight (s : State) (q b : Nat) : Nat :=
  ((s.cluster q).flight.filter (fun e => e.1 == b && decide (s.now < e.2))).length

/-- The bank register's pending bit shows a closure that waits, or a ramp or fill. -/
def State.showPending (s : State) (q b : Nat) : State :=
  s.setBit Fld.cluBankPendingPending q 0 b
    ((s.cluster q).closing.any (fun k => k / 64 == b) || (Map.find (s.cluster q).filling b).isSome)

/-- The rows of a bank become zero rows with valid check bytes. Their tags go with them: DESIGN CHOICE (log 127). -/
def State.zeroBank (s : State) (q b : Nat) : State :=
  s.modCluster q (fun c => { c with rows := Map.drop c.rows (fun a => a / 1024 == b),
                                    err := Map.drop c.err (fun a => a / 1024 == b),
                                    coded := Map.drop c.coded (fun a => a / 1024 == b),
                                    spoiled := c.spoiled.filter (fun a => a / 1024 != b),
                                    tags := Map.drop c.tags (fun a => a / 1024 == b) })

/-- R163: a bank that no valid open partition includes loses power and its contents. -/
def State.dropBank (s : State) (q b : Nat) : State :=
  if s.bankPowered q b ∧ ¬ s.bankWanted q b ∧ ¬ (s.cluster q).closing.any (fun k => k / 64 == b) then
    (s.setBit Fld.cluBankPowerPowered q 0 b false).zeroBank q b
  else s

/-- R164: a gated bank that a partition opens asks for its POWER_ON grant of 2 units. -/
def State.powerBank (s : State) (q b : Nat) : State :=
  if s.bankPowered q b ∨ (Map.find (s.cluster q).filling b).isSome then s
  else
    let s := s.askLeave clsPowerOn q 0 2 856 0 (some b)
    (s.modCluster q (fun c => { c with filling := Map.put c.filling b (s.nextTag - 1) })).showPending q b

/-- R166: a bank that was ramping or filling goes on to its power, though a reset took its grant: it asks for another. -/
def State.powerAgain (s : State) (q : Nat) : State :=
  (Map.keys (s.cluster q).filling).foldl (fun (s : State) b =>
    (s.modCluster q (fun c => { c with filling := Map.del c.filling b })).powerBank q b) s

/-- R164: the partition opens at the next bank edge where its banks are powered; the others ramp and fill. -/
def State.openPart (s : State) (q i : Nat) : State :=
  let s := s.setFld Fld.cluPartCfgGate q i 1
  let s := s.modCluster q (fun c => { c with opens := Map.put c.opens i (s.bankEdge ((s.foldOf q).getD 0) (s.now + 1)) })
  (s.banksOf q i).foldl (fun s b =>
    let s := s.modCluster q (fun c => { c with closing := c.closing.filter (fun k => k != closingKey b i) })
    (s.powerBank q b).showPending q b) s

/-- R161: the partition's banks become pending. -/
def State.closePart (s : State) (q i : Nat) : State :=
  let s := (s.setFld Fld.cluPartCfgGate q i 0).modCluster q (fun c => { c with opens := Map.del c.opens i })
  (s.banksOf q i).foldl (fun s b =>
    (s.modCluster q (fun c => { c with closing := closingKey b i :: c.closing })).showPending q b) s

/-- R161: at a bank edge, a closure takes effect when nothing is in flight. -/
def State.closureCheck (s : State) (q b : Nat) : State :=
  if (s.cluster q).closing.any (fun k => k / 64 == b) ∧ s.inFlight q b = 0 then
    let s := s.modCluster q (fun c => { c with closing := c.closing.filter (fun k => k / 64 != b) })
    (s.dropBank q b).showPending q b
  else s

/-- R164: the ramp and the fill of a bank are over. -/
def State.bankFilled (s : State) (q b : Nat) : State :=
  match Map.find (s.cluster q).filling b with
  | some id =>
    if (s.grantStart? (q / 24) id).any (fun x => decide (x + 10272 ≤ s.now)) then
      let s := s.dropGrants (q / 24) (fun g => g.id == id)
      let s := s.modCluster q (fun c => { c with filling := Map.del c.filling b })
      (((s.zeroBank q b).setBit Fld.cluBankPowerPowered q 0 b true).dropBank q b).showPending q b
    else s
  | none => s

/-! ### Writing a descriptor (R148, R149, R153, R166) -/

def cfgBits (f : Fld) (w : Word) : Nat := getBits w f.lo f.width

/-- The words that a write gives to the two registers of a descriptor; reserved bits read zero (R9). -/
def partWords (s : State) (q i : Nat) (cfg : Bool) (v : Word) : Word × Word :=
  let keep := fun (r : Reg) (w : Word) =>
    r.fields.foldl (fun (acc : Word) d => setBits acc d.lo d.width (getBits w d.lo d.width)) 0
  if cfg then (s.reg .cluPartBanks q i, keep .cluPartCfg v) else (keep .cluPartBanks v, s.reg .cluPartCfg q i)

/-- Two descriptors share a row: their masks share a bank and their row ranges meet. -/
def overlaps (b1 c1 b2 c2 : Word) : Bool :=
  let lo := fun w => cfgBits Fld.cluPartCfgBaseRow w
  let n := fun w => cfgBits Fld.cluPartCfgRowCount w
  (b1 &&& b2) != 0 && decide (lo c1 < lo c2 + n c2) && decide (lo c2 < lo c1 + n c1)

/-- R148 and R149: whether a descriptor write is refused. A write that changes gate and nothing else is judged under R149 alone; one
that changes nothing is a write to every field. DEDUCED (log 129). -/
def State.partRefused (s : State) (q i : Nat) (cfg : Bool) (v : Word) : Bool :=
  let c0 := s.reg .cluPartCfg q i
  let (b, c) := partWords s q i cfg v
  let gate := fun w => setBits w Fld.cluPartCfgGate.lo 1 0
  if cfg ∧ gate c = gate c0 ∧ c ≠ c0 then false
  else
    let wasValid := cfgBits Fld.cluPartCfgValid c0 == 1
    let busy := fun w => s.foldState (cfgBits Fld.cluPartCfgFold w) != 0
    (wasValid && busy c0) ||
    (cfgBits Fld.cluPartCfgValid c == 1 &&
      ((List.range 64).any (fun j => j != i && s.partValid q j &&
          overlaps b c (s.reg .cluPartBanks q j) (s.reg .cluPartCfg q j)) ||
        cfgBits Fld.cluPartCfgRowCount c == 0 ||
        decide (1024 < cfgBits Fld.cluPartCfgBaseRow c + cfgBits Fld.cluPartCfgRowCount c) ||
        b == 0 || busy c || busy c0))

/-- R153: every row that the words of a partition cover becomes undefined. -/
def markUnwritten (err : Map RowErr) (banks cfg : Word) : Map RowErr :=
  let base := cfgBits Fld.cluPartCfgBaseRow cfg
  let n := cfgBits Fld.cluPartCfgRowCount cfg
  (List.range 48).foldl (fun m b =>
    if banks.getLsbD b then (List.range n).foldl (fun m r => Map.put m (1024 * b + base + r) .unwritten) m else m) err

/-- Carries out a descriptor write that is not refused. -/
def State.partApply (s : State) (q i : Nat) (cfg : Bool) (v : Word) : State :=
  let b0 := s.reg .cluPartBanks q i
  let c0 := s.reg .cluPartCfg q i
  let (b, c) := partWords s q i cfg v
  let gate0 := cfgBits Fld.cluPartCfgGate c0
  let gate := cfgBits Fld.cluPartCfgGate c
  let was := cfgBits Fld.cluPartCfgValid c0 == 1
  let is := cfgBits Fld.cluPartCfgValid c == 1
  let old := s.banksOf q i
  let s := (s.setReg .cluPartBanks q i b).setReg .cluPartCfg q i (setBits c Fld.cluPartCfgGate.lo 1 gate0)
  let s := if was ∧ is ∧ cfgBits Fld.cluPartCfgWclass c ≠ cfgBits Fld.cluPartCfgWclass c0
    then s.modCluster q (fun k => { k with
      err := markUnwritten (markUnwritten k.err b0 c0) b c
      spoiled := k.spoiled.filter (fun a => !coversRow b0 c0 a && !coversRow b c a) }) else s
  let s := if ¬ is then s.setFld Fld.cluPartCfgGate q i gate
    else if gate = 1 then s.openPart q i
    else if was ∧ gate0 = 1 then s.closePart q i
    else s.setFld Fld.cluPartCfgGate q i gate
  if was then old.foldl (fun s b => s.dropBank q b) s else s

/-! ### The two codes (R139, R153 to R155, R625)

A row is stored with the check bytes that its class's code gives it, so the bits that have turned over since (`RowErr`) decide
what the code makes of it. -/

def countBits {w : Nat} (b : BitVec w) : Nat := ((List.range w).filter b.getLsbD).length

/-- What a read makes of a stored row: right as it stands, correctable, uncorrectable, beyond the range in which its code
corrects or detects, or undefined since its class changed. -/
inductive Health where | good | fixed | bad | beyond | undefined
deriving DecidableEq, Repr

/-- Parts of a row that are uncorrectable, beyond the code's range, and correctable. -/
def Health.of (bad beyond fixed : Bool) : Health :=
  if bad then .bad else if beyond then .beyond else if fixed then .fixed else .good

/-- R154: the bits of word `w` (0 to 63) and of its 8 check bits that have turned over. -/
def wordFlips (bits : BitVec 4608) (w : Nat) : Nat :=
  countBits (bits.extractLsb' (64 * w) 64) + countBits (bits.extractLsb' (4096 + 8 * w) 8)

/-- R155: the erroneous symbols of codeword `c` (0 or 1): 128 of two data bytes, 16 of two check bytes. -/
def symbolErrors (bits : BitVec 4608) (c : Nat) : Nat :=
  ((List.range 128).filter (fun i => bits.extractLsb' (32 * i + 16 * c) 16 != 0)).length +
    ((List.range 16).filter (fun i => bits.extractLsb' (4096 + 256 * c + 16 * i) 16 != 0)).length

/-- R154, R155, R625. -/
def flipHealth (wclass : Bool) (bits : BitVec 4608) : Health :=
  if wclass then
    let n := [symbolErrors bits 0, symbolErrors bits 1]
    .of false (n.any (fun x => decide (8 < x))) (n.any (fun x => decide (0 < x)))
  else
    let n := (List.range 64).map (wordFlips bits)
    .of (n.any (fun x => x == 2)) (n.any (fun x => decide (2 < x))) (n.any (fun x => x == 1))

/-- The class in whose code a row is read: its partition's, or the one it was last written under. -/
def State.codeOfRow (s : State) (q a : Nat) : Bool :=
  match s.partOf q a with
  | some i => s.partWclass q i
  | none => Map.get false (s.cluster q).coded a

/-- R158: a row found uncorrectable stays so until it is written. A row written under the other class holds the check bytes of
the other code: its contents are as undefined as after a change of class. DEDUCED (log 19). -/
def State.rowHealth (s : State) (q a : Nat) : Health :=
  let c := s.cluster q
  if c.spoiled.contains a then .bad
  else match Map.find c.err a with
  | some .unwritten => .undefined
  | e =>
    if (Map.find c.coded a).any (· != s.codeOfRow q a) then .undefined
    else match e with
      | some (.flipped bits) => flipHealth (s.codeOfRow q a) bits
      | _ => .good

/-! ### One row (R139, R156, R157, R171 to R173) -/

/-- Agents as events name them: a core under its own name, the others under the cluster agent's. -/
def agentSource (q : Nat) (f : Option Nat) (writer : Nat) : Source :=
  if writer < 48 then srcCore (coreAddr q writer) f else srcAgent q f

def State.row (s : State) (q a : Nat) : Row := Map.get 0 (s.cluster q).rows a

/-- R173: a write over a row tagged by another writer at the same release count is reported; the tag takes the new
writer. -/
def State.tagWrite (s : State) (q a writer : Nat) : State :=
  let c := s.cluster q
  let f := s.foldOf q
  let s := match Map.find c.tags a with
    | some t =>
      if writer ≠ 50 ∧ t.writer ≠ 50 ∧ t.writer ≠ writer ∧ t.count = c.count ∧ c.count < 65535 then
        (s.bump Fld.cluSpContractUnorderedCount q 0).report (agentSource q f writer) 0x5008 a t.writer
      else s
    | none => s
  s.modCluster q (fun c => { c with tags := Map.put c.tags a ⟨writer, c.count⟩ })

/-- A row is stored with the check bytes of its partition's class (R139). -/
def State.storeRow (s : State) (q a : Nat) (r : Row) : State :=
  s.modCluster q (fun c => { c with
    rows := Map.set 0 c.rows a r, err := Map.del c.err a, coded := Map.put c.coded a (s.rowWclass q a)
    spoiled := c.spoiled.filter (· != a) })

/-- A write of one row, as its bank serves it. -/
def State.writeRow (s : State) (q a writer : Nat) (r : Row) : State := (s.tagWrite q a writer).storeRow q a r

/-- R157 step 3: an uncorrectable read is recorded. -/
def State.spRecord (s : State) (q a : Nat) (f : Option Nat) : State :=
  let s := s.modCluster q (fun c => { c with spoiled := if c.spoiled.contains a then c.spoiled else a :: c.spoiled })
  let s := s.bump Fld.cluSpEccUncorrectedCount q 0
  let s := s.setFld Fld.cluSpEccLastBank q 0 (a / 1024)
  let s := s.setFld Fld.cluSpEccLastRow q 0 (a % 1024)
  s.report (srcAgent q f) 0x3001 (a / 1024) (a % 1024)

/-- R157: an uncorrectable read is recorded, and the items it serves fail. -/
def State.spError (s : State) (q a : Nat) (f : Option Nat) (core : Nat) : State :=
  (s.spRecord q a f).failItems? f core 0x10

/-- What a read finds: its data, none for an uncorrectable error, and whether corrected_count rises. Errors beyond the code
are reported or miscorrected (R625); a row not written since its class changed gives undefined data, with or without a rise,
or an error (R153): free values of one draw. -/
def State.senseRow (s : State) (q a : Nat) : Option Row × Bool × State :=
  match s.rowHealth q a with
  | .good => (some (s.row q a), false, s)
  | .fixed => (some (s.row q a), true, s)
  | .bad => (none, false, s)
  | .beyond => (if Config.beyondFails s.fresh then none else some (Config.beyondRow s.fresh), !Config.beyondFails s.fresh, s.drew)
  | .undefined =>
    (if Config.unwrittenFails s.fresh then none else some (Config.unwrittenRow s.fresh),
      !Config.unwrittenFails s.fresh && Config.unwrittenCounts s.fresh, s.drew)

/-- A read of one row, as its bank serves it: the data delivered, or none for an uncorrectable error (R156, R157). -/
def State.readRow (s : State) (q a : Nat) (f : Option Nat) (core : Nat) : Option Row × State :=
  let (r, counts, s) := s.senseRow q a
  match r with
  | some r => (some r, if counts then s.bump Fld.cluSpEccCorrectedCount q 0 else s)
  | none => (none, s.spError q a f core)

/-- R165: a refused access writes nothing; it is recorded and its items fail. -/
def State.gatedAccess (s : State) (q a writer : Nat) (f : Option Nat) (core : Nat) : State :=
  let s := (s.bump Fld.cluSpContractGatedCount q 0).report (agentSource q f writer) 0x5005 (a / 1024) (a % 1024)
  s.failItems? f core 0x23

/-- R151: an access through the router port outside the target fold's partitions is refused whole and reported; `kind` and
`src` name its sender (Table 16-4). -/
def State.overrun (s : State) (q a kind src : Nat) : State :=
  s.report (srcAgent q (s.foldOf q)) 0x5004 a (src + 2 ^ 17 * kind)

/-- The scheduler reads a row of its fold (R150, R369): the data, or the status that the items of the read take. -/
def State.schedulerRow (s : State) (q a f : Nat) : Except Nat Row × State :=
  if ¬ s.reaches f q a then (.error 0x10, s.overrun q a 1 (hubAddr (q / 24)))
  else if s.rowRefused q a then (.error 0x23, s.gatedAccess q a 50 none 0)
  else
    let (r, counts, s) := s.senseRow q a
    match r with
    | some r => (.ok r, if counts then s.bump Fld.cluSpEccCorrectedCount q 0 else s)
    | none => (.error 0x10, s.spRecord q a (some f))

/-- The scheduler reads `n` rows. -/
def State.schedulerRows (s : State) (q a f : Nat) : Nat → List (Except Nat Row) × State
  | 0 => ([], s)
  | n + 1 =>
    let (r, s) := s.schedulerRow q a f
    let (l, s) := s.schedulerRows q (a + 1) f n
    (r :: l, s)

/-- R150, R152, R160, R171: the steward or the weight codec writes a row, by writer 50, unless no partition covers it or its
partition is closed: the items that it serves then take the status that stands first. -/
def State.stewardWrite (s : State) (q a : Nat) (r : Row) : Option Nat × State :=
  if (s.partOf q a).isNone then (some 0x10, s.overrun q a 1 (hubAddr (q / 24)))
  else if s.rowRefused q a then (some 0x23, s.gatedAccess q a 50 none 0)
  else (none, s.writeRow q a 50 r)

/-- The same where the row serves no item. -/
def State.stewardRow (s : State) (q a : Nat) (r : Row) : State := (s.stewardWrite q a r).2

/-- Rows from row `a` on, with the status that the first refusal gives. -/
def State.putRows (s : State) (q a : Nat) : List Row → Option Nat × State
  | [] => (none, s)
  | r :: l =>
    let (st, s) := s.stewardWrite q a r
    let (rest, s) := s.putRows q (a + 1) l
    (st.orElse (fun _ => rest), s)

end Sys2Proof.Machine
end

