-- ==== Sys2Proof/Machine/Dram.lean ====
section
/-! DEFINITION. What a stack stores: its regions and its codes (R295 to R300, R309 to R313, R627). -/

namespace Sys2Proof.Machine

def stackActive : Nat := 0
def stackSelfRefresh : Nat := 1
def stackFailed : Nat := 2

def State.stackState (s : State) (n : Nat) : Nat := s.fld Fld.hubStkStatusState n 0

/-! ### Regions (R297 to R300) -/

def State.regionValid (s : State) (n i : Nat) : Bool := s.fld Fld.hubStkRegionCfgValid n i == 1
def State.regionWclass (s : State) (n i : Nat) : Bool := s.fld Fld.hubStkRegionCfgWclass n i == 1
def State.regionFold (s : State) (n i : Nat) : Nat := s.fld Fld.hubStkRegionCfgFold n i
def State.regionBase (s : State) (n i : Nat) : Nat := s.fld Fld.hubStkRegionBaseRow n i
def State.regionRows (s : State) (n i : Nat) : Nat := s.fld Fld.hubStkRegionRowCount n i

/-- R297: the rows that a region takes, check rows among them. -/
def spanRows (wclass : Bool) (count : Nat) : Nat := if wclass then count + count / 5 else count

/-- The valid region that holds an addressable row. -/
def State.regionOf (s : State) (n a : Nat) : Option Nat :=
  (List.range 64).find? (fun i => s.regionValid n i && decide (s.regionBase n i ≤ a) &&
    decide (a < s.regionBase n i + s.regionRows n i))

/-- R299: what a fold may do in a region. -/
def State.mayReach (s : State) (n i : Nat) (f : Option Nat) (write : Bool) : Bool :=
  let share := s.fld Fld.hubStkRegionCfgShare n i == 1
  let own := s.fld Fld.hubStkRegionCfgFwOwned n i == 0 && f == some (s.regionFold n i)
  if write then own else own || share

/-- R300: every row lies in a region that the request may reach. -/
def State.reachesRows (s : State) (n : Nat) (f : Option Nat) (write : Bool) (a : Nat) : Nat → Bool
  | 0 => true
  | k + 1 => (s.regionOf n a).any (fun i => s.mayReach n i f write) && s.reachesRows n f write (a + 1) k

/-! ### The codes (R309 to R313, R627) -/

/-- R313: a die caused a corrected symbol or an uncorrectable word in a row. More than 16 distinct rows within one second mark it
failed in the repair record. -/
def State.dieError (s : State) (n row die : Nat) : State :=
  let keep := ((s.dram n).errRows.filter (fun e => decide (s.now < e.2.2 + s.second) && !(e.1 == die && e.2.1 == row)))
  let all := (die, row, s.now) :: keep
  let s := s.modDram n (fun d => { d with errRows := all })
  if 16 < (all.filter (fun e => e.1 == die)).length ∧ ¬ (s.dram n).failedDies.contains die then
    ((s.modDram n (fun d => { d with failedDies := d.failedDies ++ [die] })).recordModule.setFld Fld.hubStkStatusFailedDie n 0 die).report
      (srcHub n none) 0x3004 n die
  else s

/-- HUB_STK_LAST_ERR.die: the die of the failing parts, 15 where they lie on more than one (Table 08-5). -/
def dieField : List Nat → Nat
  | [d] => d
  | _ => 15

/-- R312 step 3: `dies` are those of the failing parts. Words of an activation-class row count against their dies (R313). -/
def State.stackError (s : State) (n a : Nat) (wclass : Bool) (dies : List Nat) (f : Option Nat) : State :=
  let s := s.bump Fld.hubStkEccUncorrectedCount n 0
  let s := s.setFld Fld.hubStkLastErrValid n 0 1
  let s := s.setFld Fld.hubStkLastErrDie n 0 (dieField dies)
  let s := s.setFld Fld.hubStkLastErrRow n 0 a
  let s := s.report (srcHub n f) 0x3002 n a
  if wclass then s else dies.foldl (fun (s : State) d => s.dieError n a d) s

/-- R311: `dies` are those of the corrected parts. Corrected symbols count against their dies (R313). -/
def State.stackFixed (s : State) (n a : Nat) (wclass : Bool) (dies : List Nat) : State :=
  let s := s.bump Fld.hubStkEccCorrectedCount n 0
  if wclass then dies.foldl (fun (s : State) d => s.dieError n a d) s else s

/-- What the codes make of a stored row: the dies of the parts that they correct, of those that fail, and of those beyond their
range (R627). -/
structure Coded where
  fixed  : List Nat
  bad    : List Nat
  beyond : List Nat
deriving DecidableEq, Repr

/-- R309: the bits of word `w` (0 to 15) and of its 10 check bits that have turned over. -/
def wordErrors (e : StackErr) (w : Nat) : Nat :=
  countBits (e.extractLsb' (256 * w) 256) + countBits (e.extractLsb' (4096 + 10 * w) 10)

/-- R309, R313: word `w` of row `a` lies on die (16·a + w) mod 12; a failed die's words are lost. -/
def codedWords (e : StackErr) (failed : List Nat) (a : Nat) : Coded :=
  let dies := fun (p : Nat → Bool) => (((List.range 16).filter p).map (fun w => (16 * a + w) % 12)).dedup
  let lost := fun w => failed.contains ((16 * a + w) % 12)
  { fixed := dies (fun w => !lost w && wordErrors e w == 1), bad := dies (fun w => lost w || wordErrors e w == 2)
    beyond := dies (fun w => !lost w && decide (2 < wordErrors e w)) }

/-! A weight-class region from row `base` on with `count` rows is coded in blocks of five rows and a check row (R297, R310).
DESIGN CHOICE (log 134), as the manual does not place the symbols: the 2,560 data bytes of a block in ascending order make 256
codewords of 10, the check row holds two symbols for each, and symbol `i` of codeword `k` of the region lies on die (i + k) mod 12. -/

def Stack.errOf (d : Stack) (a : Nat) : StackErr := (Map.find d.err a).getD 0

/-- Whether symbol `i` of codeword `w` of block `g` is erroneous. -/
def Stack.badSymbol (d : Stack) (base count g w i : Nat) : Bool :=
  let j := 10 * w + i
  if i < 10 then (d.errOf (base + 5 * g + j / 512)).extractLsb' (8 * (j % 512)) 8 != 0
  else (d.errOf (base + count + g)).extractLsb' (8 * (2 * w + (i - 10))) 8 != 0

/-- The dies of the erroneous symbols of a codeword, apart from those read as erasures (R313). -/
def Stack.badDies (d : Stack) (base count g w : Nat) : List Nat :=
  (((List.range 12).filter (d.badSymbol base count g w)).map (fun i => (i + 256 * g + w) % 12)).filter
    (fun x => !d.failedDies.contains x)

/-- The codewords of its block in which a row has symbols: `k` is its place among the five. -/
def codewordsOf (k : Nat) : List Nat := (List.range ((512 * k + 511) / 10 + 1)).filter (fun w => decide (512 * k ≤ 10 * w + 9))

/-- R310, R313: a codeword corrects one symbol; with a failed die read as an erasure it corrects no further error. -/
def Stack.codewords (d : Stack) (base count a : Nat) : Coded :=
  let l := (codewordsOf ((a - base) % 5)).map (d.badDies base count ((a - base) / 5))
  if d.failedDies.isEmpty then
    { fixed := ((l.filter (fun x => x.length == 1)).flatten).dedup, bad := []
      beyond := ((l.filter (fun x => decide (1 < x.length))).flatten).dedup }
  else { fixed := [], bad := (l.flatten).dedup, beyond := [] }

/-- What the codes make of row `a`, by the class of its region. -/
def State.coded (s : State) (n a : Nat) : Coded :=
  let d := s.dram n
  match s.regionOf n a with
  | some i => if s.regionWclass n i then d.codewords (s.regionBase n i) (s.regionRows n i) a else codedWords (d.errOf a) d.failedDies a
  | none => codedWords (d.errOf a) d.failedDies a

/-- The class of the region that holds a row. -/
def State.rowClass (s : State) (n a : Nat) : Bool := (s.regionOf n a).any (s.regionWclass n)

/-- A read of one row: its data, or none where it is uncorrectable. Errors beyond the codes are reported or miscorrected, by a
free value (R627). -/
def State.stackRead (s : State) (n a : Nat) (f : Option Nat) : Option Row × State :=
  let k := s.coded n a
  let w := s.rowClass n a
  if ¬ k.bad.isEmpty then (none, s.stackError n a w k.bad f)
  else if ¬ k.beyond.isEmpty then
    if Config.beyondFails s.fresh then (none, s.drew.stackError n a w k.beyond f)
    else (some (Config.beyondRow s.fresh), s.drew.stackFixed n a w k.fixed)
  else (some (Map.get 0 (s.dram n).rows a), if k.fixed.isEmpty then s else s.stackFixed n a w k.fixed)

def State.stackReads (s : State) (n a : Nat) (f : Option Nat) : Nat → List (Option Row) × State
  | 0 => ([], s)
  | k + 1 =>
    let (r, s) := s.stackRead n a f
    let (l, s) := s.stackReads n (a + 1) f k
    (r :: l, s)

/-- The errors of a stack after a row of it is written: those of the row go, and in a weight-class region those of the check symbols
that its codewords get anew. -/
def State.errAfter (s : State) (n a : Nat) (err : Map StackErr) : Map StackErr :=
  let err := Map.del err a
  match s.regionOf n a with
  | some i =>
    if s.regionWclass n i then
      let k := a - s.regionBase n i
      let row := s.regionBase n i + s.regionRows n i + k / 5
      match Map.find err row with
      | some e => Map.set 0 err row ((codewordsOf (k % 5)).foldl (fun (e : StackErr) w =>
          e &&& ~~~ ((0xFFFF#16).setWidth 4256 <<< (16 * w))) e)
      | none => err
    else err
  | none => err

/-- A row is stored with the check bytes that its codes give it. -/
def State.stackWrite (s : State) (n a : Nat) (r : Row) : State :=
  s.modDram n (fun d => { d with rows := Map.set 0 d.rows a r, err := s.errAfter n a d.err })

def State.stackWrites (s : State) (n a : Nat) : List Row → State
  | [] => s
  | r :: l => (s.stackWrite n a r).stackWrites n (a + 1) l

/-- R299, R300, R316: whether an agent that may read and write every region is served at a row; a refusal for want of a region
is recorded. What comes while the exit from self-refresh is under way is held until its end. -/
def State.agentStack (s : State) (n a : Nat) (f : Option Nat) : Bool × State :=
  if s.stackState n ≠ stackActive ∧ ¬ (s.stackState n = stackSelfRefresh ∧ (s.dram n).exitAt.isSome) then (false, s)
  else if (s.regionOf n a).isNone then (false, s.report (srcHub n f) 0x3003 n a)
  else (true, s)

/-- The walker or an engine reads a row of a stack: none where it is refused or uncorrectable. -/
def State.agentRead (s : State) (n a : Nat) (f : Option Nat) : Option Row × State :=
  match s.agentStack n a f with
  | (true, s) => s.stackRead n a f
  | (false, s) => (none, s)

def State.agentWrite (s : State) (n a : Nat) (r : Row) (f : Option Nat) : Bool × State :=
  match s.agentStack n a f with
  | (true, s) => (true, s.stackWrite n a r)
  | (false, s) => (false, s)

end Sys2Proof.Machine
end

