-- ==== Sys2Proof/Machine/Num.lean ====
section
/-! DEFINITION. The formats of Table 06-1 and exact arithmetic over them, rounded once (R224 to R230). -/

namespace Sys2Proof.Machine

/-! ### Exact numbers -/

/-- A number as a format carries it: not a number, an infinity, or ±m·2^e. -/
inductive FV where
  | nan
  | inf (neg : Bool)
  | fin (neg : Bool) (m : Nat) (e : Int)
deriving DecidableEq, Repr

/-- An exact dyadic number m·2^e. -/
structure Dy where
  m : Int
  e : Int
deriving DecidableEq, Repr

def Dy.add (a b : Dy) : Dy :=
  if a.e ≤ b.e then ⟨a.m + b.m * 2 ^ (b.e - a.e).toNat, a.e⟩ else ⟨a.m * 2 ^ (a.e - b.e).toNat + b.m, b.e⟩
def Dy.mul (a b : Dy) : Dy := ⟨a.m * b.m, a.e + b.e⟩
def Dy.neg (a : Dy) : Dy := ⟨-a.m, a.e⟩
def Dy.sum (l : List Dy) : Dy := l.foldl Dy.add ⟨0, 0⟩
def Dy.le (a b : Dy) : Bool := decide ((a.add b.neg).m ≤ 0)
def Dy.lt (a b : Dy) : Bool := decide ((a.add b.neg).m < 0)
def Dy.ofInt (i : Int) : Dy := ⟨i, 0⟩

/-- The exact value of a finite number, and zero for the rest. -/
def FV.dy : FV → Dy
  | .fin neg m e => ⟨if neg then -(m : Int) else m, e⟩
  | _ => ⟨0, 0⟩
def FV.isNan : FV → Bool
  | .nan => true
  | _ => false
def FV.isFin : FV → Bool
  | .fin _ _ _ => true
  | _ => false
def FV.isNeg : FV → Bool
  | .inf n => n
  | .fin n _ _ => n
  | .nan => false
def FV.isZero : FV → Bool
  | .fin _ m _ => m == 0
  | _ => false
def FV.negate : FV → FV
  | .nan => .nan
  | .inf n => .inf (!n)
  | .fin n m e => .fin (!n) m e
/-- A dyadic number; zero is +0. -/
def FV.ofDy (d : Dy) : FV := .fin (decide (d.m < 0)) d.m.natAbs d.e
def FV.ofInt (i : Int) : FV := .fin (decide (i < 0)) i.natAbs 0

/-- The exact product. Infinity times zero is NaN. -/
def FV.mul (a b : FV) : FV :=
  match a, b with
  | .nan, _ => .nan
  | _, .nan => .nan
  | .inf n, x => if x.isZero then .nan else .inf (n != x.isNeg)
  | x, .inf n => if x.isZero then .nan else .inf (x.isNeg != n)
  | .fin n m e, .fin n' m' e' => .fin (n != n') (m * m') (e + e')

/-- The exact sum. Infinities of opposite sign give NaN; an exact zero is −0 only when every term is −0 (R229). -/
def FV.sum (l : List FV) : FV :=
  if l.any FV.isNan then .nan
  else
    let p := l.any (fun x => x == .inf false)
    let n := l.any (fun x => x == .inf true)
    if p && n then .nan else if p then .inf false else if n then .inf true
    else
      let d := Dy.sum (l.map FV.dy)
      if d.m = 0 then .fin (l.all FV.isNeg) 0 0 else .ofDy d
def FV.add (a b : FV) : FV := FV.sum [a, b]

/-- Order, with −0 below +0 where `zeros` asks for it. NaN is below nothing. -/
def FV.lt (zeros : Bool) (a b : FV) : Bool :=
  match a, b with
  | .nan, _ => false
  | _, .nan => false
  | .inf n, .inf n' => n && !n'
  | .inf n, _ => n
  | _, .inf n' => !n'
  | .fin n m _, .fin n' m' _ => a.dy.lt b.dy || (zeros && m == 0 && m' == 0 && n && !n')

/-- Minimum and maximum of IEEE 754-2019 (R621). -/
def FV.min (a b : FV) : FV := if a.isNan || b.isNan then .nan else if FV.lt true b a then b else a
def FV.max (a b : FV) : FV := if a.isNan || b.isNan then .nan else if FV.lt true a b then b else a

/-! ### Rounding (R225) -/

/-- The index of the highest bit. -/
def log2 (m : Nat) : Nat := Nat.log2 m

/-- m / 2^k, to nearest, ties to even. -/
def roundShift (m k : Nat) : Nat :=
  let q := m / 2 ^ k
  let r := m % 2 ^ k * 2
  if 2 ^ k < r ∨ (r = 2 ^ k ∧ q % 2 = 1) then q + 1 else q

/-- m·2^e to the nearest integer multiple of 2^q, ties to even, as that multiple. -/
def roundTo (m : Nat) (e q : Int) : Nat :=
  if q ≤ e then m * 2 ^ (e - q).toNat else roundShift m (q - e).toNat

/-- A dyadic number to the nearest integer. -/
def Dy.round (d : Dy) : Int :=
  let n := roundTo d.m.natAbs d.e 0
  if d.m < 0 then -(n : Int) else n

/-- A floating format: exponent bits, mantissa bits, bias, and the codes that are special: 0 infinity and NaN as in
binary32, 1 only the all-ones code is NaN (e4m3), 2 none (e2m1). -/
structure Fmt where
  eb   : Nat
  mb   : Nat
  bias : Nat
  kind : Nat
deriving DecidableEq, Repr

def fp4 : Fmt := ⟨2, 1, 1, 2⟩
def e4m3 : Fmt := ⟨4, 3, 7, 1⟩
def e5m2 : Fmt := ⟨5, 2, 15, 0⟩
def bf16 : Fmt := ⟨8, 7, 127, 0⟩
def fp32 : Fmt := ⟨8, 23, 127, 0⟩

def Fmt.width (f : Fmt) : Nat := 1 + f.eb + f.mb
/-- The code of the largest finite value. -/
def Fmt.maxCode (f : Fmt) : Nat :=
  if f.kind = 0 then (2 ^ f.eb - 1) * 2 ^ f.mb - 1 else if f.kind = 1 then 2 ^ (f.eb + f.mb) - 2 else 2 ^ (f.eb + f.mb) - 1
def Fmt.nanCode (f : Fmt) : Nat :=
  if f.width = 8 then 0x7F else if f.kind = 2 then 0
  else (2 ^ f.eb - 1) * 2 ^ f.mb + 2 ^ (f.mb - 1)

/-- Reads a code. `flush` reads BF16 and FP32 subnormals as zero (R228). -/
def Fmt.read (f : Fmt) (flush : Bool) (code : Nat) : FV :=
  let neg := code / 2 ^ (f.eb + f.mb) % 2 = 1
  let x := code / 2 ^ f.mb % 2 ^ f.eb
  let m := code % 2 ^ f.mb
  if f.kind = 0 ∧ x = 2 ^ f.eb - 1 then (if m = 0 then .inf neg else .nan)
  else if f.kind = 1 ∧ x = 2 ^ f.eb - 1 ∧ m = 2 ^ f.mb - 1 then .nan
  else if x = 0 then .fin neg (if flush ∧ f.width ≥ 16 then 0 else m) (1 - f.bias - f.mb : Int)
  else .fin neg (m + 2 ^ f.mb) ((x : Int) - f.bias - f.mb)

/-- The code of the magnitude m·2^e after one rounding; above `maxCode` where it lies beyond the format. -/
def Fmt.magnitude (f : Fmt) (m : Nat) (e : Int) : Nat :=
  if m = 0 then 0
  else
    let q := Max.max ((log2 m : Int) + e - f.mb) (1 - f.bias - f.mb : Int)
    let n := roundTo m e q
    let x := (q + f.bias + f.mb - 1).toNat
    n + x * 2 ^ f.mb

/-- Writes a number, rounded once (R225 to R228). -/
def Fmt.write (f : Fmt) (flush : Bool) (v : FV) : Nat :=
  let sign := fun (n : Bool) => if n then 2 ^ (f.eb + f.mb) else 0
  match v with
  | .nan => f.nanCode
  | .inf n => sign n + (if f.kind = 0 then f.maxCode + 1 else f.maxCode)
  | .fin n m e =>
    let c := f.magnitude m e
    if f.maxCode < c then sign n + (if f.width ≥ 16 then f.maxCode + 1 else f.maxCode)
    else if flush ∧ f.width ≥ 16 ∧ c < 2 ^ f.mb then sign n
    else sign n + c

/-- Rounds to a format and reads the result back. -/
def Fmt.round (f : Fmt) (v : FV) : FV := f.read false (f.write false v)

/-- Saturation to a signed integer format of `w` bits (R226). -/
def saturate (w : Nat) (i : Int) : Int :=
  if i < -(2 ^ (w - 1) : Nat) then -(2 ^ (w - 1) : Nat) else if (2 ^ (w - 1) : Nat) ≤ i then (2 ^ (w - 1) : Nat) - 1 else i

/-- A floating number as an integer of `w` bits: rounded, saturated; NaN gives zero (R225 to R227). -/
def FV.toInt (w : Nat) : FV → Int
  | .nan => 0
  | .inf n => if n then -(2 ^ (w - 1) : Nat) else (2 ^ (w - 1) : Nat) - 1
  | .fin n m e => saturate w (Dy.round ⟨if n then -(m : Int) else m, e⟩)

/-! ### FP32 as the engines and the norm watch use it: subnormals are exact (R228) -/

def f32 (bits : Nat) : FV := fp32.read false bits
def toF32 (v : FV) : Nat := fp32.write false v
def f32Add (a b : Nat) : Nat := toF32 ((f32 a).add (f32 b))
def f32Sub (a b : Nat) : Nat := toF32 ((f32 a).add (f32 b).negate)
def f32Mul (a b : Nat) : Nat := toF32 ((f32 a).mul (f32 b))
def f32Lt (a b : Nat) : Bool := FV.lt false (f32 a) (f32 b)
def f32One : Nat := 0x3F800000

/-! ### Quotient and square root, correctly rounded: a sticky bit stands below the quotient -/

/-- a / b for b ≠ 0 as a dyadic number with a sticky bit, 64 bits below the leading bit. -/
def Dy.quot (a b : Dy) : Dy :=
  let n := a.m.natAbs
  let d := b.m.natAbs
  let k := log2 d + 66 - Nat.min (log2 n) (log2 d)
  let q := n * 2 ^ k / d
  let sticky := if n * 2 ^ k % d = 0 then 0 else 1
  ⟨(if decide (a.m < 0) = decide (b.m < 0) then 1 else -1) * ((2 * q + sticky : Nat) : Int), a.e - b.e - k - 1⟩

/-- IEEE division: 0/0 and ∞/∞ are NaN, x/0 and ∞/x infinite. -/
def FV.div (a b : FV) : FV :=
  match a, b with
  | .nan, _ => .nan
  | _, .nan => .nan
  | .inf _, .inf _ => .nan
  | .inf n, x => .inf (n != x.isNeg)
  | x, .inf n => .fin (x.isNeg != n) 0 0
  | .fin n m _, .fin n' m' _ =>
    if m' = 0 then (if m = 0 then .nan else .inf (n != n'))
    else if m = 0 then .fin (n != n') 0 0 else .ofDy (a.dy.quot b.dy)
def f32Div (a b : Nat) : Nat := toF32 ((f32 a).div (f32 b))

/-- One step of the integer square root, from a bound that is not below it. -/
def isqrtFrom : Nat → Nat → Nat → Nat
  | 0, _, x => x
  | k + 1, n, x => let y := (x + n / x) / 2; if y < x then isqrtFrom k n y else x
/-- The integer square root. -/
def isqrt (n : Nat) : Nat := if n = 0 then 0 else isqrtFrom (log2 n + 10) n (2 ^ (log2 n / 2 + 1))

/-- The square root of a dyadic number that is not negative, with a sticky bit. -/
def Dy.sqrt (a : Dy) : Dy :=
  let n := a.m.natAbs
  let k := 130 + (a.e % 2).toNat
  let r := isqrt (n * 2 ^ k)
  let sticky := if r * r = n * 2 ^ k then 0 else 1
  ⟨((2 * r + sticky : Nat) : Int), (a.e - k) / 2 - 1⟩

/-! ### Exponential and logarithm, in fixed point with 192 bits below the point -/

def fixBits : Nat := 192
/-- ln 2 · 2^192. -/
def ln2Fix : Nat := 0xB17217F7D1CF79ABC9E3B39803F2F6AF40F343267298B62D

/-- The terms yᵏ/k! from the k-th on, in fixed point. -/
def expSeries (y : Nat) : Nat → Nat → Nat → Nat
  | 0, _, _ => 0
  | n + 1, k, term => term + expSeries y n (k + 1) (term * y / 2 ^ fixBits / (k + 1))

/-- 2^(i + y/2^192) as a dyadic number with a sticky bit. -/
def pow2Fix (i : Int) (y : Nat) : Dy :=
  if y = 0 then ⟨1, i⟩ else ⟨(expSeries (y * ln2Fix / 2 ^ fixBits) 60 0 (2 ^ fixBits) * 2 + 1 : Nat), i - fixBits - 1⟩

/-- A dyadic number in fixed point, rounded down. -/
def Dy.fix (d : Dy) : Int :=
  if 0 ≤ d.e + fixBits then d.m * 2 ^ (d.e + fixBits).toNat else d.m / 2 ^ (-(d.e + fixBits)).toNat

/-- 2^x. -/
def FV.exp2 : FV → FV
  | .nan => .nan
  | .inf n => if n then .fin false 0 0 else .inf false
  | .fin n m e =>
    let x := Dy.fix ⟨if n then -(m : Int) else m, e⟩
    if x ≥ 1024 * 2 ^ fixBits then .inf false
    else if x < -(1024 * 2 ^ fixBits) then .fin false 1 (-2000)
    else .ofDy (pow2Fix (x / 2 ^ fixBits) (x % 2 ^ fixBits).toNat)
/-- eˣ. -/
def FV.exp : FV → FV
  | .nan => .nan
  | .inf n => if n then .fin false 0 0 else .inf false
  | .fin n m e =>
    if m = 0 then .fin false 1 0
    else
      let x := Dy.fix ⟨if n then -(m : Int) else m, e⟩
      if x ≥ 700 * 2 ^ fixBits then .inf false
      else if x < -(700 * 2 ^ fixBits) then .fin false 1 (-2000)
      else
        let k := x / ln2Fix
        let y := (x % ln2Fix).toNat
        .ofDy ⟨(expSeries y 60 0 (2 ^ fixBits) * 2 + 1 : Nat), k - fixBits - 1⟩

/-- Σ z^(2k+1)/(2k+1) in fixed point. -/
def atanhSeries (z2 : Nat) : Nat → Nat → Nat → Nat
  | 0, _, _ => 0
  | n + 1, k, p => p / (2 * k + 1) + atanhSeries z2 n (k + 1) (p * z2 / 2 ^ fixBits)

/-- ln x of a positive dyadic number, in fixed point. -/
def lnFix (m : Nat) (e : Int) : Int :=
  let h := log2 m
  let u := m * 2 ^ fixBits / 2 ^ h
  let z := (u - 2 ^ fixBits) * 2 ^ fixBits / (u + 2 ^ fixBits)
  2 * (atanhSeries (z * z / 2 ^ fixBits) 70 0 z : Nat) + (e + h) * ln2Fix
def FV.ln : FV → FV
  | .nan => .nan
  | .inf n => if n then .nan else .inf false
  | .fin n m e =>
    if m = 0 then .inf true else if n then .nan
    else if m = 2 ^ log2 m ∧ (log2 m : Int) + e = 0 then .fin false 0 0
    else .ofDy ⟨2 * lnFix m e + 1, -(fixBits : Int) - 1⟩

end Sys2Proof.Machine
end

