-- ==== Sys2Proof/Machine/Matrix.lean ====
section
/-! DEFINITION. The matrix engine (Table 03-9, R92 to R96, R229, R620) and the moves of accumulators. -/

namespace Sys2Proof.Machine

/-! ### Operands: element `x` of row `i` of a tile -/

def tileByte (t : Tile) (i : Nat) : Nat := t.toNat / 256 ^ i % 256
/-- A 4-bit element: two share a byte, the even one in the low nibble. -/
def tileNibble (t : Tile) (hi : Bool) (row x : Nat) : Nat :=
  tileByte t (128 * row + (if hi then 64 else 0) + x / 2) / 16 ^ (x % 2) % 16

/-- The ticks that an MMA takes. -/
def mmaTicks : MmaKind → Nat
  | .i4 => 512
  | .f4 => 512
  | .i8 => 2048
  | .f8 _ _ => 2048
  | .b16 => 4096

def mmaDepth : MmaKind → Nat
  | .b16 => 64
  | _ => 128

def mmaTag : MmaKind → AccTag
  | .i4 => .int32
  | .i8 => .int32
  | _ => .fp32

/-- An integer element of an operand. -/
def intElem (k : MmaKind) (t : Tile) (hi : Bool) (row x : Nat) : Int :=
  match k with
  | .i4 => toSigned 4 (tileNibble t hi row x)
  | _ => toSigned 8 (tileByte t (128 * row + x))

/-- A block scale 2^(s − 127); 0xFF is NaN. -/
def blockScale (t : Tile) (row x : Nat) : FV :=
  let s := tileByte t (128 * row + 64 + x / 32)
  if s = 0xFF then .nan else .fin false 1 ((s : Int) - 127)

/-- A floating element of an operand, with its block scale under MMA.F4. -/
def fpElem (k : MmaKind) (second : Bool) (t : Tile) (row x : Nat) : FV :=
  match k with
  | .f4 => (fp4.read false (tileNibble t false row x)).mul (blockScale t row x)
  | .f8 a b => (if (if second then b else a) then e5m2 else e4m3).read true (tileByte t (128 * row + x))
  | _ => bf16.read true (tileByte t (128 * row + 2 * x) + 256 * tileByte t (128 * row + 2 * x + 1))

def accElem (t : Tile) (i : Nat) : Nat := t.toNat / 2 ^ (32 * i) % 2 ^ 32

/-- R229: element (r, c) of the accumulator after an MMA: the exact sum of the products is added with one rounding. -/
def mmaElem (m : Mma) (ta tb acc : Tile) (i : Nat) : Nat :=
  let r := i / 32
  let c := i % 32
  let ks := List.range (mmaDepth m.kind)
  match mmaTag m.kind with
  | .int32 =>
    let sum := (ks.map (fun x => intElem m.kind ta m.hiA r x * intElem m.kind tb m.hiB c x)).foldl (· + ·) 0
    ofSigned 32 (saturate 32 (toSigned 32 (accElem acc i) + sum))
  | _ =>
    let sum := FV.sum (ks.map (fun x => (fpElem m.kind false ta r x).mul (fpElem m.kind true tb c x)))
    fp32.write true ((fp32.read true (accElem acc i)).add sum)

def accNat : List Nat → Nat
  | [] => 0
  | x :: l => x + 2 ^ 32 * accNat l
/-- The accumulator after an MMA. -/
def mmaResult (m : Mma) (f : Files) : Tile :=
  BitVec.ofNat 32768 (accNat ((List.range 1024).map (mmaElem m (f.t m.tA) (f.t m.tB) (f.a m.acc))))

/-! ### The running and the waiting slot (R92, R129) -/

/-- Starts the waiting MMA when the running slot is free and leave covers it; asks leave by hardware otherwise. -/
def State.startMma (s : State) (c : Nat) : State :=
  let k := s.core c
  match k.mmaRun, k.mmaWait with
  | none, some m =>
    let ticks := mmaTicks m.kind
    let begin_ := s.modCore c (fun k => { k with mmaWait := none, mmaRun := some { m with ends := s.now + ticks } })
    match m.grant with
    | some id => if s.unbegun (clusterOf c / 24) id then s else begin_
    | none =>
      if s.covered c clsMatrix s.now (s.now + ticks) then begin_
      else if 16 ≤ s.held (clusterOf c) then s
      else
        let s' := s.hardwareLeave c clsMatrix m.off ⟨ticks, 0, 1, 0⟩
        s'.modCore c (fun k => { k with mmaWait := some { m with grant := some s.nextTag } })
  | _, _ => s

/-- R95: an MMA that waits or runs reads the tile, or writes the accumulator. -/
def Core.tileBusy (k : Core) (t : Nat) : Bool :=
  k.mmaRun.any (fun m => m.tA == t || m.tB == t) || k.mmaWait.any (fun m => m.tA == t || m.tB == t)
def Core.accBusy (k : Core) (a : Nat) : Bool := k.mmaRun.any (fun m => m.acc == a) || k.mmaWait.any (fun m => m.acc == a)

/-- The place of a product in Table 03-9, the halves of MMA.I4 and the formats of MMA.F8 counted. -/
def mmaPlace (hiA hiB : Bool) : MmaKind → Nat
  | .i4 => hiA.toNat + 2 * hiB.toNat
  | .f4 => 4
  | .i8 => 5
  | .f8 a b => 6 + a.toNat + 2 * b.toNat
  | .b16 => 10

def mmaOp (o : CoreOp) (kind : MmaKind) (hiA hiB : Bool) (s : State) : Op :=
  { cls := 0x04, fn := mmaPlace hiA hiB kind, inA := false, inB := true, dst := some (aCode o.d), srcs := [tCode o.a, tCode o.b, aCode o.d],
    legal := decide (o.d < 2) && decide (o.a < 8) && decide (o.b < 8), whole := true,
    room := (s.core o.core).mmaWait.isNone,
    run := fun f s =>
      let tag := f.tag o.d
      if tag ≠ .none ∧ tag ≠ mmaTag kind then .fault causeAccType s
      else
        let m : Mma := ⟨kind, o.d, o.a, hiA, o.b, hiB, 0, none, false⟩
        let s := s.modCore o.core (fun k => { k with mmaWait := some m, files := k.files.setTag o.d (mmaTag kind) })
        .ok (s.startMma o.core),
    idle := fun _ s =>
      .ok ((s.modCore o.core (fun k => { k with mmaWait := some ⟨kind, o.d, o.a, hiA, o.b, hiB, 0, none, true⟩ })).startMma
        o.core),
    low := (match kind with
      | .f8 a b => some (a.toNat + 2 * b.toNat)
      | _ => none) }

def execMmaStart (t core : Nat) (s : State) : Host.Outcome State Fault Refusal :=
  onUnit (validCore core) ((s.at t).startMma core)

/-- The running MMA ends: the accumulator holds its result and the running slot is free. -/
def State.endMma (s : State) (c : Nat) : State :=
  match (s.core c).mmaRun with
  | some m =>
    if m.ends ≤ s.now then
      s.modCore c (fun k => { k with
        mmaRun := none, files := if m.off then k.files else k.files.setA m.acc (mmaResult m k.files) })
    else s
  | none => s

def execMmaEnd (t core : Nat) (s : State) : Host.Outcome State Fault Refusal :=
  onUnit (validCore core) ((s.at t).endMma core)

/-! ### ACC.CLR and ACC.MV (R93 to R95) -/

def accClrOp (o : CoreOp) (s : State) : Op :=
  { cls := 0x04, fn := 11, inA := false, inB := true, dst := some (aCode o.d), srcs := [], legal := decide (o.d < 2), whole := true,
    room := !(s.core o.core).accBusy o.d,
    run := fun _ s => .ok ((s.modFiles o.core (fun f => (f.setA o.d 0).setTag o.d .none)).readyAt o.core (aCode o.d)
      (s.now + 2)),
    idle := fun _ s => .ok (s.readyNoSooner o.core (aCode o.d) (s.now + 2)) }

/-- Accumulator rows 4·imm to 4·imm + 3 fill v[D] to v[D + 7]. -/
def accMvOp (o : CoreOp) (s : State) : Op :=
  { cls := 0x04, fn := 12, inA := false, inB := true, dst := some (vCode o.d), srcs := [aCode o.a],
    legal := decide (o.a < 2) && decide (o.d < 32) && decide (o.d % 8 = 0) && decide (o.u < 8), whole := true,
    room := !(s.core o.core).accBusy o.a,
    run := fun f s =>
      let s' := s.modFiles o.core (fun g => g.setRowV o.d (Tile.slice (f.a o.a) o.u))
      .ok ((vCodes o.d).foldl (fun s c => s.readyAt o.core c (s.now + 4)) s'),
    idle := fun _ s => .ok ((vCodes o.d).foldl (fun s c => s.readyNoSooner o.core c (s.now + 4)) s) }

end Sys2Proof.Machine
end

