-- ==== Sys2Proof/Machine/Bank.lean ====
section
/-! DEFINITION. Row moves and what they present to the banks (R97 to R101, R141 to R144), and the commands on partitions. -/

namespace Sys2Proof

/-- The destination rows of a flow. -/
def Flow.dstRows (fl : Flow) : List Nat := (List.range fl.rows).map (· + fl.dstRow)

end Sys2Proof

namespace Sys2Proof.Machine

/-! ### Latencies (R141, R142) -/

/-- L = 3 + ceil(D / 2), D the Manhattan distance of core and bank on the 6 × 8 grid. -/
def coreLatency (j b : Nat) : Nat := 3 + (dist (j / 8) (b / 8) + dist (j % 8) (b % 8) + 1) / 2

def agentLatency (b : Nat) : Agent → Nat
  | .core j => coreLatency j b
  | .routerTimed => 5
  | .routerElastic => 5
  | .rotation _ => 4
  | .accumulator _ => 4
  | .scrubber => 3

def AccessOp.isRead : AccessOp → Bool
  | .write _ _ => false
  | .result _ _ _ => false
  | .port _ _ (some _) => false
  | _ => true

/-- L of an access: a read of a weight-class row adds 6. -/
def State.latency (s : State) (q : Nat) (a : Access) : Nat :=
  agentLatency (a.row / 1024) a.agent + (if a.op.isRead && s.rowWclass q a.row then 6 else 0)

/-- The order of R144. -/
def Agent.rank : Agent → Nat
  | .routerTimed => 0
  | .rotation g => 1 + g
  | .accumulator g => 5 + g
  | .core j => 10 + j
  | .routerElastic => 60
  | .scrubber => 61

/-- Writer values (Table 04-8), as far as an agent alone tells. -/
def Access.writer (a : Access) : Nat :=
  match a.op, a.agent with
  | .write w _, _ => w
  | .result _ w _, _ => w
  | .port _ _ (some w), _ => w.1
  | _, .core j => j
  | _, .accumulator _ => coreIndex a.core
  | _, .rotation _ => coreIndex a.core
  | _, _ => 48

/-! ### Presenting -/

def State.present (s : State) (q : Nat) (a : Access) : State :=
  s.modCluster q (fun c => { c with access := c.access ++ [a] })

/-- R277: an arrival entry promises the row, its readable tick has come, and some row of the entry has not been written. The
timed rows themselves do not wait. -/
def State.lateRow (s : State) (q : Nat) (a : Access) : Bool :=
  !(a.agent == .routerTimed && !a.op.isRead) &&
  (s.cluster q).arrivals.any (fun r => decide (r.readable ≤ s.now) && !r.left.isEmpty && r.flow.dstRows.contains a.row)

/-! ### The groups of an array, and sends -/

/-- Changes the oldest element that a test picks. -/
def modFirst {α : Type} (p : α → Bool) (f : α → α) : List α → List α
  | [] => []
  | x :: l => if p x then f x :: l else x :: modFirst p f l

def Cluster.group (c : Cluster) (g : Nat) : Group := Map.get Group.reset c.groups g
def State.modGroup (s : State) (q g : Nat) (f : Group → Group) : State :=
  s.modCluster q (fun c => { c with groups := Map.set Group.reset c.groups g (f (c.group g)) })

/-- One row of a slot send has been delivered, or dropped: the sender counts it off (R279). -/
def State.sendDone (s : State) (c : Nat) : State :=
  (s.modCore c (fun k => { k with sends := k.sends - 1 })).arrive c

def validBank (b : Nat) : Bool := b < 48

/-! ### ROW.LD and ROW.ST -/

/-- R99, R100: the bank edge of a row move that issues now. -/
def State.moveEdge (s : State) (c f : Nat) : Nat :=
  let e := s.bankEdge f (s.now + 1)
  match (s.core c).lastEdge with
  | some l => if e ≤ l then l + 3 else e
  | none => e

/-- R101, R129: a row move in the bank cycle directly after the core's previous one needs leave. -/
inductive MoveLeave where
  | free
  | wait (s : State)

/-- Whether an operation of class BANK_BULK may go on, or waits for the leave that hardware asked. -/
def State.bulkLeave (s : State) (c : Nat) (heavy off : Bool) (lo hi : Nat) (op : Begin) : MoveLeave :=
  match (s.core c).rowGrant with
  | some id => if s.unbegun (clusterOf c / 24) id then .wait s else .free
  | none =>
    if ¬ heavy ∨ s.covered c clsBank lo hi then .free
    else if 16 ≤ s.held (clusterOf c) then .wait s
    else
      let s' := s.hardwareLeave c clsBank off op
      .wait (s'.modCore c (fun k => { k with rowGrant := some s.nextTag }))

/-- The legality of a row move's registers: a tile slice, or eight vector registers from a multiple of 8. -/
def moveRegs (o : CoreOp) (tile : Bool) : Bool :=
  decide (o.a < 32) && (if tile then decide (o.d < 8) && decide (o.u < 8) else decide (o.d < 32) && decide (o.d % 8 = 0))

/-- The fault of a row move on account of its address: it lies outside the range of R98, or outside the fold's partitions. -/
def moveFault (o : CoreOp) (f : Files) (s : State) : Option Nat :=
  let a := (f.s o.a).toNat
  if 49152 ≤ a then some causeIllegal
  else if ¬ s.reaches ((s.foldOf o.q).getD 0) o.q a then some causePartition else none

/-- The leave that a row move needs at bank edge `e`. DESIGN CHOICE (log 125): R128 makes its bank edge the busy time of a row move;
the model takes the bank cycle of 3 ticks from that edge on, for coverage and for the span of R129. -/
def State.moveLeave (s : State) (o : CoreOp) (off : Bool) (e : Nat) : MoveLeave :=
  s.bulkLeave o.core ((s.core o.core).lastEdge == some (e - 3)) off e (e + 3) ⟨3, (s.fold ((s.foldOf o.q).getD 0)).tick0, 3, 1⟩

/-- Common to both row moves: the address, its partition, leave, and the access presented. -/
def rowMove (o : CoreOp) (f : Files) (s : State) (op : AccessOp) (after : State → State) : Done :=
  match moveFault o f s with
  | some cause => .fault cause s
  | none =>
    let fold := (s.foldOf o.q).getD 0
    let e := s.moveEdge o.core fold
    match s.moveLeave o false e with
    | .wait s' => .stall s'
    | .free =>
      let s := s.modCore o.core (fun k => { k with lastEdge := some e, rowGrant := none })
      .ok (after (s.present o.q ⟨.core (coreIndex o.core), (f.s o.a).toNat, e, op, fold, o.core, false⟩))

/-- A row move that is gated off (R85): it waits for leave as an active one, takes its core's port for the bank cycle, and its
destination is ready when an active one would have made it so. -/
def moveIdle (o : CoreOp) (f : Files) (s : State) (codes : List Nat) : Done :=
  if (moveFault o f s).isSome then .ok s
  else
    let e := s.moveEdge o.core ((s.foldOf o.q).getD 0)
    match s.moveLeave o true e with
    | .wait s' => .stall s'
    | .free =>
      let ends := e + 3 * s.latency o.q ⟨.core (coreIndex o.core), (f.s o.a).toNat, e, .toTile 0 0, 0, o.core, false⟩
      .ok (codes.foldl (fun (s : State) c => s.readyNoSooner o.core c ends)
        (s.modCore o.core (fun k => { k with lastEdge := some e, rowGrant := none })))

def rowLdOp (o : CoreOp) (tile : Bool) (s : State) : Op :=
  { cls := 0x05, fn := tile.toNat, inA := false, inB := true, dst := some (if tile then tCode o.d else vCode o.d), srcs := [sCode o.a],
    legal := moveRegs o tile, whole := true, room := !(tile && (s.core o.core).tileBusy o.d),
    run := fun f s =>
      rowMove o f s (if tile then .toTile o.d o.u else .toVec o.d)
        (fun s => s.awaits o.core (if tile then [tCode o.d] else vCodes o.d)),
    idle := fun f s => moveIdle o f s (if tile then [tCode o.d] else vCodes o.d) }

def rowStOp (o : CoreOp) (tile : Bool) : Op :=
  { cls := 0x05, fn := 2 + tile.toNat, inA := false, inB := true, dst := none, srcs := sCode o.a :: (if tile then [tCode o.d] else vCodes o.d),
    legal := moveRegs o tile, whole := true, room := true,
    run := fun f s =>
      rowMove o f s (.write (coreIndex o.core) (if tile then Tile.slice (f.t o.d) o.u else f.rowOfV o.d)) id,
    idle := fun f s => moveIdle o f s [] }

/-! ### The commands on partitions -/

/-- A write to a descriptor: refused whole, or carried out. The setup block of a position that is not exposed holds no
register (R35). -/
def State.writePart (s : State) (q i : Nat) (cfg : Bool) (v : Word) : Bool × State :=
  if ¬ s.exposed q ∨ s.partRefused q i cfg v then (false, s) else (true, s.partApply q i cfg v)

def validPart (q i : Nat) : Bool := validCluster q && decide (i < 64)

def execPartitionDescriptorWrite (t : Nat) (p : Path) (q i : Nat) (cfg : Bool) (v : Word) (s : State) :
    Host.Outcome State Fault Refusal :=
  let w := (s.at t).writePart q i cfg v
  onUnit (validPart q i) (w.2.completes p ((if cfg then Reg.cluPartCfg else .cluPartBanks).addr q i) w.1)

/-- A write of gate alone, from 1 to 0: taken at any time (R149). -/
def execPartitionClose (t : Nat) (p : Path) (q i : Nat) (s : State) : Host.Outcome State Fault Refusal :=
  let s := s.at t
  onUnit (validPart q i) ((whenever (s.exposed q && s.partValid q i && s.partOpen q i) (fun s => s.closePart q i) s).completes p
    (Reg.cluPartCfg.addr q i) (s.exposed q))

/-- R99: bank edges lie 3 ticks apart, from tick 0 of the swath on. -/
def State.onBankEdge (s : State) (q : Nat) : Bool :=
  let t0 := (s.fold ((s.foldOf q).getD 0)).tick0
  decide (t0 ≤ s.now) && (s.now - t0) % 3 == 0

/-- R161: a closure is looked at on a bank edge. -/
def execBankClosure (t q bank : Nat) (s : State) : Host.Outcome State Fault Refusal :=
  let s := s.at t
  onUnit (validCluster q && validBank bank) (whenever (s.onBankEdge q) (fun s => s.closureCheck q bank) s)

/-- A write of gate alone, from 0 to 1. -/
def execPartitionOpen (t : Nat) (p : Path) (q i : Nat) (s : State) : Host.Outcome State Fault Refusal :=
  let s := s.at t
  onUnit (validPart q i) ((whenever (s.exposed q && s.partValid q i && !s.partOpen q i) (fun s => s.openPart q i) s).completes p
    (Reg.cluPartCfg.addr q i) (s.exposed q))

def execBankFillDone (t q bank : Nat) (s : State) : Host.Outcome State Fault Refusal :=
  onUnit (validCluster q && validBank bank) ((s.at t).bankFilled q bank)

end Sys2Proof.Machine
end

