-- ==== Sys2Proof/Machine/Port.lean ====
section
/-! DEFINITION. Skeltin ports (R452, R457 to R465): frames, row packets, credits, the replay buffer, and the way to another
module. -/

namespace Sys2Proof.Machine

/-- The module's own coordinate as x + 32·y + 1,024·z. -/
def State.ownCoord (s : State) : Nat :=
  s.fld Fld.lnkTorusX 0 0 + 32 * s.fld Fld.lnkTorusY 0 0 + 1024 * s.fld Fld.lnkTorusZ 0 0

/-! ### The torus as a port sees it (R464) -/

def State.torusSize (s : State) : Nat × Nat × Nat :=
  (s.fld Fld.lnkTorusSizeX 0 0 + 1, s.fld Fld.lnkTorusSizeY 0 0 + 1, s.fld Fld.lnkTorusSizeZ 0 0 + 1)
def State.portRole (s : State) (p : Nat) : Nat := s.fld Fld.lnkPortRole 0 p

/-- The coordinate that the role of a port leads to, as x + 32·y + 1,024·z. -/
def State.portNeighbour (s : State) (p : Nat) : Option Nat :=
  let (sx, sy, sz) := s.torusSize
  let x := s.fld Fld.lnkTorusX 0 0
  let y := s.fld Fld.lnkTorusY 0 0
  let z := s.fld Fld.lnkTorusZ 0 0
  let at3 := fun (x y z : Nat) => some (x + 32 * y + 1024 * z)
  if s.fld Fld.lnkTorusValid 0 0 = 0 then none
  else match s.portRole p with
    | 1 => at3 ((x + 1) % sx) y z
    | 2 => at3 ((x + sx - 1) % sx) y z
    | 3 => at3 x ((y + 1) % sy) z
    | 4 => at3 x ((y + sy - 1) % sy) z
    | 5 => at3 x y ((z + 1) % sz)
    | 6 => at3 x y ((z + sz - 1) % sz)
    | _ => none

def State.lnkState (s : State) (l : Nat) : Nat := s.fld Fld.lnkStatusState l 0
def lnkDown : Nat := 0
def lnkTraining : Nat := 1
def lnkUp : Nat := 2
def lnkFailed : Nat := 3

/-- An Ethernet link that is UP. -/
def State.ethernetUp (s : State) (l : Nat) : Bool := (s.linkOf l).mode == 2 && s.lnkState l == lnkUp

/-- A Skeltin link that carries frames of its port. -/
def State.skeltinUp (s : State) (l : Nat) : Bool :=
  let k := s.linkOf l
  k.mode == 1 && !k.idled && s.lnkState l == lnkUp
def State.portLinks (s : State) (p : Nat) : List Nat :=
  (List.range 96).filter (fun l => (s.linkOf l).port == p && s.skeltinUp l)

/-! ### Bytes on the link (Tables 13-3 and 13-4) -/

/-- CRC-32 of IEEE 802.3, by bits, over the reflected polynomial. -/
def crc32Bits : Nat → BitVec 32 → BitVec 32
  | 0, c => c
  | n + 1, c => crc32Bits n (if c.getLsbD 0 then (c >>> 1) ^^^ 0xEDB88320#32 else c >>> 1)

def crc32 (l : List (BitVec 8)) : Nat :=
  (l.foldl (fun c b => crc32Bits 8 (c ^^^ b.setWidth 32)) 0xFFFFFFFF#32 ^^^ 0xFFFFFFFF#32).toNat

def headerBytes (h : RowHeader) : List (BitVec 8) :=
  toBytes 1 h.kind ++ toBytes 1 h.rows ++ toBytes 1 h.index ++ toBytes 1 h.cause ++ toBytes 2 h.window ++ toBytes 2 h.gen ++
  toBytes 4 h.offset ++ toBytes 4 h.src ++ toBytes 4 h.tag ++ toBytes 4 h.launch ++ toBytes 4 h.block ++ toBytes 4 h.dst

/-- The header that 32 bytes spell. -/
def headerOf (l : List (BitVec 8)) : RowHeader :=
  let v := ofBytes l
  { kind := bytesAt v 0 1, rows := bytesAt v 1 1, index := bytesAt v 2 1, cause := bytesAt v 3 1, window := bytesAt v 4 2,
    gen := bytesAt v 6 2, offset := bytesAt v 8 4, src := bytesAt v 12 4, tag := bytesAt v 16 4, launch := bytesAt v 20 4,
    block := bytesAt v 24 4, dst := bytesAt v 28 4 }

/-- Whether a row follows the header: a write, a read return, a slot send or a firmware message. -/
def headerRow (h : RowHeader) : Bool := [1, 3, 6, 7].contains h.kind

def rowBytesOf (r : Row) : List (BitVec 8) := toBytes 512 r.toNat

/-- A frame: type, virtual channel, sequence number, acknowledgement, credit return and payload. -/
def frameBytes (kind vc seq ack : Nat) (credit : Nat × Nat) (payload : List (BitVec 8)) : List (BitVec 8) :=
  let body := toBytes 1 kind ++ toBytes 1 vc ++ toBytes 2 seq ++ toBytes 2 ack ++ toBytes 2 (credit.1 * 2 ^ 14 + credit.2) ++
    (payload ++ List.replicate (244 - payload.length) 0)
  body ++ toBytes 4 (crc32 body)

/-! ### Sending -/

/-- Takes the first element that a test picks out of a list. -/
def takeFirst {α : Type} (p : α → Bool) : List α → Option (α × List α)
  | [] => none
  | x :: l => if p x then some (x, l) else (takeFirst p l).map (fun y => (y.1, x :: y.2))

def vcCredits : Nat := 1024
def replayFrames : Nat := 8192

/-- The credits that go back with the next frame: those of the lowest channel that is owed any (R462). -/
def Port.creditReturn (p : Port) : Nat × Nat :=
  match p.owed with
  | [] => (0, 0)
  | (vc, n) :: _ => (vc, Nat.min n 16383)

/-- The link that follows in turn. -/
def nextInTurn (links : List Nat) (last : Nat) : Option Nat :=
  match links.find? (fun l => decide (last ≤ l)) with
  | some l => some l
  | none => links.head?

/-- Puts a frame on a link. -/
def State.emit (s : State) (p l kind vc seq : Nat) (payload : List (BitVec 8)) : State :=
  let x := s.port p
  let back := x.creditReturn
  let s := s.modPort p (fun x => { x with owed := Map.set 0 x.owed back.1 (Map.get 0 x.owed back.1 - back.2) })
  s.send (.frame p l (frameBytes kind vc seq x.rxSeq back payload))

/-- The order of R463: step markers, then VC1, VC3, and VC2 and VC0 in turn; a data frame needs a credit. -/
def Port.pick (p : Port) : Option (Tx × List Tx) :=
  let take := fun (t : Tx → Bool) => takeFirst t p.waiting
  let data := fun vc => if Map.get vcCredits p.credits vc = 0 then none else take (fun x => x.kind == 1 && x.vc == vc)
  let low := if p.turn then (data 0).orElse (fun _ => data 2) else (data 2).orElse (fun _ => data 0)
  (take (fun x => x.kind != 1)).orElse (fun _ => (data 1).orElse (fun _ => (data 3).orElse (fun _ => low)))

/-- Sends what may go. Frames are numbered per port and spread over its UP links in turn (R457); none is sent while the
replay buffer is full (R459). -/
def State.pump (s : State) (p : Nat) : Nat → State
  | 0 => s
  | n + 1 =>
    let x := s.port p
    match x.pick, nextInTurn (s.portLinks p) x.nextLink with
    | some (tx, rest), some l =>
      if replayFrames ≤ x.replay.length then s
      else
        let s := s.modPort p (fun x => { x with
          waiting := rest, txSeq := (x.txSeq + 1) % 65536, nextLink := l + 1, turn := if tx.vc = 2 then true else if tx.vc = 0 ∧ tx.kind = 1 then false else x.turn
          replay := x.replay ++ [⟨x.txSeq, l, s.now, tx⟩]
          credits := if tx.kind = 1 then Map.set vcCredits x.credits tx.vc (Map.get vcCredits x.credits tx.vc - 1) else x.credits })
        (s.emit p l tx.kind tx.vc x.txSeq tx.payload).pump p n
    | _, _ => s

/-- Sends all that waits on a port and may go. -/
def State.pumpAll (s : State) (p : Nat) : State := s.pump p (s.port p).waiting.length

def State.sendTx (s : State) (p : Nat) (tx : Tx) : State :=
  (s.modPort p (fun x => { x with waiting := x.waiting ++ [tx] })).pumpAll p

/-- Cuts the bytes of row packets into payloads. -/
def payloads : Nat → List (BitVec 8) → List (List (BitVec 8))
  | 0, _ => []
  | n + 1, l => if l.isEmpty then [] else l.take 244 :: payloads n (l.drop 244)

/-! ### The way to another module (R464, R465) -/

/-- The role on the first hop to a coordinate: x first, then y, then z, in the shorter direction. -/
def State.roleToward (s : State) (c : Nat) : Nat :=
  let (sx, sy, sz) := s.torusSize
  let way := fun (n a b up : Nat) => if (b + n - a) % n ≤ (a + n - b) % n then up else up + 1
  let x := s.fld Fld.lnkTorusX 0 0
  let y := s.fld Fld.lnkTorusY 0 0
  let z := s.fld Fld.lnkTorusZ 0 0
  if c % 32 ≠ x then way sx x (c % 32) 1
  else if c / 32 % 32 ≠ y then way sy y (c / 32 % 32) 3
  else way sz z (c / 1024) 5

/-- The lowest port with the role to a coordinate that has an UP link. -/
def State.portToward (s : State) (c : Nat) : Option Nat :=
  if s.fld Fld.lnkTorusValid 0 0 = 0 then none
  else (List.range 96).find? (fun p => s.portRole p == s.roleToward c && !(s.portLinks p).isEmpty)

/-- What the module answers itself: port 96 stands for no port. -/
def noPort : Nat := 96

/-- A row packet waits at the hub of lea `n` until it is handled. -/
def State.deposit (s : State) (p n : Nat) (h : RowHeader) (r : Row) : State := { s with inbox := s.inbox ++ [⟨p, n, h, r⟩] }

/-- The lea of the core that a header names. -/
def leaOfHeader (h : RowHeader) : Nat := h.src / 2048 % 64

/-- A refusal of a request that no port can carry (R461). -/
def State.refuseHere (s : State) (h : RowHeader) : State := s.deposit noPort (leaOfHeader h) { h with kind := 5, cause := 0 } 0

/-- The row packets of a request or an answer: one for each row, or the header alone. -/
def rowPackets (h : RowHeader) : Nat → List Row → List (RowHeader × Row)
  | _, [] => []
  | i, r :: l => ({ h with index := i }, r) :: rowPackets h (i + 1) l

def packetBytes (x : RowHeader × Row) : List (BitVec 8) :=
  headerBytes x.1 ++ (if headerRow x.1 then rowBytesOf x.2 else [])

/-- Sends row packets on a port: back to back from a new frame on. -/
def State.sendOn (s : State) (p vc : Nat) (l : List (RowHeader × Row)) : State :=
  let bytes := l.flatMap packetBytes
  (payloads bytes.length bytes).foldl (fun (s : State) x => s.sendTx p ⟨1, vc, x⟩) s

/-- Sends a request to a module. One to the module itself stays inside. -/
def State.sendPacket (s : State) (c vc : Nat) (h : RowHeader) (rows : List Row) : State :=
  let l := if rows.isEmpty then [(h, 0)] else rowPackets h 0 rows
  if c = s.ownCoord then l.foldl (fun (s : State) x => s.deposit noPort (leaOfHeader h) x.1 x.2) s
  else match s.portToward c with
    | some p => s.sendOn p vc l
    | none => s.refuseHere h

end Sys2Proof.Machine
end

