-- ==== Sys2Proof/Machine/Queue.lean ====
section
/-! DEFINITION. Queue pairs and slot sends as cores use them (R102 to R114, R266, R283, R284, R298 to R301, R476). -/

namespace Sys2Proof.Machine

/-! ### Remote addresses (Table 03-11) -/

inductive Remote where
  | stack (n row : Nat)
  | cluster (q row : Nat)
  | window (id off : Nat)
  | bad
deriving DecidableEq, Repr

/-- The remote address of a row of a stack, and of one of a cluster. -/
def stackWord (n row : Nat) : Word := BitVec.ofNat 64 (n * 2 ^ 56 + row * 512)
def clusterWord (q row : Nat) : Word := BitVec.ofNat 64 (2 ^ 62 + q / 24 * 2 ^ 56 + q % 24 * 2 ^ 51 + row)

/-- Reads a remote address; kind 0b11 and reserved bits that are not zero are illegal. -/
def remoteOf (a : Word) : Remote :=
  match getBits a 62 2 with
  | 0 => if getBits a 37 19 = 0 ∧ getBits a 0 9 = 0 then .stack (getBits a 56 6) (getBits a 9 28) else .bad
  | 1 => if getBits a 16 35 = 0 ∧ getBits a 51 5 < 24
      then .cluster (24 * getBits a 56 6 + getBits a 51 5) (getBits a 0 16) else .bad
  | 2 => if getBits a 48 14 = 0 then .window (getBits a 32 16) (getBits a 0 32) else .bad
  | _ => .bad

/-- R301: what queue pair `k` of cluster `q` may name. DESIGN CHOICE (log 126): a row of a stack past the last one, 140,624,999, is
no illegal operand; the request is sent, and the stack refuses it. -/
def remoteLegal (q k n : Nat) (r : Remote) : Bool :=
  match r with
  | .stack m _ => decide (8 ≤ k) || m == q / 24
  | .cluster _ row => decide (8 ≤ k) && decide (row + n ≤ 49152)
  | .window _ _ => decide (8 ≤ k)
  | .bad => false

/-! ### Queue pairs -/

def State.queue (s : State) (q k : Nat) : Queue := Map.get Queue.reset (s.cluster q).queues k
def State.modQueue (s : State) (q k : Nat) (f : Queue → Queue) : State :=
  s.modCluster q (fun c => { c with queues := Map.set Queue.reset c.queues k (f (Map.get Queue.reset c.queues k)) })

/-- The core that the fold image assigns a queue pair to. -/
def State.queueOwner (s : State) (q k : Nat) : Option Nat :=
  match s.foldOf q with
  | some f => match (s.fold f).image with
    | some im => (im.queues.find? (fun e => e.1 == q && e.2.1 == k)).map (fun e => e.2.2)
    | none => none
  | none => none

def Queue.inRoom (x : Queue) : Nat := 64 - (x.inb.length + x.owed)
def Queue.outRoom (x : Queue) : Nat := 64 - x.outb

/-- The count of a Q.PUT: sB[22:16], 1 to 64 (R102, R103). -/
def putCount (b : Word) : Nat := getBits b 16 7

/-! ### Hedges (R283 to R285) -/

def hedgeField (v : Word) (w lo width : Nat) : Nat := getBits v (15 * w + lo) width

/-- A hedge window of fold `g` admits fold `f` into the `n` rows from `row` on in cluster `q`: they all lie in the
partition of the window's index. -/
def State.windowAdmits (s : State) (f g q row n : Nat) : Bool :=
  let v := s.reg .timFoldHedge 0 g
  (List.range 4).any (fun w =>
    hedgeField v w 14 1 == 1 && hedgeField v w 6 8 == f &&
    (List.range n).all (fun i => s.partCovers q (hedgeField v w 0 6) (row + i)))

/-- R284: what the source router checks. A position that belongs to no fold has no window. -/
def State.hedgeAdmits (s : State) (f q row n : Nat) : Bool :=
  match s.foldOf q with
  | some g => g == f || s.windowAdmits f g q row n
  | none => false

/-- What the target checks of a row from a core of fold `f`: it lies in the target fold's partitions (R151). -/
def State.targetReaches (s : State) (f q row n : Nat) : Bool :=
  match s.foldOf q with
  | some g => if g = f then s.reachesAll f q row n else s.windowAdmits f g q row n
  | none => false

/-! ### The router port (Table 04-2)

Rows that a program moves through the port are presented to their banks, where elastic traffic waits for a bank cycle that
no agent before it uses, without limit and without report (R144, R145). -/

/-- The next bank edge of a cluster at or after tick `x`. -/
def State.portEdge (s : State) (q x : Nat) : Nat := s.bankEdge ((s.foldOf q).getD 0) x

/-- An operation of `n` rows at the port. -/
def State.openPort (s : State) (q id : Nat) (w : PortWork) (n : Nat) : State :=
  s.modCluster q (fun c => { c with port := Map.put c.port id ⟨w, n, n, []⟩ })

/-- One row of an operation is presented: a write of `data`, by its writer, or a read. -/
def State.presentPort (s : State) (q id i row f core : Nat) (data : Option (Nat × Row)) : State :=
  s.present q ⟨.routerElastic, row, s.portEdge q s.now, .port id i data, f, core, false⟩

/-- Reads a row for the calibration of the cluster's own arrays: none where the access is refused or uncorrectable. -/
def State.portRead (s : State) (q a f core : Nat) : Option Row × State :=
  if s.rowRefused q a then (none, s.gatedAccess q a 48 (some f) core) else s.readRow q a (some f) core

def State.portReads (s : State) (q a f core : Nat) : Nat → List (Option Row) × State
  | 0 => ([], s)
  | n + 1 =>
    let (r, s) := s.portRead q a f core
    let (l, s) := s.portReads q (a + 1) f core n
    (r :: l, s)

/-- What the target finds of a row or request: admitted, outside the fold's partitions, or admitted by no window. -/
inductive Arrived where
  | admitted
  | overrun
  | hedge (target : Nat)
deriving DecidableEq, Repr

def State.judgeArrival (s : State) (f q row n : Nat) : Arrived :=
  match s.foldOf q with
  | none => .hedge 0
  | some g =>
    if s.targetReaches f q row n then .admitted
    else if g = f then .overrun else .hedge g

/-- R151, R284: a refused access is reported. -/
def State.reportArrival (s : State) (q row kind src f : Nat) (a : Arrived) : State :=
  match a with
  | .hedge g => (s.bump Fld.cluFabRefusedHedgeRefusedCount q 0).report (srcAgent q (s.foldOf q)) 0x5009 f g
  | _ => s.overrun q row kind src

/-- R151, R284: a refused access is reported, and the items that its sender serves fail. -/
def State.refuseTarget (s : State) (q row kind src f core : Nat) (a : Arrived) : State :=
  (s.reportArrival q row kind src f a).failItems f core 0x10

/-! ### The mesh -/

/-- The virtual channel of a packet (R280). A data row of an engine call that a stack returns is a read return. -/
def PacketKind.vc : PacketKind → Nat
  | .slot | .queueWrite | .queueRead | .linkRow | .linkRead | .hubRead _ => 0
  | .back | .ack | .refusal _ | .dropped | .linkBack | .linkAck | .linkRefusal _ | .windowRefusal _ | .result _ => 1
  | .operand addr => if getBits addr 62 2 = 0 then 1 else 0
  | .relay v => v % 2

/-- Puts a packet on the mesh at its source tile. -/
def State.inject (s : State) (p : Packet) : State :=
  { s with packets := Map.put s.packets s.nextTag p, nextTag := s.nextTag + 1 }

/-- An elastic packet of request `tag` of a core's queue pair, from tile to tile, that enters at tick `x`. R266: queue pair
`k` uses plane k mod 2. -/
def meshPacket (kind : PacketKind) (core k f src dst tag x : Nat) : Packet :=
  { kind := kind, plane := k % 2, timed := false, from_ := src, start := 0, srcCore := core, srcK := k, fold := f,
    route := none, dst := dst, tile := src, inPort := 4, hops := 0, entered := x, launch := none, first := 0, index := 0,
    count := 1, tag := tag, row := none, held := false, via := [], out := none, atPort := false, detour := false }

/-- The rows of a packet's train, one packet each (R263). -/
def State.injectRows (s : State) (p : Packet) (i n : Nat) : List (Option Row) → State
  | [] => s
  | r :: l => (s.inject { p with index := i, count := n, row := r }).injectRows p (i + 1) n l

/-- A target answers a request on VC1, with a packet for each row or one alone. -/
def State.respondRows (s : State) (src core k f tag x : Nat) (rows : List (Option Row)) : State :=
  s.injectRows (meshPacket .back core k f src (tileOf (clusterOf core)) tag x) 0 rows.length rows
def State.respond (s : State) (kind : PacketKind) (src core k f tag x : Nat) : State :=
  s.inject (meshPacket kind core k f src (tileOf (clusterOf core)) tag x)

/-! ### Requests -/

/-- What a request over a link says in its header (Table 13-4). -/
def windowHeader (write : Bool) (n id gen off core tag launch block : Nat) : RowHeader :=
  { kind := if write then 1 else 2, rows := n, index := 0, cause := 0, window := id, gen := gen, offset := off,
    src := core, tag := tag, launch := launch, block := block, dst := 0 }

/-- R24: the hub by which a request leaves for another module: that of the link which its port uses next. None where it stays
on the module, or no port carries it. DESIGN CHOICE among the links of the port (log 109). -/
def State.exitLea (s : State) (c : Nat) : Option Nat :=
  if c = s.ownCoord then none
  else (s.portToward c).bind (fun p => (nextInTurn (s.portLinks p) (s.port p).nextLink).map linkLea)

def State.windowOwner (s : State) (id : Nat) : Nat := ((Map.find s.remotes id).map RemoteWin.owner).getD 0

/-- A request for a window goes out on its port. -/
def State.sendWindow (s : State) (f : Nat) (r : QReq) : State :=
  match remoteOf r.addr with
  | .window id off => s.sendPacket (s.windowOwner id) 0
      (windowHeader r.write r.n id r.gen off r.core r.tag r.launch (s.fld Fld.lnkFoldBlockTag 0 f)) r.data
  | _ => s

/-- A request on the mesh: a packet for each row of a write, one for a read. -/
def State.sendRequest (s : State) (f q k : Nat) (r : QReq) (dst first x : Nat) : State :=
  let p := { meshPacket (if r.write then .queueWrite else .queueRead) r.core k f (tileOf q) dst r.tag x with first := first }
  if r.write then s.injectRows p 0 r.n (r.data.map some) else s.inject { p with count := r.n }

/-- A request leaves its queue pair. One for the cluster's own stack does so when the controller takes it (R303). -/
def State.sendOut (s : State) (q k : Nat) (r : QReq) (x : Nat) : State :=
  let f := (s.foldOf q).getD 0
  match remoteOf r.addr with
  | .stack m _ => s.sendRequest f q k r (hubTile m) 0 x
  | .cluster d row => s.sendRequest f q k r (tileOf d) row x
  | .window id _ => (match s.exitLea (s.windowOwner id) with
      | some n => s.sendRequest f q k r (hubTile n) 0 x
      | none => s.sendWindow f r)
  | .bad => s

/-- What a write goes to. -/
def targetOf (a : Word) : Nat × Nat :=
  match remoteOf a with
  | .stack m _ => (0, m)
  | .cluster d _ => (1, d)
  | .window id _ => (2, id)
  | .bad => (3, 0)

/-- R304: writes of one queue pair are applied in request order, so a write waits while an earlier one to another target is not
acknowledged. Reads wait for nothing. DEDUCED (log 110). -/
def Queue.mayGo (x : Queue) (r : QReq) : Bool :=
  !r.write || (x.flight ++ x.reqs).all (fun e => !e.write || decide (r.tag ≤ e.tag) || targetOf e.addr == targetOf r.addr)

/-- Whether a request is for the cluster's own stack, whose controller fetches it. -/
def ownStack (q : Nat) (r : QReq) : Bool :=
  match remoteOf r.addr with
  | .stack m _ => m == q / 24
  | _ => false

/-- The requests that may leave a queue pair do so. -/
def State.sendWaiting (s : State) (q k x : Nat) : Nat → State
  | 0 => s
  | n + 1 =>
    match takeFirst (fun r => !ownStack q r && (s.queue q k).mayGo r) (s.queue q k).reqs with
    | none => s
    | some (r, rest) =>
      ((s.modQueue q k (fun z => { z with reqs := rest, flight := z.flight ++ [r] })).sendOut q k r x).sendWaiting q k x n
def State.sendAll (s : State) (q k x : Nat) : State := s.sendWaiting q k x (s.queue q k).reqs.length

/-- R104: a request enters its queue pair at tick `x`. -/
def State.enterRequest (s : State) (core k : Nat) (write : Bool) (addr : Word) (n : Nat) (data : List Row) (tag x : Nat) :
    State :=
  let q := clusterOf core
  let gen := match remoteOf addr with
    | .window id _ => ((Map.find s.remotes id).map RemoteWin.gen).getD 0
    | _ => 0
  let r : QReq := ⟨tag, write, addr, n, data, core, 0, s.beat % 2 ^ 32, gen, 0⟩
  (s.modQueue q k (fun z => { z with reqs := z.reqs ++ [r] })).sendAll q k x

/-- A number of its own for a request. -/
def State.drawTag (s : State) : State := { s with nextTag := s.nextTag + 1 }

/-! ### Q.PUT -/

/-- The checks that both Q.PUT share: the queue's owner, the operands, the hedge. DESIGN CHOICE (log 126): where several fail, the
cause of the first is recorded; the manual gives no order. -/
def putCheck (s : State) (o : CoreOp) (k f : Nat) (a b : Word) : Option Nat :=
  let n := putCount b
  let r := remoteOf a
  if s.queueOwner o.q k ≠ some o.core then some causeQueueOwner
  else if n = 0 ∨ 64 < n ∨ ¬ remoteLegal o.q k n r then some causeIllegal
  else match r with
    | .cluster d row => if s.hedgeAdmits f d row n then none else some causeHedge
    | .window id _ => if (Map.find s.remotes id).isSome then none else some causeHedge
    | _ => none

/-- R104, R85: a gated-off Q.PUT waits for room where an active one would. -/
def putIdle (o : CoreOp) (k : Nat) (room : Queue → Nat) (f : Files) (s : State) : Done :=
  if (putCheck s o k ((s.foldOf o.q).getD 0) (f.s o.a) (f.s o.b)).isSome ∨ putCount (f.s o.b) ≤ room (s.queue o.q k) then .ok s
  else .stall s

def putOp (o : CoreOp) (fn : Nat) (run idle : Files → State → Done) : Op :=
  { cls := 0x06, fn := fn, inA := false, inB := true, dst := none, srcs := [sCode o.a, sCode o.b],
    legal := decide (o.a < 32) && decide (o.b < 32), whole := true, room := true, run := run, idle := idle }

def qPutRdOp (o : CoreOp) (k : Nat) : Op :=
  putOp o 0 (fun f s =>
    let fold := (s.foldOf o.q).getD 0
    match putCheck s o k fold (f.s o.a) (f.s o.b) with
    | some cause => .fault cause s
    | none =>
      let n := putCount (f.s o.b)
      if (s.queue o.q k).inRoom < n then .stall s
      else .ok ((s.drawTag.modQueue o.q k (fun x => { x with owed := x.owed + n })).enterRequest o.core k false (f.s o.a) n []
        s.nextTag s.now))
    (putIdle o k Queue.inRoom)

def qPutWrOp (o : CoreOp) (k : Nat) : Op :=
  putOp o 1 (fun f s =>
    let fold := (s.foldOf o.q).getD 0
    match putCheck s o k fold (f.s o.a) (f.s o.b) with
    | some cause => .fault cause s
    | none =>
      let n := putCount (f.s o.b)
      let row := getBits (f.s o.b) 0 16
      if 49152 < row + n then .fault causeIllegal s
      else if ¬ s.reachesAll fold o.q row n then .fault causePartition s
      else if (s.queue o.q k).outRoom < n then .stall s
      else
        let s' := (s.drawTag.modQueue o.q k (fun x => { x with outb := x.outb + n })).openPort o.q s.nextTag (.put o.core k (f.s o.a)) n
        .ok ((List.range n).foldl (fun s' i => s'.presentPort o.q s.nextTag i (row + i) fold o.core none) s'))
    (putIdle o k Queue.outRoom)

/-! ### Q.WAIT and Q.WAIT.WR -/

/-- A write that a core has put and whose rows the port still reads. -/
def PortJob.puts (core k : Nat) (j : PortJob) : Bool :=
  match j.work with
  | .put c k' _ => c == core && k' == k
  | _ => false

def State.hasWrites (s : State) (q k core : Nat) : Bool :=
  let x := s.queue q k
  (x.reqs ++ x.flight).any (fun r => r.write && r.core == core) || (s.cluster q).port.any (fun e => e.2.puts core k)

/-- No read or side delivery may still land on a queue pair, and no row is there: Q.WAIT then has nothing to wait for. DESIGN CHOICE
(log 29): where some rows are there and none is outstanding, a Q.WAIT for more of them waits on. -/
def State.nothingToCome (s : State) (q k : Nat) : Bool :=
  let x := s.queue q k
  x.inb.isEmpty && x.owed == 0 && !(x.reqs ++ x.flight).any (fun r => r.role == 2) &&
  (s.cluster q).groups.all (fun g => g.2.vecs.isEmpty)

/-- A core's wait ends: the instruction writes its register, or, gated off, changes nothing (R85); the next bundle issues a
tick later. -/
def State.endWait (s : State) (c dst : Nat) (v : Word) (f : Core → Core) : State :=
  if (s.core c).waitOff then
    (s.readyNoSooner c (sCode dst) s.now).modCore c (fun x => { x with wait := .none, waitOff := false, issueAt := s.now + 1 })
  else (s.putS c dst v 0).modCore c (fun x => { f x with wait := .none, issueAt := s.now + 1 })

/-- ENG.WAIT ends where it waits for this call (R135). -/
def State.wakeCall (s : State) (core number st : Nat) : State :=
  let s := s.modCore core (fun k => { k with calls := match Map.find k.calls number with
    | some c => Map.put k.calls number { c with status := some st }
    | none => k.calls })
  match (s.core core).wait with
  | .engine m dst =>
    if m = number then
      s.endWait core dst (BitVec.ofNat 64 st) id
    else s
  | _ => s

/-- Ends a wait for rows once they are there (R106): the count is written, and the next bundle issues a tick later. -/
def State.wakeRows (s : State) (q k : Nat) : State :=
  match s.queueOwner q k with
  | none => s
  | some c =>
    match (s.core c).wait with
    | .rows k' n dst =>
      let have_ := (s.queue q k).inb.length
      if k' = k ∧ n ≤ have_ then
        s.endWait c dst (BitVec.ofNat 64 have_) (fun x => { x with covered := Map.set 0 x.covered k n })
      else s
    | _ => s

def State.wakeAcks (s : State) (q k core : Nat) : State :=
  match (s.core core).wait with
  | .acks k' dst =>
    if k' = k ∧ ¬ s.hasWrites q k core then
      s.endWait core dst 0 id
    else s
  | _ => s

/-- A gated-off wait whose condition does not hold yet: the core waits as for an active one. -/
def waitIdle (o : CoreOp) (w : Option Wait) (s : State) : Done :=
  .ok (match w with
    | some w => s.modCore o.core (fun k => k.awaiting w true)
    | none => s.readyNoSooner o.core (sCode o.d) (s.now + 1))

def waitOp (o : CoreOp) (fn : Nat) (legal : Bool) (run idle : Files → State → Done) : Op :=
  { cls := 0x06, fn := fn, inA := true, inB := false, dst := some (sCode o.d), srcs := [], legal := legal && decide (o.d < 32), whole := true,
    room := true, run := run, idle := idle }

def qWaitOp (o : CoreOp) (k : Nat) : Op :=
  waitOp o 5 true (fun _ s =>
    if s.queueOwner o.q k ≠ some o.core then .fault causeQueueOwner s
    else if o.u < 1 ∨ 64 < o.u then .fault causeIllegal s
    else if s.nothingToCome o.q k then .fault causeIllegal s
    else
      let have_ := (s.queue o.q k).inb.length
      if o.u ≤ have_ then
        .ok ((s.putS o.core o.d (BitVec.ofNat 64 have_) 1).modCore o.core (fun x =>
          { x with covered := Map.set 0 x.covered k o.u }))
      else .ok (s.modCore o.core (fun x => x.awaiting (.rows k o.u o.d) false)))
    (fun _ s => waitIdle o (if s.queueOwner o.q k = some o.core ∧ 1 ≤ o.u ∧ o.u ≤ 64 ∧ ¬ s.nothingToCome o.q k ∧
      (s.queue o.q k).inb.length < o.u then some (.rows k o.u o.d) else none) s)

/-- DESIGN CHOICE (log 29): a core that has put no write on the queue pair has none to wait for, and its Q.WAIT.WR completes. -/
def qWaitWrOp (o : CoreOp) (k : Nat) : Op :=
  waitOp o 6 true (fun _ s =>
    if s.queueOwner o.q k ≠ some o.core then .fault causeQueueOwner s
    else if s.hasWrites o.q k o.core then .ok (s.modCore o.core (fun x => x.awaiting (.acks k o.d) false))
    else .ok (s.putS o.core o.d 0 1))
    (fun _ s => waitIdle o (if s.queueOwner o.q k = some o.core ∧ s.hasWrites o.q k o.core then some (.acks k o.d) else none) s)

/-! ### Q.GET (R105, R107) -/

/-- An uncovered Q.GET that finds its row absent is reported, once for each Q.GET, in exact mode. A count of 100 marks the
Q.GET as reported. -/
def State.earlyGet (s : State) (c k f : Nat) : State :=
  if s.foldExact f ∧ Map.get 0 (s.core c).covered k = 0 then
    let s := s.bump Fld.cluFabContractEarlyGetCount (clusterOf c) 0
    let s := s.report (srcCore c (some f)) 0x5003 k (s.swathTick f)
    s.modCore c (fun x => { x with covered := Map.set 0 x.covered k 100 })
  else s

def getCovered (n : Nat) : Nat := if n = 100 then 0 else n - 1

/-- Removes the head row and writes it to the destination; a place that holds no row leaves it unchanged (R312). -/
def qGetRun (o : CoreOp) (k : Nat) (d : GetDst) (f : Files) (s : State) : Done :=
  let fold := (s.foldOf o.q).getD 0
  if s.queueOwner o.q k ≠ some o.core then .fault causeQueueOwner s
  else match (s.queue o.q k).inb with
    | [] => .stall (s.earlyGet o.core k fold)
    | x :: rest =>
      let pop := fun (s : State) => (s.modQueue o.q k (fun z => { z with inb := rest })).modCore o.core (fun z =>
        { z with covered := Map.set 0 z.covered k (getCovered (Map.get 0 z.covered k)) })
      match d with
      | .tile =>
        let s := match x.row with
          | some r => s.modFiles o.core (fun g => g.setRowT o.d o.u r)
          | none => s
        .ok ((pop s).readyAt o.core (tCode o.d) (s.now + 3))
      | .vec =>
        let s := match x.row with
          | some r => s.modFiles o.core (fun g => g.setRowV o.d r)
          | none => s
        .ok ((vCodes o.d).foldl (fun s c => s.readyAt o.core c (s.now + 3)) (pop s))
      | .row =>
        match x.row, moveFault o f s with
        | some r, _ => rowMove o f s (.write (coreIndex o.core) r) pop
        | none, some cause => .fault cause s
        | none, none => .ok (pop s)

/-- R85: a gated-off Q.GET waits for a row as an active one does, takes none, and its destination is ready when an active one
would have made it so. -/
def qGetIdle (o : CoreOp) (k : Nat) (d : GetDst) (f : Files) (s : State) : Done :=
  if s.queueOwner o.q k = some o.core ∧ (s.queue o.q k).inb.isEmpty then .stall s
  else match d with
    | .tile => .ok (s.readyNoSooner o.core (tCode o.d) (s.now + 3))
    | .vec => .ok ((vCodes o.d).foldl (fun s c => s.readyNoSooner o.core c (s.now + 3)) s)
    | .row => moveIdle o f s []

def qGetOp (o : CoreOp) (k : Nat) (d : GetDst) (s : State) : Op :=
  { cls := 0x06, fn := 2 + d.ctorIdx, inA := false, inB := true,
    dst := (match d with
      | .tile => some (tCode o.d)
      | .vec => some (vCode o.d)
      | .row => none),
    srcs := (match d with
      | .row => [sCode o.a]
      | _ => []),
    legal := (match d with
      | .tile => decide (o.d < 8) && decide (o.u < 8)
      | .vec => decide (o.d < 32) && decide (o.d % 8 = 0)
      | .row => decide (o.a < 32)),
    whole := true, room := !(d == .tile && (s.core o.core).tileBusy o.d), run := qGetRun o k d,
    idle := qGetIdle o k d }

/-! ### Answers land -/

/-- The read, or the delivery of the side path, that was requested first (R246, R304). -/
def Queue.oldestRead (x : Queue) : Option QReq :=
  ((x.reqs ++ x.flight).filter (fun r => !r.write && r.role != 1)).foldl (fun (acc : Option QReq) r =>
    match acc with
    | some a => if r.tag < a.tag then some r else acc
    | none => some r) none

/-- R304, R246: the returned row of the queue pair's oldest read lands. What a faulted core had outstanding is discarded
(R86). -/
def State.landRow (s : State) (q k : Nat) : State :=
  let x := s.queue q k
  match x.oldestRead with
  | none => s
  | some r =>
    if r.role = 2 then s
    else match takeFirst (fun (a : Answer) => a.tag == r.tag) x.back with
      | none => s
      | some (a, others) =>
        let row := match a.rows with
          | w :: _ => w
          | [] => ⟨none⟩
        let got := r.got + 1
        let keep := !(s.core r.core).faulted
        let s := s.modQueue q k (fun z => { z with
          inb := if keep then z.inb ++ [row] else z.inb
          owed := z.owed - 1
          back := if a.rows.length ≤ 1 then others else { a with rows := a.rows.drop 1 } :: others
          flight := if r.n ≤ got then z.flight.erase r
            else z.flight.map (fun x => if x == r then { r with got := got } else x) })
        s.wakeRows q k

/-- R106: a target acknowledges the queue pair's oldest write that it has answered; a write that waited for it may leave
(R304). -/
def State.landAck (s : State) (q k : Nat) : State :=
  let x := s.queue q k
  match takeFirst (fun (r : QReq) => r.write && x.back.any (fun a => a.tag == r.tag)) x.flight with
  | none => s
  | some (r, rest) =>
    let s := s.modQueue q k (fun z => { z with
      flight := rest, outb := z.outb - r.n, back := z.back.filter (fun a => a.tag != r.tag) })
    (s.sendAll q k s.now).wakeAcks q k r.core

def validQueue (q k : Nat) : Bool := validCluster q && decide (k < 16)

def execQueueReturn (t q k : Nat) (s : State) : Host.Outcome State Fault Refusal :=
  onUnit (validQueue q k) ((s.at t).landRow q k)
def execWriteAcknowledgement (t q k : Nat) (s : State) : Host.Outcome State Fault Refusal :=
  onUnit (validQueue q k) ((s.at t).landAck q k)

/-! ### SLOT.SEND (R110 to R114) -/

/-- R112: the next occurrence of slot `sl` that begins at least 36 ticks from now. -/
def State.slotStart (s : State) (f sl : Nat) : Nat :=
  let base := (s.fold f).tick0 + 32 * sl
  gridUp base 512 (s.now + 36)

/-- R110, R111, R266: the operand fields that make a slot send illegal. -/
def slotLegal (b : Word) : Bool :=
  getBits b 16 3 < 4 && (getBits b 24 5 < 16 || getBits b 24 5 == 31) && getBits b 20 4 == 0 && getBits b 29 35 == 0

def slotPacket (s : State) (o : CoreOp) (f : Nat) (a b : Word) (timed : Bool) (start i n : Nat) : Packet :=
  let set := getBits a 63 1 = 1
  { meshPacket .slot o.core 0 f (tileOf o.q) (if set then 0 else tileOf (clusterOf (getBits a 6 11 * 64))) 0
      (if timed then start + 8 * i else s.now) with
    plane := getBits b 19 1, timed := timed, start := start, route := if set then some (getBits a 0 8) else none
    launch := if timed then some (start + 8 * i) else none, first := getBits a 32 16, index := i, count := n }

/-- The fault of a slot send. DESIGN CHOICE (log 126): a cluster number of 24 to 31 names no cluster of any fold, and faults with HEDGE. -/
def slotFault (o : CoreOp) (a b : Word) (s : State) : Option Nat :=
  let fold := (s.foldOf o.q).getD 0
  let n := getBits b 16 3 + 1
  let src := getBits b 0 16
  let c := getBits a 6 11
  if ¬ slotLegal b ∨ 49152 < src + n then some causeIllegal
  else if ¬ s.reachesAll fold o.q src n then some causePartition
  else if getBits a 63 1 = 0 ∧ (24 ≤ c % 32 ∨ ¬ s.hedgeAdmits fold (clusterOf (c * 64)) (getBits a 32 16) n) then some causeHedge
  else none

/-- Whether a send goes out in a slot, and the tick at which it would. -/
def State.slotTimed (s : State) (o : CoreOp) (b : Word) : Bool :=
  s.foldExact ((s.foldOf o.q).getD 0) && decide (getBits b 24 5 < 16)
def State.sendStart (s : State) (o : CoreOp) (b : Word) : Nat :=
  if s.slotTimed o b then s.slotStart ((s.foldOf o.q).getD 0) (getBits b 24 5) else s.now

/-- The leave that a send to a route set needs (R114). DESIGN CHOICE (log 107): an elastic send has no slot, which R128 makes the
busy time of a send; its leave is judged over the 32 ticks from its issue. -/
def State.sendLeave (s : State) (o : CoreOp) (off : Bool) (a b : Word) : MoveLeave :=
  let op : Begin := if s.slotTimed o b then ⟨32, (s.fold ((s.foldOf o.q).getD 0)).tick0 + 32 * getBits b 24 5, 512, 36⟩
    else ⟨32, 0, 1, 0⟩
  s.bulkLeave o.core (getBits a 63 1 == 1) off (s.sendStart o b) (s.sendStart o b + 32) op

/-- R85: a gated-off send waits for leave as an active one and sends nothing. -/
def slotSendIdle (o : CoreOp) (f : Files) (s : State) : Done :=
  if (slotFault o (f.s o.a) (f.s o.b) s).isSome then .ok s
  else match s.sendLeave o true (f.s o.a) (f.s o.b) with
    | .wait s' => .stall s'
    | .free => .ok (s.modCore o.core (fun k => { k with rowGrant := none }))

def slotSendRun (o : CoreOp) (f : Files) (s : State) : Done :=
  let a := f.s o.a
  let b := f.s o.b
  let fold := (s.foldOf o.q).getD 0
  let n := getBits b 16 3 + 1
  let src := getBits b 0 16
  match slotFault o a b s with
  | some cause => .fault cause s
  | none =>
    let start := s.sendStart o b
    let timed := s.slotTimed o b
    match s.sendLeave o false a b with
    | .wait s' => .stall s'
    | .free =>
      let s := s.modCore o.core (fun k => { k with sends := k.sends + n, rowGrant := none })
      if timed then
        .ok ((List.range n).foldl (fun s i =>
          let p := s.nextTag
          (s.inject (slotPacket s o fold a b true start i n)).present o.q
            ⟨.routerTimed, src + i, s.bankEdge fold (start - 36) + 3 * i, .toSend p, fold, o.core, false⟩) s)
      else
        .ok ((List.range n).foldl (fun s i =>
          let p := s.nextTag
          (s.inject (slotPacket s o fold a b false s.now i n)).present o.q
            ⟨.routerElastic, src + i, s.portEdge o.q s.now, .toSend p, fold, o.core, false⟩) s)

def slotSendOp (o : CoreOp) : Op :=
  { cls := 0x07, fn := 0, inA := false, inB := true, dst := none, srcs := [sCode o.a, sCode o.b],
    legal := decide (o.a < 32) && decide (o.b < 32), whole := true, room := true, run := slotSendRun o, idle := slotSendIdle o }

end Sys2Proof.Machine
end

