-- ==== Sys2Proof/Machine/Transit.lean ====
section
/-! DEFINITION. Requests of other modules on their way between the hub of their link and their target (R24, R465, R474, R477,
R479): what goes on the mesh for them, and their answers. -/

namespace Sys2Proof.Machine

/-! ### Answers to requests of the module's own -/

/-- The queue pair of a core's cluster on which a tag is under way. -/
def State.queueOfTag (s : State) (core tag : Nat) : Option Nat :=
  ((s.cluster (clusterOf core)).queues.find? (fun e => e.2.flight.any (fun r => r.tag == tag))).map Prod.fst

/-- A read return in whose header a cause stands brings no row: DESIGN CHOICE (log 132). -/
def lostRow (h : RowHeader) : Bool := h.kind == 3 && h.cause != 0

/-- An answer from another module goes on from the hub of its link to the cluster that asked, on VC1 (R24). -/
def State.answerOwn (s : State) (n : Nat) (h : RowHeader) (r : Row) : State :=
  let q := clusterOf h.src
  let kind : PacketKind := if h.kind = 3 then .back else if h.kind = 4 then .ack else .windowRefusal h.cause
  match s.queueOfTag h.src h.tag with
  | some k => s.inject { meshPacket kind h.src k ((s.foldOf q).getD 0) (hubTile n) (tileOf q) h.tag s.now with
      row := if h.kind = 3 ∧ ¬ lostRow h then some r else none }
  | none => s

/-! ### Transits -/

/-- A packet for a request of another module is no traffic of a fold of this one (R64). -/
def noFold : Nat := 256

def State.transit (s : State) (tag : Nat) : Option Transit := Map.find s.transits tag
def State.setTransit (s : State) (tag : Nat) (t : Transit) : State := { s with transits := Map.put s.transits tag t }
def State.dropTransit (s : State) (tag : Nat) : State := { s with transits := Map.del s.transits tag }

/-- The request of a link to which a packet of its port belongs. -/
def State.transitOf (s : State) (p : Nat) (h : RowHeader) : Option (Nat × Transit) :=
  s.transits.find? (fun e => !e.2.relay && e.2.port == p && e.2.header.kind == h.kind && e.2.header.src == h.src &&
    e.2.header.tag == h.tag)

/-- An admitted request to a window is under way (R478). -/
def State.windowBusy (s : State) (id : Nat) : Bool :=
  s.transits.any (fun e => !e.2.relay && e.2.target.isSome && e.2.header.window == id)

/-- R474: row `k` of a partition in ascending row address. -/
def State.partRow (s : State) (q i k : Nat) : Option Nat :=
  let base := s.fld Fld.cluPartCfgBaseRow q i
  let rows := s.fld Fld.cluPartCfgRowCount q i
  if rows = 0 then none else ((s.banksOf q i)[k / rows]?).map (fun b => 1024 * b + base + k % rows)

/-- The destination row of row `i` of a request: in its window's target, or after the first row of a slot send. -/
def State.transitRow (s : State) (t : Transit) (i : Nat) : Nat :=
  match t.target with
  | some d => if d.stack then s.regionBase d.unit d.index + t.header.offset + i
      else (s.partRow d.unit d.index (t.header.offset + i)).getD 49152
  | none => t.header.offset + i

/-- The tile to which a request goes: that of a cluster, or of a stack's hub. -/
def Transit.tile (t : Transit) : Nat :=
  match t.target with
  | some d => if d.stack then hubTile d.unit else tileOf d.unit
  | none => tileOf (clusterOf t.header.dst)

def linkPacket (kind : PacketKind) (tag : Nat) (t : Transit) (src dst x : Nat) : Packet :=
  { meshPacket kind (t.header.src % noCore) 0 noFold src dst tag x with count := t.header.rows }

/-- Row `i` of a write or of a slot send leaves the hub of its link; so does a read request, without a row. -/
def State.sendLinkRow (s : State) (tag : Nat) (t : Transit) (i : Nat) (r : Option Row) : State :=
  s.inject { linkPacket (if t.header.kind = 2 then .linkRead else .linkRow) tag t (hubTile t.lea) t.tile s.now with
    first := s.transitRow t i, index := i, row := r }

/-- The target answers on VC1, to the hub of the link. -/
def State.respondLink (s : State) (kind : PacketKind) (src tag : Nat) : State :=
  match s.transit tag with
  | some t => s.inject (linkPacket kind tag t src (hubTile t.lea) s.now)
  | none => s
def State.respondLinkRows (s : State) (src tag x : Nat) (rows : List (Option Row)) : State :=
  match s.transit tag with
  | some t => s.injectRows (linkPacket .linkBack tag t src (hubTile t.lea) x) 0 rows.length rows
  | none => s

/-! ### Answers to other modules -/

/-- An answer leaves by the port on which its request came; one to a core of the module goes on over the mesh. -/
def State.answerOut (s : State) (p n : Nat) (h : RowHeader) (r : Row) : State :=
  if p = noPort then s.answerOwn n h r else s.sendOn p 1 [(h, r)]

/-- The header of an answer of a kind; a refusal carries its cause (Table 13-4). -/
def answerHeader (h : RowHeader) (kind cause : Nat) : RowHeader := { h with kind := kind, index := 0, cause := cause }

/-- A request that is refused at the hub of its link. -/
def State.refuseBack (s : State) (p n cause : Nat) (h : RowHeader) : State := s.answerOut p n (answerHeader h 5 cause) 0

/-- A row of a read has come back to the hub of the link, or could not be delivered (R312). -/
def State.landLinkRow (s : State) (tag i : Nat) (row : Option Row) : State :=
  match s.transit tag with
  | none => s
  | some t =>
    let h : RowHeader := { t.header with kind := 3, index := i, cause := if row.isSome then 0 else 1 }
    let s := s.answerOut t.port t.lea h (row.getD 0)
    if t.left ≤ 1 then s.dropTransit tag else s.setTransit tag { t with left := t.left - 1 }

/-- An acknowledgement, or a refusal with its cause, has come back to the hub of the link. -/
def State.landLinkEnd (s : State) (tag : Nat) (cause : Option Nat) : State :=
  match s.transit tag with
  | none => s
  | some t =>
    let h := match cause with
      | some c => answerHeader t.header 5 c
      | none => answerHeader t.header 4 0
    (s.answerOut t.port t.lea h 0).dropTransit tag

/-- A packet that the module relays leaves it (R465). -/
def State.landRelay (s : State) (tag vc : Nat) (r : Option Row) : State :=
  match s.transit tag with
  | none => s
  | some t => (s.dropTransit tag).sendOn t.port vc [(t.header, r.getD 0)]

/-- The requests of links to the clusters of a fold that ends are refused (R546). -/
def State.refuseTransits (s : State) (mine : Nat → Bool) : State :=
  (s.transits.filter (fun e => !e.2.relay && (match e.2.target with
    | some d => !d.stack && mine d.unit
    | none => mine (clusterOf e.2.header.dst)))).foldl (fun (s : State) e => s.landLinkEnd e.1 (some 0)) s

/-! ### What a target makes of a request -/

/-- R151, R477: the rows of a request must lie in partitions of the fold that owns its window, or sent it. -/
def State.judgeLink (s : State) (q : Nat) (t : Transit) : Arrived :=
  match s.foldOf q with
  | none => .hedge 0
  | some g =>
    if g ≠ t.fold then .hedge g
    else if (List.range t.header.rows).all (fun i => s.reaches g q (s.transitRow t i)) then .admitted else .overrun

/-- The cause of a refusal at the target. -/
def Arrived.cause : Arrived → Nat
  | .hedge _ => 3
  | _ => 0

/-- The items that an access for a request fails here: those of the fold for a slot send; the sender of a window request learns of
it by the answer. -/
def Transit.serves (t : Transit) : Nat := if t.target.isSome then noItems else noCore

/-- A refused request is reported (Table 16-4), and answered. -/
def State.refuseLink (s : State) (q tag : Nat) (t : Transit) (a : Arrived) : State :=
  (s.reportArrival q (s.transitRow t 0) (if t.port = noPort then 0 else 2) (t.header.src % 2 ^ 17) t.fold a).respondLink
    (.linkRefusal a.cause) (tileOf q) tag

/-- The rows of a request have all been served at a cluster. -/
def State.endLink (s : State) (q tag x : Nat) (rows : List (Option Row)) : State :=
  match s.transit tag with
  | none => s
  | some t =>
    if t.header.kind = 2 then s.respondLinkRows (tileOf q) tag x rows
    else if ¬ rows.all Option.isSome then s.respondLink (.linkRefusal 0) (tileOf q) tag
    else if t.target.isSome then s.respondLink .linkAck (tileOf q) tag
    else s.dropTransit tag

end Sys2Proof.Machine
end

