-- ==== Sys2Proof/Machine/Access.lean ====
section
/-! DEFINITION. The banks serve what is presented to them (R143 to R146, R156 to R161, R165, R277), the operations of the router
port end, and the patrol scrubber (R159). -/

namespace Sys2Proof.Machine

/-! ### The operations of the router port -/

def State.dropPort (s : State) (q id : Nat) : State := s.modCluster q (fun c => { c with port := Map.del c.port id })

/-- The rows of a Q.PUT.WR have been read, at tick `x`: the request enters its queue pair, or, where a row was not delivered,
nothing is sent (R157) and its places are free again. -/
def State.endPut (s : State) (q id core k : Nat) (addr : Word) (j : PortJob) (x : Nat) : State :=
  let rows := j.rows.filterMap Prod.snd
  let s := s.dropPort q id
  if rows.length = j.n then s.enterRequest core k true addr j.n rows id x
  else (s.modQueue q k (fun z => { z with outb := z.outb - j.n })).wakeAcks q k core

/-- R304: the writes of a queue pair enter it in the order in which they were put. -/
def State.endPuts (s : State) (q k x : Nat) : Nat → State
  | 0 => s
  | n + 1 =>
    match (s.cluster q).port.find? (fun e => match e.2.work with
      | .put _ k' _ => k' == k
      | _ => false) with
    | some (id, j) => (match j.work with
        | .put core _ addr => if j.left = 0 then (s.endPut q id core k addr j x).endPuts q k x n else s
        | _ => s)
    | none => s

/-- R276, R277: a timed row has been written. -/
def State.arrived (s : State) (q row : Nat) : State :=
  s.modCluster q (fun c => { c with arrivals := c.arrivals.map (fun x => { x with left := x.left.filter (· != row) }) })

/-! ### The rows of engine calls (R280, R319, R321) -/

/-- A data row of an engine call has come to its hub, or could not be delivered. One that the hub has not asked for is dropped. -/
def State.putOperand (s : State) (n core number : Nat) (addr : Word) (row : Option Row) : State :=
  s.modHub n (fun h =>
    if (h.arriving ++ h.engines.flatMap Prod.snd).any (fun c => c.core == core && c.number == number && c.asked.contains addr)
    then { h with fetched := h.fetched ++ [⟨core, number, addr, row⟩] } else h)

/-- A data row of an engine call goes to its hub. DESIGN CHOICE (log 133): on plane 0. -/
def State.sendOperand (s : State) (src n core number f : Nat) (addr : Word) (x : Nat) (row : Option Row) : State :=
  s.inject { meshPacket (.operand addr) core 0 f src (hubTile n) number x with row := row }

/-- The status in the completion record of a call block row (Table 09-3). -/
def callStatus (r : Row) : Nat := bytesAt r.toNat 496 2

/-- Whether an operation writes a row of a call, and the call block row among them. -/
def PortJob.results (core number : Nat) (block : Bool) (j : PortJob) : Bool :=
  match j.work with
  | .result c m _ last => c == core && m == number && last.isSome == block
  | _ => false

/-- R321: the call block row of a call is presented once its other rows have been written. -/
def State.releaseBlock (s : State) (q core number : Nat) : State :=
  let l := (s.cluster q).port
  if l.any (fun e => e.2.results core number false) then s
  else match l.find? (fun e => e.2.results core number true) with
    | some (id, j) => (match j.work with
        | .result _ _ f (some (a, r)) => s.presentPort q id 0 a f core (some (49, r))
        | _ => s)
    | none => s

/-- A row that a call writes, at its cluster. -/
def State.landResult (s : State) (q core number f a : Nat) (r : Row) (block : Bool) : State :=
  let id := s.nextTag
  let s := s.drawTag.openPort q id (.result core number f (if block then some (a, r) else none)) 1
  if block then s.releaseBlock q core number else s.presentPort q id 0 a f core (some (49, r))

/-- The rows of an operation have all been served; the last access is over at tick `x`. -/
def State.endPort (s : State) (q id : Nat) (j : PortJob) (x : Nat) : State :=
  match j.work with
  | .put _ k _ => s.endPuts q k x (s.cluster q).port.length
  | .slot c late =>
    let s := (s.dropPort q id).sendDone c
    (match late with
     | some row => if j.rows.all (fun r => r.2.isSome) then s.arrived q row else s
     | none => s)
  | .link => (s.dropPort q id).endLink q id x (j.rows.map Prod.snd)
  | .operand n core number f addr near =>
    let row := (j.rows.head?).bind Prod.snd
    let s := s.dropPort q id
    if near then s.putOperand n core number addr row else s.sendOperand (tileOf q) n core number f addr x row
  | .result core number _ none => (s.dropPort q id).releaseBlock q core number
  | .result core number _ (some (_, r)) => (s.dropPort q id).wakeCall core number (callStatus r)
  | .write c k f => (s.dropPort q id).respond .ack (tileOf q) c k f id x
  | .read c k f => (s.dropPort q id).respondRows (tileOf q) c k f id x (j.rows.map Prod.snd)

/-- One row of an operation has been served, or refused. -/
def State.portRow (s : State) (q id i x : Nat) (r : Option Row) : State :=
  match Map.find (s.cluster q).port id with
  | none => s
  | some j =>
    let j := { j with left := j.left - 1, rows := Map.put j.rows i r }
    let s := s.modCluster q (fun c => { c with port := Map.put c.port id j })
    if j.left = 0 then s.endPort q id j x else s

/-! ### Serving -/

/-- What a read delivers, at the tick its access completes. -/
def State.deliver (s : State) (q : Nat) (a : Access) (ends : Nat) (r : Option Row) : State :=
  match a.op with
  | .toTile t slice =>
    let s := match r with
      | some r => s.modFiles a.core (fun f => f.setRowT t slice r)
      | none => s
    s.landed a.core [tCode t] ends
  | .toVec d =>
    let s := match r with
      | some r => s.modFiles a.core (fun f => f.setRowV d r)
      | none => s
    s.landed a.core (vCodes d) ends
  | .toGroup i =>
    (match a.agent with
     | .rotation g => s.modGroup q g (fun x => { x with vecs := modFirst (fun v => v.stage == .rotating) (fun v =>
         match r with
         | some r => { v with input := Map.put v.input i r, left := v.left - 1, lastRead := Nat.max v.lastRead ends }
         | none => { v with badRow := true, left := v.left - 1, lastRead := Nat.max v.lastRead ends }) x.vecs })
     | _ => s)
  | .toSend p =>
    match Map.find s.packets p, r with
    | some k, some r =>
      { s with packets := Map.put s.packets p { k with row := some r, entered := if k.timed then k.entered else ends } }
    | some k, none =>
      let s := { s with packets := Map.del s.packets p }
      if k.kind = .slot then s.sendDone k.srcCore else s
    | none, _ => s
  | .port id i _ => s.portRow q id i ends r
  | .write _ _ => s
  | .result _ _ _ => s

/-- One row of the ARR.COLLECT of core `c` into the register of code `code` is written, or refused: after its last row that register
is ready (R121). -/
def State.collectRow (s : State) (q g c code ends : Nat) : State :=
  match takeFirst (fun (w : Nat × Nat × Nat) => w.1 == c && w.2.1 == code) ((s.cluster q).group g).writing with
  | none => s
  | some ((_, _, left), rest) =>
    if 1 < left then s.modGroup q g (fun x => { x with writing := (c, code, left - 1) :: rest })
    else (s.modGroup q g (fun x => { x with writing := rest })).landed c [code] ends

/-- A bank takes up an access at the present edge: its bank cycle is used, and the access is in flight (R143). -/
def State.takeCycle (s : State) (q b ends : Nat) : State :=
  s.modCluster q (fun c => { c with
    used := Map.put c.used b s.now, flight := (b, ends) :: c.flight.filter (fun e => decide (s.now < e.2)) })

/-- Whether a bank has already given the cycle of the present edge. -/
def State.cycleUsed (s : State) (q b : Nat) : Bool := Map.find (s.cluster q).used b == some s.now

/-- Serves one access at the present bank edge. -/
def State.serve (s : State) (q : Nat) (a : Access) : State :=
  let ends := s.now + 3 * s.latency q a
  let s := (s.modCluster q (fun c => { c with access := c.access.erase a })).takeCycle q (a.row / 1024) ends
  match a.op with
  | .write w r =>
    let s := s.writeRow q a.row w r
    (match a.agent with
     | .routerTimed => (s.arrived q a.row).sendDone a.core
     | _ => s)
  | .result code w r =>
    let s := s.writeRow q a.row w r
    (match a.agent with
     | .accumulator g => s.collectRow q g a.core code ends
     | _ => s)
  | .port _ _ (some (w, r)) => (s.writeRow q a.row w r).deliver q a ends (some r)
  | _ =>
    let (r, s) := s.readRow q a.row (some a.fold) a.core
    s.deliver q a ends r

/-- Refuses one access to a closed partition: its destination is left unchanged. What the rotation unit then holds for
the row is a free value. -/
def State.refuse (s : State) (q : Nat) (a : Access) : State :=
  let s := s.modCluster q (fun c => { c with access := c.access.erase a })
  let s := s.gatedAccess q a.row a.writer (some a.fold) a.core
  match a.op, a.agent with
  | .toGroup _, _ => s.drew.deliver q a s.now (some (Config.unwrittenRow s.fresh))
  | .result code _ _, .accumulator g => s.collectRow q g a.core code s.now
  | .write _ _, .routerTimed => s.sendDone a.core
  | _, _ => s.deliver q a s.now none

/-- Moves an access to the next bank edge. Ranks 1 to 3 of R144 are reported (R145), under the name of the cluster's agent, which
the manual does not name: DESIGN CHOICE (log 111). A wait for a late timed row is counted once (R277). -/
def State.moveOn (s : State) (q : Nat) (late : Bool) (a : Access) : State :=
  let s := s.modCluster q (fun c => { c with
    access := c.access.map (fun x => if x == a then { x with edge := s.now + 3, late := x.late || late } else x) })
  if late then (if a.late then s else s.bump Fld.cluFabContractLateRowCount q 0)
  else if a.agent.rank < 60 then
    (s.bump Fld.cluSpContractConflictCount q 0).report (srcAgent q (some a.fold)) 0x5001 (a.row / 1024) a.writer
  else s

def firstRank : List Access → Option Access
  | [] => none
  | a :: l => match firstRank l with
    | none => some a
    | some x => if x.agent.rank < a.agent.rank then some x else some a

/-- One bank edge (R144, R160, R161): a closure is checked first; then refused accesses end, one access is served, and
the rest move on. -/
def State.bankEdgeAt (s : State) (q b : Nat) : State :=
  let s := s.closureCheck q b
  let due := (s.cluster q).access.filter (fun a => a.row / 1024 == b && decide (a.edge ≤ s.now))
  let bad := due.filter (fun a => s.rowRefused q a.row)
  let rest := due.filter (fun a => !s.rowRefused q a.row)
  let late := rest.filter (fun a => s.lateRow q a)
  let ready := rest.filter (fun a => !s.lateRow q a)
  let s := bad.foldl (fun s a => s.refuse q a) s
  let s := late.foldl (fun s a => s.moveOn q true a) s
  match firstRank ready with
  | none => s
  | some a =>
    let s := (ready.erase a).foldl (fun s x => s.moveOn q false x) s
    s.serve q a

/-- A bank serves one access per bank cycle (R143): the step comes about on a bank edge whose cycle the bank has not given. -/
def execBankAccess (t q bank : Nat) (s : State) : Host.Outcome State Fault Refusal :=
  let s := s.at t
  onUnit (validCluster q && validBank bank)
    (whenever (s.onBankEdge q && !s.cycleUsed q bank) (fun s => s.bankEdgeAt q bank) s)

/-! ### SCRUB_READ -/

/-- What the scrubber reads goes back corrected (R156, R159); a row whose class has changed stays undefined until software
writes it (R153). -/
def State.scrubRow (s : State) (q a : Nat) : State :=
  let undefined := s.rowHealth q a == .undefined
  let (r, counts, s) := s.senseRow q a
  match r with
  | none => s.spRecord q a (s.foldOf q)
  | some r =>
    let s := if counts then s.bump Fld.cluSpEccCorrectedCount q 0 else s
    if counts ∧ ¬ undefined then
      s.modCluster q (fun c => { c with rows := Map.set 0 c.rows a r, err := Map.del c.err a })
    else s

/-- R159: the patrol scrubber reads a row of a powered bank in a bank cycle that no other agent uses. R277: it waits for a late
timed row, which is counted. -/
def State.scrub (s : State) (q a : Nat) : State :=
  let b := a / 1024
  if s.lateRow q ⟨.scrubber, a, s.now, .toTile 0 0, 0, 0, false⟩ then s.bump Fld.cluFabContractLateRowCount q 0
  else if ¬ s.bankPowered q b ∨ s.cycleUsed q b ∨
      (s.cluster q).access.any (fun x => x.row / 1024 == b && decide (x.edge ≤ s.now)) then s
  else
    let ends := s.now + 3 * (agentLatency b .scrubber + (if s.codeOfRow q a then 6 else 0))
    ((s.modCluster q (fun c => { c with scrubbed := a })).takeCycle q b ends).scrubRow q a

def execScrubRead (t q row : Nat) (s : State) : Host.Outcome State Fault Refusal :=
  let s := s.at t
  onUnit (validCluster q && decide (row < 49152)) (whenever (s.onBankEdge q) (fun s => s.scrub q row) s)

end Sys2Proof.Machine
end

