-- ==== Sys2Proof/Machine/Rotation.lean ====
section
/-! DEFINITION. What the rotation unit computes of an input vector: the rotation, the scale, the strays, and the split of
its planes (R180, R185, R192 to R196, R234 to R240), and the numeric row that parameterises it (Table 06-3). -/

namespace Sys2Proof.Machine

/-! ### Rows as bytes -/

def rowByte (r : Row) (i : Nat) : Nat := r.toNat / 256 ^ i % 256
/-- `n` bytes of a row from byte `i` on, little-endian. -/
def rowBytes (r : Row) (i n : Nat) : Nat := r.toNat / 256 ^ i % 256 ^ n
/-- The `n` 16-bit elements of a row from element `i` on. -/
def rowHalves (r : Row) (i : Nat) : Nat → List Nat
  | 0 => []
  | n + 1 => rowBytes r (2 * i) 2 :: rowHalves r (i + 1) n
/-- A row from its bytes, least first. -/
def rowOfBytes (l : List Nat) : Row := BitVec.ofNat 4096 (l.foldr (fun b acc => b % 256 + 256 * acc) 0)
/-- The `n` low bytes of a number. -/
def leBytes : Nat → Nat → List Nat
  | 0, _ => []
  | n + 1, v => v % 256 :: leBytes n (v / 256)
/-- A row from elements of `w` bytes each. -/
def rowOfElems (w : Nat) (l : List Nat) : Row := rowOfBytes (l.flatMap (leBytes w))

/-! ### The layer entry (Tables 05-2, 05-3, 06-3) -/

def depthOf (code : Nat) : Nat := 2 ^ (code % 4)
def State.depth (s : State) (q e : Nat) : Nat := depthOf (s.fld Fld.cluArrLayerCfgDepth q e)
def State.layerCopy (s : State) (q e : Nat) : LayerCopy := Map.get LayerCopy.reset (s.cluster q).layers e
def State.numRow (s : State) (q e : Nat) : Row := (s.layerCopy q e).numeric
def State.sideQueue (s : State) (q e : Nat) : Nat := rowByte (s.numRow q e) 264 % 16

/-- The input indices of the static rows. -/
def State.statics (s : State) (q e : Nat) : List Nat :=
  (List.range (s.fld Fld.cluArrLayerNumOutlierCount q e)).map (fun i => rowBytes (s.numRow q e) (4 * i) 2)

/-- R192: the effective cap at a gain code and a range cap. -/
def effectiveCap (gain rangeCap : Nat) : Nat := Nat.min 1024 (32 * (rangeCap + 1) * 4 / 2 ^ gain)

/-- R402: the physical group behind a named group. -/
def State.physGroup (s : State) (q g : Nat) : Nat := s.fld Fld.cluArrGroupMapPhys q 0 / 4 ^ g % 4
/-- The array at position `i` of a named group. -/
def State.arrayOf (s : State) (q g i : Nat) : Nat := 8 * s.physGroup q g + i
def State.inMask (s : State) (q e i : Nat) : Bool := s.fld Fld.cluArrLayerCfgArrayMask q e / 2 ^ i % 2 == 1

/-! ### Rotation (R234 to R236) -/

/-- R235: the generator of signs. -/
def mix (v : Word) : Word :=
  let v := v + 0x9E3779B97F4A7C15
  let v := (v ^^^ (v >>> 30)) * 0xBF58476D1CE4E5B9
  let v := (v ^^^ (v >>> 27)) * 0x94D049BB133111EB
  v ^^^ (v >>> 31)

/-- Whether each sign of stack position `p` is negative. -/
def signs (seed : Word) (p : Nat) : List Bool :=
  (List.range 16).flatMap (fun w =>
    let r := mix (seed + BitVec.ofNat 64 (16 * p + w))
    (List.range 64).map (fun b => r.getLsbD b))

/-- The sums Σₖ (−1)^popcount(i AND k)·x[k] over 2ⁿ elements. -/
def hadamard : Nat → List Int → List Int
  | 0, l => l
  | n + 1, l =>
    let a := hadamard n (l.take (2 ^ n))
    let b := hadamard n (l.drop (2 ^ n))
    List.zipWith (· + ·) a b ++ List.zipWith (· - ·) a b

/-- A finite BF16 element in units of 2⁻¹³³. -/
def bfUnits (code : Nat) : Int :=
  match bf16.read false code with
  | .fin neg m e => (if neg then -1 else 1) * (m * 2 ^ (e + 133).toNat : Nat)
  | _ => 0

/-- One rotated block: each element exact, then rounded once to FP32. -/
def rotateBlock (seed : Word) (p : Nat) (x : List Nat) : List Nat :=
  (hadamard 10 (List.zipWith (fun n c => if n then -bfUnits c else bfUnits c) (signs seed p) x)).map
    (fun v => toF32 (.ofDy ⟨v, -138⟩))

/-- Blocks of 1,024 elements, from stack position `p` on. -/
def rotateBlocks (seed : Word) (p : Nat) (x : List Nat) : Nat → List Nat
  | 0 => []
  | n + 1 => rotateBlock seed p (x.take 1024) ++ rotateBlocks seed (p + 1) (x.drop 1024) n

/-! ### Scale and quantisation (R237 to R240) -/

def f32Abs (v : Nat) : Nat := v % 2 ^ 31
def f32Finite (v : Nat) : Bool := decide (f32Abs v < 0x7F800000)

/-- The FP32 root of the sum of squares of FP32 values, the sum formed exactly and rounded once. -/
def squares (l : List Nat) : Nat := toF32 (.ofDy (Dy.sum (l.map (fun v => (f32 v).dy.mul (f32 v).dy))))
def f32Sqrt (v : Nat) : Nat :=
  match f32 v with
  | .nan => toF32 .nan
  | .inf _ => v
  | x => toF32 (.ofDy (Dy.sqrt x.dy))

/-- R238 step 3: the smallest e with 7.5·2^e ≥ c·rms, c in quarters. -/
def scaleOf (clip rms : Nat) : Int :=
  let v := (f32 rms).dy.mul ⟨clip, 0⟩
  if v.m = 0 then -126
  else
    let top := (log2 v.m.natAbs : Int) + v.e
    let fits := fun (e : Int) => v.le ⟨30, e⟩
    let e := if fits (top - 5) then top - 5 else if fits (top - 4) then top - 4 else top - 3
    Max.max (-126) (Min.min 127 e)

/-- zᵢ / 2^e, rounded. -/
def quantise (e : Int) (z : Nat) : Int := Dy.round ⟨(f32 z).dy.m, (f32 z).dy.e - e⟩

/-- Inserts an element into a list that falls by `key`, before those of equal key. -/
def insertBy (key : Nat → Nat) (x : Nat) : List Nat → List Nat
  | [] => [x]
  | y :: l => if key y ≤ key x then x :: y :: l else y :: insertBy key x l
/-- Elements by falling key, equal keys in their order. -/
def sortBy (key : Nat → Nat) (l : List Nat) : List Nat := l.foldr (insertBy key) []

/-- Inserts an element into a list that rises by `key`, before those of equal key. -/
def insertUp (key : Nat → Nat) (x : Nat) : List Nat → List Nat
  | [] => [x]
  | y :: l => if key x ≤ key y then x :: y :: l else y :: insertUp key x l
/-- Elements by rising key, equal keys in their order. -/
def sortUp (key : Nat → Nat) (l : List Nat) : List Nat := l.foldr (insertUp key) []

/-- What the rotation unit finds of a vector. `z` are the rotated elements (FP32 bits), `q` their quantised values. -/
structure Rotated where
  nonfinite : Bool
  z       : List Nat
  e       : Int
  q       : List Int
  strays  : List Nat
  served  : List Nat
deriving DecidableEq, Repr

def outside (q : Int) : Bool := decide (q < -8) || decide (7 < q)

def rotate (seed : Word) (d clip : Nat) (statics : List Nat) (x : List Nat) : Rotated :=
  if x.any (fun c => 0x7F80 ≤ c % 2 ^ 15) then ⟨true, [], 0, [], [], []⟩
  else
    let z := rotateBlocks seed 0 x d
    let n := (z.zipIdx.filter (fun p => !statics.contains p.2))
    let sum := squares (n.map Prod.fst)
    if ¬ z.all f32Finite ∨ ¬ f32Finite sum then ⟨true, z, 0, [], [], []⟩
    else
      let rms := f32Sqrt (f32Div sum (toF32 (.ofInt n.length)))
      let e := scaleOf clip rms
      let q := z.map (quantise e)
      let strays := (q.zipIdx.filter (fun p => outside p.1 && !statics.contains p.2)).map Prod.snd
      let served := (List.range d).flatMap (fun p =>
        (sortBy (fun i => f32Abs (z.getD i 0)) (strays.filter (fun i => i / 1024 == p))).take 16)
      ⟨false, z, e, q, strays, served⟩

/-- The value that each element drives: nothing for a static row or a served stray, a saturated value for any other
stray. -/
def drivenOf (statics served : List Nat) (q : List Int) : List Int :=
  q.zipIdx.map (fun p =>
    if statics.contains p.2 || served.contains p.2 then 0 else Max.max (-8) (Min.min 7 p.1))

/-! ### Planes (R185, R193, R195, R196) -/

/-- Bit `p` of a value driven as 4-bit two's complement. -/
def planeBit (p : Nat) (v : Int) : Bool := ofSigned 4 v / 2 ^ p % 2 == 1

/-- The active rows of each run of 256 rows. -/
def groupCounts (p : Nat) (driven : List Int) : Nat → List Nat
  | 0 => []
  | n + 1 => (driven.take 256).countP (planeBit p) :: groupCounts p (driven.drop 256) n

/-- The stack positions that the entry's array mask drives. -/
def State.positionsOf (s : State) (q e : Nat) : List Nat :=
  (List.range (s.depth q e)).filter (fun p => (List.range 8).any (fun i => s.inMask q e i && i % s.depth q e == p))

/-- R196: the split factor of an array whose row groups hold these counts. -/
def splitFactor (cap : Nat) (a : List Nat) : Nat :=
  let n := fun i => a.getD i 0
  if n 0 + n 1 + n 2 + n 3 ≤ cap then 1 else if n 0 + n 1 ≤ cap ∧ n 2 + n 3 ≤ cap then 2 else 4

/-- The sub-planes of plane `p`, and how many they are beyond one. -/
def subPlanes (exact : Bool) (cap p : Nat) (positions : List Nat) (driven : List Int) (d : Nat) : List SubPlane × Nat :=
  let counts := groupCounts p driven (4 * d)
  let of := fun pos => (counts.drop (4 * pos)).take 4
  let any := fun (lo n : Nat) => positions.any (fun pos => ((of pos).drop lo).take n |>.any (fun k => k != 0))
  if ¬ any 0 4 then (if exact then [⟨p, 0, 1024, false, false⟩] else [], 0)
  else
    let f := maxOf (positions.map (fun pos => splitFactor cap (of pos)))
    if f = 1 then ([⟨p, 0, 1024, false, true⟩], 0)
    else if f = 2 then ([⟨p, 0, 512, false, any 0 2⟩, ⟨p, 512, 1024, false, any 2 2⟩], 1)
    else ((List.range 4).map (fun g => ⟨p, 256 * g, 256 * g + 256, false, any g 1⟩), 3)

/-- The rows of an array that a sub-plane drives, as a mask. -/
def activeRows (p pos lo hi : Nat) (driven : List Int) : Nat :=
  ((List.range 1024).zip ((driven.drop (1024 * pos)).take 1024)).foldl (fun acc r =>
    if lo ≤ r.1 && decide (r.1 < hi) && planeBit p r.2 then acc + 2 ^ r.1 else acc) 0

/-- The column sum S of a sub-plane, in weight units: the levels of the driven plus cells less those of the minus cells
(R175 to R177). -/
def colSum (cells : Map Nat) (rows c : Nat) : Int :=
  cells.foldl (fun (acc : Int) k =>
    if k.1 % 1024 / 2 = c ∧ rows / 2 ^ (k.1 / 1024) % 2 = 1 then (if k.1 % 2 = 0 then acc + k.2 else acc - k.2) else acc) 0

/-- The weight that a pair of cells stores (R177). -/
def cellWeight (cells : Map Nat) (r c : Nat) : Int :=
  let level := fun (k : Nat) => Map.get 0 cells k
  (level (1024 * r + 2 * c) : Int) - (level (1024 * r + 2 * c + 1) : Int)

/-- R191: the code of a column sum at a gain code. `o` is the column's offset in sixteenths of an LSB, `noise` the
deviation that the noise model allows, in 2⁻¹⁶ LSB. -/
def convert (gain : Nat) (sum o noise : Int) : Int :=
  Max.max (-128) (Min.min 127 (Dy.round ⟨sum * 2 ^ (gain + 12) + o * 4096 + noise, -16⟩))

def planeWeight (p : Nat) : Int := if p = 3 then -8 else 2 ^ p

end Sys2Proof.Machine
end

