-- ==== Sys2Proof/Machine/ArrayCore.lean ====
section
/-! DEFINITION. ARR.ISSUE and ARR.COLLECT (R115 to R122, R180). -/

namespace Sys2Proof.Machine

/-! ### ARR.ISSUE -/

def ArrVec.fresh (entry core fold row0 now : Nat) : ArrVec :=
  { id := 0, entry := entry, core := core, fold := fold, row0 := row0, issued := now, stage := .issued, accepted := 0,
    grant := none, asks := false, input := [], left := 0, lastRead := 0, badRow := false, notReady := false, nonfinite := false, e := 0,
    driven := [], strays := 0, clipped := false, redo := false, allZero := false, subs := [], planeT := 0, raw := [],
    extra := 0, nPlanes := 0, reruns := 0, splits := 0, overrun := false, out := [], normN := 0, normFlag := false,
    normRedo := false, normFail := false, ready := 0 }

/-- DESIGN CHOICE (log 29): a row past 49,151 lies outside every partition, and faults with PARTITION, here and in ARR.COLLECT. -/
def arrIssueOp (o : CoreOp) (g : Nat) (s : State) : Op :=
  { cls := 0x08, fn := 0, inA := false, inB := true, dst := none, srcs := [sCode o.a, sCode o.b],
    legal := decide (o.a < 32) && decide (o.b < 32), whole := true,
    room := decide (((s.cluster o.q).group g).vecs.length < 2),
    run := fun f s =>
      let fold := (s.foldOf o.q).getD 0
      let e := getBits (f.s o.b) 0 8
      let row := getBits (f.s o.a) 0 16
      if s.fld Fld.timFoldCfgDigitalExact 0 fold = 1 then .fault causeDigital s
      else if ¬ s.reachesAll fold o.q row (4 * s.depth o.q e) then .fault causePartition s
      else .ok (s.modGroup o.q g (fun x => { x with vecs := x.vecs ++ [ArrVec.fresh e o.core fold row s.now] })) }

/-! ### ARR.COLLECT -/

/-- The status word of Table 03-12. -/
def ArrVec.status (v : ArrVec) : Word :=
  if v.notReady ∨ v.badRow then 0
  else BitVec.ofNat 64 (
    (if v.overrun then 1 else 0) + (if v.clipped then 2 else 0) + (if v.redo || v.normRedo then 4 else 0) +
    Nat.min 255 v.strays * 2 ^ 8 + Nat.min 255 v.splits * 2 ^ 16 + Nat.min 255 v.reruns * 2 ^ 24 +
    Nat.min 255 v.extra * 2 ^ 32)

/-- The result rows of a vector: the BF16 outputs, 256 to a row (R180); none for a vector refused as not ready. -/
def chunks (n : Nat) (l : List Nat) : Nat → List (List Nat)
  | 0 => []
  | k + 1 => l.take n :: chunks n (l.drop n) k
def ArrVec.rows (v : ArrVec) : List Row :=
  if v.notReady then [] else (chunks 256 v.out (v.out.length / 256)).map (rowOfElems 2)

/-- Takes the result: its rows are presented at successive bank edges, and its status word goes to sD. -/
def State.collect (s : State) (o : CoreOp) (g fold row : Nat) (v : ArrVec) : State :=
  let e := s.bankEdge fold s.now
  let rows := v.rows
  let s := s.modGroup o.q g (fun x => { x with vecs := x.vecs.drop 1 })
  let s := s.putS o.core o.d v.status 0
  match rows with
  | [] => s.readyAt o.core (sCode o.d) e
  | _ =>
    let s := s.awaits o.core [sCode o.d]
    let s := s.modGroup o.q g (fun x => { x with writing := x.writing ++ [(o.core, sCode o.d, rows.length)] })
    rows.zipIdx.foldl (fun s r => s.present o.q
      ⟨.accumulator g, row + r.2, e + 3 * r.2, .result (sCode o.d) (coreIndex o.core) r.1, fold, o.core, false⟩) s

def arrCollectOp (o : CoreOp) (g : Nat) : Op :=
  { cls := 0x08, fn := 1, inA := false, inB := true, dst := some (sCode o.d), srcs := [sCode o.a],
    legal := decide (o.a < 32) && decide (o.d < 32), whole := true, room := true,
    run := fun f s =>
      let fold := (s.foldOf o.q).getD 0
      let row := getBits (f.s o.a) 0 16
      match ((s.cluster o.q).group g).vecs with
      | [] => .fault causeIllegal s
      | v :: _ =>
        if v.stage ≠ .ready then .stall s
        else if ¬ s.reachesAll fold o.q row v.rows.length then .fault causePartition s
        else .ok (s.collect o g fold row v),
    idle := fun _ s =>
      match ((s.cluster o.q).group g).vecs with
      | [] => .ok s
      | v :: _ =>
        let r := v.rows.length
        if v.stage ≠ .ready then .stall s
        else .ok (s.readyNoSooner o.core (sCode o.d) (s.bankEdge ((s.foldOf o.q).getD 0) s.now +
          (if r = 0 then 0 else 3 * (r - 1) + 12))) }

end Sys2Proof.Machine
end

