-- ==== Sys2Proof/Machine/Side.lean ====
section
/-! DEFINITION. The side path of the rotation unit: its jobs, the shadow rows they fetch, and what they deliver
(R243 to R248, Tables 06-3 and 06-4). -/

namespace Sys2Proof.Machine

/-! ### Jobs -/

/-- Changes one job. -/
def State.modJob (s : State) (q id : Nat) (f : SideJob → SideJob) : State :=
  s.modCluster q (fun c => { c with jobs := c.jobs.map (fun j => if j.id == id then f j else j) })

/-- The rows that a job delivers: its header and 4·(8/d) term rows (R245). -/
def deliveryRows (d : Nat) : Nat := 1 + 4 * (8 / d)

/-- Rows of weights for one input index. -/
def rowsPerInput (d : Nat) : Nat := Nat.max 1 (4 / d)

/-- A job enters at its vector's acceptance, and its delivery takes its place among the requests of the side queue. -/
def State.openJob (s : State) (q : Nat) (j : SideJob) : State :=
  let r : QReq := ⟨j.id, false, 0, deliveryRows (s.depth q j.entry), [], j.core, 2, 0, 0, 0⟩
  let s := s.modCluster q (fun c => { c with jobs := c.jobs ++ [j] })
  s.modQueue q j.queue (fun x => { x with flight := x.flight ++ [r] })

/-- R243 step 1: the job asks for the shadow rows of one element. They never take a place on the inbound side. -/
def State.askShadow (s : State) (q : Nat) (j : SideJob) (i rpi : Nat) (addr : Word) : State :=
  let tag := s.nextTag
  let r : QReq := ⟨tag, false, addr, rpi, [], j.core, 1, s.beat % 2 ^ 32, 0, 0⟩
  let s := s.drawTag.modJob q j.id (fun j => { j with left := j.left ++ [(tag, i)] })
  (s.modQueue q j.queue (fun x => { x with reqs := x.reqs ++ [r] })).sendAll q j.queue s.now

/-- R247: shadow rows that lie beyond the rows of their stack are refused as those outside a region: the job delivers T = 0
with its fault flag, and the items fail. -/
def State.refuseShadow (s : State) (q : Nat) (j : SideJob) (m row : Nat) : State :=
  ((s.modJob q j.id (fun j => { j with fault := true })).report (srcHub m (some j.fold)) 0x3003 m row).failItems j.fold j.core 0x10

def State.fetchElem (s : State) (q : Nat) (j : SideJob) (i : Nat) : State :=
  let rpi := rowsPerInput (s.depth q j.entry)
  let base := BitVec.ofNat 64 (rowBytes (s.numRow q j.entry) 256 8)
  match remoteOf base with
  | .stack m row =>
    if 2 ^ 28 < row + rpi * (i + 1) then s.refuseShadow q j m (row + rpi * i)
    else s.askShadow q j i rpi (base + BitVec.ofNat 64 (512 * (rpi * i)))
  | _ => s.refuseShadow q j 0 0

def State.job (s : State) (q id : Nat) : Option SideJob := (s.cluster q).jobs.find? (fun j => j.id == id)

/-- A job starts on its elements: it fetches their rows. -/
def State.startJob (s : State) (q id : Nat) (mode : SideMode) (z : List Nat) (e : Int) (elems : List Nat) : State :=
  let s := s.modJob q id (fun j => { j with mode := mode, started := true, z := z, e := e, elems := elems, rows := [] })
  match s.job q id with
  | some j => elems.foldl (fun s i => s.fetchElem q j i) s
  | none => s

/-! ### Fetched rows -/

/-- R243 step 3, R247: the side path takes one fetched row. -/
def State.takeSideRow (s : State) (q : Nat) : State :=
  let c := s.cluster q
  let waiting := c.jobs.flatMap (fun j => j.left.map (fun t => (j, t)))
  match waiting.find? (fun w => (s.queue q w.1.queue).back.any (fun a => a.tag == w.2.1)) with
  | none => s
  | some (j, tag, i) =>
    match takeFirst (fun (a : Answer) => a.tag == tag) (s.queue q j.queue).back with
    | none => s
    | some (a, others) =>
      let rpi := rowsPerInput (s.depth q j.entry)
      let got := (((s.queue q j.queue).flight.find? (fun r => r.tag == tag)).map QReq.got).getD 0
      let left := rpi - 1 - got
      let s := s.modQueue q j.queue (fun x => { x with
        back := if a.rows.length ≤ 1 then others else { a with rows := a.rows.drop 1 } :: others
        flight := if left = 0 then x.flight.filter (fun r => r.tag != tag)
          else x.flight.map (fun r => if r.tag = tag then { r with got := got + 1 } else r) })
      let row := match a.rows with
        | w :: _ => w.row
        | [] => none
      let s := s.bump Fld.cluSideStatSideRows q 0
      let s := s.modJob q j.id (fun j => { j with
        left := if left = 0 then j.left.filter (fun t => t.1 != tag) else j.left
        rows := (match row with
          | some r => Map.put j.rows (4 * i + got) r
          | none => j.rows)
        fault := j.fault || row.isNone })
      if row.isNone then s.failItems j.fold j.core 0x10 else s

def execSideRowFetched (t q : Nat) (s : State) : Host.Outcome State Fault Refusal :=
  onUnit (validCluster q) ((s.at t).takeSideRow q)

/-! ### The term rows -/

/-- The weight of output `o` in the shadow rows of element `i`. -/
def shadowWeight (j : SideJob) (i o : Nat) : Int :=
  let byte := 256 * (o / 512) + o % 512 / 2
  toSigned 4 (rowByte (Map.get 0 j.rows (4 * i + byte / 512)) (byte % 512) / 16 ^ (o % 2) % 16)

/-- The smallest e8 with 127.5·2^e8 not below a magnitude (R244). -/
def scale8 (z : Nat) : Int :=
  let v := (f32 z).dy
  if v.m = 0 then -126
  else
    let top := (log2 v.m.natAbs : Int) + v.e
    let fits := fun (e : Int) => (⟨2 * v.m.natAbs, v.e⟩ : Dy).le ⟨255, e⟩
    if fits (top - 7) then top - 7 else if fits (top - 6) then top - 6 else top - 5

/-- T of one output: exact, rounded once to FP32 (R243, R244). -/
def SideJob.term (j : SideJob) (o : Nat) : Nat :=
  match j.mode with
  | .digital =>
    let e8 := scale8 (maxOf (j.elems.map (fun i => f32Abs (j.z.getD i 0))))
    let sum := (j.elems.map (fun i => quantise e8 (j.z.getD i 0) * shadowWeight j i o)).foldl (· + ·) 0
    toF32 (.ofDy ⟨sum, e8⟩)
  | _ => toF32 (.ofDy (Dy.sum (j.elems.map (fun i =>
      (⟨(f32 (j.z.getD i 0)).dy.m * shadowWeight j i o, (f32 (j.z.getD i 0)).dy.e⟩ : Dy)))))

def termRow (j : SideJob) (r : Nat) : Row :=
  if j.fault then 0 else rowOfElems 4 ((List.range 128).map (fun m => j.term (512 * (r / 4) + 128 * (r % 4) + m)))

/-! ### The header row (Table 06-4) -/

def bitsOf (l : List Bool) : Nat := l.foldr (fun b acc => (if b then 1 else 0) + 2 * acc) 0

/-- The header of a vector whose result stands. -/
def sideHead (z : List Nat) (statics served : List Nat) (v : ArrVec) (replaced : Bool) : Row :=
  let still := (List.range 64).flatMap (fun i =>
    match statics[i]? with
    | some x => leBytes 2 (bf16.write false (f32 (z.getD x 0)))
    | none => [0, 0])
  let counts := (List.range 8).map (fun p => if replaced then 0 else served.countP (fun i => i / 1024 == p))
  let flags := bitsOf [v.clipped, v.redo || v.normRedo, v.normFlag, v.normRedo, v.normFail, v.nonfinite,
    v.notReady || v.badRow, v.allZero]
  rowOfBytes (still ++ counts ++ [ofSigned 8 v.e, flags, 0, 0] ++ leBytes 4 v.normN)

/-- The header of a job whose vector drove nothing for a fault: flag [6] alone. -/
def faultHead : Row := rowOfBytes (List.replicate 137 0 ++ [0x40])

/-- The vector's result is ready, or its REDO-DIGITAL decision is made: the header stands. -/
def State.decideJob (s : State) (q : Nat) (v : ArrVec) : State :=
  s.modJob q v.id (fun j =>
    if j.decided then j else { j with
      decided := true
      head := if v.notReady ∨ v.badRow then faultHead
        else sideHead j.z (s.statics q v.entry) j.elems v (j.mode != .strays) })

/-! ### Delivery (R245 to R248) -/

/-- Sets the fault flag of a header. -/
def withFault (fault : Bool) (h : Row) : Row := if fault then h ||| (0x40 <<< (8 * 137)) else h

/-- The tick at which the side reserve of a job has passed. -/
def State.jobDue (s : State) (q : Nat) (j : SideJob) : Nat :=
  j.accepted + rowBytes (s.numRow q j.entry) 266 2 * s.planeTicks

/-- The conditions of R245, and that the job's turn on its queue has come (R246). -/
def State.mayDeliver (s : State) (q : Nat) (j : SideJob) : Bool :=
  let x := s.queue q j.queue
  j.started && j.left.isEmpty && j.decided && x.oldestRead.any (fun r => r.tag == j.id) &&
  decide (deliveryRows (s.depth q j.entry) ≤ x.inRoom) && (!s.foldExact j.fold || decide (s.jobDue q j ≤ s.now))

/-- The oldest job of the cluster that may delivers its rows. What a faulted core had outstanding is discarded (R86). -/
def State.deliverJob (s : State) (q : Nat) : State :=
  match takeFirst (s.mayDeliver q) (s.cluster q).jobs with
  | none => s
  | some (j, rest) =>
      let n := deliveryRows (s.depth q j.entry)
      let due := s.jobDue q j
      let rows := withFault j.fault j.head :: (List.range (n - 1)).map (termRow j)
      let s := s.modCluster q (fun c => { c with jobs := rest })
      let s := s.modQueue q j.queue (fun x => { x with
        flight := x.flight.filter (fun r => r.tag != j.id)
        inb := if (s.core j.core).faulted then x.inb else x.inb ++ rows.map (fun r => ⟨some r⟩) })
      let s := if s.foldExact j.fold ∧ due < s.now then s.bump Fld.cluSideStatLateCount q 0 else s
      s.wakeRows q j.queue

def execSideDelivery (t q : Nat) (s : State) : Host.Outcome State Fault Refusal :=
  onUnit (validCluster q) ((s.at t).deliverJob q)

end Sys2Proof.Machine
end

