-- ==== Sys2Proof/Machine/Array.lean ====
section
/-! DEFINITION. The course of a vector through its array group: acceptance, rotation, planes, accumulation, result
(R116 to R122, R183 to R204, R234 to R240, R250 to R254, R626). -/

namespace Sys2Proof.Machine

def State.modVec (s : State) (q g : Nat) (p : ArrVec → Bool) (f : ArrVec → ArrVec) : State :=
  s.modGroup q g (fun x => { x with vecs := modFirst p f x.vecs })

def State.vecs (s : State) (q g : Nat) : List ArrVec := ((s.cluster q).group g).vecs

def State.splitBudget (s : State) (q e : Nat) : Nat := s.fld Fld.cluArrLayerCfgSplitBudget q e

/-- R187: the plane window of a vector, in plane periods. -/
def State.window (s : State) (q : Nat) (v : ArrVec) : Nat :=
  if s.foldExact v.fold then 4 + Nat.max (s.splitBudget q v.entry) v.extra else v.nPlanes + v.extra

/-- R188: the tick at which a vector's result is ready. -/
def State.readyTick (s : State) (q : Nat) (v : ArrVec) : Nat := v.accepted + (2 + s.window q v) * s.planeTicks

/-- R189: the first tick at which the group may accept again. -/
def State.nextAccept (s : State) (q : Nat) (v : ArrVec) : Nat :=
  v.accepted + Nat.max 4 (s.window q v) * s.planeTicks

/-- R116: an acceptance that has come about before tick `x` is moved back to it, with all that follows from it. -/
def ArrVec.moveBack (v : ArrVec) (x : Nat) : ArrVec :=
  if (v.stage = .rotating ∨ v.stage = .planes ∨ v.stage = .accumulating) ∧ v.accepted < x then
    { v with accepted := x, planeT := v.planeT + (x - v.accepted), ready := v.ready + (x - v.accepted) }
  else v

/-- The first vector that a test picks is replaced; the acceptances that follow it are moved back to tick `x`. -/
def setFirst (p : ArrVec → Bool) (v : ArrVec) (x : Nat) : List ArrVec → List ArrVec
  | [] => []
  | y :: l => if p y then v :: l.map (fun z => z.moveBack x) else y :: setFirst p v x l

/-- A vector's fields are updated, its window with them. R116, R189, R200: the next acceptance lies after every extra period of
this vector. DEDUCED (log 112): a re-run that is found in the last planes moves back an acceptance that has come about; what the
rotation unit has read stands. -/
def State.setVec (s : State) (q g : Nat) (p : ArrVec → Bool) (v : ArrVec) : State :=
  let next := s.nextAccept q v
  s.modGroup q g (fun x => { x with vecs := setFirst p v next x.vecs, next := Nat.max x.next next })

/-! ### Acceptance (R116, R122, R129, R183, R190) -/

/-- R183: why a group is not ready. -/
def State.groupNotReady (s : State) (q g : Nat) (v : ArrVec) : Bool :=
  s.fld Fld.cluArrLayerCfgValid q v.entry == 0 || s.fld Fld.cluArrLayerCfgFold q v.entry != v.fold ||
  (List.range 8).any (fun i => s.inMask q v.entry i &&
    !(s.fld Fld.cluArrStateState q (s.arrayOf q g i) == 2 || s.fld Fld.cluArrStateState q (s.arrayOf q g i) == 3))

/-- R190: the busy time of a vector. -/
def State.vecBusy (s : State) (v : ArrVec) (q : Nat) : Nat :=
  (if s.foldExact v.fold then 5 + s.splitBudget q v.entry else 5) * s.planeTicks

def onBoundary (s : State) (f : Nat) : Bool := s.swathTick f % s.planeTicks == 0

/-- The vector is accepted on this boundary. -/
def State.acceptNow (s : State) (q g : Nat) (v : ArrVec) : State :=
  let first := fun (x : ArrVec) => x.stage == .issued
  let bad := s.groupNotReady q g v
  let id := s.nextTag
  let s := { s with nextTag := s.nextTag + 1 }
  let n := 4 * s.depth q v.entry
  let v := { v with id := id, accepted := s.now, notReady := bad, left := if bad then 0 else n,
                    stage := if bad then .accumulating else .rotating }
  let v := { v with ready := s.readyTick q v }
  let s := s.setVec q g first v
  let s := s.openJob q ⟨id, g, v.entry, v.core, v.fold, s.now, s.sideQueue q v.entry, .strays, bad, [], 0, [], [], [],
    false, false, 0⟩
  if bad then
    (s.report (srcAgent q (some v.fold)) 0x4001 g v.entry).failItems v.fold v.core 0x10
  else
    (List.range n).foldl (fun s i => s.present q
      ⟨.rotation g, v.row0 + i, s.bankEdge v.fold s.now + 3 * i, .toGroup i, v.fold, v.core, false⟩) s

/-- R129: hardware asks leave for the group's oldest issued vector. -/
def State.askForVec (s : State) (q g : Nat) (v : ArrVec) : State :=
  let s' := s.hardwareLeave v.core clsArray false ⟨s.vecBusy v q, (s.fold v.fold).tick0, s.planeTicks, 0⟩
  s'.modVec q g (fun x => x.stage == .issued) (fun x => { x with grant := some s.nextTag, asks := false })

/-- A group accepts its oldest issued vector, once leave covers it. R125: one that found all 16 grants held at its boundary asks
as soon as a place falls free. -/
def State.acceptVec (s : State) (q g : Nat) : State :=
  match (s.vecs q g).find? (fun v => v.stage == .issued) with
  | none => s
  | some v =>
    if v.asks ∧ s.held q < 16 ∧ ¬ onBoundary s v.fold then s.askForVec q g v
    else if ¬ onBoundary s v.fold ∨ s.now < v.issued + 36 ∨ s.now < ((s.cluster q).group g).next then s
    else match v.grant with
      | some id =>
        if s.unbegun (q / 24) id then s
        else s.acceptNow q g v
      | none =>
        if s.covered v.core clsArray s.now (s.now + s.vecBusy v q) then s.acceptNow q g v
        else if 16 ≤ s.held q then s.modVec q g (fun x => x.stage == .issued) (fun x => { x with asks := true })
        else s.askForVec q g v

def validGroup (q g : Nat) : Bool := validCluster q && decide (g < 4)

def execArrayAccept (t q g : Nat) (s : State) : Host.Outcome State Fault Refusal :=
  onUnit (validGroup q g) ((s.at t).acceptVec q g)

/-! ### The end of the rotation period -/

/-- R119, R200: in exact mode, extra periods beyond the budget are reported once. -/
def State.splitOverrun (s : State) (q g : Nat) (v : ArrVec) : State × ArrVec :=
  if s.foldExact v.fold ∧ s.splitBudget q v.entry < v.extra ∧ ¬ v.overrun then
    ((s.bump Fld.cluArrStatOverrunCount q g).report (srcAgent q (some v.fold)) 0x5007 g v.extra,
      { v with overrun := true })
  else (s, v)

/-- The input elements that were read, as BF16 codes. -/
def ArrVec.elements (v : ArrVec) (d : Nat) : List Nat :=
  (List.range (4 * d)).flatMap (fun i => rowHalves (Map.get 0 v.input i) 0 256)

/-- The planes of a vector that drives `driven`. -/
def State.planesOf (s : State) (q : Nat) (v : ArrVec) (driven : List Int) : List (List SubPlane × Nat) :=
  let d := s.depth q v.entry
  let cap := effectiveCap (s.fld Fld.cluArrLayerCfgGain q v.entry) (s.fld Fld.cluArrLayerCfgRangeCap q v.entry)
  (List.range 4).map (fun p => subPlanes (s.foldExact v.fold) cap p (s.positionsOf q v.entry) driven d)

/-- The vector enters its planes. -/
def State.enterPlanes (s : State) (q g : Nat) (v : ArrVec) : State :=
  let (s, v) := s.splitOverrun q g v
  let v := { v with stage := if v.subs.isEmpty then .accumulating else .planes }
  s.setVec q g (fun x => x.stage == .rotating) { v with ready := s.readyTick q v }

/-- A vector that drives nothing keeps the timing of one whose planes are all skipped. -/
def ArrVec.undriven (v : ArrVec) : ArrVec := { v with driven := [], subs := [], extra := 0, nPlanes := 0, splits := 0 }

/-- Every input row has been read: the rotated vector, its strays and its planes are known. -/
def State.rotated (s : State) (q g : Nat) (v : ArrVec) (planeT late : Nat) : State :=
  let src := srcAgent q (some v.fold)
  let d := s.depth q v.entry
  if v.badRow then
    (s.modJob q v.id (fun j => { j with started := true })).enterPlanes q g v.undriven
  else
    let statics := s.statics q v.entry
    let r := rotate (s.reg .cluArrLayerSeed q v.entry) d (rowByte (s.numRow q v.entry) 265) statics (v.elements d)
    if r.nonfinite then
      let s := (s.bump Fld.cluNumStatNonfiniteVectors q 0).report src 0x4004 g v.entry
      let s := (s.failItems v.fold v.core 0x14).modJob q v.id (fun j => { j with started := true })
      s.enterPlanes q g { v.undriven with nonfinite := true }
    else
      let many := (List.range d).any (fun p => 16 < r.strays.countP (fun i => i / 1024 == p))
      let redo := many && s.fld Fld.cluArrLayerNumStrayPolicy q v.entry == 1
      let clipped := many && !redo
      let n := (List.range (1024 * d)).filter (fun i => !statics.contains i)
      let s := if r.strays.isEmpty then s else s.bump Fld.cluNumStatStrayVectors q 0
      let s := if clipped then (s.bump Fld.cluNumStatClippedVectors q 0).failItems v.fold v.core 0x02 else s
      let s := if redo then s.bump Fld.cluNumStatRedoVectors q 0 else s
      let s := if redo then s.startJob q v.id .redo r.z r.e n else s.startJob q v.id .strays r.z r.e r.served
      let v := { v with e := r.e, strays := r.strays.length, clipped := clipped, redo := redo,
                        allZero := n.all (fun i => r.q.getD i 0 == 0) }
      if redo then s.enterPlanes q g { v.undriven with strays := r.strays.length }
      else
        let driven := drivenOf statics r.served r.q
        let ps := s.planesOf q v driven
        let s := s.bumpBy Fld.cluArrStatSplitCount q g (ps.countP (fun p => p.2 != 0))
        s.enterPlanes q g { v with
          driven := driven
          subs := ps.flatMap Prod.fst
          splits := ps.countP (fun p => p.2 != 0)
          extra := (ps.map Prod.snd).foldl (· + ·) 0 + late
          nPlanes := ps.countP (fun p => p.1.any SubPlane.drive)
          planeT := planeT }

/-- R195, R201: the rotation period is over and every row has been read. The planes begin at the first boundary at least
12 ticks after the last read completes. -/
def State.endRotation (s : State) (q g : Nat) : State :=
  match (s.vecs q g).find? (fun v => v.stage == .rotating) with
  | none => s
  | some v =>
    let t := s.planeTicks
    if s.now < v.accepted + t ∨ v.left ≠ 0 then s
    else
      let late := (v.lastRead + 12 - (v.accepted + t) + (t - 1)) / t
      s.rotated q g v (v.accepted + t + late * t) late

def execArrayRotationEnd (t q g : Nat) (s : State) : Host.Outcome State Fault Refusal :=
  onUnit (validGroup q g) ((s.at t).endRotation q g)

/-! ### One plane or sub-plane (R185, R191, R197 to R200) -/

/-- The codes that the converters of array position `i` give; none where the array is masked off. -/
def State.codes (s : State) (q g : Nat) (v : ArrVec) (p : SubPlane) (i : Nat) : List Int :=
  if ¬ s.inMask q v.entry i then []
  else
    let a := s.arrayOf q g i
    let arr := Map.get Arr.reset (s.cluster q).arrays a
    let rows := activeRows p.plane (i % s.depth q v.entry) p.lo p.hi v.driven
    (List.range 512).map (fun c => convert (s.fld Fld.cluArrLayerCfgGain q v.entry) (colSum arr.cells rows c)
      (Map.get 0 arr.words.offset c) (Config.analogNoise s.fresh (32 * q + a) c))

def saturated (c : Int) : Bool := c == -128 || c == 127

/-- The first saturated column among the arrays, as (array position, column): the lowest position, then the lowest column.
DESIGN CHOICE (log 114): the manual does not say which converter the one record of R198 names. -/
def firstSaturated (codes : List (List Int)) : Option (Nat × Nat) :=
  ((codes.zipIdx).flatMap (fun a => (a.1.zipIdx.filter (fun c => saturated c.1)).map (fun c => (a.2, c.2)))).head?

/-- Adds the counted conversions: 16·code − o, weighted by the plane. -/
def State.addCodes (s : State) (q g : Nat) (v : ArrVec) (p : SubPlane) (codes : List (List Int)) : List Int :=
  let old := if v.raw.isEmpty then List.replicate 4096 (0 : Int) else v.raw
  let now := codes.zipIdx.flatMap (fun a =>
    if a.1.isEmpty then List.replicate 512 (0 : Int)
    else a.1.zipIdx.map (fun c =>
      planeWeight p.plane * (16 * c.1 -
        Map.get 0 (Map.get Arr.reset (s.cluster q).arrays (s.arrayOf q g a.2)).words.offset c.2)))
  List.zipWith (· + ·) old now

/-- R197: the two halves of a saturated conversion. DESIGN CHOICE (log 113): a half without an active row is driven and
converted as the other. -/
def SubPlane.halves (p : SubPlane) : List SubPlane :=
  let mid := (p.lo + p.hi) / 2
  [{ p with hi := mid, half := true }, { p with lo := mid, half := true }]

/-- A sub-plane's period is over. The two periods of a re-run move the group's next acceptance back (`State.setVec`). -/
def State.planeDone (s : State) (q g : Nat) (v : ArrVec) (p : SubPlane) (rest : List SubPlane) : State :=
  let here := fun (x : ArrVec) => x.id == v.id
  let v := { v with planeT := v.planeT + s.planeTicks }
  let finish := fun (s : State) (v : ArrVec) =>
    let v := { v with stage := if v.subs.isEmpty then .accumulating else .planes }
    s.setVec q g here { v with ready := s.readyTick q v }
  if ¬ p.drive then finish s { v with subs := rest }
  else
    let codes := (List.range 8).map (s.codes q g v p)
    let s := s.drew
    match firstSaturated codes, p.half with
    | some _, false =>
      let s := s.bump Fld.cluArrStatRerunCount q g
      let (s, v) := s.splitOverrun q g { v with extra := v.extra + 2, reruns := v.reruns + 1 }
      finish s { v with subs := p.halves ++ rest }
    | some (i, c), true =>
      let s := (s.bump Fld.cluArrStatClampCount q g).report (srcAgent q (some v.fold)) 0x4002 (s.arrayOf q g i) c
      finish (s.failItems v.fold v.core 0x02) { v with subs := rest, raw := s.addCodes q g v p codes }
    | none, _ => finish s { v with subs := rest, raw := s.addCodes q g v p codes }

def State.arrayPlane (s : State) (q g : Nat) : State :=
  match (s.vecs q g).find? (fun v => v.stage == .planes && decide (v.planeT + s.planeTicks ≤ s.now)) with
  | none => s
  | some v => match v.subs with
    | [] => s
    | p :: rest => s.planeDone q g v p rest

def execArrayPlane (t q g : Nat) (s : State) : Host.Outcome State Fault Refusal :=
  onUnit (validGroup q g) ((s.at t).arrayPlane q g)

/-! ### Accumulation (R202 to R204, R232) and the norm watch (R250 to R253) -/

/-- geff = γ·(1 − κ·10⁻⁶·(t_swath − t_cal)), rounded to 16 bits. -/
def gainEff (w : CalWords) (c : Nat) (t : Int) : Nat :=
  let g : Int := (Map.get (16384 : Nat) w.gamma c : Nat)
  let n := g * (1000000 - w.kappa * (t - w.tCal))
  Nat.min 65535 (Int.toNat (let f := n / 1000000; let r := n % 1000000 * 2
    if 1000000 < r ∨ (r = 1000000 ∧ f % 2 = 1) then f + 1 else f))

/-- q of one column, in sixteenths of an LSB. -/
def columnValue (raw : Int) (geff : Nat) : Int := Dy.round ⟨raw * geff, -14⟩

/-- The outputs a[j] of the vector (R180, R232). -/
def State.outputs (s : State) (q g : Nat) (v : ArrVec) : List Nat :=
  let d := s.depth q v.entry
  let scale := (s.layerCopy q v.entry).scale
  let gain := s.fld Fld.cluArrLayerCfgGain q v.entry
  (List.range (512 * (8 / d))).map (fun j =>
    let y := ((List.range d).map (fun p =>
      let i := d * (j / 512) + p
      if ¬ s.inMask q v.entry i ∨ v.raw.isEmpty then 0
      else
        let w := (Map.get Arr.reset (s.cluster q).arrays (s.arrayOf q g i)).words
        columnValue (v.raw.getD (512 * i + j % 512) 0) (gainEff w (j % 512) (s.cluster q).tSwath))).foldl (· + ·) 0
    bf16.write false ((FV.ofDy ⟨y, v.e - gain⟩).mul (bf16.read false (scale.getD j 0))))

/-- n of R250: the FP32 norm of the outputs. -/
def normOf (out : List Nat) : Nat :=
  let v := out.map (bf16.read false)
  let sum := FV.sum (v.map (fun x => x.mul x))
  f32Sqrt (toF32 sum)

/-- The running mean moves a sixteenth of the way (Table 06-5). -/
def meanStep (m n : Nat) : Nat := f32Add m (f32Div (f32Sub n m) (toF32 (.ofInt 16)))

def fix88 (x : Nat) : FV := .ofDy ⟨x, -8⟩

/-- A slot judges a norm: whether it triggers, and the slot afterwards (Table 06-5). -/
def NormSlot.judge (m : NormSlot) (n : Nat) : Bool × NormSlot :=
  if m.state = 1 then
    let mean := if m.left = m.warmup then n else meanStep m.mean n
    (false, { m with mean := mean, left := m.left - 1, state := if m.left ≤ 1 then 2 else 1 })
  else if m.state = 2 then
    if FV.lt false ((fix88 m.hi).mul (f32 m.mean)) (f32 n) || FV.lt false (f32 n) ((fix88 m.lo).mul (f32 m.mean)) then
      (true, { m with triggers := Nat.min 65535 (m.triggers + 1) })
    else (false, { m with mean := meanStep m.mean n })
  else (false, m)

def State.normSlot (s : State) (q i : Nat) : NormSlot := Map.get NormSlot.reset (s.cluster q).norm i
def State.setNormSlot (s : State) (q i : Nat) (m : NormSlot) : State :=
  s.modCluster q (fun c => { c with norm := Map.set NormSlot.reset c.norm i m })

/-- R251: the vectors that the watch skips. -/
def ArrVec.unwatched (v : ArrVec) : Bool := v.nonfinite || v.redo || v.notReady || v.badRow || v.allZero

/-- R252, R253: the watch judges the vector, and the slot's policy applies. -/
def State.watch (s : State) (q : Nat) (v : ArrVec) : State × ArrVec :=
  let m := s.normSlot q v.entry
  if v.unwatched ∨ m.state = 0 then (s, v)
  else
    let n := normOf v.out
    let (hit, m') := m.judge n
    let s := s.setNormSlot q v.entry m'
    let v := { v with normN := n }
    if ¬ hit then (s, v)
    else
      let s := s.report (srcAgent q (some v.fold)) 0x4005 v.entry n
      let v := { v with normFlag := true }
      if m.policy = 2 then
        let s := s.bump Fld.cluNumStatRedoVectors q 0
        let n := (List.range (1024 * s.depth q v.entry)).filter (fun i => !(s.statics q v.entry).contains i)
        let s := match s.job q v.id with
          | some j => s.startJob q v.id .digital j.z j.e n
          | none => s
        (s, { v with normRedo := true, out := v.out.map (fun _ => 0) })
      else if m.policy = 3 then (s.failItems v.fold v.core 0x14, { v with normFail := true })
      else (s, v)

/-- The planes and their window are over: the outputs are formed and judged. A vector that drove nothing for a fault has
results of zero (R237, R626). -/
def State.accumulate (s : State) (q g : Nat) : State :=
  match (s.vecs q g).find? (fun v => v.stage == .accumulating && v.out.isEmpty && !v.notReady &&
      decide (v.accepted + (1 + s.window q v) * s.planeTicks ≤ s.now)) with
  | none => s
  | some v =>
    let zero := List.replicate (512 * (8 / s.depth q v.entry)) 0
    let out := if v.nonfinite ∨ v.badRow ∨ v.redo then zero else s.outputs q g v
    let (s, v') := s.watch q { v with out := out }
    let s := if v'.normRedo then s.decideJob q v' else s
    s.modVec q g (fun x => x.id == v.id) (fun _ => v')

def execArrayAccumulation (t q g : Nat) (s : State) : Host.Outcome State Fault Refusal :=
  onUnit (validGroup q g) ((s.at t).accumulate q g)

/-! ### The result (R120, R188) -/

/-- The result of the oldest vector whose time has come is ready; that of a faulted core is discarded (R86). -/
def State.resultReady (s : State) (q g : Nat) : State :=
  match (s.vecs q g).find? (fun v => v.stage == .accumulating && (v.notReady || !v.out.isEmpty) &&
      decide (v.ready ≤ s.now)) with
  | none => s
  | some v =>
    let s := s.decideJob q v
    if (s.core v.core).faulted then
      s.modGroup q g (fun x => { x with vecs := x.vecs.filter (fun y => y.id != v.id || y.stage == .issued) })
    else s.modVec q g (fun x => x.id == v.id) (fun x => { x with stage := .ready })

def execArrayResultReady (t q g : Nat) (s : State) : Host.Outcome State Fault Refusal :=
  onUnit (validGroup q g) ((s.at t).resultReady q g)

end Sys2Proof.Machine
end

