-- ==== Sys2Proof/Machine/Calibrate.lean ====
section
/-! DEFINITION. Writing layer entries, calibrating arrays and programming them (R177, R178, R182, R205 to R209, R214 to
R222, R241, R242, R252). -/

namespace Sys2Proof.Machine

/-! ### The layer entry table (R182, R241, R242) -/

/-- The register of a layer entry that a write names: 0 CFG, 1 SEED, 2 NUM. -/
def layerReg (r : Nat) : Reg := if r = 0 then .cluArrLayerCfg else if r = 1 then .cluArrLayerSeed else .cluArrLayerNum

/-- A written value with its reserved bits zero (R9). -/
def Reg.keep (r : Reg) (v : Word) : Word :=
  r.fields.foldl (fun (acc : Word) d => setBits acc d.lo d.width (getBits v d.lo d.width)) 0

/-- A field that may not leave a range when it changes (R619). -/
def outOfRange (old new : Word) (f : Fld) (lo hi : Nat) : Bool :=
  let o := getBits old f.lo f.width
  let n := getBits new f.lo f.width
  o != n && (decide (n < lo) || decide (hi < n))

/-- R182: whether the fold that owns an entry lets a write pass. -/
def State.layerLocked (s : State) (steward : Bool) (f : Nat) : Bool :=
  s.foldState f != 0 && !(steward && s.inGuard f)

/-- The rows of an entry, read for its copies; none when one is refused or uncorrectable. -/
def State.entryRows (s : State) (q f row n : Nat) : Option (List Row) × State :=
  if ¬ s.reachesAll f q row n then (none, s)
  else
    let (rows, s) := s.portReads q row f (coreAddr q 0) n
    if rows.all Option.isSome then (some (rows.filterMap id), s) else (none, s)

def strictlyRising : List Nat → Bool
  | a :: b :: l => decide (a < b) && strictlyRising (b :: l)
  | _ => true

/-- R242: whether a numeric row may stand behind an entry of depth `d` with `n` static rows. -/
def numericOk (r : Row) (d n : Nat) : Bool :=
  let idx := (List.range n).map (fun i => rowBytes r (4 * i) 2)
  let base := rowBytes r 256 8
  let clip := rowByte r 265
  strictlyRising idx && idx.all (fun i => decide (i < 1024 * d)) &&
  (List.range 64).all (fun i => rowByte r (3 + 4 * i) == 0) && rowBytes r 274 238 == 0 &&
  (match remoteOf (BitVec.ofNat 64 base) with
   | .stack _ _ => true
   | _ => false) &&
  decide (rowByte r 264 < 16) && decide (4 ≤ clip) && decide (clip ≤ 64) && decide (rowByte r 268 < 4) &&
  decide (1 ≤ rowByte r 269)

/-- R252: an entry written with a policy starts its slot's warm-up; with policy OFF the slot is OFF. -/
def NormSlot.configured (m : NormSlot) (policy warmup hi lo : Nat) : NormSlot :=
  { m with policy := policy, warmup := warmup, hi := hi, lo := lo,
           left := if policy = 0 then 0 else warmup, state := if policy = 0 then 0 else 1 }

/-- R241: the entry runs from copies of its rows. -/
def State.loadEntry (s : State) (q e : Nat) (num : Row) (scale : List Row) : State :=
  let s := s.modCluster q (fun c => { c with
    layers := Map.set LayerCopy.reset c.layers e ⟨num, scale.flatMap (fun r => rowHalves r 0 256)⟩ })
  s.setNormSlot q e ((s.normSlot q e).configured (rowByte num 268) (rowByte num 269) (rowBytes num 270 2)
    (rowBytes num 272 2))

/-- The write is carried out, or refused whole: the flag says which. -/
def State.writeLayer (s : State) (steward : Bool) (q e r : Nat) (v : Word) : Bool × State :=
  let reg := layerReg r
  let old := s.reg reg q e
  let v := reg.keep v
  let f := s.fld Fld.cluArrLayerCfgFold q e
  let f' := if r = 0 then getBits v Fld.cluArrLayerCfgFold.lo 8 else f
  let bad := !s.exposed q || s.layerLocked steward f || (f' != f && s.foldState f' != 0 && !(steward && s.inGuard f)) ||
    (r == 0 && (outOfRange old v Fld.cluArrLayerCfgRangeCap 0 7 || outOfRange old v Fld.cluArrLayerCfgSplitBudget 0 44)) ||
    (r == 2 && outOfRange old v Fld.cluArrLayerNumOutlierCount 0 64)
  if bad then (false, s)
  else
    let new := s.setReg reg q e v
    let sets := if r = 0 then getBits v Fld.cluArrLayerCfgValid.lo 1 == 1
      else steward && s.fld Fld.cluArrLayerCfgValid q e == 1
    if ¬ sets then (true, new)
    else
      let d := new.depth q e
      let (num, s) := s.entryRows q f' (new.fld Fld.cluArrLayerNumOutlierRow q e) 1
      let (scale, s) := s.entryRows q f' (new.fld Fld.cluArrLayerNumColscaleRow q e) (2 * (8 / d))
      match num, scale with
      | some (n :: _), some rows =>
        if numericOk n d (new.fld Fld.cluArrLayerNumOutlierCount q e) then
          (true, (s.setReg reg q e v).loadEntry q e n rows)
        else (false, s)
      | _, _ => (false, s)

def execLayerEntryWrite (t : Nat) (p : Path) (q e r : Nat) (v : Word) (s : State) : Host.Outcome State Fault Refusal :=
  let w := (s.at t).writeLayer (p == .steward) q e r v
  onUnit (validCluster q && decide (e < 256) && decide (r < 3)) (w.2.completes p ((layerReg r).addr q e) w.1)

/-! ### Arrays -/

def State.arr (s : State) (q a : Nat) : Arr := Map.get Arr.reset (s.cluster q).arrays a
def State.modArr (s : State) (q a : Nat) (f : Arr → Arr) : State :=
  s.modCluster q (fun c => { c with arrays := Map.set Arr.reset c.arrays a (f (Map.get Arr.reset c.arrays a)) })
def State.arrState (s : State) (q a : Nat) : Nat := s.fld Fld.cluArrStateState q a
def State.setArrState (s : State) (q a v : Nat) : State := s.setFld Fld.cluArrStateState q a v
def arrDrifted : Nat := 3
def arrFailed : Nat := 5
def validArray (q a : Nat) : Bool := validCluster q && decide (a < 32)

/-! ### Cells (R175 to R179, R573) -/

/-- The array's number on the wafer. -/
def arrayNo (q a : Nat) : Nat := 32 * q + a

/-- The weights of a programming row. -/
def rowWeights (w : BitVec 2048) : List Int := (List.range 512).map (fun c => toSigned 4 (w.toNat / 16 ^ c % 16))

/-- The levels of the plus and of the minus cell that store a weight (Table 05-1). -/
def pairLevels (w : Int) : Nat × Nat := (w.toNat, (-w).toNat)

/-- The programming row that gives the weights which a row holds. -/
def weightsRow (cells : Map Nat) (r : Nat) : Nat :=
  (List.range 512).foldr (fun c (acc : Nat) => ofSigned 4 (cellWeight cells r c) + 16 * acc) 0

/-- Every pair of a row holds the weight that a programming row gives it. -/
def Arr.holdsRow (x : Arr) (r : Nat) (w : BitVec 2048) : Bool :=
  (List.range 512).all (fun c => cellWeight x.cells r c == (rowWeights w).getD c 0)

/-- R179, R573: a reserved row. Rows 0 to 3 are as manufactured; rows 4 to 15 are the record store. No vector drives one. -/
def State.reservedRow (s : State) (q a r : Nat) : BitVec 2048 :=
  if r < 4 then Config.factoryRow (arrayNo q a) r
  else Config.recordRow (arrayNo q a) r ((s.cluster q).records + (if s.store.copies.any (fun c => c.contains q) then s.store.seq else 0))

/-- R574: the records of a cluster are written. -/
def State.recordCluster (s : State) (q : Nat) : State := s.modCluster q (fun c => { c with records := c.records + 1 })

/-- R220, R405, R408: the contents of an array are retired. One that has reached its endurance is RETIRED, the others FREE.
A run of calibration that it had begun ends. -/
def State.retireArray (s : State) (q a : Nat) : State :=
  if s.arrState q a = 1 ∨ s.arrState q a = 2 ∨ s.arrState q a = 3 then
    (s.setArrState q a (if s.fld Fld.cluArrWearWearCount q a < 1000000 then 0 else 4)).modArr q a (fun x => { x with
      due := none, driven := 0, driveBeat := none, fresh := false })
  else s

/-! ### Calibration (R205 to R208, R222) -/

/-- R205: whether a cause of calibration holds. For boot revalidation BOOT makes the array due. -/
def State.calibrates (s : State) (q a : Nat) (c : CalCause) : Bool :=
  let usable := s.arrState q a == 2 || s.arrState q a == 3
  match c with
  | .program => s.arrState q a == 1 && (s.arr q a).fresh
  | .boot => false
  | .interval => usable &&
      decide ((s.arr q a).lastCal + s.fld Fld.cluArrCalCtlIntervalS q 0 * s.second ≤ s.now)
  | .temperature => usable &&
      decide (8 * s.fld Fld.cluArrCalCtlTempTriggerK q 0 < ((s.cluster q).sensor - 8 * (s.arr q a).words.tCal).natAbs)

def execCalibrationDue (t q a : Nat) (c : CalCause) (s : State) : Host.Outcome State Fault Refusal :=
  let s := s.at t
  onUnit (validArray q a) (whenever (s.calibrates q a c && (s.arr q a).due.isNone)
    (fun s => s.modArr q a (fun x => { x with due := some c, driven := 0, driveBeat := none })) s)

/-- The driven periods of steps 1 to 3 of a run (Table 05-6). -/
def calPeriods : Nat := 2816

/-- The plane periods of calibration that have run in a beat. -/
def Arr.drivenIn (x : Arr) (b : Nat) : Nat :=
  match x.driveBeat with
  | some (b', n) => if b' = b then n else 0
  | none => 0

/-- R206: whether a slice of whole plane periods may run now: at most 25 periods in a guard beat. A FAILED array is never
driven (R216). -/
def State.sliceAllowed (s : State) (q a periods : Nat) : Bool :=
  match s.foldOf q with
  | some f =>
    if s.foldBusy f then s.inGuard f && decide ((s.arr q a).drivenIn s.beat + periods ≤ 25) else true
  | none => true

def execCalibrationSlice (t q a periods : Nat) (s : State) : Host.Outcome State Fault Refusal :=
  let s := s.at t
  onUnit (validArray q a) (whenever ((s.arr q a).due.isSome && decide ((s.arr q a).driven < calPeriods) &&
      s.arrState q a != 5 && s.sliceAllowed q a periods)
    (fun s => s.modArr q a (fun x => { x with
      driven := Nat.min calPeriods (x.driven + periods), driveBeat := some (s.beat, x.drivenIn s.beat + periods), driveEnd := s.now })) s)

def calWords (f : CalFit) : CalWords :=
  { gamma := Map.setList 16384 [] 0 f.gamma, offset := Map.setList 0 [] 0 f.offset, kappa := f.kappa, tCal := f.tCal }

/-- ŷ of column c for canary k (R205): the product of the canary and the stored weights, in eighths of a weight unit. -/
def State.expectedOut (s : State) (q a k c : Nat) : Int :=
  8 * ((List.range 1024).map (fun r =>
    (Config.canary (arrayNo q a) k r).toInt * cellWeight (s.arr q a).cells r c)).foldl (· + ·) 0

/-- R208: E over the 32 canaries and 512 columns, 65,536 = 1.0. How E is rounded is free (log 117). -/
def State.canaryMetric (s : State) (q a : Nat) (y : List Int) : Nat :=
  let want := (List.range 32).flatMap (fun k => (List.range 512).map (s.expectedOut q a k))
  let num := (List.zipWith (fun (a b : Int) => ((a - b) * (a - b)).toNat) (want.mapIdx (fun i _ => y.getD i 0)) want).foldl (· + ·) 0
  let den := (want.map (fun b => (b * b).toNat)).foldl (· + ·) 0
  if den = 0 then Config.metricNone s.fresh
  else
    let e := Nat.sqrt (num * 2 ^ 32 / den)
    if e * e * den = num * 2 ^ 32 then e else if Config.metricUp s.fresh then e + 1 else e

/-- R207, R208, R222: the fit is done: new words are staged and the canary metric is judged. -/
def State.fitDone (s : State) (q a : Nat) (f : CalFit) : State :=
  let x := s.arr q a
  let m := s.canaryMetric q a f.y
  let e := Nat.min 65535 m
  let s := s.drew.modArr q a (fun x => { x with
    staged := some (calWords f), due := none, driven := 0, driveBeat := none, lastCal := s.now, fresh := false })
  let s := (s.setFld Fld.cluArrStateCanaryErr q a e).recordCluster q
  if x.fresh then
    let s := s.setFld Fld.cluArrStateCanaryBase q a e
    if s.arrState q a = 1 then s.setArrState q a 2 else s
  else if s.arrState q a = 2 ∧
      s.fld Fld.cluArrStateCanaryBase q a + s.fld Fld.cluArrCalCtlDriftMargin q 0 < m then
    (s.setArrState q a 3).report (srcAgent q (s.foldOf q)) 0x4003 a e
  else s

def execCalibrationFitDone (t q a : Nat) (fit : CalFit) (s : State) : Host.Outcome State Fault Refusal :=
  let s := s.at t
  onUnit (validArray q a) (whenever ((s.arr q a).due.isSome && (s.arr q a).driven == calPeriods && s.arrState q a != 5 &&
      decide ((s.arr q a).driveEnd + 188736 * s.beatTicks / 100 ≤ s.now))
    (fun s => s.fitDone q a fit) s)

/-! ### Programming and wear (R177, R178, R214 to R220) -/

/-- What a pair is set to: the levels of its cells, whether one of them is stuck, and whether the pair holds its weight. -/
structure PairSet where
  plus  : Nat
  minus : Nat
  stuck : Bool
  ok    : Bool
deriving DecidableEq, Repr

/-- R216: a pair is set to a weight. With one cell stuck the other takes the level that gives the weight, where it lies in 0
to 7; with both stuck nothing can be set. -/
def setPair (w : Int) (plus minus : Option Nat) : PairSet :=
  let (p0, m0) := pairLevels w
  match plus, minus with
  | none, none => ⟨p0, m0, false, true⟩
  | some p, none =>
    let m := (p : Int) - w
    if 0 ≤ m ∧ m ≤ 7 then ⟨p, m.toNat, true, true⟩ else ⟨p, m0, true, false⟩
  | none, some m =>
    let p := (m : Int) + w
    if 0 ≤ p ∧ p ≤ 7 then ⟨p.toNat, m, true, true⟩ else ⟨p0, m, true, false⟩
  | some p, some m => ⟨p, m, true, decide ((p : Int) - m = w)⟩

/-- The level at which a cell of a column is stuck. -/
def stuckAt (stuck : List StuckCell) (c : Nat) (plus : Bool) : Option Nat :=
  (stuck.find? (fun k => k.col == c && k.plus == plus)).map StuckCell.level

/-- The pairs of a row as programming leaves them. -/
def rowPairs (w : BitVec 2048) (stuck : List StuckCell) : List PairSet :=
  (rowWeights w).mapIdx (fun c x => setPair x (stuckAt stuck c true) (stuckAt stuck c false))

/-- R219: one more row program. -/
def State.wearRow (s : State) (q a : Nat) : State :=
  let rem := s.fld Fld.cluArrWearRowRem q a + 1
  if rem = 1024 then (s.setFld Fld.cluArrWearRowRem q a 0).bump Fld.cluArrWearWearCount q a
  else s.setFld Fld.cluArrWearRowRem q a rem

/-- R218: the codec's leave for programming, by its lea. One grant for a cluster covers every array of it (DESIGN CHOICE,
log 115). -/
def State.codecLeave (s : State) (q : Nat) : Bool :=
  (s.grants (q / 24)).any (fun g => g.q == q && g.cls == clsArray && g.mask == 0 && g.active s.now)
def State.codecAsked (s : State) (q : Nat) : Bool :=
  (s.hub (q / 24)).arb.waiting.any (fun r => r.q == q && r.cls == clsArray && r.mask == 0) ||
  (s.grants (q / 24)).any (fun g => g.q == q && g.cls == clsArray && g.mask == 0 && decide (s.now < g.start))
/-- The phase frames of a whole array at 16.5 µs a row (R215). -/
def programFrames (s : State) : Nat := 16896 * s.beatTicks / 12

/-- The nibble 0b1000 stands in a programming row (R178). -/
def badRow (w : BitVec 2048) : Bool := (rowWeights w).any (fun x => x == -8)

/-- R214, R217: the row takes pulses: some pair lies outside the verify window, for its level or for drift. -/
def State.takesPulses (s : State) (q a row : Nat) (w : BitVec 2048) (drifted : Bool) : Bool :=
  drifted || !(s.arr q a).holdsRow row w

/-- One row is programmed (R178, R214, R216, R217, R219). -/
def State.programRow (s : State) (q a row : Nat) (w : BitVec 2048) (drifted : Bool) (stuck : List StuckCell) : State :=
  if badRow w then s.report (srcAgent q (s.foldOf q)) 0x4007 a 0
  else
    let pulsed := s.takesPulses q a row w drifted
    let s := (s.setArrState q a 1).modArr q a (fun x => { x with fresh := true, due := none, driven := 0, driveBeat := none })
    if ¬ pulsed then s
    else
      let ps := rowPairs w stuck
      let s := (s.modArr q a (fun x => { x with
        cells := Map.setList 0 x.cells (1024 * row) (ps.flatMap (fun p => [p.plus, p.minus])) })).wearRow q a
      let s := (s.bumpBy Fld.cluArrStateStuckPairs q a (ps.countP (fun p => p.stuck && p.ok))).recordCluster q
      if ps.all PairSet.ok then s else (s.setArrState q a 5).report (srcAgent q (s.foldOf q)) 0x4007 a 1

/-- An array may be programmed: it is FREE and not worn out (R220, R401), or PROGRAMMING, and the hub of its lea stands (R39). A
program that has begun goes on past the rated endurance: DESIGN CHOICE (log 116). -/
def State.mayProgram (s : State) (q a : Nat) : Bool :=
  ((s.arrState q a == 0 && decide (s.fld Fld.cluArrWearWearCount q a < 1000000)) || s.arrState q a == 1) && !(s.hub (q / 24)).dead

/-- R218: the codec asks for leave, unless it waits for it: the class's default units, for a whole array (DESIGN CHOICE,
log 115). -/
def State.askCodec (s : State) (q : Nat) : State :=
  if s.codecAsked q then s else s.askLeave clsArray q 0 (s.classDefault q clsArray) (programFrames s) 0 none

/-- R218: the codecs hold their leave for every cluster in which arrays are to be programmed. -/
def State.codecReady (s : State) (qs : List Nat) : Bool := qs.all s.codecLeave
/-- The leave that is still missing is asked for. -/
def State.askCodecs (s : State) (qs : List Nat) : State :=
  (qs.filter (fun q => !s.codecLeave q)).foldl (fun (s : State) q => s.askCodec q) s

/-- R214, R218: a row is programmed under leave; the codec asks for it first. A row that verifies at once draws no pulse and
needs none. -/
def execArrayRowProgram (t q a row : Nat) (w : BitVec 2048) (pulses : Bool) (stuck : List StuckCell) (s : State) :
    Host.Outcome State Fault Refusal :=
  let s := s.at t
  onUnit (validArray q a && decide (row < 1024) && stuck.all (fun k => decide (k.col < 512) && decide (k.level < 8)))
    (whenever (s.mayProgram q a)
      (fun s =>
        if ¬ s.takesPulses q a row w pulses ∨ s.codecLeave q then s.programRow q a row w pulses stuck
        else s.askCodec q) s)

/-- What the write-verify loop meets at a row that firmware programs. -/
def State.rowMet (s : State) (q a row : Nat) : RowOutcome :=
  let o := Config.rowOutcome s.fresh (arrayNo q a) row
  { o with stuck := o.stuck.filter (fun k => decide (k.col < 512) && decide (k.level < 8)) }

/-- Programs rows of an array from row `r` on. A FAILED array is never programmed (R216). -/
def State.programRows (s : State) (q a r : Nat) : List (BitVec 2048) → State
  | [] => s.drew
  | w :: l =>
    if s.arrState q a = 5 then s.drew
    else (s.programRow q a r w (s.rowMet q a r).drifted (s.rowMet q a r).stuck).programRows q a (r + 1) l

end Sys2Proof.Machine
end

