-- ==== Sys2Proof/Machine/Sync.lean ====
section
/-! DEFINITION. Stiles, swath waits, engine calls and records as cores issue them (R130 to R137, R318, R319). -/

namespace Sys2Proof.Machine

/-! ### STILE and SWATH.WAIT -/

/-- R85: a gated-off STILE joins nothing, and takes the time of an active one: it waits until the generation would have been
released, had it joined (`State.passStile`). DEDUCED (log 108). -/
def stileOp (o : CoreOp) : Op :=
  { cls := 0x0A, fn := 0, inA := true, inB := false, dst := none, srcs := [], legal := true, whole := true, room := true,
    idle := fun _ s =>
      if 15 < o.u ∨ ¬ s.inStile ((s.foldOf o.q).getD 0) o.u o.core then .ok s
      else .ok (s.modCore o.core (fun k => k.awaiting (.stileOff o.u (Map.get 0 k.joins o.u) s.now) true)),
    run := fun _ s =>
      let f := (s.foldOf o.q).getD 0
      if 15 < o.u then .fault causeIllegal s
      else if ¬ s.inStile f o.u o.core then .fault causeStileSet s
      else
        let gen := Map.get 0 (s.core o.core).joins o.u
        .ok ((s.modCore o.core (fun k => { k with
          wait := .stile o.u gen, joins := Map.set 0 k.joins o.u (gen + 1) })).arrive o.core) }

def swathWaitOp (o : CoreOp) : Op :=
  { cls := 0x0A, fn := 1, inA := true, inB := false, dst := some (sCode o.d), srcs := [], legal := decide (o.d < 32), whole := true,
    room := true,
    run := fun _ s => .ok (s.modCore o.core (fun k => k.awaiting (.swath o.d) false)),
    idle := fun _ s => .ok (s.modCore o.core (fun k => k.awaiting (.swath o.d) true)) }

/-! ### ENG.CALL and ENG.WAIT (R133 to R135, Table 09-1) -/

/-- The functions that cores may call. -/
def engineFn (e fn : Nat) : Bool :=
  match e with
  | 0 => fn == 0
  | 1 => decide (fn < 2)
  | 2 => decide (fn < 2)
  | 3 => decide (fn < 2)
  | 4 => decide (fn < 2)
  | 5 => decide (fn < 3)
  | 6 => decide (fn < 3)
  | 8 => decide (fn < 2)
  | _ => false

def Core.openCalls (k : Core) : Nat := k.calls.countP (fun c => c.2.status.isNone)

def engCallRun (o : CoreOp) (f : Files) (s : State) : Done :=
  let a := f.s o.a
  let fold := (s.foldOf o.q).getD 0
  let e := getBits a 0 8
  let fn := getBits a 8 8
  let own := getBits a 22 1 = 1
  let n := if own then o.q / 24 else getBits a 16 6
  let row := getBits (f.s o.b) 0 16
  if getBits a 23 41 ≠ 0 ∨ (own ∧ getBits a 16 6 ≠ 0) then .fault causeIllegal s
  else if ¬ engineFn e fn ∨ (e = 8 ∧ ¬ own) ∨ (n ≠ o.q / 24 ∧ ¬ (s.foldLeas fold).contains n) then
    .fault causeEngine s
  else if ¬ s.reaches fold o.q row then .fault causePartition s
  else if 4 ≤ (s.core o.core).openCalls then .stall s
  else
    let num := (s.core o.core).nextCall
    let c : EngCall := { hub := n, core := o.core, number := num, engine := e, fn := fn, at0 := row, fold := fold, block := 0,
                         admitted := 0, reply := none, server := e, steward := false, early := false, asked := [] }
    let s := s.modHub n (fun h => { h with arriving := h.arriving ++ [c] })
    let s := s.modCore o.core (fun k => { k with nextCall := num + 1, calls := Map.put k.calls num ⟨n, e, none⟩ })
    .ok (s.putS o.core o.d (Config.callBase + BitVec.ofNat 64 num) 1)

def engCallOp (o : CoreOp) : Op :=
  { cls := 0x0B, fn := 0, inA := false, inB := true, dst := some (sCode o.d), srcs := [sCode o.a, sCode o.b],
    legal := decide (o.a < 32) && decide (o.b < 32) && decide (o.d < 32), whole := true, room := true,
    run := engCallRun o,
    idle := fun _ s => if 4 ≤ (s.core o.core).openCalls then .stall s
      else .ok (s.readyNoSooner o.core (sCode o.d) (s.now + 1)) }

/-- DESIGN CHOICE (log 126): sD[63:16], which R135 does not name, is written with zero. -/
def engWaitOp (o : CoreOp) : Op :=
  { cls := 0x0B, fn := 1, inA := true, inB := false, dst := some (sCode o.d), srcs := [sCode o.a],
    legal := decide (o.a < 32) && decide (o.d < 32), whole := true, room := true,
    run := fun f s =>
      let num := (f.s o.a - Config.callBase).toNat
      match Map.find (s.core o.core).calls num with
      | none => .fault causeIllegal s
      | some c => match c.status with
        | some st => .ok (s.putS o.core o.d (BitVec.ofNat 64 st) 1)
        | none => .ok (s.modCore o.core (fun k => k.awaiting (.engine num o.d) false)),
    idle := fun f s =>
      let num := (f.s o.a - Config.callBase).toNat
      waitIdle o (if (Map.find (s.core o.core).calls num).any (fun c => c.status.isNone) then some (.engine num o.d)
        else none) s }

/-! ### REC.EMIT (R136, R137) -/

def recEmitOp (o : CoreOp) (s : State) : Op :=
  { cls := 0x0C, fn := 0, inA := true, inB := false, dst := none, srcs := [sCode o.a, sCode o.b],
    legal := decide (o.a < 32) && decide (o.b < 32), whole := true,
    room := decide ((s.core o.core).records.length < 4),
    run := fun f s =>
      let fold := s.foldOf o.q
      let r : Rec := ⟨0x7F00 + o.u % 256, 0, o.core, fold, s.swathOf fold, false, s.ns, (f.s o.a).toNat,
        (f.s o.b).toNat % 2 ^ 48⟩
      .ok (s.modCore o.core (fun k => { k with records := k.records ++ [r] })) }

/-- The control network takes a core's oldest record, one every 64 ticks; it is logged under R559. -/
def State.sendRecord (s : State) (c : Nat) : State :=
  let k := s.core c
  match k.records with
  | [] => s
  | r :: rest =>
    if k.sentAt.any (fun x => decide (s.now < x + 64)) then s
    else (s.modCore c (fun k => { k with records := rest, sentAt := some s.now })).logRecord (srcCore c r.fold) r

def execRecordSend (t core : Nat) (s : State) : Host.Outcome State Fault Refusal :=
  onUnit (validCore core) ((s.at t).sendRecord core)

end Sys2Proof.Machine
end

