-- ==== Sys2Proof/Machine/Time.lean ====
section
/-! DEFINITION. External time (R45 to R52, R610): PPS edges, PTP Sync messages, lock and holdover.
Slewing changes how long a tick lasts and never how many ticks a beat has (R46), so it does not show in ticks. -/

namespace Sys2Proof.Machine

def lockFree : Nat := 0
def lockAcquiring : Nat := 1
def lockLocked : Nat := 2
def lockHoldover : Nat := 3

def State.timeSrc (s : State) : Nat := s.fld Fld.timSrcCtlSrc 0 0
def State.lock (s : State) : Nat := s.fld Fld.timStatusLockState 0 0
def State.setLock (s : State) (v : Nat) : State := s.setFld Fld.timStatusLockState 0 0 v

/-- R50: t is stepped to the source. -/
def State.stepTime (s : State) (ns : Nat) : State :=
  { s with time := { s.time with atTick := s.now, atNs := ns } }

/-- A measured offset as TIM_STATUS shows it: 32 bits, signed, held at its bounds. -/
def offsetWord (o : Int) : Nat := ofSigned 32 (max (-2147483648) (min 2147483647 o))

/-- R49: an offset measured now is judged. -/
def State.judgeOffset (s : State) (o : Int) : State :=
  let s := s.setFld Fld.timStatusOffsetNs 0 0 (offsetWord o)
  let s := { s with time := { s.time with
    goodSince := if o.natAbs ≤ 100 then some (s.time.goodSince.getD s.now) else none } }
  if 1000 < o.natAbs ∧ (s.lock = lockLocked ∨ ¬ s.time.mayStep) then s.setLock lockHoldover
  else if s.lock = lockFree then s.setLock lockAcquiring
  else s

/-- R48: the TAI second of this edge is the one written, or one more than the last. -/
def State.ppsEdge (s : State) : State :=
  let s := if s.time.fresh then s
    else s.setReg .timPpsTai 0 0 (s.reg .timPpsTai 0 0 + 1)
  let true_ := (s.reg .timPpsTai 0 0).toNat * 1000000000
  let s := s.judgeOffset ((s.ns : Int) - (true_ : Int))
  let s := { s with time := { s.time with fresh := false, lastEdge := some s.now } }
  if s.time.mayStep then s.stepTime true_ else s

def execPpsEdge (t : Nat) (s : State) : Host.Outcome State Fault Refusal :=
  let s := s.at t
  .next (whenever (s.timeSrc == 0) State.ppsEdge s)

/-- A PTP Sync message and its follow-up, on the Ethernet link that TIM_SRC_CTL names (R480), give the offset of t from the PTP
timescale. -/
def State.ptpSync (s : State) (o : Int) : State :=
  let s := s.judgeOffset o
  let s := { s with time := { s.time with lastSync := some s.now } }
  if s.time.mayStep then s.stepTime ((s.ns : Int) - o).toNat else s

def execPtpSync (t : Nat) (offset : Int) (s : State) : Host.Outcome State Fault Refusal :=
  let s := s.at t
  .next (whenever (s.timeSrc == 1 && s.ethernetUp (s.fld Fld.timSrcCtlPtpLink 0 0)) (fun s => s.ptpSync offset) s)

/-- R49: whether the source has gone missing. -/
def State.sourceMissing (s : State) : Bool :=
  if s.timeSrc = 0 then s.time.lastEdge.any (fun x => decide (x + 2 * s.second < s.now))
  else if s.timeSrc = 1 then s.time.lastSync.any (fun x => decide (x + 3 * s.second ≤ s.now))
  else false

/-- R49: the offset has stayed within its bound for 8 s, measured throughout. -/
def State.mayLock (s : State) : Bool :=
  s.timeSrc != 2 && s.lock != lockLocked && !s.sourceMissing &&
    s.time.goodSince.any (fun x => decide (x + 8 * s.second ≤ s.now))

def execTimeLocked (t : Nat) (s : State) : Host.Outcome State Fault Refusal :=
  let s := s.at t
  .next (whenever s.mayLock (fun s => s.setLock lockLocked) s)

def State.toHoldover (s : State) : State :=
  { s.setLock lockHoldover with time := { s.time with goodSince := none } }

def execHoldover (t : Nat) (s : State) : Host.Outcome State Fault Refusal :=
  let s := s.at t
  .next (whenever (s.sourceMissing && s.lock != lockFree) State.toHoldover s)

/-- R610: REF25M± has stopped for 1 µs: the clock tree moves to the on-module oscillator. -/
def execReferenceClockLoss (t : Nat) (s : State) : Host.Outcome State Fault Refusal :=
  let s := s.at t
  .next (whenever (s.timeSrc == 0 && !s.time.onBoard)
    (fun s => State.toHoldover { s with time := { s.time with onBoard := true } }) s)

end Sys2Proof.Machine
end

