-- ==== Sys2Proof/Machine/Token.lean ====
section
/-! DEFINITION. The tokeniser's work on bytes and tokens (R332 to R335). -/

namespace Sys2Proof.Machine

/-! ### Byte-pair encoding: the merge of lowest rank first, and of its occurrences the leftmost (R333) -/

end Sys2Proof.Machine

namespace Sys2Proof

open Machine

/-- The token of a single byte. -/
def TokTable.ofByte (t : TokTable) (b : BitVec 8) : Nat := t.tokens.idxOf [b]

end Sys2Proof

namespace Sys2Proof.Machine

/-- The place and the result of the leftmost occurrence of a merge. -/
def leftmost (m : Nat × Nat × Nat) : Nat → List Nat → Option Nat
  | i, a :: b :: l => if a = m.1 ∧ b = m.2.1 then some i else leftmost m (i + 1) (b :: l)
  | _, _ => none

/-- Applies the first merge, in rank order, that occurs at all. -/
def mergeOnce (l : List Nat) : List (Nat × Nat × Nat) → Option (List Nat)
  | [] => none
  | m :: rest => match leftmost m 0 l with
    | some i => some (l.take i ++ m.2.2 :: l.drop (i + 2))
    | none => mergeOnce l rest

/-- Merges until no merge applies. Each merge shortens the list. -/
def mergeAll (merges : List (Nat × Nat × Nat)) : Nat → List Nat → List Nat
  | 0, l => l
  | n + 1, l => match mergeOnce l merges with
    | some l' => mergeAll merges n l'
    | none => l

/-! ### Unigram encoding: the segmentation of greatest summed log-probability, and on ties the one whose first differing
token is longer (R333). Sums are exact. -/

/-- A segmentation of what follows a place: its sum and its tokens. -/
structure Segs where
  score  : Dy
  tokens : List Nat

/-- Whether a segmentation that begins with a token of `la` bytes is to be preferred to one of `lb` bytes. -/
def betterSeg (a b : Segs) (la lb : Nat) : Bool := b.score.lt a.score || (!a.score.lt b.score && decide (lb < la))

/-- The best segmentation that begins with some token of the table; `later` holds the best ones from the next places on. -/
def bestSeg (bytes : List (BitVec 8)) (later : List Segs) : List (Nat × List (BitVec 8) × Nat) → Option (Segs × Nat)
  | [] => none
  | (i, tok, lp) :: rest =>
    let here : Option (Segs × Nat) :=
      if tok ≠ [] ∧ bytes.take tok.length = tok then
        (later[tok.length - 1]?).map (fun z => (⟨(f32 lp).dy.add z.score, i :: z.tokens⟩, tok.length))
      else none
    match here, bestSeg bytes later rest with
    | some a, some b => if betterSeg a.1 b.1 a.2 b.2 then some a else some b
    | some a, none => some a
    | none, r => r

/-- The best segmentations from each place on, first place first; the last is that of the empty rest. -/
def segsFrom (tab : List (Nat × List (BitVec 8) × Nat)) : List (BitVec 8) → List Segs
  | [] => [⟨⟨0, 0⟩, []⟩]
  | b :: l =>
    let later := segsFrom tab l
    (match bestSeg (b :: l) later tab with
      | some (x, _) => x
      | none => ⟨⟨0, 0⟩, []⟩) :: later

end Sys2Proof.Machine

namespace Sys2Proof

open Machine

/-- R333: the tokens of some bytes. -/
def TokTable.encode (t : TokTable) (bytes : List (BitVec 8)) : List Nat :=
  if t.kind = 0 then mergeAll t.merges bytes.length (bytes.map t.ofByte)
  else match segsFrom (((List.range t.tokens.length).zip (t.tokens.zip t.logp)).map id) bytes with
    | x :: _ => x.tokens
    | [] => []

end Sys2Proof

namespace Sys2Proof.Machine

/-! ### Decoding (R334) -/

/-- How many bytes a UTF-8 sequence has that begins with this byte; 0 where none begins. -/
def utf8Len (b : Nat) : Nat :=
  if 0xC2 ≤ b ∧ b ≤ 0xDF then 2 else if 0xE0 ≤ b ∧ b ≤ 0xEF then 3 else if 0xF0 ≤ b ∧ b ≤ 0xF4 then 4 else 0

/-- Whether a second byte may follow a leading byte. -/
def utf8Second (b c : Nat) : Bool :=
  decide (0x80 ≤ c) && decide (c ≤ 0xBF) && (b != 0xE0 || decide (0xA0 ≤ c)) && (b != 0xED || decide (c ≤ 0x9F)) &&
  (b != 0xF0 || decide (0x90 ≤ c)) && (b != 0xF4 || decide (c ≤ 0x8F))

/-- Whether bytes are the beginning of a UTF-8 sequence that is not finished. -/
def utf8Open : List Nat → Bool
  | [] => false
  | [b] => decide (1 < utf8Len b)
  | b :: c :: l => decide (l.length + 2 < utf8Len b) && utf8Second b c && l.all (fun x => decide (0x80 ≤ x ∧ x ≤ 0xBF))

/-- How many bytes at the end lie inside an unfinished sequence: 0 to 3. -/
def openTail (bytes : List (BitVec 8)) : Nat :=
  let l := bytes.map BitVec.toNat
  ([3, 2, 1].find? (fun n => decide (n ≤ l.length) && utf8Open (l.drop (l.length - n)))).getD 0

end Sys2Proof.Machine

namespace Sys2Proof

open Machine

/-- The bytes that a DECODE writes and those that it carries to the next. -/
def TokTable.decode (t : TokTable) (carry : List (BitVec 8)) (tokens : List Nat) : List (BitVec 8) × List (BitVec 8) :=
  let all := carry ++ tokens.flatMap (fun i => t.tokens.getD i [])
  let k := openTail all
  (all.take (all.length - k), all.drop (all.length - k))

end Sys2Proof

namespace Sys2Proof.Machine

end Sys2Proof.Machine
end

