-- ==== Sys2Proof/Machine/Serving.lean ====
section
/-! DEFINITION. What serving rests on (10, 12): KV pages and count tables, the completion ring as acceptance ledger, the
final of an item, and the state of a request entry. -/

namespace Sys2Proof.Machine

/-! ### Status codes (Table 12-8) and entry states (Table 10-2) -/

def stOk : Nat := 0x00
def stLate : Nat := 0x01
def stFault : Nat := 0x10
def stStateLost : Nat := 0x11
def stReset : Nat := 0x12
def stDeadline : Nat := 0x13
def stNumeric : Nat := 0x14
def stLength : Nat := 0x15
def stThermal : Nat := 0x16
def stDescriptor : Nat := 0x20
def stNoModel : Nat := 0x21
def stClosed : Nat := 0x22
def stGated : Nat := 0x23
def stNotAuth : Nat := 0x24
def stBusy : Nat := 0x25

def eFree : Nat := 0
def eOpen : Nat := 1
def eQueued : Nat := 2
def eRunning : Nat := 3
def eDraining : Nat := 4
def eDone : Nat := 5
def eFailed : Nat := 6

/-! ### KV pages (R374 to R379) -/

/-- The lowest frame of some runs that has no reference. -/
def freeFrom (counts : Map Nat) (first : Nat) : Nat → Option Nat
  | 0 => none
  | n + 1 => if Map.get 0 counts first = 0 then some first else freeFrom counts (first + 1) n

def Pool.lowestFree (p : Pool) : Option Nat := p.runs.findSome? (fun r => freeFrom p.counts r.1 r.2)
def Pool.total (p : Pool) : Nat := (p.runs.map Prod.snd).foldl (· + ·) 0
def Pool.freeFrames (p : Pool) : Nat := p.total - p.counts.length
def Pool.holds (p : Pool) (fr : Nat) : Bool := p.runs.any (fun r => decide (r.1 ≤ fr) && decide (fr < r.1 + r.2))

/-- A page table entry (Table 10-4). -/
def Pool.pte (p : Pool) (fr : Nat) : Word :=
  BitVec.ofNat 64 (2 ^ 63 + (if p.scratch then 2 ^ 62 + p.unit / 24 * 2 ^ 50 + p.unit % 24 * 2 ^ 45 else p.unit * 2 ^ 50) + fr)

def pteScratch (w : Word) : Bool := getBits w 62 1 == 1
def pteUnit (w : Word) : Nat := if pteScratch w then 24 * getBits w 50 6 + getBits w 45 5 else getBits w 50 6
def pteFrame (w : Word) : Nat := getBits w 0 32

def State.pool (s : State) (n i : Nat) : Option Pool := Map.find (s.hub n).pools i
def State.modPool (s : State) (n i : Nat) (f : Pool → Pool) : State :=
  s.modHub n (fun h => { h with pools := match Map.find h.pools i with
    | some p => Map.put h.pools i (f p)
    | none => h.pools })

/-- The pool of hub `n` that a page table entry's frame lies in. -/
def State.poolOf (s : State) (n : Nat) (w : Word) : Option Nat :=
  ((s.hub n).pools.find? (fun e => e.2.scratch == pteScratch w && e.2.unit == pteUnit w && e.2.holds (pteFrame w))).map
    Prod.fst

/-- The hub and pool that keep the count of a frame: those of hub `n` first, since a prefix may come from another lea. -/
def State.poolHome (s : State) (n : Nat) (w : Word) : Option (Nat × Nat) :=
  (n :: Map.keys s.hubs).findSome? (fun m => (s.poolOf m w).map (fun i => (m, i)))

def State.frameCount (s : State) (n : Nat) (w : Word) : Nat :=
  match (s.poolHome n w).bind (fun h => s.pool h.1 h.2) with
  | some p => Map.get 0 p.counts (pteFrame w)
  | none => 0

/-- Changes the reference count of a frame. -/
def State.countFrame (s : State) (n : Nat) (w : Word) (f : Nat → Nat) : State :=
  match s.poolHome n w with
  | some (m, i) => s.modPool m i (fun p => { p with counts := Map.set 0 p.counts (pteFrame w) (f (Map.get 0 p.counts (pteFrame w))) })
  | none => s

/-- Takes the lowest free frame of pool `i` of hub `n`, with count 1. -/
def State.takeFrame (s : State) (n i : Nat) : Option (Word × State) :=
  match s.pool n i with
  | none => none
  | some p => match p.lowestFree with
    | none => none
    | some fr => some (p.pte fr, s.modPool n i (fun p => { p with counts := Map.put p.counts fr 1 }))

def entryHub (g : Nat) : Nat := g / 512

/-- The items of a stream in the present batch take a status. -/
def State.failEntry (s : State) (g st : Nat) : State :=
  s.modFold (s.entry g).fold (fun x => { x with batch := x.batch.map (fun b => if b.entry = g then b.mark st else b) })

/-- The walker reads one row of a frame for a stream. A row that is refused or uncorrectable is not delivered, and fails the
items that the walk serves (R157, R165, R300, R312). -/
def State.walkerRead (s : State) (g : Nat) (w : Word) (i : Nat) : Option Row × State :=
  let a := 128 * pteFrame w + i
  let f := (s.entry g).fold
  if pteScratch w then
    match s.schedulerRow (pteUnit w) a f with
    | (.ok r, s) => (some r, s)
    | (.error st, s) => (none, s.failEntry g st)
  else
    match s.agentRead (pteUnit w) a (some f) with
    | (some r, s) => (some r, s)
    | (none, s) => (none, s.failEntry g 0x10)

/-- The walker writes one row of a frame for a stream, in scratchpad by writer 49 (Table 04-8). A row that is refused fails the
items that the walk serves (R151, R165). -/
def State.walkerWrite (s : State) (g : Nat) (w : Word) (i : Nat) (r : Row) : State :=
  let a := 128 * pteFrame w + i
  let q := pteUnit w
  if pteScratch w then
    if ¬ s.reaches (s.entry g).fold q a then (s.overrun q a 1 (hubAddr (entryHub g))).failEntry g 0x10
    else if s.rowRefused q a then (s.gatedAccess q a 49 none 0).failEntry g 0x23
    else s.writeRow q a 49 r
  else match s.agentWrite q a r (some (s.entry g).fold) with
    | (true, s) => s
    | (false, s) => s.failEntry g 0x10

/-- Copies one row of a frame; a row that is not delivered leaves its destination unchanged. -/
def State.copyFrameRow (s : State) (g : Nat) (src dst : Word) (i : Nat) : State :=
  match s.walkerRead g src i with
  | (some r, s) => s.walkerWrite g dst i r
  | (none, s) => s

def State.copyFrame (s : State) (g : Nat) (src dst : Word) : State :=
  (List.range 128).foldl (fun (s : State) i => s.copyFrameRow g src dst i) s

/-- The copy that an entry runs on: the one in its fold (R407). -/
def Model.copyIn (m : Model) (f : Nat) : Copy :=
  if m.cur.fold = f then m.cur else (m.old.find? (fun c => c.fold == f)).getD m.cur
def State.copyOf (s : State) (g : Nat) : Copy :=
  match Map.find s.models (s.entry g).model with
  | some m => m.copyIn (s.entry g).fold
  | none => Copy.reset
def State.entryImage (s : State) (g : Nat) : Option Image := (s.fold (s.entry g).fold).image
/-- The KV pools of a model's page groups. -/
def poolsOf (im : Image) (h : Nat) : List Nat := ((im.pools.find? (fun e => e.1 == h)).map Prod.snd).getD []
/-- The pool that the fold image names for a page group. -/
def State.groupPool (s : State) (g gr : Nat) : Nat :=
  match s.entryImage g with
  | some im => (poolsOf im (s.entry g).model).getD gr ((poolsOf im (s.entry g).model).getD 0 0)
  | none => 0

/-- The first position of page `n` (R374). -/
def Copy.firstPos (m : Copy) (n : Nat) : Nat := n / m.g * m.ppp

/-- R349: a change of the page table removes every look-aside entry of the request entry. -/
def State.dropLookaside (s : State) (g : Nat) : State :=
  s.modHub (entryHub g) (fun h => { h with walker := h.walker.filter (fun l => l.entry != g) })

/-- The stack and the row in which entry `n` of a page table lies (R374). -/
def Entry.tableRow (e : Entry) (n : Nat) : Nat × Nat := (getBits e.ptBase 56 6, getBits e.ptBase 9 28 + n / 64)

/-- R374: page table entry `n` of a request entry is written, in its row of the stack. -/
def State.storePte (s : State) (g n : Nat) (w : Word) : State :=
  let (m, a) := (s.entry g).tableRow n
  s.stackWrite m a (BitVec.ofNat 4096 (putBytes (Map.get 0 (s.dram m).rows a).toNat (8 * (n % 64)) 8 w.toNat))

/-- A page is entered in the page table, or its entry is cleared. `pages` are those present, as the scheduler knows them. -/
def State.setPage (s : State) (g n : Nat) (w : Word) : State :=
  (s.storePte g n w).modEntry g (fun e => { e with pages := Map.put e.pages n w })
def State.clearPage (s : State) (g n : Nat) : State :=
  (s.storePte g n 0).modEntry g (fun e => { e with pages := Map.del e.pages n })

/-- R377: one page is released. -/
def State.releasePage (s : State) (g n : Nat) : State :=
  match Map.find (s.entry g).pages n with
  | some w => (s.countFrame (entryHub g) w (fun c => c - 1)).clearPage g n
  | none => s

/-- R377. -/
def State.trimTo (s : State) (g l : Nat) : State :=
  let m := s.copyOf g
  ((Map.keys (s.entry g).pages).filter (fun n => decide (l ≤ m.firstPos n))).foldl
    (fun (s : State) n => s.releasePage g n) (s.dropLookaside g)

/-- R375 for one page: it is made present, copied where it is shared, or left as it is. -/
def State.extendPage (s : State) (g n : Nat) : Option State :=
  let h := entryHub g
  let i := s.groupPool g (n % (s.copyOf g).g)
  match Map.find (s.entry g).pages n with
  | none => (s.takeFrame h i).map (fun x => x.2.setPage g n x.1)
  | some w =>
    if s.frameCount h w ≤ 1 then some s
    else (s.takeFrame h i).map (fun x => ((x.2.copyFrame g w x.1).countFrame h w (fun c => c - 1)).setPage g n x.1)

def extendPages (g : Nat) : List Nat → State → Option State
  | [], s => some s
  | n :: l, s => (s.extendPage g n).bind (extendPages g l)

/-- The pages that hold a position from `lo` to `hi − 1`, ascending. -/
def Copy.pagesOf (m : Copy) (lo hi : Nat) : List Nat :=
  if hi ≤ lo then [] else
    let a := lo / m.ppp * m.g
    let b := ((hi - 1) / m.ppp + 1) * m.g
    (List.range (b - a)).map (· + a)

/-- R375: EXTEND to a tentative count; none when no free page is left (R349) or the table is full. -/
def State.extendTo (s : State) (g t : Nat) : Option State :=
  let e := s.entry g
  let ps := (s.copyOf g).pagesOf e.c (e.c + t)
  if ps.any (fun n => decide (e.ptCap ≤ n)) then none
  else (extendPages g ps (s.dropLookaside g)).map (fun s => s.modEntry g (fun e => { e with tent := t }))

/-! ### Count tables (R382) -/

/-- The lowest record index that holds nothing. -/
def freeRecord (m : Map (Nat × Nat × Nat)) : Option Nat :=
  (List.range 4096).find? (fun i => (Map.find m i).isNone)

/-- The record with the smallest last position, the lowest index among equals. -/
def oldestRecord : Map (Nat × Nat × Nat) → Option (Nat × Nat)
  | [] => none
  | (i, _, _, p) :: l => match oldestRecord l with
    | some (j, q) => if q < p then some (j, q) else some (i, p)
    | none => some (i, p)

/-- Counts a token at a position; the flag tells of an eviction. -/
def countToken (m : Map (Nat × Nat × Nat)) (tok pos : Nat) : Map (Nat × Nat × Nat) × Bool :=
  match m.find? (fun r => r.2.1 == tok) with
  | some (i, _, c, _) => (Map.put m i (tok, Nat.min 65535 (c + 1), pos), false)
  | none => match freeRecord m with
    | some i => (Map.put m i (tok, 1, pos), false)
    | none => match oldestRecord m with
      | some (i, _) => (Map.put m i (tok, 1, pos), true)
      | none => (m, false)

/-- The count of a token, zero without a record (R383). -/
def countOf (m : Map (Nat × Nat × Nat)) (tok : Nat) : Nat :=
  match m.find? (fun r => r.2.1 == tok) with
  | some (_, _, c, _) => c
  | none => 0

/-- An entry without a count table counts nothing (R381). -/
def State.countTok (s : State) (g tok pos : Nat) : State :=
  if (s.entry g).countPage = 0 then s
  else s.modEntry g (fun e =>
    let (m, ev) := countToken e.counts tok pos
    { e with counts := m, evicted := e.evicted || ev })

def countToks (g : Nat) : Nat → List Nat → State → State
  | _, [], s => s
  | p, t :: l, s => countToks g (p + 1) l (s.countTok g t p)

/-! ### Rings (R419, R434 to R438) -/

/-- a − b in the sequences of rings. -/
def seqSub (a b : Nat) : Nat := (a + 2 ^ 32 - b % 2 ^ 32) % 2 ^ 32
def seqAdd (a b : Nat) : Nat := (a + b) % 2 ^ 32
/-- Whether `a` lies before `b` in the window of 2³¹. -/
def seqLt (a b : Nat) : Bool := a % 2 ^ 32 != b % 2 ^ 32 && decide (seqSub b a < 2 ^ 31)

def Endpoint.valid (e : Endpoint) : Bool := getBits e.cfg 63 1 == 1
def Endpoint.setup (e : Endpoint) : Bool := getBits e.cfg 62 1 == 1
def Endpoint.models (e : Endpoint) : Bool := getBits e.cfg 60 1 == 1
def Endpoint.slot (e : Endpoint) : Nat := getBits e.cfg 32 8
def Endpoint.first (e : Endpoint) : Nat := getBits e.cfg 0 32
def Endpoint.subSize (e : Endpoint) : Nat := 2 ^ getBits e.cfg 55 5
def Endpoint.cmpSize (e : Endpoint) : Nat := 2 ^ getBits e.cfg 50 5
def Endpoint.attached (e : Endpoint) : Bool := e.state == 3

/-- How far back from `n` the oldest ACCEPT lies whose item is not final. -/
def Endpoint.reach (e : Endpoint) (n : Nat) : Nat := (e.items.map (fun i => seqSub n i.cseq)).foldl Nat.max 0
/-- The oldest unresolved ACCEPT after the entry of sequence `c` (Table 12-7, floor). -/
def Endpoint.floorAt (e : Endpoint) (c : Nat) : Nat := seqSub (seqAdd c 1) (e.reach (seqAdd c 1))
/-- U and F of R436. -/
def Endpoint.unresolved (e : Endpoint) : Nat := e.items.length
def Endpoint.room (e : Endpoint) : Nat := e.cmpSize - Nat.max (seqSub e.nextCmp e.head) (e.reach e.nextCmp)

/-- CRC-16 with polynomial 0x1021 (R434), one byte. -/
def crcBits : Nat → Nat → Nat
  | 0, c => c
  | n + 1, c => crcBits n (if c / 2 ^ 15 % 2 = 1 then (c * 2 ^^^ 0x1021) % 2 ^ 16 else c * 2 % 2 ^ 16)
def crc16 (l : List (BitVec 8)) : Nat := l.foldl (fun c b => crcBits 8 (c ^^^ b.toNat * 256)) 0xFFFF

/-- The 32 bytes of a completion entry (Table 12-7) at sequence `c`. -/
def CEntry.encode (e : CEntry) : List (BitVec 8) :=
  let l := toBytes 1 e.kind ++ toBytes 1 e.status ++
    toBytes 1 ((if e.phase then 1 else 0) + (if e.replayed then 2 else 0) + (if e.carried then 4 else 0)) ++
    toBytes 1 e.opcode ++ toBytes 4 e.c ++ toBytes 4 e.seq ++ toBytes 4 e.handle ++ toBytes 4 e.floor ++
    toBytes 4 e.swath ++ toBytes 4 e.value ++ toBytes 2 0
  l ++ toBytes 2 (crc16 l)

/-- A completion entry before it has its place in the ring. -/
def entryOf (kind status opcode seq handle swath value : Nat) : CEntry :=
  { kind := kind, status := status, replayed := false, carried := false, opcode := opcode, c := 0, seq := seq,
    handle := handle, floor := 0, swath := swath, value := value, phase := false }

/-- Writes a completion entry at next_cmp. -/
def State.writeEntry (s : State) (ep : Nat) (x : CEntry) : State :=
  let e := s.endpoint ep
  let c := e.nextCmp
  let x := { x with c := c, floor := e.floorAt c, phase := seqSub c e.first / e.cmpSize % 2 == 1 }
  (s.modEndpoint ep (fun e => { e with
    ring := Map.put e.ring (c % e.cmpSize) x, nextCmp := seqAdd c 1 })).send (.entry ep x)

/-! ### Items -/

def descBytes (d : BitVec 512) (i n : Nat) : Nat := d.toNat / 256 ^ i % 256 ^ n

def opOpen : Nat := 1
def opAppend : Nat := 2
def opGenerate : Nat := 3
def opVerify : Nat := 4
def opClose : Nat := 5
def opAdapt : Nat := 6
def opLoad : Nat := 0x10
def opUnload : Nat := 0x11
def opQuery : Nat := 0x20
def opFence : Nat := 0x21
def opSetupRead : Nat := 0x30
def opSetupWrite : Nat := 0x31

/-- Whether an opcode names a stream (Table 12-4). -/
def namesStream (op : Nat) : Bool := decide (2 ≤ op) && decide (op ≤ 6)

def Item.handle (i : Item) : Nat := descBytes i.desc 8 4
def Item.entry (i : Item) : Nat := i.handle % 65536
def Item.deadline (i : Item) : Nat := descBytes i.desc 32 8

def State.item (s : State) (ep seq : Nat) : Option Item := (s.endpoint ep).items.find? (fun i => i.seq == seq)
def State.modItem (s : State) (ep seq : Nat) (f : Item → Item) : State :=
  s.modEndpoint ep (fun e => { e with items := e.items.map (fun i => if i.seq == seq then f i else i) })

/-- The items of a stream that are not decided, oldest first (R361). -/
def State.streamItems (s : State) (g : Nat) : List Item :=
  (s.endpoint (s.entry g).ep).items.filter (fun i =>
    namesStream i.opcode && i.handle == (s.entry g).gen * 65536 + g && i.fin.isNone)

/-- An item's final is decided: it is owed until it is written. -/
def State.owe (s : State) (ep seq status swath : Nat) (handle : Option Nat) : State :=
  s.modItem ep seq (fun i => { i with fin := some (status, swath, handle.getD i.handle) })

/-- R432: the final of a FENCE waits for every item accepted before it, that of a stream's item for those of the stream. -/
def Endpoint.mayFinish (e : Endpoint) (i : Item) : Bool :=
  e.items.all (fun j => !seqLt j.seq i.seq ||
    !(i.opcode == opFence || (namesStream i.opcode && namesStream j.opcode && j.handle == i.handle)))

/-- R361: no item of its stream that is not decided comes before an item. -/
def Endpoint.inTurn (e : Endpoint) (i : Item) : Bool :=
  e.items.all (fun j => !seqLt j.seq i.seq || j.fin.isSome || !(namesStream j.opcode && j.handle == i.handle))

/-- Writes the final of one item, if it is decided and its turn has come (R431, R432, R436: always granted). -/
def State.finish (s : State) (ep seq : Nat) (replayed : Bool) : State :=
  match s.item ep seq with
  | none => s
  | some i => match i.fin with
    | none => s
    | some (st, sw, h) =>
      if ¬ (s.endpoint ep).mayFinish i then s else
      let s := s.modEndpoint ep (fun e => { e with items := e.items.filter (fun j => j.seq != seq) })
      let c := (s.endpoint ep).nextCmp
      let s := s.writeEntry ep { entryOf 2 st i.opcode i.seq h sw i.value with replayed := replayed }
      if i.opcode = opClose then s.modEntry i.entry (fun e => if e.state = eDone then { e with closed := some c } else e) else s

/-- R385: the OUTPUT entry that an item's final follows is not written yet. -/
def State.behindOutput (s : State) (ep : Nat) (i : Item) : Bool :=
  namesStream i.opcode && i.fin.any (fun x =>
    (s.fold (s.entry i.entry).fold).owed.any (fun o => o.1 == ep && o.2.2.1 == x.2.1))

/-- The finals of an endpoint that are owed and whose turn has come. -/
def State.flushFinals (s : State) (ep : Nat) : State :=
  (s.endpoint ep).items.foldl (fun (s : State) i => if s.behindOutput ep i then s else s.finish ep i.seq false) s

/-- Decides an item, and writes its final at once where the endpoint is attached and its turn has come. -/
def State.complete (s : State) (ep seq status swath : Nat) (handle : Option Nat) : State :=
  let s := s.owe ep seq status swath handle
  if (s.endpoint ep).attached then s.flushFinals ep else s

/-- The swath number shown with an item's entries: that of its stream's fold. -/
def State.itemSwath (s : State) (i : Item) : Nat :=
  if namesStream i.opcode then (s.fold (s.entry i.entry).fold).swath else 0

/-! ### Entry states (Table 10-2, R361, R362) -/

/-- R362: an item of a failed stream, CLOSE apart. -/
def State.failItem (s : State) (ep : Nat) (i : Item) : State :=
  s.complete ep i.seq stStateLost (s.itemSwath i) none

/-- The item is placed in the present swath. -/
def State.isPlaced (s : State) (g : Nat) (i : Item) : Bool :=
  (s.fold (s.entry g).fold).batch.any (fun b => b.entry == g && b.gen == (s.entry g).gen && b.seq == i.seq)

/-- R362: the items of a lost stream that wait end, CLOSE apart; one that is placed ends with its swath. -/
def State.failLost (s : State) (g : Nat) : State :=
  if (s.entry g).lost then
    ((s.streamItems g).filter (fun i => i.opcode != opClose && !s.isPlaced g i)).foldl
      (fun (s : State) i => s.failItem (s.entry g).ep i) s
  else s

/-- The state an entry takes from its oldest item, once it is not running (Table 10-2). -/
def Entry.settled (e : Entry) (items : List Item) : Nat :=
  if e.state = eFree ∨ e.state = eRunning ∨ e.state = eDraining ∨ e.state = eDone then e.state
  else match items with
    | [] => if e.lost then eFailed else eOpen
    | i :: _ => if i.opcode = opClose then eDraining else if e.lost then eFailed else eQueued

def State.settleEntry (s : State) (g : Nat) : State :=
  let s := s.failLost g
  let items := s.streamItems g
  s.modEntry g (fun e => { e with state := e.settled items })

/-- The swath lets an entry go. -/
def State.leaveSwath (s : State) (g : Nat) : State :=
  (s.modEntry g (fun e => if e.state = eRunning then { e with state := eOpen } else e)).settleEntry g

/-- The entry is still that of a batch record. -/
def State.stillOf (s : State) (b : BatchItem) : Bool :=
  (s.entry b.entry).gen == b.gen && (s.entry b.entry).state != eFree && (s.entry b.entry).state != eDone

/-- The draft entry that goes with a target; the target itself where it has none (Table 10-1). -/
def State.draftOf (s : State) (g : Nat) : Option Nat :=
  let e := s.entry g
  if e.linked = 0xFFFF ∨ e.draft then none else some e.linked

/-- R360: an entry returns to FREE, and its tag rises. -/
def State.freeEntry (s : State) (g : Nat) : State :=
  s.modEntry g (fun e => { Entry.reset with gen := (e.gen + 1) % 65536 })

/-- R362, R547: an entry enters FAILED, and its items end. -/
def State.loseEntry (s : State) (g : Nat) : State :=
  let st := (s.entry g).state
  if st = eFree ∨ st = eDone ∨ st = eFailed ∨ st = eDraining then s
  else ((s.failEntry g stStateLost).modEntry g (fun e => { e with state := eFailed, lost := true })).settleEntry g

/-- Entries that are not FREE, of a fold. -/
def State.entriesOf (s : State) (f : Nat) : List Nat :=
  (s.entries.filter (fun e => e.2.state != eFree && e.2.fold == f)).map Prod.fst

/-- The 64 bytes of a request table entry (Table 10-1), as a number. -/
def Entry.encode (e : Entry) : Nat :=
  e.state + 2 ^ 8 * (e.priority + 2 ^ 4 * e.outMode + (if e.evicted then 2 ^ 6 else 0) + (if e.draft then 2 ^ 7 else 0)) +
  2 ^ 16 * e.gen + 2 ^ 32 * e.model + 2 ^ 48 * e.adapter + 2 ^ 64 * e.c + 2 ^ 96 * e.tent + 2 ^ 128 * e.ptBase.toNat +
  2 ^ 192 * e.ptCap + 2 ^ 224 * e.linked + 2 ^ 240 * e.profile + 2 ^ 256 * e.deadline + 2 ^ 320 * e.seed +
  2 ^ 384 * e.countPage + 2 ^ 448 * e.seq + 2 ^ 480 * e.ep + 2 ^ 496 * e.fold

end Sys2Proof.Machine
end

