-- ==== Sys2Proof/Machine/Route.lean ====
section
/-! DEFINITION. Routes over the bulk mesh and the cells they take (R262 to R264, R270 to R273, R276). -/

namespace Sys2Proof.Machine

/-! ### Ports (R262): 0 north, 1 east, 2 south, 3 west, 4 local -/

def opposite (p : Nat) : Nat := if p < 4 then (p + 2) % 4 else 4

/-- The neighbour of a tile through a port, where there is one. -/
def neighbour (x p : Nat) : Option Nat :=
  match p with
  | 0 => if 0 < tileY x then some (x - 64) else none
  | 1 => if tileX x < 39 then some (x + 1) else none
  | 2 => if tileY x < 39 then some (x + 64) else none
  | 3 => if 0 < tileX x then some (x - 1) else none
  | _ => none

/-- R264: the port by which a row leaves tile `x` towards tile `d`. -/
def portTo (x d : Nat) : Nat :=
  if tileX x < tileX d then 1 else if tileX d < tileX x then 3
  else if tileY x < tileY d then 2 else if tileY d < tileY x then 0 else 4

/-- The tiles of a route with the port by which each is left; the last is the destination with its local port. -/
def routeFrom : Nat → Nat → Nat → List (Nat × Nat)
  | 0, x, _ => [(x, 4)]
  | n + 1, x, d =>
    let p := portTo x d
    match neighbour x p with
    | some y => (x, p) :: routeFrom n y d
    | none => [(x, 4)]
def route (x d : Nat) : List (Nat × Nat) := routeFrom (hops x d) x d

/-! ### Cells of a timed flow (R271) -/

/-- A cell of one port and plane of one tile, counted over all frames of the swath. -/
structure CellAt where
  tile  : Nat
  port  : Nat
  plane : Nat
  cell  : Nat
deriving DecidableEq, Repr

/-- The edges of a route from the source router on, each with its number. -/
def edgesFrom : Nat → List (Nat × Nat) → List (Nat × Nat × Nat)
  | _, [] => []
  | k, (x, p) :: l => (x, p, k) :: edgesFrom (k + 1) l

end Sys2Proof.Machine

namespace Sys2Proof

open Machine

/-- The edges that a flow crosses: those of its route, or of the tree of its route set. -/
def Flow.edges (fl : Flow) : List (Nat × Nat × Nat) :=
  if fl.tree.isEmpty then edgesFrom 0 (route (tileOf fl.src) (tileOf fl.dst)) else fl.tree

def Flow.cells (fl : Flow) : List CellAt :=
  fl.edges.flatMap (fun e => (List.range fl.rows).map (fun i =>
    ⟨e.1, e.2.1, fl.plane, 64 * fl.frame + 4 * fl.slot + e.2.2 + i⟩))

/-- The clusters in which a flow ends, each with its depth. -/
def Flow.leaves (fl : Flow) : List (Nat × Nat) :=
  fl.edges.filterMap (fun e => if e.2.1 = 4 then (clusterOfTile e.1).map (fun q => (q, e.2.2)) else none)

/-- The tick of the swath from which the last row of a flow is readable at a leaf of depth `h`. -/
def Flow.readable (fl : Flow) (h : Nat) : Nat := 512 * fl.frame + 8 * (4 * fl.slot + h + fl.rows - 1) + 17

/-- R276: the arrival list of a cluster of the image, for a swath whose tick 0 is `t0`. -/
def Image.arrivalsAt (im : Image) (q t0 : Nat) : List Arrival :=
  im.flows.flatMap (fun fl => (fl.leaves.filter (fun l => l.1 == q)).map (fun l =>
    { flow := fl, readable := t0 + fl.readable l.2, left := fl.dstRows }))

end Sys2Proof

namespace Sys2Proof.Machine

/-- Two flows of one plan never take one cell. -/
def disjointFlows : List Flow → Bool
  | [] => true
  | f :: l => l.all (fun g => f.cells.all (fun c => !g.cells.contains c)) && disjointFlows l

/-- The reservation mask of a port and plane, and whose frame the router counts (R272, R273). -/
def rsvIndex (port plane : Nat) : Nat := 2 * port + plane
def State.reserve (s : State) (f : Nat) (c : CellAt) : State :=
  let u := routerUnit c.tile
  let s := s.setBit Fld.cluRtrRsvCells u (rsvIndex c.port c.plane) (c.cell % 64) true
  (s.setFld Fld.cluRtrOwnerOwned u 0 1).setFld Fld.cluRtrOwnerFold u 0 f

def State.rtrOwner (s : State) (x : Nat) : Option Nat :=
  let u := routerUnit x
  if s.fld Fld.cluRtrOwnerOwned u 0 = 1 then some (s.fld Fld.cluRtrOwnerFold u 0) else none

/-- R272: the fold's reserved cells are cleared. -/
def State.unreserve (s : State) (f : Nat) : State :=
  (List.range 1600).foldl (fun (s : State) u =>
    if s.fld Fld.cluRtrOwnerOwned u 0 = 1 ∧ s.fld Fld.cluRtrOwnerFold u 0 = f then
      ((List.range 10).foldl (fun (s : State) i => s.setFld Fld.cluRtrRsvCells u i 0) s).setReg .cluRtrOwner u 0 0
    else s) s

end Sys2Proof.Machine
end

