-- ==== Sys2Proof/Machine/Commit.lean ====
section
/-! DEFINITION. The swath scheduler (R363 to R373, R379, R381, R384 to R387, R439 to R441): it commits a swath or throws it
away, writes its output, and forms the next batch. -/

namespace Sys2Proof.Machine

/-- A row with `n` bytes from byte `i` on replaced. -/
def Row.put (r : Row) (i n v : Nat) : Row := BitVec.ofNat 4096 (putBytes r.toNat i n v)

/-- The item kinds of Table 10-3. -/
def kindOf (op : Nat) : Nat := if op = opAppend then 1 else if op = opGenerate then 2 else if op = opVerify then 3 else 4

/-! ### Tokeniser tables (R332, Tables 09-9 and 09-10) -/

def State.tokTable (s : State) (n t : Nat) : TokTable := Map.get ⟨0, [], [], []⟩ (s.hub n).tokens t
def State.tokAdmits (s : State) (n t f : Nat) : Bool :=
  s.fld Fld.hubTokTableLoaded n t == 1 &&
  (List.range 32).any (fun i => s.bit Fld.hubTokTableFoldMask n t i &&
    getBits (s.reg .hubTokFold n (4 * t + i / 8)) (8 * (i % 8)) 8 == f)

/-! ### Results (R369, R370) -/

/-- The result record of batch position `i`, from the result rows as read: positions to commit, status, and tokens output. A
row that the read does not deliver fails its positions (R157, R165). -/
def resultOf (rows : List (Except Nat Row)) (i : Nat) : Nat × Nat × Nat :=
  match rows.getD (i / 64) (.error stFault) with
  | .error st => (0, st, 0)
  | .ok r =>
    let v := rowBytes r (8 * (i % 64)) 8
    (v % 2 ^ 32, v / 2 ^ 32 % 256, v / 2 ^ 40 % 256)

/-- A completion code that a fold may write (Table 12-8); any other value fails the item. -/
def knownCode (c : Nat) : Nat := if c ≤ 2 ∨ (0x10 ≤ c ∧ c ≤ 0x16) ∨ (0x20 ≤ c ∧ c ≤ 0x25) then c else stFault

/-- The first row that was not delivered gives the status of all. -/
def allRows : List (Except Nat Row) → Except Nat (List Row)
  | [] => .ok []
  | .error st :: _ => .error st
  | .ok r :: l => (allRows l).map (r :: ·)

/-- The tokens that a batch position wrote to its stream rows, or the status that its item takes. -/
def State.newTokens (s : State) (f : Nat) (im : Image) (i n : Nat) : Except Nat (List Nat) × State :=
  match im.streamRows[i]? with
  | some (q, a) =>
    let (rows, s) := s.schedulerRows q a f (ceilDiv n 128)
    ((allRows rows).map (fun (l : List Row) => (List.range n).map (fun j => rowBytes (l.getD (j / 128) 0) (4 * (j % 128)) 4)), s)
  | none => (.ok [], s)

/-- New output of one stream: the bytes and where they begin in the stream. -/
structure OutJob where
  g    : Nat
  ep   : Nat
  off  : Nat
  data : List (BitVec 8)

/-- The bytes that tokens become in the stream's output mode, and what a text stream carries on (R385, R440). -/
def State.outBytes (s : State) (g : Nat) (toks : List Nat) : List (BitVec 8) × List (BitVec 8) :=
  let e := s.entry g
  if e.outMode = 1 then
    match (List.range 4).find? (fun t => s.tokAdmits (entryHub g) t e.fold) with
    | some t => (s.tokTable (entryHub g) t).decode e.carry toks
    | none => ([], e.carry)
  else (toks.flatMap (toBytes 4), [])

/-- R381, R371: the draft entry follows its target. -/
def State.syncDraft (s : State) (g : Nat) (commit : Option Nat) : State :=
  match s.draftOf g with
  | none => s
  | some d =>
    let e := s.entry d
    let c := match commit with
      | some c => Nat.min c (e.c + e.tent)
      | none => e.c
    (s.modEntry d (fun e => { e with c := c, tent := 0 })).trimTo d c

/-- R370 step 3: committed input tokens are counted. -/
def State.countInput (s : State) (g : Nat) (i : Item) (c k : Nat) : State :=
  let prof := Map.get Profile.reset (s.hub (entryHub g)).profiles (s.entry g).profile
  if i.opcode = opAppend ∧ prof.countIn ∧ descBytes i.desc 40 1 < 2 then
    countToks g c (((i.data.drop (i.data.length - i.left)).take k).map BitVec.toNat) s
  else s

/-- How an item goes on after k positions and n tokens. -/
def Item.advance (i : Item) (k n : Nat) : Item :=
  if i.opcode = opAppend then { i with left := i.left - k, value := i.value + k }
  else if i.opcode = opGenerate then { i with left := i.left - n, value := i.value + n }
  else if i.opcode = opVerify then { i with value := k - 1 }
  else i

/-! ### A training step (R255 to R259) -/

/-- R257: the loss-scale exponent of an adapter after a step, which saw a non-finite or saturated gradient or not. -/
def Model.scaled (bad : Bool) (m : Model) : Model :=
  if bad then { m with lambda := max (-32) (m.lambda - 1), clean := 0 }
  else if m.clean + 1 < 1000 then { m with clean := m.clean + 1 }
  else { m with lambda := min 32 (m.lambda + 1), clean := 0 }

/-- The target of position `p` of an ADAPT_STEP item; none at a position without one. -/
def Item.target (i : Item) (p : Nat) : Option Nat := (i.data[2 * p + 1]?).bind (fun w => if w = 0xFFFFFFFF then none else some w.toNat)

/-- R259 step 3: no position of the item has a target. -/
def Item.noTarget (i : Item) : Bool := (List.range (i.data.length / 2)).all (fun p => (i.target p).isNone)

/-- R259 step 2: the loss term of one position, from its logits (FP32 bits). -/
def lossTerm (z : List Nat) (t : Nat) : Nat :=
  f32Sub (toF32 (f32 (toF32 (FV.sum (z.map (fun x => f32 (toF32 (f32 x).exp)))))).ln) (z.getD t 0)

/-- R259 step 3: the loss of an item over the positions with a target, FP32 bits; 0 where there is none. -/
def Item.loss (i : Item) (draw : Nat) : Nat :=
  let l := (List.range (i.data.length / 2)).filterMap (fun p => (i.target p).map (fun t => lossTerm (Config.logits draw p) t))
  if l.isEmpty then 0 else f32Div (toF32 (FV.sum (l.map f32))) (toF32 (.ofInt l.length))

/-- A gradient element that is not finite, or that saturates on conversion to e5m2: its magnitude is at least 61,440, from
where rounding passes the largest finite code (R226, R257). -/
def gradBad (g : Nat) : Bool := !(f32 g).isFin || !f32Lt (f32Abs g) 0x47700000

/-- The factor tensors of an adapter that have a master copy, with their place in the directory. -/
def Copy.factors (c : Copy) : List (Nat × Placed) :=
  (c.tensors.mapIdx (fun i p => (i, p))).filter (fun x => x.2.kind == 10 && x.2.master.isSome && x.2.scratch.isSome)

/-- R257: some gradient element of a step's factors is bad. -/
def Copy.gradsBad (c : Copy) (draw : Nat) : Bool :=
  c.factors.any (fun x => (List.range (256 * x.2.data.length)).any (fun e => gradBad (Config.gradient draw x.1 e)))

/-- R259 step 5: θ − η·g·2^−λ, rounded once to FP32. -/
def stepElem (eta : Nat) (lambda : Int) (g theta : Nat) : Nat :=
  toF32 ((f32 theta).add (((f32 eta).mul (f32 g)).mul (.fin false 1 (-lambda))).negate)

/-- The FP32 elements of a master row after a step; `first` is the element at its byte 0. -/
def stepRow (eta : Nat) (lambda : Int) (grad : Nat → Nat) (first : Nat) (r : Row) : Row :=
  rowOfElems 4 ((List.range 128).map (fun j => stepElem eta lambda (grad (first + j)) (rowBytes r (4 * j) 4)))

/-- R256: the BF16 row of forward factors that two master rows give. -/
def forwardRow (lo hi : Row) : Row :=
  rowOfElems 2 ((List.range 256).map (fun j =>
    bf16.write false (f32 (rowBytes (if j < 128 then lo else hi) (4 * (j % 128)) 4))))

/-- R256: the FP32 master rows of a BF16 row of factors. -/
def masterRow (r : Row) (half : Nat) : Row :=
  rowOfElems 4 ((List.range 128).map (fun j => rowBytes r (2 * (128 * half + j)) 2 * 2 ^ 16))

/-- The update of one factor tensor: its master copy, then its forward factors; the status that a refused row gives (R165). -/
def State.stepTensor (s : State) (eta : Nat) (lambda : Int) (grad : Nat → Nat) (p : Placed) (old : List Row) :
    Option Nat × State :=
  match p.scratch, p.master with
  | some a, some m =>
    let new := old.mapIdx (fun i r => stepRow eta lambda grad (128 * i) r)
    let (st, s) := s.putRows p.cluster m new
    let (st', s) := s.putRows p.cluster a
      ((List.range p.data.length).map (fun i => forwardRow (new.getD (2 * i) 0) (new.getD (2 * i + 1) 0)))
    (st.orElse (fun _ => st'), s)
  | _, _ => (none, s)

/-- The master rows of an adapter's factors, as the scheduler reads them; the status of the first that is not delivered. -/
def State.readMasters (s : State) (f : Nat) : List (Nat × Placed) → Except Nat (List (List Row)) × State
  | [] => (.ok [], s)
  | x :: l =>
    let (rows, s) := s.schedulerRows x.2.cluster (x.2.master.getD 0) f (2 * x.2.data.length)
    let (rest, s) := s.readMasters f l
    ((allRows rows).bind (fun r => rest.map (fun z => r :: z)), s)

/-- R256, R257, R259: what the commit of an ADAPT_STEP does to its adapter: the master copy and the forward factors after an
applied step, and the loss-scale exponent. `st` is the status of the item without the step, `told` that the compiled program
tells of a bad gradient. It answers the status that the item takes. A step whose item failed, or that has no target, applies no
update. -/
def State.trainStep (s : State) (f h : Nat) (it : Item) (b : BatchItem) (st : Nat) (told : Bool) : Nat × State :=
  match Map.find s.models h with
  | none => (st, s)
  | some m =>
    let draw := s.fresh
    let bad := !it.noTarget && (told || b.overflow || m.cur.gradsBad draw)
    let s := s.drew.modModel h (Model.scaled bad)
    if bad then (worse stNumeric st, s)
    else if 0x10 ≤ st ∨ it.noTarget then (st, s)
    else
      match s.readMasters f m.cur.factors with
      | (.error x, s) => (worse x st, s)
      | (.ok rows, s) =>
        (m.cur.factors.zip rows).foldl (fun (acc : Nat × State) x =>
          let (x', s) := acc.2.stepTensor (descBytes it.desc 40 4) m.lambda (Config.gradient draw x.1.1) x.1.2 x.2
          (x'.elim acc.1 (fun y => worse y acc.1), s)) (st, s)

/-- The mirror that a commit writes before any output. -/
def State.writeMirror (s : State) (f g : Nat) (i : Item) (st : Option Nat) (job : Option OutJob) : State :=
  let m : Mirror := { entry := s.entry g, swath := (s.fold f).swath, data := (job.map OutJob.data).getD [],
                      offset := (job.map OutJob.off).getD (s.entry g).produced, byItem := i.seq,
                      finals := match st with
                        | some x => [(i.seq, x, ((s.item (s.entry g).ep i.seq).map Item.value).getD 0)]
                        | none => []
                      late := (s.fold f).late, told := job.isNone && st.isNone }
  { s with mirrors := Map.put s.mirrors g m }

/-- The status that an item takes with its swath, from the code of its result record and what the hardware marked; none while
the item goes on (R370 step 4, R372, R435). -/
def BatchItem.settled (b : BatchItem) (long late : Bool) (code : Nat) : Option Nat :=
  let st := if long then some (worse stLength (b.status.getD 0))
    else if code = 0xFF then b.status.filter (fun x => decide (0x10 ≤ x))
    else some (worse (knownCode code) (b.status.getD 0))
  st.map (fun x => if late ∧ x = stOk then stLate else x)

/-- R370, R372 for batch position `i`. -/
def State.commitItem (s : State) (f : Nat) (im : Image) (rows : List (Except Nat Row)) (i : Nat) (b : BatchItem) :
    State × Option OutJob :=
  let g := b.entry
  let e := s.entry g
  match s.item b.ep b.seq with
  | none => (s, none)
  | some it =>
    if ¬ s.stillOf b then (s, none)
    else
      let (k0, code, n0) := resultOf rows i
      let k0 := if it.opcode = opAdapt then 0 else k0
      let code := if it.opcode = opAdapt ∧ it.noTarget ∧ code = stNumeric then stOk else code
      let long := decide (2 ^ 32 - 1 < e.c + k0)
      let (read, s) := if long then (.ok [], s) else s.newTokens f im i n0
      let b := match read with
        | .error st => b.mark st
        | .ok _ => b
      let k := if long then 0 else k0
      let toks := match read with
        | .error _ => []
        | .ok l => l
      let s := if long then s.bump Fld.srvStatLengthFailed 0 0 else s
      let s := (s.modEntry g (fun e => { e with c := e.c + k, tent := 0 })).trimTo g (e.c + k)
      let s := s.syncDraft g (if long then none else some (e.c + k))
      let s := s.countInput g it e.c k
      let s := s.modItem b.ep b.seq (fun x => { x.advance k toks.length with status := b.status })
      let st := b.settled long (s.fold f).late code
      let (st, s) := match st with
        | some x => if it.opcode = opAdapt then
            let s := s.modItem b.ep b.seq (fun y => { y with value := it.loss s.fresh })
            let (x, s) := s.trainStep f e.adapter it b x (code == stNumeric && b.status != some stNumeric)
            (some x, s)
          else (st, s)
        | none => (st, s)
      let s := match st with
        | some x => s.owe b.ep b.seq x (s.fold f).swath none
        | none => s
      let (data, carry) := s.outBytes g toks
      let job : Option OutJob := if toks.isEmpty then none else some ⟨g, b.ep, e.produced, data⟩
      let s := s.modEntry g (fun e => { e with
        produced := e.produced + data.length, tokens := e.tokens + toks.length, carry := carry })
      let s := s.leaveSwath g
      let s := match s.draftOf g with
        | some d => s.leaveSwath d
        | none => s
      (s.writeMirror f g it st job, job)

def commitAll (f : Nat) (im : Image) (rows : List (Except Nat Row)) : Nat → List BatchItem → State → State × List OutJob
  | _, [], s => (s, [])
  | i, b :: l, s =>
    let (s, j) := s.commitItem f im rows i b
    let (s, js) := commitAll f im rows (i + 1) l s
    (s, j.toList ++ js)

/-- The commit of a batch: its result rows are read once, then each position is settled. -/
def State.commitBatch (s : State) (f : Nat) (im : Image) (l : List BatchItem) : State × List OutJob :=
  let (rows, s) := s.schedulerRows im.resultAt.1 im.resultAt.2 f (ceilDiv l.length 64)
  commitAll f im rows 0 l s

/-! ### Output (R385, R386, R440) -/

/-- Writes stream bytes into the circular data area. -/
def State.writeStream (s : State) (g ep off : Nat) (data : List (BitVec 8)) : State :=
  let e := s.entry g
  let d := e.bufLen - 64
  let at_ := off % d
  let first := data.take (d - at_)
  let rest := data.drop (d - at_)
  let s := if first.isEmpty then s else s.send (.write ep (e.bufVa + 64 + at_) e.bufKey first)
  if rest.isEmpty then s else s.send (.write ep (e.bufVa + 64) e.bufKey rest)

/-- The buffer header of Table 12-10. -/
def State.writeHeader (s : State) (g ep swath seq : Nat) : State :=
  let e := s.entry g
  s.send (.write ep e.bufVa e.bufKey (toBytes 8 e.produced ++ toBytes 8 e.tokens ++ toBytes 4 swath ++ toBytes 4 seq ++
    toBytes 40 0))

/-- Steps 1 and 2 of R385 for one ring. -/
def State.writeRing (s : State) (f ep : Nat) (jobs : List OutJob) : State :=
  let mine := jobs.filter (fun j => j.ep == ep)
  let s := mine.foldl (fun (s : State) j => s.writeStream j.g ep j.off j.data) s
  mine.foldl (fun (s : State) j =>
    s.writeHeader j.g ep (s.fold f).swath (((Map.find s.mirrors j.g).map Mirror.byItem).getD 0)) s

/-- The endpoints of a batch, in ascending order. -/
def batchEps (l : List BatchItem) : List Nat := (sortUp id (l.map BatchItem.ep)).dedup

/-- The rings that a swath owes an OUTPUT entry. -/
def State.writeOutput (s : State) (f : Nat) (batch : List BatchItem) (jobs : List OutJob) : State :=
  (batchEps batch).foldl (fun (s : State) ep =>
    let streams := (jobs.filter (fun j => j.ep == ep)).length
    let done := batch.any (fun b => b.ep == ep && (s.item ep b.seq).any (fun i => i.fin.isSome))
    if (s.endpoint ep).attached ∧ (streams ≠ 0 ∨ done) then
      (s.writeRing f ep jobs).modFold f (fun x => { x with
        owed := x.owed ++ [(ep, streams, x.swath, x.late)] })
    else s) s

/-- R363 steps 1 and 2. -/
def State.commitSwath (s : State) (f : Nat) : State :=
  match (s.fold f).image with
  | none => s
  | some im =>
    let batch := (s.fold f).batch
    let (s, jobs) := s.commitBatch f im batch
    (s.writeOutput f batch jobs).modFold f (fun x => { x with batch := [] })

/-! ### A swath that fails (R371) -/

/-- The items complete with a status, or with the failure they already have; the others go on from their last commit. -/
def State.failItemOf (s : State) (f : Nat) (st : Option Nat) (b : BatchItem) : State :=
  let g := b.entry
  if ¬ s.stillOf b then s
  else
    let s := (s.modEntry g (fun e => { e with tent := 0 })).trimTo g (s.entry g).c
    let s := s.syncDraft g none
    let own := b.status.bind (fun x => if 0x10 ≤ x then some x else none)
    let s := match own.orElse (fun _ => st) with
      | some x => s.complete b.ep b.seq x (s.fold f).swath none
      | none => s
    let s := s.leaveSwath g
    match s.draftOf g with
    | some d => s.leaveSwath d
    | none => s

def State.failSwath (s : State) (f : Nat) (st : Option Nat) : State :=
  let batch := (s.fold f).batch
  (batch.foldl (fun (s : State) b => s.failItemOf f st b) s).modFold f (fun x => { x with batch := [] })

/-! ### Forming a batch (R364 to R369, R379, R384, R407, R436, R439, R441) -/

/-- R384: profiles written while an entry that names them was queued or running take effect. -/
def State.takeProfiles (s : State) (f : Nat) : State :=
  (s.foldLeas f).foldl (fun (s : State) n => s.modHub n (fun h => { h with
    profiles := h.nextProfiles.foldl (fun m e => Map.set Profile.reset m e.1 e.2) h.profiles, nextProfiles := [] })) s

/-- R407: a new version that is READY becomes the current copy. -/
def Model.switched (m : Model) : Model :=
  match m.next with
  | some c => { m with cur := c, next := none, old := m.cur :: m.old }
  | none => m

/-- A new version of the model is READY. -/
def Model.newReady (m : Model) : Bool := m.next.isSome && m.loading.isNone

def State.copySwitch (s : State) (f : Nat) : State :=
  s.models.foldl (fun (s : State) e =>
    if e.2.newReady ∧ e.2.cur.fold = f then ((s.modModel e.1 Model.switched).recordModule).bump Fld.wgtStatSwitches 0 0 else s) s

/-- R379: one page of the parent enters the new table, shared, or copied where its count is full. -/
def State.sharePage (s : State) (g n : Nat) (w : Word) : State :=
  let h := entryHub g
  if s.frameCount h w < 65535 then
    (s.countFrame h w (· + 1)).setPage g n w
  else match s.takeFrame h (s.groupPool g (n % (s.copyOf g).g)) with
    | some (x, s) => (s.copyFrame g w x).setPage g n x
    | none => s

/-- R379: an entry takes its parent's prefix. A parent that has been closed since leaves nothing to share (DESIGN CHOICE,
assumption 139): the stream is lost. -/
def State.sharePrefix (s : State) (g : Nat) : State :=
  match (s.entry g).parent with
  | none => s
  | some (h, l) =>
    let p := h % 65536
    let e := s.entry p
    if e.gen ≠ h / 65536 ∨ e.state = eFree ∨ e.state = eDone then
      (s.modEntry g (fun e => { e with parent := none })).loseEntry g
    else if e.tent ≠ 0 then s
    else
      let m := s.copyOf g
      let pages := (s.entry p).pages.filter (fun e => decide (m.firstPos e.1 < l))
      let s := pages.foldl (fun (s : State) e => s.sharePage g e.1 e.2) s
      s.modEntry g (fun e => { e with c := l, tent := 0, parent := none })

/-- The oldest item of an entry that may be placed: its ACCEPT lies before the end of drain, its own step has run, and the entry
waits for no prefix (R379). -/
def State.candidate (s : State) (f g : Nat) : Option Item :=
  let e := s.entry g
  if e.state ≠ eQueued ∨ e.draft ∨ e.parent.isSome then none
  else match s.streamItems g with
    | i :: _ => if i.begun ∧ i.at0 < (s.fold f).drainAt then some i else none
    | [] => none

/-- R365: deadlines are judged, once an item is placed no more. An item that fails lets the next one of its stream be judged. -/
def State.judgeDeadline (s : State) (f g ns : Nat) : Nat → State
  | 0 => s
  | n + 1 =>
    match s.candidate f g with
    | some i =>
      if i.deadline ≠ 0 ∧ i.deadline ≤ ns ∧ ¬ i.placed then
        let s := s.bump Fld.srvStatDeadlineFailed 0 0
        ((s.complete (s.entry g).ep i.seq stDeadline (s.fold f).swath none).settleEntry g).judgeDeadline f g ns n
      else s
    | none => s

def State.judgeDeadlines (s : State) (f ns : Nat) : State :=
  (s.entriesOf f).foldl (fun (s : State) g => s.judgeDeadline f g ns ((s.streamItems g).length)) s

/-- The order of R366. -/
def State.goesBefore (s : State) (a b : Nat × Item) : Bool :=
  let late := fun (i : Item) => if i.deadline = 0 then 2 ^ 64 else i.deadline
  let ea := s.entry a.1
  let eb := s.entry b.1
  if ea.priority ≠ eb.priority then decide (ea.priority < eb.priority)
  else if late a.2 ≠ late b.2 then decide (late a.2 < late b.2)
  else if a.2.at0 ≠ b.2.at0 then decide (a.2.at0 < b.2.at0) else decide (a.1 < b.1)

def insertCand (s : State) (x : Nat × Item) : List (Nat × Item) → List (Nat × Item)
  | [] => [x]
  | y :: l => if s.goesBefore x y then x :: y :: l else y :: insertCand s x l

def State.candidates (s : State) (f : Nat) : List (Nat × Item) :=
  ((s.entriesOf f).filterMap (fun g => (s.candidate f g).map (fun i => (g, i)))).foldr (insertCand s) []

def lookup2 (l : List (Nat × Nat)) (k d : Nat) : Nat := ((l.find? (fun e => e.1 == k)).map Prod.snd).getD d
def lookup3 (l : List (Nat × Nat × Nat)) (a b : Nat) : Nat :=
  ((l.find? (fun e => e.1 == a && e.2.1 == b)).map (fun e => e.2.2)).getD 0

/-- The free frames of the pools that model `h` uses in one hub. -/
def State.freeFrames (s : State) (im : Image) (h n : Nat) : Nat :=
  ((poolsOf im h).dedup.map (fun i => ((s.pool n i).map Pool.freeFrames).getD 0)).foldl (· + ·) 0

/-- R368: the table has no room for the entry with `w` positions more, or C could pass 2³² − 1. -/
def State.tooLong (s : State) (g w : Nat) : Bool :=
  let e := s.entry g
  let m := s.copyOf g
  decide (e.ptCap < ceilDiv (e.c + w) m.ppp * m.g) || decide (2 ^ 32 - 1 < e.c + w)

/-- R441: the room in the stream's output buffer. -/
def Entry.outRoom (e : Entry) : Nat := (e.bufLen - 64) - (e.produced - e.consumed)

/-- What a formation has placed: the batch so far, with the frames taken for it as (hub, model, frames). -/
structure Forming where
  batch : List BatchItem
  taken : List (Nat × Nat × Nat)

/-- The frames already taken in a hub from pools that model `h` uses. -/
def Forming.used (fm : Forming) (im : Image) (n h : Nat) : Nat :=
  ((fm.taken.filter (fun t => t.1 == n && (poolsOf im t.2.1).any (poolsOf im h).contains)).map (fun t => t.2.2)).foldl (· + ·) 0

/-- R366 to R368, R418, R436, R439, R441 for one candidate. -/
def State.place (im : Image) (f : Nat) (acc : State × Forming) (x : Nat × Item) : State × Forming :=
  let (s, fm) := acc
  let (g, i) := x
  let e := s.entry g
  let w := lookup3 im.worst e.model (kindOf i.opcode)
  let n := (fm.batch.filter (fun b => (s.entry b.entry).model == e.model)).length
  let used := fm.used im (entryHub g) e.model
  if lookup2 im.limits e.model 512 ≤ n ∨ ¬ (s.endpoint e.ep).attached then acc
  else if s.tooLong g (lookup3 im.growth e.model (kindOf i.opcode)) then
    (((s.bump Fld.srvStatLengthFailed 0 0).complete e.ep i.seq stLength (s.fold f).swath none).settleEntry g, fm)
  else if s.freeFrames im e.model (entryHub g) < used + w ∨ e.outRoom < lookup3 im.outBound e.model e.outMode ∨
      (s.endpoint e.ep).room < (s.endpoint e.ep).unresolved + 1 ∨
      s.folds.any (fun y => y.2.owed.any (fun o => o.1 == e.ep)) then acc
  else
    let run := fun (s : State) g => s.modEntry g (fun e => { e with state := eRunning, deadline := i.deadline })
    let s := run s g
    let s := match s.draftOf g with
      | some d => run s d
      | none => s
    (s, { batch := fm.batch ++ [{
            entry := g, gen := e.gen, seq := i.seq, ep := e.ep, kind := kindOf i.opcode, status := i.status, overflow := false }],
          taken := (entryHub g, e.model, w) :: fm.taken })

/-- A batch record (Table 10-3). -/
def State.batchRecord (s : State) (b : BatchItem) : Nat :=
  let e := s.entry b.entry
  match s.item b.ep b.seq with
  | none => 0
  | some i => b.entry + 2 ^ 16 * e.gen + 2 ^ 32 * e.c + 2 ^ 64 * b.kind +
      2 ^ 72 * ((if i.placed then 0 else 1) + (if e.outMode = 1 then 2 else 0)) + 2 ^ 80 * e.adapter + 2 ^ 96 * e.profile +
      2 ^ 112 * Nat.min 65535 i.left

/-- What a batch position finds in its stream row: the next input of the item, or its stop tokens. -/
def Item.input (i : Item) : List Nat :=
  if i.opcode = opGenerate then (List.range 4).map (fun j => descBytes i.desc (40 + 4 * j) 4)
  else if i.opcode = opAppend then ((i.data.drop (i.data.length - i.left)).take 128).map BitVec.toNat
  else (i.data.take 128).map BitVec.toNat

/-- A row that serves the whole batch of a fold, or the one item of an entry, is written; refused, it fails them (R165). -/
def State.batchRow (s : State) (f : Nat) (g : Option Nat) (q a : Nat) (r : Row) : State :=
  match s.stewardWrite q a r with
  | (none, s) => s
  | (some st, s) => match g with
    | some g => s.failEntry g st
    | none => s.failBatch f st

/-- R369: the batch rows, the cleared result rows and the input of each position. -/
def State.writeBatch (s : State) (f : Nat) (im : Image) (swath : Nat) (batch : List BatchItem) : State :=
  let (q, a) := im.batchAt
  let recs := batch.map s.batchRecord
  let s := s.batchRow f none q a (BitVec.ofNat 4096 (swath + 2 ^ 32 * batch.length))
  let s := (List.range (ceilDiv batch.length 32)).foldl (fun (s : State) j =>
    s.batchRow f none q (a + 1 + j) (rowOfElems 16 ((recs.drop (32 * j)).take 32))) s
  let s := (List.range (ceilDiv batch.length 64)).foldl (fun (s : State) j =>
    s.batchRow f none im.resultAt.1 (im.resultAt.2 + j) (rowOfElems 8 (List.replicate 64 (0xFF * 2 ^ 32)))) s
  (batch.zip im.streamRows).foldl (fun (s : State) x =>
    match s.item x.1.ep x.1.seq with
    | some i => s.batchRow f (some x.1.entry) x.2.1 x.2.2 (rowOfElems 4 i.input)
    | none => s) s

/-- The number of the swath that starts at beat `b`. -/
def State.swathNumber (s : State) (f b : Nat) : Nat :=
  (b - s.fld Fld.timFoldCfgPhase 0 f) / s.fld Fld.timFoldCfgPeriod 0 f % 2 ^ 32

/-- R363 step 3. -/
def State.form (s : State) (f : Nat) : State :=
  match (s.fold f).image with
  | none => s
  | some im =>
    let s := (s.takeProfiles f).copySwitch f
    let s := (s.entriesOf f).foldl (fun (s : State) g => s.sharePrefix g) s
    let s := s.judgeDeadlines f (1000 * (s.fold f).nextBeat)
    let (s, fm) := (s.candidates f).foldl (State.place im f) (s, { batch := [], taken := [] })
    let s := s.modFold f (fun x => { x with batch := fm.batch, formed := true })
    let s := s.writeBatch f im (s.swathNumber f ((s.fold f).lateFor.getD (s.fold f).nextBeat)) fm.batch
    let s := fm.batch.foldl (fun (s : State) b => s.modItem b.ep b.seq (fun i => { i with placed := true })) s
    let gone := (s.shown.filter (fun e => e.2.fold == f && (s.entry e.1).state == eFree)).map Prod.fst
    let now := gone ++ s.entriesOf f
    { s with
      shown := now.foldl (fun m g => Map.put m g (s.entry g)) s.shown, blanked := s.blanked.filter (fun g => !now.contains g) }

/-- Forms the batch where every OUTPUT entry owed has been written. -/
def State.tryForm (s : State) (f : Nat) : State :=
  let x := s.fold f
  if x.owed.isEmpty ∧ ¬ x.formed ∧ x.drained then s.form f else s

end Sys2Proof.Machine
end

