-- ==== Sys2Proof/Machine/Swath.lean ====
section
/-! DEFINITION. The swath of a fold (R60 to R73, R158, R172, R203, R292, R403, R405, R472, R504, R535, R555, R611). -/

namespace Sys2Proof.Machine

def foldIdle : Nat := 0
def foldArmed : Nat := 1
def foldRunning : Nat := 2
def foldStopping : Nat := 3
def foldStopped : Nat := 4

def State.period (s : State) (f : Nat) : Nat := s.fld Fld.timFoldCfgPeriod 0 f
def State.guardBeats (s : State) (f : Nat) : Nat := s.fld Fld.timFoldCfgGuard 0 f
def State.foldPhase (s : State) (f : Nat) : Nat := s.fld Fld.timFoldCfgPhase 0 f
def State.multi (s : State) (f : Nat) : Bool := s.fld Fld.lnkFoldMulti 0 f == 1
def State.blockTag (s : State) (f : Nat) : Nat := s.fld Fld.lnkFoldBlockTag 0 f
/-- The other modules of a fold's block (R466). -/
def State.partners (s : State) (f : Nat) : List Nat :=
  match (s.fold f).image with
  | some im => if s.multi f then im.block.filter (· != s.ownCoord) else []
  | none => []

/-- R453, R466: traffic of a multi-module fold leaves by the ports that lead to modules of its block. -/
def State.usesPort (s : State) (f p : Nat) : Bool :=
  (s.portNeighbour p).any (fun c => (s.partners f).contains c)
/-- The ports of a fold's block. -/
def State.blockPorts (s : State) (f : Nat) : List Nat := (List.range 96).filter (s.usesPort f)

/-- The first boundary of a fold at or after beat `b` (R61). -/
def State.boundaryFrom (s : State) (f b : Nat) : Nat := gridUp (s.foldPhase f) (s.period f) b
/-- The first beat that begins at or after a tick; a nanosecond is more than one tick. -/
def State.beatFrom (s : State) (x : Nat) : Nat :=
  let b := (s.nsAt x + 999) / 1000
  if s.edgeTick b < x then b + 1 else b
/-- R62: the beat edge before which the guard does not begin. -/
def State.nominalGuard (s : State) (f : Nat) : Nat := s.edgeTick ((s.fold f).edgeBeat + s.period f - s.guardBeats f)

/-! ### Step markers as the fold has received them (R467 to R473). Kinds: 0 JOIN, 1 DRAINED, 2 ARMED. -/

/-- The markers of one kind that concern the present swath, from every partner; none while one is missing. -/
def State.markersOf (s : State) (f kind : Nat) (ok : Marker → Bool) : Option (List (Nat × Marker)) :=
  let got := ((s.fold f).markers.filter (fun m => m.1 == kind && ok m.2.2)).map Prod.snd
  if (s.partners f).all (fun p => got.any (fun m => m.2.src == p)) then some got else none

/-- The payload of a step marker (R469). -/
def markerBytes (tag swath kind stile gen stamp : Nat) : List (BitVec 8) :=
  toBytes 4 tag ++ toBytes 4 swath ++ toBytes 1 kind ++ toBytes 1 stile ++ toBytes 2 gen ++ toBytes 8 stamp

/-- A marker of the fold's own goes out on some ports. -/
def State.sendMarkerOn (s : State) (ports : List Nat) (tag f kind id gen : Nat) : State :=
  let n := (s.fold f).swath
  ports.foldl (fun (s : State) p => s.sendTx p ⟨2, 0, markerBytes tag n kind id gen s.ns⟩)
    (s.send (.marker f kind id gen n s.ns))

/-- A marker of the fold's own goes out on every port of the block. -/
def State.sendMarker (s : State) (f kind id gen : Nat) : State := s.sendMarkerOn (s.blockPorts f) (s.blockTag f) f kind id gen

/-! ### Going IDLE (R60, R272, R285, R475) -/

/-- R475, R478: the owner's windows close. -/
def State.closeWindows (s : State) (f : Nat) : State :=
  { s with windows := s.windows.map (fun e =>
      if e.2.fold = f ∧ e.2.isOpen then (e.1, { e.2 with closing := s.windowBusy e.1, isOpen := s.windowBusy e.1 }) else e) }

/-- R475: one window opens, its generation one higher, and is announced; not twice in one beat, and not before a closing of it has
come to its end (R478). -/
def State.openWindow (s : State) (f : Nat) (d : WinDecl) : State :=
  let old := Map.find s.windows d.id
  if old.any (fun w => w.opened == s.beat || (w.isOpen && !w.closing && w.fold == f) || (w.closing && s.windowBusy d.id)) then s
  else
    let gen := ((old.map Window.gen).getD 0 + 1) % 65536
    let w : Window := { isOpen := true, fold := f, gen := gen, rows := d.rows, target := d, closing := false,
                        opened := s.beat }
    { s with windows := Map.put s.windows d.id w }.send (.announce d.modules d.id gen d.rows)

/-- The windows that the image of a fold declares and that are not open. -/
def State.openWindows (s : State) (f : Nat) : State :=
  match (s.fold f).image with
  | some im => im.windows.foldl (fun (s : State) d => s.openWindow f d) s
  | none => s

/-- The cores of the fold stop; nothing that they had begun goes on. DESIGN CHOICE (log 104): of a call that is still open the
core keeps no record, as its hub drops the call, so it no longer counts against the 4 of R134. -/
def State.stopCores (s : State) (f : Nat) : State :=
  (s.foldClusters f).foldl (fun (s : State) q =>
    { s with cores := Map.mapOn Core.reset s.cores (fun c => clusterOf c == q) (fun k =>
        { k with wait := .none, waitOff := false, held := none, faulted := false,
                 calls := k.calls.filter (fun c => c.2.status.isSome), ready := [], await := [], mmaRun := none,
                 mmaWait := none, joins := [], leaves := [], sends := 0, rowGrant := none, covered := [] }) }) s

/-- What the fold had under way in the fabric, the queues and the arrays is discarded (R108, R546). -/
def State.dropTraffic (s : State) (f : Nat) : State :=
  let s := { s with packets := s.packets.filter (fun e => e.2.fold != f),
                    routers := Map.mapOn Router.reset s.routers (fun _ => true) (fun r =>
                      { r with hold := r.hold.filter (fun p => (Map.find s.packets p).any (fun (k : Packet) => k.fold != f)) }) }
  let mine := s.foldClusters f
  let s := mine.foldl (fun (s : State) q => s.modCluster q (fun c => { c with
    access := c.access.filter (fun a => a.fold != f), port := [], queues := [], groups := [], jobs := [] })) s
  let s := s.refuseTransits (fun q => mine.contains q)
  let gone := fun (r : StackReq) => match r.source with
    | .queue q _ => mine.contains q
    | .engine _ _ _ g => g == f
    | _ => false
  { s with
    hubs := Map.mapOn Hub.reset s.hubs (fun _ => true) (fun h => { h with
      arriving := h.arriving.filter (fun c => c.fold != f), fetched := h.fetched.filter (fun x => !mine.contains (clusterOf x.core))
      engines := h.engines.map (fun e => (e.1, e.2.filter (fun c => c.fold != f || c.steward))) })
    drams := Map.mapOn Stack.reset s.drams (fun _ => true) (fun d => { d with
      remote := d.remote.filter (fun r => !gone r), agents := d.agents.filter (fun r => !gone r) }) }

/-- The fold returns to IDLE: its hedge, its reserved cells and its windows go. -/
def State.toIdle (s : State) (f : Nat) : State :=
  let s := ((s.stopCores f).unreserve f).closeWindows f
  let s := (s.foldClusters f).foldl (fun (s : State) q => s.modCluster q (fun c => { c with arrivals := [] })) s
  (s.modFold f (fun x => { x with
    phase := .idle, formed := false, drained := false, markers := [], lateFor := none })).setFoldState f foldIdle

/-! ### SWATH_OPEN -/

/-- The beat at which the next swath opens: for a multi-module fold just armed, the first boundary at least G beats after the
latest ARMED marker (R467). None while markers are missing. -/
def State.openBeat (s : State) (f : Nat) : Option Nat :=
  let x := s.fold f
  if s.multi f ∧ x.phase = .idle then
    (s.markersOf f 2 (fun _ => true)).map (fun ms =>
      let last := ((ms.map (fun m => m.2.stamp)).foldl Nat.max 0 + 999) / 1000
      s.boundaryFrom f (Nat.max x.nextBeat (last + s.guardBeats f)))
  else some x.nextBeat

/-- The arrays of a physical group (R26). -/
def groupArrays (g : Nat) : List Nat := (List.range 8).map (fun i => 8 * g + i)

/-- The named group that a physical group stands behind. -/
def State.namedOf (s : State) (q phys : Nat) : Nat := ((List.range 4).find? (fun g => s.physGroup q g == phys)).getD 0

/-- A physical group stands behind a named group; the one that stood there goes where the other comes from (R403). -/
def State.mapGroup (s : State) (q named phys : Nat) : State :=
  let old := s.physGroup q named
  let other := s.namedOf q phys
  let phys' := fun (g : Nat) => if g = named then phys else if g = other then old else s.physGroup q g
  s.setFld Fld.cluArrGroupMapPhys q 0 (phys' 0 + 4 * phys' 1 + 16 * phys' 2 + 64 * phys' 3)

/-- R405 step 4, R403: a rebuilt group whose arrays have been calibrated stands behind its named group from tick 0 on, and
the arrays that it replaces become FREE, or RETIRED (R220). -/
def State.switchGroup (s : State) (r : Rebuild) : State :=
  let old := s.physGroup r.q r.named
  match r.phys with
  | none => s
  | some phys =>
    if (groupArrays phys).any (fun a => s.arrState r.q a == 1) ∨ (groupArrays phys).all (fun a => s.arrState r.q a != 2) then s
    else
      let s := s.mapGroup r.q r.named phys
      let s := ((groupArrays old).foldl (fun (s : State) a => s.retireArray r.q a) s).recordModule
      { s with rebuilds := s.rebuilds.filter (fun x => x != r) }.bump Fld.wgtStatSwitches 0 0

/-- R535: an open-mode cluster's clock step. It steps up when the cluster stayed cool and unthrottled and the module had
2.0 kW in hand; any of these failing returns it to the base step. -/
def State.freqStep (s : State) (f q : Nat) : State :=
  if s.fld Fld.thmFoldModeOpen 0 f = 0 ∨ s.foldExact f then s.setFld Fld.cluThmFreqStep q 0 0
  else if (s.cluster q).steady ∧ (s.cluster q).sensor < 8 * (s.fld Fld.thmCfgTOpen 0 0 : Nat) ∧
      s.fld Fld.cluPwrStateThrottle q 0 = 0 then
    s.setFld Fld.cluThmFreqStep q 0 (Nat.min 3 (s.fld Fld.cluThmFreqStep q 0 + 1))
  else s.setFld Fld.cluThmFreqStep q 0 0

/-- Tick 0 in one cluster (R172, R203, R205, R276). -/
def State.openCluster (s : State) (f : Nat) (im : Image) (q : Nat) : State :=
  let t0 := (s.fold f).tick0
  let s := s.modCluster q (fun c => { c with
    tags := [], count := 0, tSwath := c.sensor / 8
    arrays := Map.mapOn Arr.reset c.arrays (fun _ => true) (fun a => match a.staged with
      | some w => { a with words := w, staged := none }
      | none => a)
    arrivals := if s.foldExact f then im.arrivalsAt q t0 else [] })
  let s := { s with cores := Map.mapOn Core.reset s.cores (fun c => clusterOf c == q) (fun k => { k with joins := [] }) }
  (s.freqStep f q).modCluster q (fun c => { c with steady := true })

/-- The first boundary of a swath: tick 0. A late swath of a block is numbered by the boundary that it is late for (R472). -/
def State.openSwath (s : State) (f nb : Nat) (im : Image) : State :=
  let fresh := decide ((s.fold f).phase = .idle)
  let at_ := (s.fold f).lateFor.getD nb
  let b := s.foldPhase f + (at_ - s.foldPhase f) / s.period f * s.period f
  let s := s.modFold f (fun x => { x with
    drainAt := if fresh then s.now else x.drainAt, nextBeat := nb })
  let s := if (s.fold f).formed then s else s.form f
  let n := s.swathNumber f at_
  let s := s.modFold f (fun x => { x with
    phase := .opened, swath := n, edgeBeat := b, tick0 := s.frameUp (s.edgeTick nb), late := false, failed := false,
    drained := false, formed := false, gens := [], lastJoin := [], recorded := [],
    relayed := x.relayed.filter (fun k => k.2.1 == 2 || !seqLt k.2.2.1 x.swath),
    frozen := 0, lateFor := none, markers := x.markers.filter (fun m => m.1 != 2 && !seqLt m.2.2.swath n) })
  let s := (s.rebuilds.filter (fun r => im.clusters.contains r.q)).foldl (fun (s : State) r => s.switchGroup r) s
  let s := im.clusters.foldl (fun (s : State) q => s.openCluster f im q) s
  let s := (if s.foldState f = foldArmed then s.setFoldState f foldRunning else s).openWindows f
  if s.fld Fld.glbSwathOutEnable 0 0 = 1 ∧ s.fld Fld.glbSwathOutFold 0 0 = f then s.send (.swathOut f (s.fold f).tick0)
  else s

/-- R67, R546: the fold ends its swath and stops. -/
def State.stopFault (s : State) (f : Nat) (st : Option Nat) : State :=
  let s := ((s.failSwath f st).dropTraffic f).stopCores f
  (s.modFold f (fun x => { x with
    phase := .idle, formed := false, drained := false, lateFor := none,
    nextBeat := s.boundaryFrom f (s.beatFrom s.now) })).setFoldState f foldStopped

/-- R555: while the fold waits in STOPPED_FAULT its deadlines are judged at each boundary. -/
def State.stoppedBoundary (s : State) (f : Nat) : State :=
  let b := (s.fold f).nextBeat
  if s.edgeTick b ≤ s.now then
    let s := s.modFold f (fun x => { x with drainAt := s.now })
    (s.judgeDeadlines f (1000 * b)).modFold f (fun x => { x with nextBeat := b + s.period f })
  else s

/-- A swath opens when the fold is armed and its clusters are ON, or when its guard is over. -/
def State.mayOpen (s : State) (f : Nat) : Bool :=
  let x := s.fold f
  (s.foldState f == foldArmed && x.phase == .idle && (s.foldClusters f).all s.domainOn) ||
  (s.foldState f == foldRunning && x.phase == .guard && decide (x.guardEnd ≤ s.now))

/-- R545: a fold whose slot plan a dead router broke is re-placed from its next boundary: it stands until then. -/
def State.boundaryStop (s : State) (f : Nat) : State :=
  if (s.fold f).replacing.isSome ∧ s.mayOpen f then s.stopFault f none else s

def execSwathOpen (t f : Nat) (s : State) : Host.Outcome State Fault Refusal :=
  let s := s.at t
  onUnit (validFold f) (
    if s.foldState f = foldStopped then s.stoppedBoundary f
    else if (s.fold f).replacing.isSome then s.boundaryStop f
    else match (s.fold f).image, s.openBeat f with
      | some im, some nb => whenever (s.mayOpen f && decide (s.frameUp (s.edgeTick nb) ≤ s.now)) (fun s => s.openSwath f nb im) s
      | _, _ => s)

/-! ### SWATH_RUN_START -/

/-- A core at tick 12: one that waits in SWATH.WAIT, one that faulted, and one held since the swath before (R86, R131, R132). -/
def Core.startSwath (k : Core) (x swath : Nat) (again : Bool) : Core :=
  match k.wait with
  | .swath d =>
    if k.waitOff then { k with wait := .none, waitOff := false, issueAt := x, faulted := false }
    else
      { k with files := k.files.setS d (BitVec.ofNat 64 swath), ready := Map.set 0 k.ready (sCode d) x, wait := .none,
               entry := k.pc, issueAt := x, faulted := false }
  | w =>
    if k.faulted then { k with pc := k.entry, wait := .none, waitOff := false, held := none, issueAt := x, faulted := false }
    else if again ∧ w = .none then { k with entry := k.pc, issueAt := Nat.max k.issueAt x }
    else k

/-- R292: a release of the fold: the next first grants of its clusters are skewed. -/
def State.noteRelease (s : State) (f x : Nat) : State :=
  let s := s.modFold f (fun y => { y with release := x })
  (s.foldClusters f).foldl (fun (s : State) q => s.modArb (q / 24) (fun a => { a with firsts := a.firsts.filter (fun e => e.1 != q) })) s

def State.runStart (s : State) (f : Nat) : State :=
  let x := s.fold f
  let at12 := x.tick0 + 12
  let s := (s.foldClusters f).foldl (fun (s : State) q =>
    (List.range 48).foldl (fun (s : State) j =>
      s.modCore (coreAddr q j) (fun k => k.startSwath at12 x.swath (x.guardEnd != 0))) s) s
  (s.modFold f (fun x => { x with phase := .run })).noteRelease f at12

def execSwathRunStart (t f : Nat) (s : State) : Host.Outcome State Fault Refusal :=
  let s := s.at t
  onUnit (validFold f) (whenever ((s.fold f).phase == .opened && decide ((s.fold f).tick0 + 12 ≤ s.now))
    (fun s => s.runStart f) s)

/-! ### STILE_RELEASE (R69 to R71, R172, R470) -/

/-- R70: every participant has joined the generation, or stands in a fault (R86). -/
def State.stileJoined (s : State) (f id : Nat) : Bool :=
  let gen := Map.get 0 (s.fold f).gens id
  let l := s.stileSet f id
  !l.isEmpty && l.all (fun c =>
    let k := s.core c
    k.faulted || (k.wait == .stile id gen && k.sends == 0))

def State.stileHops (s : State) (f id : Nat) : Nat :=
  ((s.stileSet f id).map (fun c => hops (tileOf (clusterOf c)) (hubTile (s.rootLea f)))).foldl Nat.max 0

/-- The tick of R70 after a last arrival, and for a block the later tick of R470; none while a partner's JOIN is missing. -/
def State.releaseAfter (s : State) (f id last : Nat) : Option Nat :=
  let h := s.stileHops f id
  let own := s.frameUp (last + 16 * h)
  let gen := Map.get 0 (s.fold f).gens id
  if s.multi f then
    (s.markersOf f 0 (fun m => m.stile == id && m.gen == gen && m.swath == (s.fold f).swath)).map (fun ms =>
      Nat.max own (s.frameUp ((ms.map Prod.fst).foldl Nat.max 0 + 8 * h)))
  else some own

def State.releaseTick (s : State) (f id : Nat) : Option Nat := s.releaseAfter f id (Map.get 0 (s.fold f).lastJoin id)

/-! A STILE that is gated off joins nothing and waits as an active one would (R85). -/

/-- The tick since which a core waits, gated off, for a generation. -/
def Core.offSince (k : Core) (id gen : Nat) : Option Nat :=
  match k.wait with
  | .stileOff i g x => if i = id ∧ g = gen then some x else none
  | _ => none

/-- The gated-off waits for the present generation, each with its core, where every other participant has joined it. -/
def State.offWaits (s : State) (f id : Nat) : List (Nat × Nat) :=
  let gen := Map.get 0 (s.fold f).gens id
  let l := s.stileSet f id
  let off := l.filterMap (fun c => ((s.core c).offSince id gen).map (fun x => (c, x)))
  if l.all (fun c =>
    let k := s.core c
    k.faulted || (k.wait == .stile id gen && k.sends == 0) || (k.offSince id gen).isSome) then off else []

/-- The cores that wait gated off go on at the tick at which the generation would have been released, had they joined. -/
def State.passStile (s : State) (f id : Nat) : State :=
  let off := s.offWaits f id
  if off.isEmpty then s
  else match s.releaseAfter f id ((off.map Prod.snd).foldl Nat.max (Map.get 0 (s.fold f).lastJoin id)) with
    | none => s
    | some x => if x ≤ s.now then
        off.foldl (fun (s : State) e => s.modCore e.1 (fun k => { k with wait := .none, waitOff := false, issueAt := x })) s
      else s

/-- The release reaches every participant on the same tick `x`; that of stile 0 ends the run phase. -/
def State.releaseStile (s : State) (f id x : Nat) : State :=
  let l := s.stileSet f id
  let qs := (l.map clusterOf).dedup
  let gen := Map.get 0 (s.fold f).gens id
  let s := l.foldl (fun (s : State) c => s.modCore c (fun k =>
    if k.faulted then k else { k with wait := .none, issueAt := x })) s
  let s := qs.foldl (fun (s : State) q => s.modCluster q (fun c => { c with count := Nat.min 65535 (c.count + 1) })) s
  let s := s.modFold f (fun x => { x with
    gens := Map.put x.gens id (gen + 1), phase := if id = 0 then .drain else x.phase })
  s.noteRelease f x

/-- R470: a generation that is complete here is told to the block once. -/
def State.tellJoin (s : State) (f id : Nat) : State :=
  let gen := Map.get 0 (s.fold f).gens id
  let key := (s.ownCoord, 0, (s.fold f).swath, id, gen)
  if s.multi f ∧ ¬ (s.fold f).relayed.contains key then
    (s.sendMarker f 0 id gen).modFold f (fun x => { x with relayed := key :: x.relayed })
  else s

def execStileRelease (t f id : Nat) (s : State) : Host.Outcome State Fault Refusal :=
  let s := s.at t
  onUnit (validFold f && decide (id < 16)) (whenever ((s.fold f).phase == .run) (fun s =>
    if s.stileJoined f id then
      let s := s.tellJoin f id
      match s.releaseTick f id with
      | some x => if x ≤ s.now then s.releaseStile f id x else s
      | none => s
    else s.passStile f id) s)

/-! ### SWATH_DRAIN_END (R64 to R66, R363, R471, R472) -/

def Core.isIdle (k : Core) (x : Nat) : Bool :=
  k.mmaRun.isNone && k.mmaWait.isNone && k.await.isEmpty && k.sends == 0 &&
  k.ready.all (fun e => decide (e.2 ≤ x))

def State.queueEmpty (s : State) (q : Nat) (e : Nat × Queue) : Bool :=
  let x := e.2
  x.reqs.isEmpty && x.flight.isEmpty && x.back.isEmpty &&
  (x.inb.isEmpty || (s.queueOwner q e.1).any (fun c => (s.core c).faulted))

/-- R64. -/
def State.isDrained (s : State) (f : Nat) : Bool :=
  s.packets.all (fun p => p.2.fold != f) &&
  s.hubs.all (fun h => h.2.arriving.all (fun c => c.fold != f) && h.2.engines.all (fun e => e.2.all (fun c => c.fold != f))) &&
  (s.foldClusters f).all (fun q =>
    let c := s.cluster q
    c.queues.all (fun e => s.queueEmpty q e) && c.access.all (fun a => a.fold != f) && c.jobs.isEmpty &&
    c.flight.all (fun e => decide (e.2 ≤ s.now)) &&
    c.groups.all (fun g => g.2.writing.isEmpty && g.2.vecs.all (fun v => v.stage == .ready)) &&
    (List.range 48).all (fun j => (s.core (coreAddr q j)).isIdle s.now))

/-- R65: the guard's end after a late drain, the boundary that follows it, and the boundaries passed. -/
def State.overrun65 (s : State) (f at_ : Nat) : State :=
  let x := s.fold f
  let ends := at_ + s.guardBeats f * s.beatTicks
  let nb := s.boundaryFrom f (s.beatFrom ends)
  let skipped := (nb - x.edgeBeat) / s.period f - 1
  let s := s.bump Fld.timFoldCntOverrunCount 0 f
  let s := s.bumpBy Fld.timFoldCntSkippedCount 0 f skipped
  let s := s.report (srcHub (s.rootLea f) (some f)) 0x5011 (at_ - x.tick0) skipped
  s.modFold f (fun y => { y with nextBeat := nb, late := s.fld Fld.timFoldCfgLagPolicy 0 f == 0,
                                 failed := s.fld Fld.timFoldCfgLagPolicy 0 f == 1 })

/-- R162: by the end of drain a pending closure has taken effect. -/
def State.closeDrained (s : State) (f : Nat) : State :=
  (s.foldClusters f).foldl (fun (s : State) q =>
    (((s.cluster q).closing.map (· / 64)).dedup).foldl (fun (s : State) b => s.closureCheck q b) s) s

/-- The drain has ended at tick `at_`: the boundary of R65, the lag policy of R66, and the scheduler's work of R363. -/
def State.endDrain (s : State) (f at_ : Nat) : State :=
  let x := s.fold f
  let s := s.setFld Fld.timFoldStatLastDrainTick 0 f (Nat.min (at_ - x.tick0) (2 ^ 27 - 1))
  let s := s.setFld Fld.timFoldStatLastSwath 0 f x.swath
  let s := (s.foldClusters f).foldl (fun (s : State) q => s.modCluster q (fun c => { c with
    queues := [] })) s
  let s := (s.closeDrained f).modFold f (fun y => { y with
    drainAt := at_, drained := true, phase := .drain, nextBeat := y.edgeBeat + s.period f, formed := false, lateFor := none })
  let s := if s.nominalGuard f < at_ then s.overrun65 f at_ else s
  let s := if (s.fold f).failed then s.failSwath f (some stDeadline) else s.commitSwath f
  if s.foldState f = foldStopping then
    (if s.restore.standbyFolds.contains f then s else s.setFld Fld.timFoldCfgEnable 0 f 0).toIdle f
  else s.tryForm f

/-- R471, R472: all DRAINED markers are here. The drain ended at the latest time-stamp, the module's own among them; a boundary that
has passed by now opens late, at the next beat edge. -/
def State.endDrainBlock (s : State) (f : Nat) : State :=
  match s.markersOf f 1 (fun m => m.swath == (s.fold f).swath) with
  | none => s
  | some ms =>
    let at_ := (ms.map (fun m => s.tickOfNs m.2.stamp)).foldl Nat.max (s.tickOfNs (s.nsAt (s.fold f).drainAt))
    let s := s.endDrain f at_
    if s.edgeTick (s.fold f).nextBeat < s.now ∧ s.foldState f ≠ foldIdle then
      let s := (s.report (srcHub (s.rootLea f) (some f)) 0x6011 (s.blockTag f) (s.swathNumber f (s.fold f).nextBeat)).bump
        Fld.lnkWinStatMarkerLate 0 0
      s.modFold f (fun x => { x with nextBeat := s.beatFrom s.now, lateFor := some x.nextBeat })
    else s

/-- The fold's own drain is over. -/
def State.drainHere (s : State) (f : Nat) : State :=
  if s.multi f then
    let key := (s.ownCoord, 1, (s.fold f).swath, 0, 0)
    if (s.fold f).relayed.contains key then s.endDrainBlock f
    else
      let s := (s.modFold f (fun x => { x with drainAt := s.now, relayed := key :: x.relayed })).sendMarker f 1 0 0
      s.endDrainBlock f
  else s.endDrain f s.now

def State.mayDrain (s : State) (f : Nat) : Bool :=
  (s.foldState f == foldRunning || s.foldState f == foldStopping) && s.phaseNow f == .drain && !(s.fold f).drained &&
  (match (s.fold f).image with
   | some im => !s.foldExact f || decide (im.endTick ≤ s.swathTick f)
   | none => false) && s.isDrained f

/-! ### OUTPUT_ENTRY (R385 step 3, R386, R387) -/

/-- R433: a stream's output could not be written. The item that produced it fails; the stream stays as committed. -/
def State.failOutput (s : State) (ep g : Nat) : State :=
  match Map.find s.mirrors g with
  | some m =>
    if m.entry.ep = ep ∧ ¬ m.data.isEmpty then
      (s.modItem ep m.byItem (fun i => { i with fin := some (match i.fin with
        | some (st, sw, h) => (worse st stFault, sw, h)
        | none => (stFault, m.swath, i.handle)) })).settleEntry g
    else s
  | none => s

/-- `bad` are the streams of the ring whose writes ended in an error. -/
def State.outputEntry (s : State) (f ep streams swath : Nat) (late : Bool) (bad : List Nat) : State :=
  let bad := bad.filter (fun g => (s.entry g).fold == f)
  let s := bad.foldl (fun (s : State) g => s.failOutput ep g) s
  let s := s.writeEntry ep (entryOf 4 (if late then stLate else stOk) 0 0 0xFFFFFFFF swath (streams - bad.length))
  let s := { s with mirrors := s.mirrors.map (fun (m : Nat × Mirror) =>
    if m.2.entry.ep = ep ∧ m.2.entry.fold = f ∧ m.2.swath = swath then (m.1, { m.2 with told := true }) else m) }
  let s := s.modFold f (fun x => { x with owed := x.owed.filter (fun o => !(o.1 == ep && o.2.2.1 == swath)) })
  (s.flushFinals ep).tryForm f

def execOutputEntry (t f : Nat) (a : Acked) (s : State) : Host.Outcome State Fault Refusal :=
  let s := s.at t
  onUnit (validFold f && validEp a.ep) (match (s.fold f).owed.find? (fun o => o.1 == a.ep) with
    | some (_, streams, swath, late) =>
      whenever (s.endpoint a.ep).attached (fun s => s.outputEntry f a.ep streams swath late a.bad) s
    | none => s)

/-! ### STILE_TIMEOUT (R67, R504) -/

/-- The lowest stile at which some participant waits, and its generation. -/
def State.stuckStile (s : State) (f : Nat) : Nat × Nat :=
  let id := ((List.range 16).find? (fun id => (s.stileSet f id).any (fun c => match (s.core c).wait with
    | .stile i _ => i == id
    | .stileOff i _ _ => i == id
    | _ => false))).getD 0
  (id, Map.get 0 (s.fold f).gens id)

/-- Beats of the swath that R504 leaves out of the bound, those of the present freeze among them. -/
def State.frozenBeats (s : State) (f : Nat) : Nat :=
  (s.fold f).frozen + (match s.power.frozenAt with
    | some x => (Nat.min s.now (x + 2000 * s.beatTicks) - Nat.max x (s.fold f).tick0) / s.beatTicks
    | none => 0)

def State.isTimedOut (s : State) (f : Nat) : Bool :=
  (s.foldState f == foldRunning || s.foldState f == foldStopping) && !(s.fold f).drained &&
  [Phase.opened, .run, .drain].contains (s.fold f).phase &&
  decide (s.nominalGuard f + (s.period f + s.frozenBeats f) * s.beatTicks ≤ s.now)

end Sys2Proof.Machine
end

