-- ==== Sys2Proof/Machine/Fabric.lean ====
section
/-! DEFINITION. Rows and answers on the bulk mesh (R24, R151, R262 to R284, R542, R543, R545): launch, the way through the
routers, and arrival at a cluster or a hub. -/

namespace Sys2Proof.Machine

def State.modPacket (s : State) (id : Nat) (f : Packet → Packet) : State :=
  match Map.find s.packets id with
  | some p => { s with packets := Map.put s.packets id (f p) }
  | none => s

def State.removePacket (s : State) (id : Nat) : State :=
  { s with
    packets := Map.del s.packets id
    routers := Map.mapOn Router.reset s.routers (fun _ => true) (fun r => { r with hold := r.hold.erase id }) }

/-- An answer reaches the queue pair that asked, where its request is still under way; the rows of one request come together. -/
def addAnswer (a : Answer) : List Answer → List Answer
  | [] => [a]
  | b :: l => if b.tag = a.tag then { b with rows := b.rows ++ a.rows, refused := b.refused.orElse (fun _ => a.refused) } :: l
    else b :: addAnswer a l
def State.answer (s : State) (core k : Nat) (a : Answer) : State :=
  s.modQueue (clusterOf core) k (fun x => if x.flight.any (fun r => r.tag == a.tag) then { x with back := addAnswer a x.back } else x)

/-- R312, R479: each place that was set aside counts as arrived and holds no row. -/
def emptyRows (n : Nat) : List InRow := List.replicate n ⟨none⟩

/-- The request that a packet serves, as its queue pair keeps it. -/
def State.requestOf (s : State) (p : Packet) : Option QReq :=
  (s.queue (clusterOf p.srcCore) p.srcK).flight.find? (fun r => r.tag == p.tag)

/-- The header of a refusal as it stands at the core that asked. -/
def refusalHeader (core tag cause : Nat) : RowHeader :=
  { kind := 5, rows := 0, index := 0, cause := cause, window := 0, gen := 0, offset := 0, src := core, tag := tag, launch := 0,
    block := 0, dst := 0 }

/-- What a packet of VC1 brings to the cluster that asked: a row, or its loss (R312), an acknowledgement, or a refusal, for which
every place of a read counts as arrived; one from another module waits for its own step (R479). The refusal of a row of a send
counts it off. -/
def State.landPacket (s : State) (p : Packet) : State :=
  match p.kind with
  | .back =>
    let s := s.answer p.srcCore p.srcK ⟨p.tag, [⟨p.row⟩], none⟩
    if p.row.isSome then s else s.failItems p.fold p.srcCore stFault
  | .ack => s.answer p.srcCore p.srcK ⟨p.tag, [], none⟩
  | .refusal c => (match s.requestOf p with
      | some r => s.answer p.srcCore p.srcK ⟨p.tag, if r.write then [] else emptyRows (r.n - r.got), some c⟩
      | none => s)
  | .windowRefusal c => s.deposit noPort (leaOfTile p.from_) (refusalHeader p.srcCore p.tag c) 0
  | .dropped => s.sendDone p.srcCore
  | _ => s

/-- What cannot reach its hub, or comes back lost, of a request of another module or of an engine call. -/
def State.loseRow (s : State) (p : Packet) : State :=
  match p.kind with
  | .linkRow | .linkRead => s.respondLink (.linkRefusal 0) p.tile p.tag
  | .linkBack => s.landLinkRow p.tag p.index none
  | .linkAck => s.landLinkEnd p.tag none
  | .linkRefusal c => s.landLinkEnd p.tag (some c)
  | .relay _ => s.dropTransit p.tag
  | .hubRead a => s.putOperand (leaOfTile p.from_) p.srcCore p.tag a none
  | .operand a => s.putOperand (leaOfTile p.dst) p.srcCore p.tag a none
  | .result true => s.wakeCall p.srcCore p.tag (callStatus (p.row.getD 0))
  | _ => s

/-- Whether a packet serves a queue pair or a send of a core. -/
def PacketKind.ofCore : PacketKind → Bool
  | .slot | .queueWrite | .queueRead | .back | .ack | .refusal _ | .dropped | .windowRefusal _ => true
  | _ => false

/-- A packet that cannot go on. A row of a send is counted off; a request is answered with a refusal on VC1; an answer counts as
arrived, its row lost. The items of the sender fail (R284, R543). -/
def State.refusePacket (s : State) (id : Nat) (p : Packet) : State :=
  let s := s.removePacket id
  match p.kind with
  | .slot => (s.sendDone p.srcCore).failItems p.fold p.srcCore stFault
  | .queueWrite | .queueRead =>
    (s.respond (.refusal 0) p.tile p.srcCore p.srcK p.fold p.tag s.now).failItems p.fold p.srcCore stFault
  | k =>
    let s := if k.ofCore then s.landPacket { p with row := none } else s.loseRow p
    if p.fold = noFold then s else s.failItems p.fold p.srcCore stFault

/-! ### SLOT_LAUNCH (R112) -/

def execSlotLaunch (t pkt : Nat) (s : State) : Host.Outcome State Fault Refusal :=
  let s := s.at t
  .next (match Map.find s.packets pkt with
    | some p => whenever (p.timed && p.row.isSome && p.launch.any (fun x => decide (x ≤ s.now)))
        (fun s => s.modPacket pkt (fun p => { p with entered := p.launch.getD p.entered, launch := none })) s
    | none => s)

/-! ### Which port a packet takes -/

def State.dead (s : State) (x : Nat) : Bool := (s.router x).dead

/-- What a router does with a packet: it leaves by a port, it goes round a dead tile, or it cannot go on. -/
inductive Way where
  | port (p : Nat)
  | around (tiles : List Nat)
  | none
deriving DecidableEq, Repr

/-- The tile beside `x` on the side to which a detour goes (R542): north of an east–west line, or south in tile row 0;
west of a north–south line, or east in column 0. -/
def besidePort (p dead : Nat) : Nat :=
  if p = 1 ∨ p = 3 then (if tileY dead = 0 then 2 else 0) else if tileX dead = 0 then 1 else 3

/-- R542: the way round the dead tile `y`, entered from `x` by port `p` and left by port `e`. -/
def detour (x y p e : Nat) : List Nat :=
  match neighbour y e with
  | none => []
  | some beyond =>
    if e = p then
      let side := besidePort p y
      ((neighbour x side).toList ++ (neighbour y side).toList ++ (neighbour beyond side).toList) ++ [beyond]
    else
      match neighbour x e with
      | some corner => [corner, beyond]
      | none => []

/-- The port by which a row for `d` leaves `x`: an override entry (R544), or the way of R264. -/
def State.plainPort (s : State) (x d : Nat) : Nat :=
  match (s.router x).overrides.find? (fun e => e.1 == d) with
  | some e => e.2
  | none => portTo x d

/-- The way of a packet that has left a route set's fork through `e` at the dead tile, or that only passes through it. -/
def State.wayRound (s : State) (x y p e : Nat) : Way :=
  let l := detour x y p e
  if l.isEmpty ∨ e = opposite p ∨ l.any s.dead then .none else .around l

def State.setWord (s : State) (x e : Nat) : Word := s.reg .cluRtrSet (routerUnit x) e
def setMask (w : Word) : Nat := getBits w 32 5
def maskPorts (m : Nat) : List Nat := (List.range 5).filter (fun p => m / 2 ^ p % 2 == 1)

/-- Where a packet goes next. DESIGN CHOICE (log 130): a copy, or a row under an override, whose port leads off the grid cannot go
on. -/
def State.way (s : State) (p : Packet) : Way :=
  match p.via with
  | y :: _ => .port (portTo p.tile y)
  | [] =>
    let o := match p.out with
      | some o => o
      | none => s.plainPort p.tile p.dst
    match neighbour p.tile o with
    | none => if o = 4 then .port 4 else .none
    | some y =>
      if ¬ s.dead y then .port o
      else match p.route with
        | some e => (match maskPorts (setMask (s.setWord y e)) with
            | [b] => if b < 4 then s.wayRound p.tile y o b else .none
            | _ => .none)
        | none => if y = p.dst then .none else s.wayRound p.tile y o (portTo y p.dst)

/-! ### Contention for a port (R265, R273 to R275, R280, R281) -/

/-- R273: a router without reservations carries elastic traffic only. -/
def State.timedAt (s : State) (p : Packet) : Bool := p.timed && (s.rtrOwner p.tile).isSome

/-- Whether a packet stands in a router, ready to leave: it has entered, what it carries is there, and its route set has given it
a port. -/
def State.stands (s : State) (p : Packet) : Bool :=
  !p.atPort && p.launch.isNone && decide (p.entered ≤ s.now) && (p.kind != .slot || p.row.isSome) &&
  (p.route.isNone || p.out.isSome || !p.via.isEmpty)

/-- Packets that stand in the router of a tile for a port and plane now. -/
def State.waiting (s : State) (x o plane : Nat) : List (Nat × Packet) :=
  s.packets.filter (fun e => e.2.tile == x && e.2.plane == plane && s.stands e.2 && s.way e.2 == .port o)

/-- R265: packets of one input port and virtual channel keep their order. -/
def State.follows (s : State) (id : Nat) (p : Packet) (e : Nat × Packet) : Bool :=
  e.2.inPort == p.inPort && e.2.kind.vc == p.kind.vc && s.timedAt e.2 == s.timedAt p &&
  (if p.timed then e.2.srcCore == p.srcCore && e.2.dst == p.dst && e.2.route == p.route else true) &&
  (decide (e.2.entered < p.entered) || (e.2.entered == p.entered && decide (e.1 < id)))

/-- R275: which of two timed rows goes first. A row in the hold buffer leaves in a cell that no other timed row takes. -/
def Packet.before (a b : Packet) : Bool :=
  if a.held ≠ b.held then b.held
  else if a.hops ≠ b.hops then decide (b.hops < a.hops)
  else if a.inPort ≠ b.inPort then decide (a.inPort < b.inPort)
  else decide (a.srcCore < b.srcCore)

/-- R281: input ports in turn, starting after the port served last. -/
def turnRank (last inPort : Nat) : Nat := (inPort + 4 - last) % 5

/-- R270, R273: the cell of a tick, at a router that counts a fold's frame, is reserved for timed traffic. -/
def State.cellReserved (s : State) (x o plane at_ : Nat) : Bool :=
  match s.rtrOwner x with
  | some f => s.bit Fld.cluRtrRsvCells (routerUnit x) (rsvIndex o plane) ((at_ - (s.fold f).tick0) / 8 % 64)
  | none => false

/-- R275: a hold buffer has room for a row of a plane. -/
def State.holdRoom (s : State) (y plane : Nat) : Bool :=
  decide (((s.router y).hold.filter (fun id => (Map.find s.packets id).any (fun (k : Packet) => k.plane == plane))).length < 8)

/-- Whether the next router has room (R275, R280): 4 rows of each input port and virtual channel for elastic traffic, 8 held
rows a plane for timed traffic. -/
def State.roomAt (s : State) (y o : Nat) (p : Packet) : Bool :=
  if s.timedAt p then s.holdRoom y p.plane
  else decide ((s.packets.filter (fun e => e.2.tile == y && e.2.inPort == opposite o && e.2.plane == p.plane &&
    e.2.kind.vc == p.kind.vc && !s.timedAt e.2 && !e.2.atPort)).length < 4)

/-- The turn of an output port among its input ports, for each virtual channel. -/
def turnKey (o plane vc : Nat) : Nat := rsvIndex o plane + 10 * vc

/-- Elastic traffic: an elastic row starts only where it ends before a reserved cell begins; VC1 goes before VC0, and input
ports take turns. -/
def State.elasticTurn (s : State) (o : Nat) (p : Packet) (others : List (Nat × Packet)) : Bool :=
  let last := Map.get 4 (s.router p.tile).served (turnKey o p.plane p.kind.vc)
  !s.cellReserved p.tile o p.plane s.now && !s.cellReserved p.tile o p.plane (s.now + 7) &&
  others.all (fun e => !s.timedAt e.2 && (decide (e.2.kind.vc < p.kind.vc) ||
    (e.2.kind.vc == p.kind.vc && decide (turnRank last p.inPort ≤ turnRank last e.2.inPort))))

/-- R275: a row of the hold buffer leaves with a cell. DESIGN CHOICE (log 131): cells are those of the fold whose frame the router
counts. -/
def State.onCell (s : State) (p : Packet) : Bool :=
  !p.held || (s.rtrOwner p.tile).any (fun f => (s.now - (s.fold f).tick0) % 8 == 0)

/-- Whether packet `id` leaves by port `o` in this cell: the port is free, the next router has room, no packet goes before
it in its own stream, and it is its turn. -/
def State.mayLeave (s : State) (id : Nat) (p : Packet) (o : Nat) : Bool :=
  let others := (s.waiting p.tile o p.plane).filter (fun e => e.1 != id)
  decide (Map.get 0 (s.router p.tile).cells (rsvIndex o p.plane) ≤ s.now) && s.onCell p &&
  ((neighbour p.tile o).all (fun y => o == 4 || s.roomAt y o p)) && others.all (fun e => !s.follows id p e) &&
  (if s.timedAt p then others.all (fun e => !s.timedAt e.2 || !e.2.before p || s.follows e.1 e.2 (id, p))
   else s.elasticTurn o p others)

/-- Whether a timed row has lost its cell to another timed row: one has the port, or goes before it. -/
def State.losesCell (s : State) (id o : Nat) (p : Packet) : Bool :=
  decide (s.now < Map.get 0 (s.router p.tile).timedAt (rsvIndex o p.plane)) ||
  ((s.waiting p.tile o p.plane).filter (fun e => e.1 != id)).any (fun e => s.timedAt e.2 && (e.2.before p || s.follows id p e))

/-- R275: a timed row that loses its cell, or that the full hold buffer of the next router keeps here, waits in the hold buffer; in
exact mode that is reported. Where this buffer is full too, the row stays as it came, and is looked at again. -/
def State.holdRow (s : State) (id o : Nat) (p : Packet) : State :=
  let kept := (neighbour p.tile o).any (fun y => o != 4 && !s.roomAt y o p)
  if ¬ s.timedAt p ∨ p.held ∨ ¬ (s.losesCell id o p ∨ kept) ∨ ¬ s.holdRoom p.tile p.plane then s
  else
    let s := (s.modPacket id (fun p => { p with held := true })).modRouter p.tile (fun r => { r with hold := r.hold ++ [id] })
    if s.foldExact p.fold then
      let u := routerUnit p.tile
      let src := match clusterOfTile p.tile with
        | some q => srcAgent q (some p.fold)
        | none => srcHub (leaOfTile p.tile) (some p.fold)
      (s.bump Fld.cluFabContractCollisionCount u 0).report src 0x5002 (rsvIndex o p.plane)
        (s.swathTick p.fold / 8 % 64)
    else s

/-- The packet takes its cell and enters the next router, or leaves through the local port. -/
def State.leave (s : State) (id o : Nat) (p : Packet) : State :=
  let key := rsvIndex o p.plane
  let timed := s.timedAt p
  let s := s.modRouter p.tile (fun r => { r with
    cells := Map.put r.cells key (s.now + 8), hold := r.hold.erase id
    served := if timed then r.served else Map.put r.served (turnKey o p.plane p.kind.vc) p.inPort
    timedAt := if timed then Map.put r.timedAt key (s.now + 8) else r.timedAt })
  match neighbour p.tile o with
  | none => s.modPacket id (fun p => { p with entered := s.now, atPort := true, held := false })
  | some y =>
    let done := p.via.drop 1
    s.modPacket id (fun p => { p with
      tile := y, inPort := if p.via.length = 1 ∧ p.route.isSome then (p.out.map opposite).getD (opposite o) else opposite o,
      hops := p.hops + 1, entered := s.now + 8, via := done, out := if done.isEmpty then none else p.out, held := false })

/-! ### Route sets (R267, R268) -/

/-- R268: whether a copy stays on its tree here. -/
def State.onTree (s : State) (p : Packet) (e : Nat) : Bool :=
  let w := s.setWord p.tile e
  getBits w 63 1 == 1 && getBits w 48 8 == p.fold && getBits w 40 3 == p.inPort

/-- A copy is dropped whole: it is counted once, at its first row. -/
def State.routeFault (s : State) (id : Nat) (p : Packet) (e : Nat) : State :=
  let u := routerUnit p.tile
  let src := match clusterOfTile p.tile with
    | some q => srcAgent q (some p.fold)
    | none => srcHub (leaOfTile p.tile) (some p.fold)
  let s := if p.index = 0 then (s.bump Fld.cluFabRefusedRouteSetCount u 0).report src 0x500A e p.inPort else s
  ((s.removePacket id).sendDone p.srcCore).failItems p.fold p.srcCore stFault

/-- One copy for each port of the mask; the sender waits for all of them (R279). -/
def State.copies (s : State) (id : Nat) (p : Packet) (ports : List Nat) : State :=
  match ports with
  | [] => (s.removePacket id).sendDone p.srcCore
  | o :: rest =>
    let s := s.modPacket id (fun p => { p with out := some o })
    let s := s.modCore p.srcCore (fun k => { k with sends := k.sends + rest.length })
    rest.foldl (fun (s : State) o => s.inject { p with out := some o }) s

/-- A packet in a router of its route set gets its port or its copies. -/
def State.forkRow (s : State) (id : Nat) (p : Packet) : State :=
  match p.route, p.out, p.via with
  | some e, none, [] => if s.onTree p e then s.copies id p (maskPorts (setMask (s.setWord p.tile e))) else s.routeFault id p e
  | _, _, _ => s

/-! ### ROUTER_ROW -/

/-- A packet goes on from its router, or waits there. -/
def State.forwardRow (s : State) (id : Nat) : State :=
  match Map.find s.packets id with
  | none => s
  | some p =>
    match s.way p with
    | .none => (match p.route with
        | some e => s.routeFault id p e
        | none => s.refusePacket id p)
    | .around tiles =>
      -- R542: detoured rows travel as elastic traffic; their arrival entries still wait for them (R277)
      let face := match p.route, neighbour p.tile ((p.out).getD 4) with
        | some e, some y => ((maskPorts (setMask (s.setWord y e))).head?)
        | _, _ => none
      s.modPacket id (fun p => { p with timed := false, detour := p.detour || p.timed, via := tiles, out := face })
    | .port o => if s.mayLeave id p o then s.leave id o p else s.holdRow id o p

def execRouterRow (t pkt : Nat) (s : State) : Host.Outcome State Fault Refusal :=
  let s := s.at t
  .next (match Map.find s.packets pkt with
    | some p => whenever (!p.atPort && p.launch.isNone && decide (p.entered ≤ s.now) && (p.kind != .slot || p.row.isSome))
        (fun s => (s.forkRow pkt p).forwardRow pkt) s
    | none => s)

/-! ### Arrival (R151, R283, R284) -/

/-- R284: the refusal of a row of a send goes back on VC1, and the sender counts the row off when it lands. -/
def State.answerSlot (s : State) (p : Packet) : State :=
  s.inject { meshPacket .dropped p.srcCore 0 p.fold p.tile (tileOf (clusterOf p.srcCore)) 0 s.now with plane := p.plane }

/-- A refused request is dropped whole: it is reported and answered once, at its first row. -/
def State.refuseArrival (s : State) (q id : Nat) (p : Packet) (row : Nat) (a : Arrived) : State :=
  if p.index = 0 then
    let s := s.refuseTarget q row 0 p.srcCore p.fold p.srcCore a
    if p.kind = .slot then (s.removePacket id).answerSlot p else s.refusePacket id p
  else if p.kind = .slot then (s.removePacket id).sendDone p.srcCore
  else s.removePacket id

/-- R265: a row leaves the local port after every earlier one of its source, plane and virtual channel. -/
def State.portFirst (s : State) (id : Nat) (p : Packet) : Bool :=
  s.packets.all (fun e => e.1 == id || !(e.2.atPort && e.2.tile == p.tile && e.2.from_ == p.from_ && e.2.plane == p.plane &&
    e.2.kind.vc == p.kind.vc && (decide (e.2.entered < p.entered) || (e.2.entered == p.entered && decide (e.1 < id)))))

/-- The tick at which a row that leaves through a local port in a cell is written: the last bank edge before it is readable
(R271). -/
def State.arrivalEdge (s : State) (p : Packet) : Nat :=
  let t0 := (s.fold p.fold).tick0
  t0 + (p.entered + 17 - t0) / 3 * 3

/-- R276: the arrival entry that a timed row matches, by source cluster, frame and slot. -/
def State.expected (s : State) (q : Nat) (p : Packet) : Bool :=
  (s.cluster q).arrivals.any (fun a =>
    a.flow.src == clusterOf p.srcCore && a.left.contains (p.first + p.index) &&
    p.start == (s.fold p.fold).tick0 + 512 * a.flow.frame + 32 * a.flow.slot)

/-- A timed row at its destination's local port: it is matched, checked, and presented to its bank. -/
def State.timedArrival (s : State) (q id : Nat) (p : Packet) (r : Row) : State :=
  let row := p.first + p.index
  match s.judgeArrival p.fold q p.first p.count with
  | .admitted =>
    let s := if s.foldExact p.fold ∧ ¬ s.expected q p then
        (s.bump Fld.cluFabContractCollisionCount q 0).report (srcAgent q (some p.fold)) 0x5002 (rsvIndex 4 p.plane)
          ((p.entered - (s.fold p.fold).tick0) / 8 % 64)
      else s
    (s.removePacket id).present q ⟨.routerTimed, row, s.arrivalEdge p, .write 48 r, p.fold, p.srcCore, false⟩
  | a => s.refuseArrival q id p row a

def execTimedRowArrival (t pkt : Nat) (s : State) : Host.Outcome State Fault Refusal :=
  let s := s.at t
  .next (match Map.find s.packets pkt with
    | some p => (match clusterOfTile p.tile, p.row with
        | some q, some r => whenever (p.atPort && p.timed && s.portFirst pkt p) (fun s => s.timedArrival q pkt p r) s
        | _, _ => s)
    | none => s)

/-- A request of another module at its cluster: it is judged whole with its first row, and its rows are presented to their
banks. -/
def State.linkArrival (s : State) (q : Nat) (p : Packet) : State :=
  match s.transit p.tag with
  | none => s
  | some t =>
    let present := fun (s : State) (i row : Nat) => s.presentPort q p.tag i row t.fold t.serves (p.row.map (fun r => (48, r)))
    if 0 < p.index then (if (Map.find (s.cluster q).port p.tag).isSome then present s p.index p.first else s)
    else match s.judgeLink q t with
      | .admitted =>
        let s := s.openPort q p.tag .link p.count
        if p.kind = .linkRead then (List.range p.count).foldl (fun (s : State) i => present s i (s.transitRow t i)) s
        else present s 0 p.first
      | a => s.refuseLink q p.tag t a

/-- An elastic row or a queue request at a cluster: it is judged, and its rows are presented to their banks. The later rows of a
write follow the judgement of its first one. -/
def State.portArrival (s : State) (q id : Nat) (p : Packet) : State :=
  let row := p.first + p.index
  match p.kind with
  | .slot =>
    (match p.row, s.judgeArrival p.fold q p.first p.count with
     | some r, .admitted =>
       ((s.removePacket id).openPort q id (.slot p.srcCore (if p.detour then some row else none)) 1).presentPort q id 0 row
         p.fold p.srcCore (some (48, r))
     | _, a => s.refuseArrival q id p row a)
  | .queueWrite =>
    (match p.row, if p.index = 0 then s.judgeArrival p.fold q p.first p.count
        else if (Map.find (s.cluster q).port p.tag).isSome then .admitted else .overrun with
     | some r, .admitted =>
       let s := s.removePacket id
       (if p.index = 0 then s.openPort q p.tag (.write p.srcCore p.srcK p.fold) p.count else s).presentPort q p.tag p.index
         row p.fold p.srcCore (some (48, r))
     | _, a => s.refuseArrival q id p p.first a)
  | .queueRead =>
    (match s.judgeArrival p.fold q p.first p.count with
     | .admitted =>
       let s := (s.removePacket id).openPort q p.tag (.read p.srcCore p.srcK p.fold) p.count
       (List.range p.count).foldl (fun (s : State) i => s.presentPort q p.tag i (p.first + i) p.fold p.srcCore none) s
     | a => s.refuseArrival q id p p.first a)
  | .linkRow | .linkRead => (s.removePacket id).linkArrival q p
  | .result block =>
    (match p.row, s.judgeArrival p.fold q p.first p.count with
     | some r, .admitted => (s.removePacket id).landResult q p.srcCore p.tag p.fold row r block
     | _, a =>
       let s := (s.removePacket id).loseRow p
       if p.index = 0 then s.refuseTarget q p.first 1 (hubAddr (leaOfTile p.from_)) p.fold p.srcCore a else s)
  | _ => (s.removePacket id).landPacket p

/-- A request joins those that wait for the stack controller (R303). -/
def State.joinStack (s : State) (n : Nat) (x : StackReq) : State := s.modDram n (fun d => { d with remote := d.remote ++ [x] })

/-- A request of an agent of a hub to a stack, for `rows` or for a read of `n` rows. -/
def agentReq (tag n row k core : Nat) (write : Bool) (rows : List Row) : QReq :=
  ⟨tag, write, stackWord n row, k, rows, core, 0, 0, 0, 0⟩

/-- A request of another module at the hub of its stack: it waits for the controller once its last row is there. -/
def State.linkAtStack (s : State) (n : Nat) (p : Packet) : State :=
  match s.transit p.tag with
  | none => s
  | some t =>
    let rows := t.rows ++ p.row.toList
    let s := s.setTransit p.tag { t with rows := rows }
    if p.kind = .linkRead ∨ p.index + 1 = p.count then
      s.joinStack n ⟨.link p.tag, agentReq p.tag n (s.transitRow t 0) t.header.rows t.header.src (t.header.kind == 1) rows⟩
    else s

/-- A packet at a hub. A request with its last row joins those that wait for the stack controller (R303), or leaves over the hub's
link (R24); what serves another module or an engine call goes on there. A hub has no scratchpad for a row of a send. -/
def State.hubArrival (s : State) (n id : Nat) (p : Packet) : State :=
  let whole := p.kind == .queueRead || decide (p.index + 1 = p.count)
  let request := s.requestOf p
  let s := s.removePacket id
  match p.kind with
  | .queueWrite | .queueRead => (match request with
      | some r => if ¬ whole then s
        else (match remoteOf r.addr with
          | .window _ _ => s.sendWindow p.fold r
          | _ => s.joinStack n ⟨.queue (clusterOf p.srcCore) p.srcK, r⟩)
      | none => s)
  | .slot => s.sendDone p.srcCore
  | .linkRow | .linkRead => s.linkAtStack n p
  | .linkBack => s.landLinkRow p.tag p.index p.row
  | .linkAck => s.landLinkEnd p.tag none
  | .linkRefusal c => s.landLinkEnd p.tag (some c)
  | .relay vc => s.landRelay p.tag vc p.row
  | .hubRead a => s.joinStack n ⟨.engine (leaOfTile p.from_) p.srcCore p.tag p.fold,
      agentReq p.tag n (getBits a 9 28) 1 p.srcCore false []⟩
  | .operand a => s.putOperand n p.srcCore p.tag a p.row
  | _ => s

def execRouterPortArrival (t pkt : Nat) (s : State) : Host.Outcome State Fault Refusal :=
  let s := s.at t
  .next (match Map.find s.packets pkt with
    | some p => whenever (p.atPort && !p.timed && s.portFirst pkt p) (fun s => match clusterOfTile p.tile with
        | some q => s.portArrival q pkt p
        | none => s.hubArrival (leaOfTile p.tile) pkt p) s
    | none => s)

end Sys2Proof.Machine
end

