-- ==== Sys2Proof/Machine/Stack.lean ====
section
/-! DEFINITION. The stack controller of a lea (R298, R303 to R308, R314 to R317): the rounds in which it admits requests,
refresh, scrubbing, self-refresh, and writes to the region descriptors. -/

namespace Sys2Proof.Machine

/-! ### Admission (R303, R304) -/

/-- The fold that a request acts for: that of its layer entry where the side path sent it (R299). -/
def State.requestFold (s : State) (x : StackReq) : Option Nat :=
  match x.source with
  | .queue q _ =>
    if x.req.role = 1 then
      (((s.cluster q).jobs.find? (fun j => j.left.any (fun t => t.1 == x.req.tag))).map SideJob.fold).orElse
        (fun _ => s.foldOf q)
    else s.foldOf q
  | .link tag => (s.transit tag).map Transit.fold
  | .engine _ _ _ f => some f
  | .codec => none

/-- The items that a request serves: a request from another module serves none of this one. -/
def StackReq.serves (x : StackReq) : Nat :=
  match x.source with
  | .link _ => noItems
  | _ => x.req.core

/-- A data row for an engine call goes to its hub. -/
def State.answerEngine (s : State) (n m core number f : Nat) (addr : Word) (row : Option Row) : State :=
  if m = n then s.putOperand n core number addr row else s.sendOperand (hubTile n) m core number f addr s.now row

/-- A request is refused: no row is read or written, and the items of the core that asked fail (R108). -/
def State.refuseStackReq (s : State) (n : Nat) (x : StackReq) : State :=
  let f := s.requestFold x
  let s := match x.source with
    | .queue q k => s.respond (.refusal 0) (hubTile n) (agentAddr q) k (f.getD 0) x.req.tag s.now
    | .link tag => s.respondLink (.linkRefusal 0) (hubTile n) tag
    | .engine m core number g => s.answerEngine n m core number g x.req.addr none
    | .codec => s
  s.failItems? f x.serves stFault

/-- A row belongs to the page table of a request entry. -/
def State.inTable (s : State) (n a : Nat) : Bool :=
  s.entries.any (fun e => decide (0 < e.2.ptCap) && getBits e.2.ptBase 56 6 == n && decide ((e.2.tableRow 0).2 ≤ a) &&
    decide (a ≤ (e.2.tableRow (e.2.ptCap - 1)).2))

/-- R299, R300: every row lies in a region that the request may reach. The hub's agents may reach every region. DESIGN CHOICE
(log 49): the walker reads page tables, which firmware keeps, in a region or not. -/
def State.stackAdmits (s : State) (n : Nat) (x : StackReq) : Bool :=
  let a := getBits x.req.addr 9 28
  match x.source with
  | .queue _ _ | .link _ => s.reachesRows n (s.requestFold x) x.req.write a x.req.n
  | .engine _ _ _ _ => (List.range x.req.n).all (fun i => (s.regionOf n (a + i)).isSome || s.inTable n (a + i))
  | .codec => (List.range x.req.n).all (fun i => (s.regionOf n (a + i)).isSome)

/-- What was written is acknowledged. -/
def State.ackStack (s : State) (n : Nat) (x : StackReq) : State :=
  match x.source with
  | .queue q k => s.respond .ack (hubTile n) (agentAddr q) k ((s.requestFold x).getD 0) x.req.tag s.now
  | .link tag => s.respondLink .linkAck (hubTile n) tag
  | _ => s

/-- What was read goes back. -/
def State.answerStack (s : State) (n : Nat) (x : StackReq) (rows : List (Option Row)) : State :=
  match x.source with
  | .queue q k => s.respondRows (hubTile n) (agentAddr q) k ((s.requestFold x).getD 0) x.req.tag s.now rows
  | .link tag => s.respondLinkRows (hubTile n) tag s.now rows
  | .engine m core number f => s.answerEngine n m core number f x.req.addr (rows.headD none)
  | .codec => s

/-- Serves an admitted request in address order. -/
def State.serveStack (s : State) (n : Nat) (x : StackReq) : State :=
  let f := s.requestFold x
  let a := getBits x.req.addr 9 28
  if s.stackState n ≠ stackActive then s.refuseStackReq n x
  else if ¬ s.stackAdmits n x then (s.refuseStackReq n x).report (srcHub n f) 0x3003 n a
  else if x.req.write then (s.stackWrites n a x.req.data).ackStack n x
  else
    let (rows, s) := s.stackReads n a f x.req.n
    let s := if rows.all Option.isSome then s else s.failItems? f x.serves stFault
    s.answerStack n x rows

/-- The request of a queue pair that waits for the cluster's own stack: its first, where no write before it holds it up (R304). -/
def State.ownRequest (s : State) (q k : Nat) : Option (QReq × List QReq) :=
  takeFirst (fun r => ownStack q r && (s.queue q k).mayGo r) (s.queue q k).reqs

/-- The next queue pair of a cluster, in turn, with a request for the stack. -/
def State.nextQueue (s : State) (n q : Nat) : Option Nat :=
  let last := Map.get 15 (s.dram n).queueTurn q
  ((List.range 16).map (fun i => (last + 1 + i) % 16)).find? (fun k => (s.ownRequest q k).isSome)

/-- Takes the next request of a source of the round: 0 the hub's agents, 1 to 24 the clusters, 25 the remote source. -/
def State.takeFrom (s : State) (n src : Nat) : Option (StackReq × State) :=
  if src = 0 then
    match (s.dram n).agents with
    | x :: l => some (x, s.modDram n (fun d => { d with agents := l }))
    | [] => none
  else if src ≤ 24 then
    let q := 24 * n + (src - 1)
    match s.nextQueue n q with
    | none => none
    | some k => match s.ownRequest q k with
      | none => none
      | some (r, l) => some (⟨.queue q k, r⟩, (s.modQueue q k (fun x => { x with reqs := l, flight := x.flight ++ [r] })).modDram n
          (fun d => { d with queueTurn := Map.put d.queueTurn q k }))
  else match (s.dram n).remote with
    | x :: l => some (x, s.modDram n (fun d => { d with remote := l }))
    | [] => none

/-- How many requests a source may have admitted in one visit. -/
def State.visit (s : State) (n src : Nat) : Nat := if src = 25 then s.fld Fld.hubStkArbRemoteWeight n 0 else 1

/-- The next request of the round; sources with nothing waiting are passed over. -/
def State.nextRequest (s : State) (n : Nat) : Nat → Option (StackReq × State)
  | 0 => none
  | k + 1 =>
    let d := s.dram n
    let pass := fun (s : State) =>
      let t := (d.turn + 1) % 26
      s.modDram n (fun d => { d with turn := t, left := s.visit n t })
    if d.left = 0 ∧ d.turn ≠ 0 then (pass s).nextRequest n k
    else match s.takeFrom n d.turn with
      | none => (pass s).nextRequest n k
      | some (x, s) =>
        some (x, if 1 < d.left then s.modDram n (fun d => { d with left := d.left - 1 }) else pass s)

def execStackRequestAdmit (t n : Nat) (s : State) : Host.Outcome State Fault Refusal :=
  let s := s.at t
  onUnit (validLea n) (
    if s.stackState n = stackSelfRefresh ∧ (s.dram n).exitAt.isSome then s
    else match s.nextRequest n 27 with
      | some (x, s) => s.serveStack n x
      | none => s)

/-! ### Refresh, temperature and scrubbing (R306 to R308, R314) -/

/-- R306: 200 ns on the stack's bank. Which rows share a bank is not specified (R308). -/
def execStackRefresh (t n bank : Nat) (s : State) : Host.Outcome State Fault Refusal :=
  let s := s.at t
  onUnit (validLea n) (whenever (s.stackState n == stackActive) (fun s =>
    s.modDram n (fun d => { d with busy := Map.put (d.busy.filter (fun e => decide (s.now < e.2))) bank (s.now + s.beatTicks / 5) })) s)

/-- R307: the doubled rate while the hottest die reads 85 °C or more, until every die reads below 82 °C. -/
def State.refreshRate (s : State) (n hottest : Nat) : State :=
  if 85 ≤ hottest then s.setFld Fld.hubStkStatusHotRefresh n 0 1
  else if hottest < 82 ∧ ¬ (s.dram n).sensorDead then s.setFld Fld.hubStkStatusHotRefresh n 0 0 else s

def execStackTemperatureRead (t n : Nat) (temps : List Nat) (s : State) : Host.Outcome State Fault Refusal :=
  let s := s.at t
  let h := maxOf temps
  onUnit (validLea n) (((s.modDram n (fun d => { d with
    temps := temps, sensor := if d.sensorDead then d.sensor else 8 * h })).setFld Fld.hubStkStatusTemp n 0 h).refreshRate n h)

/-- R314: the scrubber reads a row of a valid region and writes a corrected row back. -/
def State.scrubStack (s : State) (n a : Nat) : State :=
  match s.regionOf n a with
  | none => s
  | some _ =>
    let k := s.coded n a
    match (s.modDram n (fun d => { d with scrubbed := a })).stackRead n a none with
    | (some r, s) => if k.fixed.isEmpty ∧ k.beyond.isEmpty then s else s.stackWrite n a r
    | (none, s) => s

def execStackScrub (t n row : Nat) (s : State) : Host.Outcome State Fault Refusal :=
  let s := s.at t
  onUnit (validLea n) (whenever (s.stackState n == stackActive) (fun s => s.scrubStack n row) s)

/-! ### Self-refresh (R315, R316) -/

/-- Every request that is not served is refused: those of the lea's clusters for their own stack, the hub's agents' and the
remote ones. -/
def State.refuseWaiting (s : State) (n : Nat) : State :=
  let s := (List.range 24).foldl (fun (s : State) i =>
    let q := 24 * n + i
    (s.cluster q).queues.foldl (fun (s : State) e =>
      let own := e.2.reqs.filter (ownStack q)
      let s := s.modQueue q e.1 (fun x => { x with reqs := x.reqs.filter (fun r => !ownStack q r), flight := x.flight ++ own })
      own.foldl (fun (s : State) r => s.refuseStackReq n ⟨.queue q e.1, r⟩) s) s) s
  let d := s.dram n
  (d.agents ++ d.remote).foldl (fun (s : State) x => s.refuseStackReq n x)
    (s.modDram n (fun d => { d with agents := [], remote := [] }))

def State.enterSelfRefresh (s : State) (n : Nat) : State :=
  if s.stackState n = stackFailed then s
  else ((s.refuseWaiting n).setFld Fld.hubStkStatusState n 0 stackSelfRefresh).modDram n (fun d => { d with exitAt := none })

/-- The exit begins: what arrived before it has been refused. -/
def State.beginExit (s : State) (n : Nat) : State :=
  if s.stackState n = stackSelfRefresh ∧ (s.dram n).exitAt.isNone then
    (s.refuseWaiting n).modDram n (fun d => { d with exitAt := some s.now })
  else s

def execSelfRefreshExit (t n : Nat) (s : State) : Host.Outcome State Fault Refusal :=
  let s := s.at t
  onUnit (validLea n) (whenever (s.stackState n == stackSelfRefresh &&
      (s.dram n).exitAt.any (fun x => decide (x + 10 * s.beatTicks ≤ s.now)))
    (fun s => (s.setFld Fld.hubStkStatusState n 0 stackActive).modDram n (fun d => { d with exitAt := none })) s)

/-! ### Region descriptors (R297, R298) -/

/-- A request names rows of a region. -/
def State.inRegion (s : State) (n i : Nat) (r : QReq) : Bool :=
  match remoteOf r.addr with
  | .stack m a => m == n && r.role != 2 && decide (a < s.regionBase n i + s.regionRows n i) &&
      decide (s.regionBase n i < a + r.n)
  | _ => false

/-- A request to the region is admitted or in flight: some of its rows are still to land, it waits at its queue pair or at the hub
or travels there, or it came over a link and is not answered yet (R478). -/
def State.regionInUse (s : State) (n i : Nat) : Bool :=
  s.clusters.any (fun c => c.2.queues.any (fun e => (e.2.reqs ++ e.2.flight).any (s.inRegion n i))) ||
  ((s.dram n).remote ++ (s.dram n).agents).any (fun x => s.inRegion n i x.req) ||
  s.transits.any (fun t => t.2.target.any (fun d => d.stack && d.unit == n && d.index == i))

/-- Clearing valid and changing nothing else: whether it is accepted. -/
def State.regionClears (s : State) (p : Path) (n i : Nat) : Bool :=
  let f := s.regionFold n i
  let owned := s.fld Fld.hubStkRegionCfgFwOwned n i == 1
  !s.regionInUse n i && ((!owned && s.foldState f == foldIdle) || (p == .steward && (owned || s.inGuard f)))

/-- The fields of a descriptor word; reserved bits read zero (R9). -/
def regionKeep (cfg : Bool) (v : Word) : Word :=
  ((if cfg then Reg.hubStkRegionCfg else Reg.hubStkRegion).fields).foldl (fun (acc : Word) d =>
    setBits acc d.lo d.width (getBits v d.lo d.width)) 0

/-- R298: a write that sets valid. -/
def State.regionFits (s : State) (n i : Nat) (span cfg : Word) : Bool :=
  let base := getBits span Fld.hubStkRegionBaseRow.lo Fld.hubStkRegionBaseRow.width
  let count := getBits span Fld.hubStkRegionRowCount.lo Fld.hubStkRegionRowCount.width
  let wclass := getBits cfg Fld.hubStkRegionCfgWclass.lo 1 == 1
  let rows := spanRows wclass count
  (List.range 64).all (fun j => j == i || !s.regionValid n j ||
    decide (base + rows ≤ s.regionBase n j) ||
    decide (s.regionBase n j + spanRows (s.regionWclass n j) (s.regionRows n j) ≤ base)) &&
  decide (base + rows ≤ 140625000) && count != 0 && (!wclass || count % 5 == 0) &&
  (getBits cfg Fld.hubStkRegionCfgFwOwned.lo 1 == 1 ||
    s.foldState (getBits cfg Fld.hubStkRegionCfgFold.lo Fld.hubStkRegionCfgFold.width) == foldIdle)

/-- A write to a region descriptor: whether it is accepted, and its effect. -/
def State.writeRegion (s : State) (p : Path) (n i : Nat) (cfg : Bool) (v : Word) : Bool × State :=
  let w := regionKeep cfg v
  if s.regionValid n i then
    if cfg ∧ w = setBits (s.reg .hubStkRegionCfg n i) Fld.hubStkRegionCfgValid.lo 1 0 ∧ s.regionClears p n i then
      (true, s.setReg .hubStkRegionCfg n i w)
    else (false, s)
  else if ¬ cfg then (true, s.setReg .hubStkRegion n i w)
  else if getBits w Fld.hubStkRegionCfgValid.lo 1 = 0 ∨ s.regionFits n i (s.reg .hubStkRegion n i) w then
    (true, s.setReg .hubStkRegionCfg n i w)
  else (false, s)

def validRegion (n i : Nat) : Bool := validLea n && decide (i < 64)

def execRegionDescriptorWrite (t : Nat) (p : Path) (n i : Nat) (cfg : Bool) (v : Word) (s : State) :
    Host.Outcome State Fault Refusal :=
  let w := (s.at t).writeRegion p n i cfg v
  onUnit (validRegion n i) (w.2.completes p ((if cfg then Reg.hubStkRegionCfg else .hubStkRegion).addr n i) w.1)

def execRegionClear (t : Nat) (p : Path) (n i : Nat) (s : State) : Host.Outcome State Fault Refusal :=
  let s := s.at t
  let w := s.writeRegion p n i true (setBits (s.reg .hubStkRegionCfg n i) Fld.hubStkRegionCfgValid.lo 1 0)
  onUnit (validRegion n i) (w.2.completes p (Reg.hubStkRegionCfg.addr n i) w.1)

end Sys2Proof.Machine
end

