-- ==== Sys2Proof/Machine/View.lean ====
section
/-! DEFINITION. Reading a setup register (R6 to R9, R35): the registers that show a part of the state, and the rest. -/

namespace Sys2Proof.Machine

/-- Open streams of a model in a fold; a draft entry goes with its target. -/
def State.openStreams (s : State) (h f : Nat) : Nat :=
  (s.entries.filter (fun e => e.2.model == h && e.2.fold == f && !e.2.draft && e.2.state != eFree && e.2.state != eDone)).length

/-- The arrays of a copy, by cluster, named group and place in the group, and whether it holds a named group. -/
def Copy.arrays (c : Copy) : List (Nat × Nat × Nat) :=
  (c.tensors.flatMap (fun p => match p.analog with
    | some (g, _, mask) => ((List.range 8).filter (fun i => mask / 2 ^ i % 2 == 1)).map (fun i => (p.cluster, g, i))
    | none => [])).dedup
def Copy.holds (c : Copy) (q g : Nat) : Bool :=
  c.tensors.any (fun p => p.cluster == q && p.analog.any (fun a => a.1 == g))

/-- The 32 bytes of a model record (Table 11-11), as a number. -/
def State.modelRecord (s : State) (h : Nat) : Nat :=
  match Map.find s.models h with
  | none => 0
  | some m =>
    let building := (m.next.map Copy.fold).orElse (fun _ => if s.rebuilds.any (fun r => m.cur.holds r.q r.named) then
      some m.cur.fold else none)
    m.state + 2 ^ 8 * ((if m.adapter then 1 else 0) + (if m.cur.digital then 2 else 0) + (if building.isSome then 4 else 0) +
        (if m.waiting then 8 else 0)) + 2 ^ 16 * m.cur.fold + 2 ^ 24 * building.getD 0 +
      2 ^ 32 * (s.openStreams h m.cur.fold % 65536) +
      2 ^ 48 * ((m.old.map (fun c => s.openStreams h c.fold)).foldl (· + ·) 0 % 65536) + 2 ^ 64 * (m.ident % 2 ^ 64) +
      2 ^ 128 * (m.cur.version % 2 ^ 64) + 2 ^ 192 * (m.base % 65536) + 2 ^ 208 * (m.cur.arrays.length % 65536) +
      2 ^ 224 * ofBytes (m.cur.hash.take 4)

/-- The endpoint that CLI_EP_SEL names. -/
def State.selEp (s : State) : Nat := s.fld Fld.cliEpSelEp 0 0
/-- CLI_EP_CFG as it stands: `isOpen` is its bit 61. -/
def Endpoint.cfgWord (e : Endpoint) : Word := setBits e.cfg 61 1 (if e.isOpen then 1 else 0)
/-- After a P or W reset what follows from the ledger reads zero until replay has read it. -/
def Endpoint.unread (e : Endpoint) : Bool := (e.resumeClass == 1 || e.resumeClass == 2) && decide (e.state < 3) && !e.headSeen
/-- CLI_EP_STATE and CLI_EP_CMP_POS (Tables 12-15 and 12-16). -/
def Endpoint.stateWord (e : Endpoint) : Word :=
  BitVec.ofNat 64 (e.state * 2 ^ 61 + (if e.unread then 0 else e.unresolved % 2 ^ 17 * 2 ^ 32 + e.nextSub % 2 ^ 32))
def Endpoint.posWord (e : Endpoint) : Word :=
  if e.unread then 0 else BitVec.ofNat 64 (e.nextCmp % 2 ^ 32 * 2 ^ 32 + seqSub e.nextCmp (e.reach e.nextCmp))

def State.selLog (s : State) : Log :=
  if s.fld Fld.fltLogSelGlobal 0 0 = 1 then s.globalLog else (s.hub (s.fld Fld.fltLogSelLea 0 0)).log

/-- Table 01-5. -/
def State.leaMap (s : State) (n : Nat) : Nat :=
  ((List.range 24).map (fun k => s.position (24 * n + k) * 4 ^ k)).foldl (· + ·) 0

/-- Table 05-14. -/
def State.calData (s : State) (q : Nat) : Nat :=
  let w := (Map.get Arr.reset (s.cluster q).arrays (s.fld Fld.cluArrCalSelArray q 0)).words
  let c := s.fld Fld.cluArrCalSelColumn q 0
  ofSigned 16 w.kappa * 2 ^ 48 + ofSigned 8 w.tCal * 2 ^ 40 + ofSigned 8 (Map.get 0 w.offset c) * 2 ^ 32 +
    Map.get 16384 w.gamma c % 2 ^ 16

/-- Table 06-9. -/
def State.normData (s : State) (q : Nat) : Nat :=
  let x := Map.get NormSlot.reset (s.cluster q).norm (s.fld Fld.cluNormSelSlot q 0)
  x.mean % 2 ^ 32 * 2 ^ 32 + x.left % 256 * 2 ^ 24 + x.state % 4 * 2 ^ 16 + x.triggers % 65536

/-- Table 10-11. -/
def State.kvPool (s : State) (n i : Nat) : Nat :=
  match s.pool n i with
  | none => 0
  | some p => 2 ^ 63 + (if p.scratch then 2 ^ 62 else 0) + p.index % 64 * 2 ^ 56 + p.freeFrames % 2 ^ 21 * 2 ^ 32 +
      p.total % 2 ^ 21

/-- Tables 14-12 and 14-13: samples are kept newest first. -/
def State.ilogData (s : State) : Nat :=
  let l := Map.get [] s.power.samples (s.fld Fld.pwrIlogSelDomain 0 0)
  let age := s.fld Fld.pwrIlogSelAge 0 0
  ((List.range 4).map (fun i => l.getD ((age + i) % 4096) 0xFFFF % 65536 * 65536 ^ i)).foldl (· + ·) 0

/-- Table 14-16. -/
def State.arbWord (s : State) (n : Nat) : Word :=
  let a := (s.hub n).arb
  let w := setBits (s.reg .hubPwrArb n 0) Fld.hubPwrArbWaiting.lo 9 (Nat.min 511 a.waiting.length)
  let w := setBits w Fld.hubPwrArbFrozen.lo 1 (if 3 ≤ s.fld Fld.pwrStatusSupplyState 0 0 then 1 else 0)
  setBits w Fld.hubPwrArbCommitted.lo 12 (Nat.min 4095 (s.standing n + occupancy a.placed s.now))

/-- Table 13-15. -/
def State.winData (s : State) : Nat :=
  match Map.find s.windows (s.fld Fld.lnkWinSelWindow 0 0) with
  | some w => (if w.isOpen then 2 ^ 63 else 0) + w.fold % 256 * 2 ^ 48 + w.gen % 65536 * 2 ^ 32 + w.rows % 2 ^ 32
  | none => 0

/-- Table 10-9: the selected entry as it stood at the last formation; zero where a reset has cleared it since. -/
def State.selEntry (s : State) : Nat :=
  let g := s.fld Fld.srvReqSelEntry 0 0
  if s.blanked.contains g then 0 else ((Map.find s.shown g).map Entry.encode).getD 0

/-- What a read of a register returns. -/
def State.readWord (s : State) (r : Reg) (u i : Nat) : Word :=
  let num := BitVec.ofNat 64
  match r with
  | .glbLeaMap => num (s.leaMap i)
  | .glbClusterCount => num (s.countPos 0 * 2 ^ 32 + s.countPos 2 * 2 ^ 16 + s.countPos 1)
  | .timBeat => num s.beat
  | .cluArrCalData => num (s.calData u)
  | .cluNormData => num (s.normData u)
  | .cliEpCfg => (s.endpoint s.selEp).cfgWord
  | .cliEpSubVa => (s.endpoint s.selEp).subVa
  | .cliEpCmpVa => (s.endpoint s.selEp).cmpVa
  | .cliEpKeys => (s.endpoint s.selEp).keys
  | .cliEpState => (s.endpoint s.selEp).stateWord
  | .cliEpCmpPos => (s.endpoint s.selEp).posWord
  | .srvReqData => num (s.selEntry / 2 ^ (64 * i))
  | .srvStat =>
    let live := (s.entries.filter (fun e => e.2.state != eFree)).length
    let run := (s.entries.filter (fun e => e.2.state == eRunning)).length
    setBits (setBits (s.reg .srvStat 0 0) 48 16 (32768 - live)) 32 16 run
  | .wgtModelData => num (s.modelRecord (s.fld Fld.wgtModelSelHandle 0 0) / 2 ^ (64 * i))
  | .hubKvPool => num (s.kvPool u i)
  | .lnkWinData => num s.winData
  | .pwrIlogData => num s.ilogData
  | .hubPwrArb => s.arbWord u
  | .cluPwrState => setBits (s.reg .cluPwrState u 0) Fld.cluPwrStateSetMv.lo 10 (setPoint u)
  | .pwrSeg => setBits (s.reg .pwrSeg 0 i) Fld.pwrSegOutW.lo 16 (if s.fld Fld.pwrSegState 0 i = 1 then Config.measured s.now i else 0)
  | .hubPwrRail => setBits (s.reg .hubPwrRail u 0) Fld.hubPwrRailLeaRailDa.lo 16 (Config.measured s.now (64 + u))
  | .fltLogData => num (((s.selLog.recs[s.fld Fld.fltLogSelAge 0 0]?).map Rec.encode).getD 0 / 2 ^ (64 * i))
  | .fltLogStat => num (s.selLog.lapped * 2 ^ 32 + s.selLog.recs.length)
  | r => r.fields.foldl (fun w f => if f.acc = .wo then setBits w f.lo f.width 0 else w) (s.reg r u i)

/-- R7, R8, R35: the register that an access of a width reaches. -/
def State.reach (s : State) (addr width : Nat) : Option (Reg × Nat × Nat) :=
  if width ≠ 64 ∨ addr % 8 ≠ 0 then none
  else match Reg.decode addr with
    | some (r, u, i) =>
      if (r.place.scope = .cluster ∨ (r.place.scope = .router ∧ u < 1536)) ∧ ¬ s.exposed u then none else some (r, u, i)
    | none => none

/-- A read of the setup space: its value, and whether it completes without an error status. -/
def State.readSetup (s : State) (addr width : Nat) : Word × Bool :=
  match s.reach addr width with
  | some (r, u, i) => (s.readWord r u i, true)
  | none => (0, false)

end Sys2Proof.Machine
end

