-- ==== Sys2Proof/Machine/Setup.lean ====
section
/-! DEFINITION. Writing a setup register (R7 to R10, R35, R47, R269, R285, R448, R453, R486, R497, R534, R550, R587,
R594 to R596, R619). What a write starts is told where the thing started is. -/

namespace Sys2Proof.Machine

/-! ### Access codes (Table 00-6) -/

/-- What a write gives a field. A write-only field keeps nothing. -/
def FieldDesc.written (f : FieldDesc) (old v : Word) : Nat :=
  let was := getBits old f.lo f.width
  let new := getBits v f.lo f.width
  match f.acc with
  | .ro => was
  | .w1c => was &&& (2 ^ f.width - 1 - new)
  | .wo => 0
  | .rw => new
  | .rws => new
  | .lck => new

/-- The register after a write that is carried out; reserved bits read zero (R9). -/
def Reg.written (r : Reg) (old v : Word) : Word :=
  r.fields.foldl (fun w f => setBits w f.lo f.width (f.written old v)) 0

/-- R10: the write would change an LCK field. -/
def Reg.changesLocked (r : Reg) (old v : Word) : Bool :=
  r.fields.any (fun f => f.acc == .lck && getBits old f.lo f.width != getBits v f.lo f.width)

/-! ### Ranges (R619) -/

/-- The fields whose Meaning refuses values outside a range. -/
def Reg.ranges : Reg → List (Fld × Nat × Nat)
  | .timSrcCtl => [(Fld.timSrcCtlSrc, 0, 2)]
  | .timFoldCfg => [(Fld.timFoldCfgGuard, 2, 255), (Fld.timFoldCfgPeriod, 20, 10000)]
  | .cluArrCalCtl => [(Fld.cluArrCalCtlIntervalS, 60, 3600), (Fld.cluArrCalCtlTempTriggerK, 1, 40)]
  | .cluNormSel => [(Fld.cluNormSelSlot, 0, 271)]
  | .cluRtrSet => [(Fld.cluRtrSetInPort, 0, 4)]
  | .hubStkArb => [(Fld.hubStkArbRemoteWeight, 1, 8)]
  | .cliEpCfg => [(Fld.cliEpCfgSubLog2, 6, 16), (Fld.cliEpCfgCmpLog2, 6, 16)]
  | .lnkCfg => [(Fld.lnkCfgMode, 0, 2)]
  | .lnkPort => [(Fld.lnkPortRole, 0, 7)]
  | .lnkFold => [(Fld.lnkFoldFibreM, 0, 500)]
  | .pwrLimit => [(Fld.pwrLimitWindowW, 0, 27000), (Fld.pwrLimitSustainedW, 4000, 24000)]
  | .pwrIlogSel => [(Fld.pwrIlogSelDomain, 0, 1599)]
  | .hubPwrBudget => [(Fld.hubPwrBudgetWindowUnits, 1, 320)]
  | .thmCfg => [(Fld.thmCfgTHot, 70, 100), (Fld.thmCfgStackHot, 80, 100), (Fld.thmCfgTOpen, 50, 90)]
  | .secCmd => [(Fld.secCmdOp, 1, 6)]
  | .glbResetCtl => [(Fld.glbResetCtlOp, 1, 6)]
  | .glbLpCtl => [(Fld.glbLpCtlState, 0, 1)]
  | _ => []

/-- R619: a field is judged when the write changes it; a write-only field, which holds nothing, at every write. -/
def outsideRange (old v : Word) (x : Fld × Nat × Nat) : Bool :=
  let new := getBits v x.1.lo x.1.width
  (getBits old x.1.lo x.1.width != new || x.1.reg == .secCmd || x.1.reg == .glbResetCtl) &&
    (decide (new < x.2.1) || decide (x.2.2 < new))

/-! ### Conditions under which a write is refused -/

/-- R72: a fold that may run in exact mode. -/
def fitsExact (im : Image) : Bool :=
  decide (im.clusters.length ≤ 24) && decide ((im.clusters.map (· / 24)).dedup.length ≤ 1)

/-- The clusters that a mask of 24 bits names in lea `n`. -/
def maskClusters (n : Nat) (v : Word) : List Nat :=
  ((List.range 24).filter (fun k => v.getLsbD k)).map (fun k => 24 * n + k)

/-- R47, R63, R72, Table 02-13. -/
def State.foldCfgBad (s : State) (f : Nat) (old v : Word) : Bool :=
  let bits := fun (x : Fld) => getBits v x.lo x.width
  let same := setBits v 63 1 (getBits old 63 1)
  (s.foldState f != foldIdle && Reg.timFoldCfg.written old same != old) ||
  decide (bits Fld.timFoldCfgPeriod ≤ bits Fld.timFoldCfgPhase) ||
  (bits Fld.timFoldCfgMode == 0 && (s.fold f).image.any (fun im => !fitsExact im))

/-- R445, R448, Table 12-13. -/
def State.epCfgBad (s : State) (v : Word) : Bool :=
  let e := s.endpoint s.selEp
  let bits := fun (x : Fld) => getBits v x.lo x.width
  let good := fun n => decide (6 ≤ n) && decide (n ≤ 16)
  let setups := (s.endpoints.filter (fun x => x.1 != s.selEp && x.2.setup)).length
  (bits Fld.cliEpCfgValid == 1 && !(good (bits Fld.cliEpCfgSubLog2) && good (bits Fld.cliEpCfgCmpLog2))) ||
  (bits Fld.cliEpCfgValid == 0 && e.valid && !e.items.isEmpty) ||
  (bits Fld.cliEpCfgSetupMode == 1 && decide (4 ≤ setups))

/-- R448: the endpoint is attached or replaying. -/
def State.epBusy (s : State) : Bool := decide (2 ≤ (s.endpoint s.selEp).state)

/-- Table 14-5: B is clamped to 100 units for each working phase of the lea rail, of which 15 count, and to 90 % of its
value while a rail is on local sense. -/
def State.clampB (s : State) (n b : Nat) : Nat :=
  let b := Nat.min b (100 * Nat.min 15 (s.fld Fld.hubPwrRailLeaPhasesOk n 0))
  if s.fld Fld.hubPwrRailLeaSenseOpen n 0 = 1 ∨ s.fld Fld.hubPwrRailAoSenseOpen n 0 = 1 then b * 9 / 10 else b

/-- R497: B after the write stands less than 72 units above the standing sum after the write. -/
def State.budgetBad (s : State) (n budget : Nat) (standing : Nat → Nat) : Bool :=
  let sum := ((List.range 24).map (fun k => if s.domainOn (24 * n + k) then standing (24 * n + k) else 0)).foldl (· + ·) 0
  decide (budget < sum + 72)

def State.standingOf (s : State) (q : Nat) : Nat := s.fld Fld.cluPwrCfgStanding q 0

def State.conditionBad (s : State) (r : Reg) (u i : Nat) (v : Word) : Bool :=
  let old := s.reg r u i
  match r with
  | .timSrcCtl => r.written old v != old && (List.range 256).any s.foldBusy
  | .timFoldCfg => s.foldCfgBad i old v
  | .timFoldHedge => s.foldState i != foldIdle
  | .lnkFold => s.foldState i != foldIdle
  | .cluRtrSet => s.foldState (s.fld Fld.cluRtrSetFold u i) != foldIdle || s.foldState (getBits v 48 8) != foldIdle
  | .cliEpCfg =>
    s.epCfgBad v || (s.epBusy && r.written (s.readWord r u i) v != s.readWord r u i)
  | .cliEpSubVa => s.epBusy && v != s.readWord r u i
  | .cliEpCmpVa => s.epBusy && v != s.readWord r u i
  | .cliEpKeys => s.epBusy && v != s.readWord r u i
  | .lnkCfg =>
    (getBits v 1 2 != getBits old 1 2 || getBits v 8 8 != getBits old 8 8) &&
      (List.range 256).any (fun f => s.foldBusy f && (s.usesPort f (getBits old 8 8) || s.usesPort f (getBits v 8 8)))
  | .pwrLimit => r.written old v != old && decide (getBits v 16 16 < getBits v 0 16)
  | .hubPwrBudget => s.budgetBad u (s.clampB u (getBits v 0 11)) s.standingOf
  | .cluPwrCfg =>
    s.budgetBad (u / 24) (s.fld Fld.hubPwrBudgetBudget (u / 24) 0) (fun q => if q = u then getBits v 24 8 else s.standingOf q) ||
      (s.foldOf u).any s.foldBusy
  | .thmFoldMode => v.getLsbD 0 && (s.foldExact i || s.foldState i != foldIdle)
  | .fltLogSel =>
    getBits v 0 14 != getBits old 0 14 && decide ((if getBits v 63 1 = 1 then 16384 else 4096) ≤ getBits v 0 14)
  | .fltReserve => (maskClusters i v).any (fun q => (s.foldOf q).isSome)
  | .glbLpCtl => getBits v 0 2 == 1 && (List.range 256).any (fun f => s.foldState f == foldRunning && s.multi f)
  | .glbLpOff => (maskClusters i v).any (fun q => (s.foldOf q).any s.foldBusy)
  | _ => false

/-! ### Carrying a write out -/

/-- R419, R448: an endpoint register takes a value. The sequences begin at first_seq where that changes, and where the endpoint
comes to exist. -/
def Endpoint.written (e : Endpoint) (r : Reg) (v : Word) : Endpoint :=
  match r with
  | .cliEpSubVa => { e with subVa := v }
  | .cliEpCmpVa => { e with cmpVa := v }
  | .cliEpKeys => { e with keys := v }
  | .cliEpCfg =>
    let w := Reg.cliEpCfg.written 0 v
    let first := getBits w 0 32
    let valid := getBits w 63 1 == 1
    let e := if first = e.first ∧ (e.valid ∨ ¬ valid) then e
      else { e with nextSub := first, nextCmp := first, head := first, tail := first, headSeen := false, ring := [] }
    { e with cfg := setBits w 61 1 0, isOpen := getBits w 61 1 == 1, state := if valid then Nat.max 1 e.state else 0 }
  | _ => e

/-- R47, R48, R610: a new time source is measured afresh; source 0 takes REF25M±. -/
def State.newSource (s : State) (old : Nat) : State :=
  if s.timeSrc = old then s
  else (s.setLock lockFree).setFld Fld.timStatusOffsetNs 0 0 0 |> fun s => { s with time := { s.time with
    goodSince := none, lastEdge := none, lastSync := none, onBoard := s.timeSrc != 0 } }

/-- Stores a write that is not refused. -/
def State.storeReg (s : State) (r : Reg) (u i : Nat) (v : Word) : State :=
  match r with
  | .cliEpCfg => s.modEndpoint s.selEp (fun e => e.written r v)
  | .cliEpSubVa => s.modEndpoint s.selEp (fun e => e.written r v)
  | .cliEpCmpVa => s.modEndpoint s.selEp (fun e => e.written r v)
  | .cliEpKeys => s.modEndpoint s.selEp (fun e => e.written r v)
  | .timSrcCtl => (s.setReg r u i (r.written (s.reg r u i) v)).newSource s.timeSrc
  | .hubPwrBudget => s.setReg r u i (r.written (s.reg r u i) (setBits v 0 11 (s.clampB u (getBits v 0 11))))
  | .timPpsTai => { s.setReg r u i v with time := { s.time with fresh := true } }
  | _ => s.setReg r u i (r.written (s.reg r u i) v)

/-- R10: a write that the seal stops is recorded. -/
def State.sealed (s : State) : Bool := s.fld Fld.glbSealSealed 0 0 == 1

/-- How a write ends on the path that carried it. -/
inductive Written where
  | done
  | refused
  | locked
  | forbidden
deriving DecidableEq, Repr

/-- R587, R594, R528: whether only the management path may make the write. -/
def mgmtOnly (r : Reg) (v : Word) : Bool :=
  r == .glbSeal || r == .secCmd || r == .thmStopClr || (r == .glbResetCtl && (getBits v 0 4 == 1 || getBits v 0 4 == 6))

/-- Table 17-4: a write of the endpoint setup is recorded. -/
def State.recordEndpoint (s : State) (r : Reg) : State :=
  if [Reg.cliEpCfg, .cliEpSubVa, .cliEpCmpVa, .cliEpKeys].contains r then s.recordModule else s

/-- A write that starts nothing: judged field by field, refused whole or carried out. -/
def State.writeWord (s : State) (p : Path) (r : Reg) (u i : Nat) (v : Word) : Written × State :=
  let fin := fun (x : Bool × State) => if x.1 then (Written.done, x.2) else (Written.refused, x.2)
  match r with
  | .cluPartBanks => fin (s.writePart u i false v)
  | .cluPartCfg => fin (s.writePart u i true v)
  | .cluArrLayerCfg => fin (s.writeLayer (p == .steward) u i 0 v)
  | .cluArrLayerSeed => fin (s.writeLayer (p == .steward) u i 1 v)
  | .cluArrLayerNum => fin (s.writeLayer (p == .steward) u i 2 v)
  | .hubStkRegion => fin (s.writeRegion p u i false v)
  | .hubStkRegionCfg => fin (s.writeRegion p u i true v)
  | _ =>
    if p != .mgmt && mgmtOnly r v then (.forbidden, s)
    else if s.sealed && r.changesLocked (s.reg r u i) v then
      (.locked, s.report (srcModule none) 0x8001 (r.addr u i) 0)
    else if r.ranges.any (outsideRange (s.readWord r u i) v) || s.conditionBad r u i v then (.refused, s)
    else (.done, (s.storeReg r u i v).recordEndpoint r)

/-- A write of the setup of a fold image, by the steward (R60): to a register that the steward may write so. A word that
stands already is not written again. -/
def State.writeImage (s : State) (a : Nat) (v : Word) : Bool × State :=
  match s.reach a 64 with
  | some (r, u, i) =>
    if [Reg.timFoldCfg, .glbResetCtl, .glbLpCtl, .glbSeal, .secCmd, .thmStopClr, .glbLpOff, .thmCoolant].contains r then (false, s)
    else if s.readWord r u i = v then (true, s)
    else match s.writeWord .steward r u i v with
      | (.done, s) => (true, s)
      | _ => (false, s)
  | none => (false, s)

def writeImages : List (Nat × Word) → State → Bool × State
  | [], s => (true, s)
  | (a, v) :: l, s => match s.writeImage a v with
    | (true, s) => writeImages l s
    | (false, s) => (false, s)

end Sys2Proof.Machine
end

