-- ==== Sys2Proof/Machine/Wake.lean ====
section
/-! DEFINITION. The states of the supply, of the coolant and of low power, and the request that powers a dark cluster up
(R491, R496, R524, R595). -/

namespace Sys2Proof.Machine

def domDark : Nat := 0
def domRamping : Nat := 1
def domOn : Nat := 2
def domFailed : Nat := 3

def supOff : Nat := 0
def supStandby : Nat := 1
def supOn : Nat := 2
def supFrozen : Nat := 3
def supQuiesced : Nat := 4

def State.supply (s : State) : Nat := s.fld Fld.pwrStatusSupplyState 0 0
def State.setSupply (s : State) (v : Nat) : State := s.setFld Fld.pwrStatusSupplyState 0 0 v

/-- ON, or ON but for a freeze. -/
def State.poweredOn (s : State) : Bool := s.supply == supOn || s.supply == supFrozen

def lpActive : Nat := 0
def lpEntering : Nat := 1
def lpStandby : Nat := 2
def lpLeaving : Nat := 3
/-- The low-power state (Table 18-10). -/
def State.lpState (s : State) : Nat := s.fld Fld.glbLpStatusState 0 0
def State.setLp (s : State) (v : Nat) : State := s.setFld Fld.glbLpStatusState 0 0 v

def thmNormal : Nat := 0
def thmDerated : Nat := 1
def thmHold : Nat := 2
def thmStopped : Nat := 3
def thmCheckFailed : Nat := 4
def State.thm (s : State) : Nat := s.fld Fld.thmStatusState 0 0
def State.setThm (s : State) (v : Nat) : State := s.setFld Fld.thmStatusState 0 0 v

/-- A POWER_ON for the cluster's domain stands or waits. -/
def State.powerAsked (s : State) (q : Nat) : Bool :=
  let a := (s.hub (q / 24)).arb
  a.waiting.any (fun r => r.q == q && r.cls == clsPowerOn && r.bank.isNone) ||
  a.placed.any (fun g => g.q == q && g.cls == clsPowerOn && g.bank.isNone)

/-- Held dark by GLB_LP_OFF_n, or switched off for heat and not yet available (R524, R595). -/
def State.heldOff (s : State) (q : Nat) : Bool :=
  s.bit Fld.glbLpOffMask 0 (q / 24) (q % 24) || s.fld Fld.cluThmState q 0 == 2

/-- R593: a reset of class P or W is in progress. -/
def State.inReset (s : State) : Bool := s.restore.inReset

/-- Domains may come back: no quiesce, hold, stop or Standby lasts. -/
def State.mayWake (s : State) : Bool :=
  s.poweredOn && s.thm != thmHold && s.thm != thmStopped && (s.lpState == lpActive || s.lpState == lpLeaving) && !s.inReset

/-- R491, R496: a steward asks POWER_ON for a domain: 230,400 ticks, the standing allowance. -/
def State.askPower (s : State) (q : Nat) : State :=
  if s.domain q = domDark ∧ ¬ s.powerAsked q ∧ ¬ s.heldOff q ∧ s.mayWake ∧ ¬ (s.hub (q / 24)).dead then
    s.askLeave clsPowerOn q 0 (s.fld Fld.cluPwrCfgStanding q 0) 19200 0 none
  else s

/-- A fold that is armed asks for those of its clusters that are dark. -/
def State.askFold (s : State) (f : Nat) : State :=
  ((s.foldClusters f).filter s.exposed).foldl (fun (s : State) q => s.askPower q) s

end Sys2Proof.Machine
end

