-- ==== Sys2Proof/Machine/Arm.lean ====
section
/-! DEFINITION. Arming and stopping a fold (R34, R50, R52, R58 to R60, R63, R72, R81, R248, R272, R276, R466 to R468, R475,
R595). -/

namespace Sys2Proof.Machine

/-! ### The shape of a fold (R34, R58, R59) -/

/-- Tiles of one lea that share an edge. -/
def tilesMeet (a b : Nat) : Bool :=
  (a / 5 == b / 5 && dist (a % 5) (b % 5) == 1) || (a % 5 == b % 5 && dist (a / 5) (b / 5) == 1)

/-- What is reached from some tiles in `n` moves. -/
def spread (tiles : List Nat) : Nat → List Nat → List Nat
  | 0, seen => seen
  | n + 1, seen => spread tiles n (tiles.filter (fun t => seen.contains t || seen.any (tilesMeet t)))

/-- The clusters of one lea are connected, the hub tile joining those beside it. -/
def connected (ks : List Nat) : Bool :=
  let tiles := ks.map tileInLea
  let seen := spread (12 :: tiles) 25 (tiles.take 1)
  tiles.all seen.contains

/-- The leas of the smallest rectangle that holds some leas. -/
def leaBox (ns : List Nat) : List Nat :=
  (List.range 64).filter (fun n => ns.any (fun a => decide (a / 8 ≤ n / 8)) && ns.any (fun a => decide (n / 8 ≤ a / 8)) &&
    ns.any (fun a => decide (a % 8 ≤ n % 8)) && ns.any (fun a => decide (n % 8 ≤ a % 8)))

/-- R34, R58, R59, R595: what the image names is a fold, of clusters that no other fold holds and that are not held off. -/
def State.shapeOk (s : State) (im : Image) : Bool :=
  let qs := im.clusters
  let leas := (qs.map (· / 24)).dedup
  !qs.isEmpty && qs.Nodup && qs.all (fun q => validCluster q && s.exposed q && (s.foldOf q).isNone &&
    !s.bit Fld.glbLpOffMask 0 (q / 24) (q % 24)) &&
  (if im.leaRect then
    (leaBox leas).all (fun n => (List.range 24).all (fun k => !s.exposed (24 * n + k) || qs.contains (24 * n + k)))
   else decide (leas.length = 1) && connected (qs.map (· % 24)))

/-! ### Exact mode (R63, R72, R248, R272, R276) -/

/-- R63; tick 0 of a swath may lie some ticks after its edge (R57). -/
def State.endFits (s : State) (f : Nat) (im : Image) : Bool :=
  let b := s.boundaryFrom f (s.beatFrom s.now)
  let offset := maxOf ((List.range 3).map (fun i => s.frameOffset (b + i * s.period f)))
  decide (im.endTick + im.drain + offset ≤ (s.period f - s.guardBeats f) * s.beatTicks)

/-- R248 for one layer entry. -/
def State.entryExactOk (s : State) (q e : Nat) : Bool :=
  let r := s.numRow q e
  s.fld Fld.cluArrLayerNumStrayPolicy q e == 0 && rowByte r 268 != 2 && decide (6 + s.splitBudget q e ≤ rowBytes r 266 2)

def State.layersExactOk (s : State) (f : Nat) (im : Image) : Bool :=
  im.clusters.all (fun q => (List.range 256).all (fun e =>
    s.fld Fld.cluArrLayerCfgValid q e == 0 || s.fld Fld.cluArrLayerCfgFold q e != f || s.entryExactOk q e))

/-- R272, R276. -/
def State.slotsOk (s : State) (f : Nat) (im : Image) : Bool :=
  disjointFlows im.flows &&
  im.flows.all (fun fl => fl.cells.all (fun c => (s.rtrOwner c.tile).all (· == f))) &&
  im.clusters.all (fun q => decide ((im.arrivalsAt q 0).length ≤ 128))

def State.exactOk (s : State) (f : Nat) (im : Image) : Bool :=
  !s.foldExact f || (fitsExact im && s.endFits f im && s.layersExactOk f im && s.slotsOk f im)

/-! ### Blocks of several modules (R52, R466 to R468) -/

def coordX (c : Nat) : Nat := c % 32
def coordY (c : Nat) : Nat := c / 32 % 32
def coordZ (c : Nat) : Nat := c / 1024

/-- The coordinates of one axis on the shorter way from a to b in a ring of n, ties going to the positive direction. -/
def axisWay (n a b : Nat) : List Nat :=
  let up := (b + n - a) % n
  let down := (a + n - b) % n
  if up ≤ down then (List.range (up + 1)).map (fun i => (a + i) % n) else (List.range (down + 1)).map (fun i => (a + n - i) % n)

/-- An axis of the block: its coordinates are an interval, and the ways between them stay in it. -/
def axisOk (n : Nat) (l : List Nat) : Bool :=
  let lo := l.foldl Nat.min 31
  let hi := maxOf l
  decide (hi < n) && (List.range (hi + 1 - lo)).all (fun i => l.contains (lo + i)) &&
  l.all (fun a => l.all (fun b => (axisWay n a b).all l.contains))

/-- R468: the marker bound in whole beats, rounded up. -/
def State.markerBeats (s : State) (f : Nat) : Nat :=
  (s.fld Fld.lnkFoldHMax 0 f * (400 + 5 * s.fld Fld.lnkFoldFibreM 0 f) + 3000 + 999) / 1000

def State.blockOk (s : State) (f : Nat) (im : Image) : Bool :=
  let (sx, sy, sz) := s.torusSize
  let xs := (im.block.map coordX).dedup
  let ys := (im.block.map coordY).dedup
  let zs := (im.block.map coordZ).dedup
  !s.multi f ||
  (s.lock == lockLocked && s.timeSrc != 2 && s.fld Fld.lnkTorusValid 0 0 == 1 && im.leaRect && !s.foldExact f &&
    im.block.Nodup && im.block.contains s.ownCoord && axisOk sx xs && axisOk sy ys && axisOk sz zs &&
    im.block.length == xs.length * ys.length * zs.length && decide (s.markerBeats f + 1 ≤ s.guardBeats f))

/-- The settings that the modules of a block must share (R466, R467), the lea rectangle among them. -/
def State.settings (s : State) (f : Nat) : Nat × Nat × Nat × Bool × List Nat :=
  (s.period f, s.foldPhase f, s.guardBeats f, s.fld Fld.timFoldCfgLagPolicy 0 f == 1, s.foldLeas f)

/-- The partner whose ARMED marker, already here, shows other settings. -/
def State.mismatch (s : State) (f : Nat) : Option Nat :=
  ((s.fold f).markers.find? (fun m => m.1 == 2 && m.2.2.settings != s.settings f)).map (fun m => m.2.2.src)

/-- R467: FOLD_MISMATCH. -/
def State.foldMismatch (s : State) (f partner : Nat) : State :=
  s.report (srcHub (s.rootLea f) (some f)) 0x6010 (s.blockTag f) partner

/-! ### Markers that come (R469) -/

/-- By what a marker is known: an ARMED by its time-stamp, as it has no generation. -/
def markerKey (kind : Nat) (m : Marker) : Nat × Nat × Nat × Nat × Nat :=
  (m.src, kind, m.swath, m.stile, if kind = 2 then m.stamp else m.gen)

/-- A marker is kept with the tick of its arrival, an ARMED in place of its sender's last, and relayed on the block's other ports. -/
def State.keepMarker (s : State) (f kind at0 : Nat) (m : Marker) : State :=
  let s := s.modFold f (fun x => { x with
    markers := x.markers.filter (fun y => !(kind == 2 && y.1 == 2 && y.2.2.src == m.src)) ++ [(kind, at0, m)]
    relayed := markerKey kind m :: x.relayed })
  ((s.blockPorts f).filter (· != m.port)).foldl (fun (s : State) p =>
    s.sendTx p ⟨2, 0, markerBytes m.tag m.swath kind m.stile m.gen m.stamp⟩) s

/-- DESIGN CHOICE (log 142): a marker of a block that the module does not know yet waits until a fold holds its tag and image. -/
def State.holdEarly (s : State) (kind : Nat) (m : Marker) : State :=
  if s.early.any (fun e => e.2.2.tag == m.tag && markerKey e.1 e.2.2 == markerKey kind m) then s
  else { s with early := s.early ++ [(kind, s.now, m)] }

/-- The markers that waited for the fold. -/
def State.takeEarly (s : State) (f : Nat) : State :=
  let mine := fun (e : Nat × Nat × Marker) => e.2.2.tag == s.blockTag f
  if s.multi f then
    (s.early.filter mine).foldl (fun (s : State) e => s.keepMarker f e.1 e.2.1 e.2.2)
      { s with early := s.early.filter (fun e => !mine e) }
  else s

/-- The fold's own ARMED marker. -/
def State.ownArmed (s : State) (f : Nat) : Marker :=
  { port := 96, src := s.ownCoord, tag := s.blockTag f, swath := (s.fold f).swath, stile := 0, gen := 0, stamp := s.ns,
    settings := s.settings f }

/-! ### KV pools (R374, 10) -/

/-- The whole frames of 128 rows in some rows. -/
def framesOf (base rows : Nat) : Nat × Nat := (ceilDiv base 128, (base + rows) / 128 - ceilDiv base 128)

/-- The frames of a declared pool: those of a stack region, or of each bank of a partition. -/
def State.poolRuns (s : State) (d : PoolDecl) : List (Nat × Nat) :=
  let runs := if d.scratch then
      let base := s.fld Fld.cluPartCfgBaseRow d.unit d.source
      let rows := s.fld Fld.cluPartCfgRowCount d.unit d.source
      (s.banksOf d.unit d.source).map (fun b => framesOf (1024 * b + base) rows)
    else [framesOf (s.regionBase d.unit d.source) (s.regionRows d.unit d.source)]
  runs.filter (fun r => r.2 != 0)

/-- A pool is registered; one that stands from the same source keeps its counts. -/
def State.registerPool (s : State) (d : PoolDecl) : State :=
  match s.pool d.lea d.index with
  | some p =>
    if p.scratch = d.scratch ∧ p.unit = d.unit ∧ p.index = d.source then s
    else s.modHub d.lea (fun h => { h with pools := Map.put h.pools d.index ⟨d.scratch, d.unit, d.source, s.poolRuns d, []⟩ })
  | none => s.modHub d.lea (fun h => { h with pools := Map.put h.pools d.index ⟨d.scratch, d.unit, d.source, s.poolRuns d, []⟩ })

/-! ### Arming -/

/-- R81: the cores of the fold start at the first bundle that the image loads. -/
def State.loadCores (s : State) (qs : List Nat) : State :=
  qs.foldl (fun (s : State) q => (List.range 48).foldl (fun (s : State) j => s.modCore (coreAddr q j) (fun k =>
    { k with pc := 0, entry := 0, issueAt := 0, wait := .none, waitOff := false, held := none, faulted := false })) s) s

/-- The fold is ARMED: its first swath opens at the next boundary. -/
def State.becomeArmed (s : State) (f : Nat) (im : Image) : State :=
  let s := (s.loadCores im.clusters).modFold f (fun x => { x with
    phase := .idle, guardEnd := 0, nextBeat := s.boundaryFrom f (s.beatFrom s.now), formed := false, drained := false,
    markers := x.markers.filter (fun m => m.1 == 2 && m.2.2.src != s.ownCoord) ++ (if s.multi f then [(2, s.now, s.ownArmed f)] else [])
    lateFor := none, replacing := none, rearm := false })
  let s := (s.setFld Fld.timFoldCfgEnable 0 f 1).setFoldState f foldArmed
  let s := if s.foldExact f then im.flows.foldl (fun (s : State) fl => fl.cells.foldl (fun (s : State) c => s.reserve f c) s) s
    else s
  let s := (s.openWindows f).askFold f
  let s := { s with time := { s.time with mayStep := false } }
  if s.multi f then s.sendMarker f 2 0 0 else s

/-- The fold with its image, and with the setup of that image written by the steward where that is asked for. -/
def State.configured (s : State) (f : Nat) (im : Image) (setup : Bool) : Bool × State :=
  let s := s.modFold f (fun x => { x with image := some im })
  if setup then
    let (ok, s) := writeImages im.setup s
    (ok, im.kvPools.foldl (fun (s : State) d => s.registerPool d) s)
  else (true, s)

/-- Arms an IDLE fold; refused whole when any condition fails, but for the record of a mismatch, of which the partners hear by the
module's own ARMED (R467). -/
def State.arm (s : State) (f : Nat) (im : Image) (setup : Bool) : Bool × State :=
  if s.foldState f ≠ foldIdle then (false, s)
  else
    let (ok, x) := s.configured f im setup
    let x := x.takeEarly f
    if ¬ ok ∨ ¬ s.shapeOk im ∨ ¬ x.exactOk f im ∨ ¬ x.blockOk f im then (false, s)
    else match (if x.multi f then x.mismatch f else none) with
      | some partner => (false, (s.foldMismatch f partner).sendMarkerOn (x.blockPorts f) (x.blockTag f) f 2 0 0)
      | none => (true, x.becomeArmed f im)

/-- The stewards arm a fold again from its image; one that cannot be armed stays IDLE. -/
def State.rearmFold (s : State) (f : Nat) (setup : Bool) : State :=
  match (s.fold f).image with
  | some im => (s.arm f im setup).2
  | none => s

/-- The image with which a FOLD_ARM arms: the one it brings, or the one placed. -/
def State.armImage (s : State) (f : Nat) (img : Option Image) : Option Image := img.orElse (fun _ => (s.fold f).image)

def execFoldArm (t : Nat) (p : Path) (f : Nat) (img : Option Image) (s : State) : Host.Outcome State Fault Refusal :=
  let s := s.at t
  let w := match s.armImage f img with
    | some im => s.arm f im true
    | none => (false, s)
  onUnit (validFold f) (w.2.completes p (Reg.timFoldCfg.addr 0 f) w.1)

/-! ### Stopping -/

/-- R60, Table 02-13: an ARMED fold returns to IDLE, a RUNNING one after its swath has drained. -/
def State.stopFold (s : State) (f : Nat) : State :=
  let s := s.setFld Fld.timFoldCfgEnable 0 f 0
  if s.foldState f = foldArmed then s.toIdle f
  else if s.foldState f = foldRunning then
    if (s.fold f).drained then (s.failSwath f none).toIdle f else s.setFoldState f foldStopping
  else s

def execFoldStop (t : Nat) (p : Path) (f : Nat) (s : State) : Host.Outcome State Fault Refusal :=
  onUnit (validFold f) (((s.at t).stopFold f).completes p (Reg.timFoldCfg.addr 0 f) true)

/-! ### The write of TIM_FOLD_CFG (Table 02-13) -/

/-- A write that sets enable arms, and is refused where arming is; one that clears it stops. -/
def State.writeFoldCfg (s : State) (f : Nat) (v : Word) : Written × State :=
  let old := s.reg .timFoldCfg 0 f
  let was := getBits old 63 1
  match s.writeWord .mgmt .timFoldCfg 0 f v with
  | (.done, x) =>
    if was = 0 ∧ getBits v 63 1 = 1 then
      if s.foldState f ≠ foldIdle then (.done, x)
      else match (x.fold f).image with
        | some im => match x.arm f im false with
          | (true, y) => (.done, y)
          | (false, y) => (.refused, y.setReg .timFoldCfg 0 f old)
        | none => (.refused, s)
    else if was = 1 ∧ getBits v 63 1 = 0 then (.done, x.stopFold f)
    else (.done, x)
  | r => r

end Sys2Proof.Machine
end

