-- ==== Sys2Proof/Machine/Engine.lean ====
section
/-! DEFINITION. Calls of the hub engines: the call block, admission, the order of service, and completion (R318 to R327,
Tables 09-1 to 09-4, 09-7 and 09-8). -/

namespace Sys2Proof.Machine

/-! ### Status values (Table 09-4) -/

def egOk : Nat := 0x00
def egTruncated : Nat := 0x01
def egBadBlock : Nat := 0x10
def egSpace : Nat := 0x11
def egPartition : Nat := 0x12
def egBusy : Nat := 0x13
def egNoTable : Nat := 0x14
def egPageFault : Nat := 0x15
def egAuth : Nat := 0x16
def egNonfinite : Nat := 0x17
def egMemory : Nat := 0x18
def egFault : Nat := 0x19
def egAborted : Nat := 0x1A
def egStale : Nat := 0x1B
def egNormTrigger : Nat := 0x20
def egNormFail : Nat := 0x21

/-- The status that the items of the calling core take. -/
def egItems (st : Nat) : Option Nat :=
  if st = egNoTable then some stNoModel
  else if st = egPageFault then some stStateLost
  else if st = egNonfinite ∨ st = egNormFail then some stNumeric
  else if st = egBadBlock ∨ st = egSpace ∨ st = egPartition ∨ st = egAuth ∨ st = egMemory ∨ st = egFault ∨ st = egStale then
    some stFault
  else none

/-- R323: the statuses that are also events. -/
def egEvent (st : Nat) : Option Nat :=
  if st = egPartition then some 0x5013 else if st = egMemory then some 0x3005 else if st = egFault then some 0x9001 else none

/-! ### The call block (Table 09-2) -/

def noEntry : Nat := 0xFFFF

def EngCall.q (c : EngCall) : Nat := clusterOf c.core
def EngCall.entry (c : EngCall) : Nat := rowBytes c.block 0 2
def EngCall.tag (c : EngCall) : Nat := rowBytes c.block 2 2
def EngCall.input (c : EngCall) : Nat := rowBytes c.block 4 2
def EngCall.inputs (c : EngCall) : Nat := rowBytes c.block 6 2
def EngCall.result (c : EngCall) : Nat := rowBytes c.block 8 2
def EngCall.limit (c : EngCall) : Nat := rowBytes c.block 10 2
def EngCall.stateRow (c : EngCall) : Nat := rowBytes c.block 12 2
/-- `n` bytes of the parameters from offset `i` on. -/
def EngCall.param (c : EngCall) (i n : Nat) : Nat := rowBytes c.block (16 + i) n

/-- The rows of the state block that a function keeps. -/
def EngCall.stateRows (c : EngCall) : Nat := if c.engine = 0 then 9 else 1

/-- The rows that the block names (R319): first row and count. FEATURES names its normalisation rows where it normalises. -/
def EngCall.named (c : EngCall) : List (Nat × Nat) :=
  [(c.input, c.inputs), (c.result, c.limit)] ++
  (if c.stateRow = 0xFFFF then [] else [(c.stateRow, c.stateRows)]) ++
  (if c.engine = 0 ∧ c.param 15 1 % 2 = 1 then [(c.param 32 2, 2)] else [])

/-- R320: these functions need a request entry. -/
def needsEntry (e : Nat) : Bool := decide (2 ≤ e) && decide (e ≤ 5)

/-- The checks of R319 and R320. -/
def State.blockStatus (s : State) (n : Nat) (c : EngCall) : Option Nat :=
  if ¬ c.named.all (fun r => r.2 == 0 || s.reachesAll c.fold c.q r.1 r.2) then some egPartition
  else if rowBytes c.block 14 2 ≠ 0 then some egBadBlock
  else if c.entry = noEntry then (if needsEntry c.engine then some egBadBlock else none)
  else if c.entry / 512 ≠ n then some egBadBlock
  else if (s.entry c.entry).gen ≠ c.tag then some egStale
  else none

/-! ### Queues (R324) -/

/-- The two sampling engines share one queue. -/
def queueKey (e : Nat) : Nat := if e = 4 then 3 else e
def State.calls (s : State) (n key : Nat) : List EngCall := Map.get [] (s.hub n).engines key
def State.modCalls (s : State) (n key : Nat) (f : List EngCall → List EngCall) : State :=
  s.modHub n (fun h => { h with engines := Map.set [] h.engines key (f (Map.get [] h.engines key)) })

/-- How many admitted calls a queue holds; the norm watch has no queue of the hub. -/
def queueLimit (e : Nat) : Option Nat := if e = 8 then none else if e = 3 ∨ e = 4 then some 128 else some 64

def emptyReply (st : Nat) : EngReply :=
  { status := st, units := 0, result := [], at0 := 0, state := [], stateAt := 0, tagBytes := none }

def sameCall (a b : EngCall) : Bool := a.core == b.core && a.number == b.number && a.steward == b.steward

/-! ### Completion (R321 to R323) -/

/-- The call block row with its completion record, and with the bytes that a function writes at 480. -/
def EngCall.closed (c : EngCall) (r : EngReply) (x : Nat) : Row :=
  let b := match r.tagBytes with
    | some t => Row.put c.block 480 16 t
    | none => c.block
  Row.put b 496 16 (r.status + 2 ^ 16 * r.result.length + 2 ^ 32 * (r.units % 2 ^ 32) + 2 ^ 64 * ((x - c.admitted) % 2 ^ 32))

/-- Whether the core still has a record of a call. What comes of a call it has none of is discarded (R86). -/
def State.knowsCall (s : State) (c : EngCall) : Bool := (Map.find (s.core c.core).calls c.number).isSome

/-- The counters of Tables 09-7 and 09-8; the norm watch has none. -/
def State.countCall (s : State) (n e core st : Nat) : State :=
  if 6 < e then s
  else
    let s := s.bump Fld.hubEngCntCallsDone n e
    let s := if st = egBusy then s.bump Fld.hubEngCntBusyCount n e else s
    if 0x10 ≤ st ∧ st ≤ 0x1B then
      ((s.bump Fld.hubEngCntFailedCount n e).setFld Fld.hubEngErrCore n e core).setFld Fld.hubEngErrStatus n e st
    else s

/-- Rows that a hub engine writes for a call, by writer 49, the call block row last: on VC1 of plane 1 (R266, R280). The norm watch
stands in the cluster itself. -/
def State.sendResult (s : State) (n : Nat) (c : EngCall) (a : Nat) (rows : List Row) (block : Bool) : State :=
  if c.engine = 8 then
    (List.range rows.length).foldl (fun (s : State) i => s.landResult c.q c.core c.number c.fold (a + i) (rows.getD i 0) block) s
  else s.injectRows { meshPacket (.result block) c.core 1 c.fold (hubTile n) (tileOf c.q) c.number s.now with first := a } 0
    rows.length (rows.map some)

/-- A call is over: what its engine had fetched for it goes. -/
def State.dropOperands (s : State) (n : Nat) (c : EngCall) : State :=
  s.modHub n (fun h => { h with fetched := h.fetched.filter (fun x => !(x.core == c.core && x.number == c.number)) })

/-- A call completes: its rows, its state and then its block row leave for its cluster (R321), where the last of them ends the wait
for the call. -/
def State.endCall (s : State) (n : Nat) (c : EngCall) (r : EngReply) : State :=
  let e := if c.engine = 3 ∨ c.engine = 4 then c.server else c.engine
  let s := s.countCall n e c.core r.status
  let s := if c.steward ∨ ¬ s.knowsCall c then s else
    let s := s.sendResult n c r.at0 r.result false
    let s := s.sendResult n c r.stateAt r.state false
    s.sendResult n c c.at0 [c.closed r s.now] true
  let s := match egEvent r.status with
    | some code => s.report (srcHub n (if c.steward then none else some c.fold)) code e
        (Config.callBase + BitVec.ofNat 64 c.number).toNat
    | none => s
  if c.steward then s
  else match egItems r.status with
    | some st => s.failItems c.fold c.core st
    | none => s

/-- R324: an engine serves a call. One whose reply was formed at admission has its turn once no call before it waits. -/
def served (l : List EngCall) (c : EngCall) : Bool :=
  c.reply.isSome && (!c.early || (l.takeWhile (fun x => !sameCall x c)).all (fun x => x.reply.isSome))

/-- The first call of an engine that has its reply. -/
def State.repliedCall (s : State) (n e : Nat) : Option (EngCall × EngReply) :=
  let l := s.calls n (queueKey e)
  (l.find? (fun c => c.server == e && served l c)).bind (fun c => c.reply.map (fun r => (c, r)))

/-- An internal parity error ends the call with ENGINE_FAULT and nothing of its result (R323). -/
def State.completeCall (s : State) (n e : Nat) (parity : Bool) : State :=
  match s.repliedCall n e with
  | none => s
  | some (c, r) =>
    (s.modCalls n (queueKey e) (fun l => l.filter (fun x => !sameCall x c))).endCall n c
      (if parity then emptyReply egFault else r)

def validEngine (e : Nat) : Bool := decide (e < 7) || e == 8

def execEngineCallComplete (t n e : Nat) (parity : Bool) (s : State) : Host.Outcome State Fault Refusal :=
  onUnit (validLea n && validEngine e) ((s.at t).completeCall n e parity)

/-! ### Data rows (R280, R284, R319) -/

/-- A data row of a call, as it has come to the hub: none where it was refused or meets an error. A row that has not come is one
that the engine waits for. -/
def State.callRead (s : State) (c : EngCall) (addr : Word) : Option Row × State :=
  match (s.hub c.hub).fetched.find? (fun x => x.core == c.core && x.number == c.number && x.addr == addr) with
  | some x => (x.row, s)
  | none => (none, s.modHub c.hub (fun h => { h with wants := h.wants ++ [addr] }))

/-- Reads rows of the calling cluster, with none for one that is not delivered. -/
def State.callReads (s : State) (c : EngCall) (a : Nat) : Nat → List (Option Row) × State
  | 0 => ([], s)
  | n + 1 =>
    let (r, s) := s.callRead c (clusterWord c.q a)
    let (l, s) := s.callReads c (a + 1) n
    (r :: l, s)

/-- Reads rows of the calling cluster; none where one meets an error or is refused. -/
def State.callRows (s : State) (c : EngCall) (a n : Nat) : Option (List Row) × State :=
  let (l, s) := s.callReads c a n
  (if l.all Option.isSome then some (l.filterMap id) else none, s)

/-- The engine asks for a data row: a cluster's through its router port, where the target judges it (R151, R284), one of the hub's
own stack among the hub's agents (R303), one of another stack over the mesh. -/
def State.askRow (s : State) (c : EngCall) (addr : Word) : State :=
  let n := c.hub
  match remoteOf addr with
  | .cluster q row => (match s.judgeArrival c.fold q row 1 with
      | .admitted => (s.drawTag.openPort q s.nextTag (.operand n c.core c.number c.fold addr (c.engine == 8)) 1).presentPort q
          s.nextTag 0 row c.fold c.core none
      | a => (s.refuseTarget q row 1 (hubAddr n) c.fold c.core a).putOperand n c.core c.number addr none)
  | .stack m row =>
    let r : StackReq := ⟨.engine n c.core c.number c.fold, agentReq c.number m row 1 c.core false []⟩
    if m = n then s.modDram n (fun d => { d with agents := d.agents ++ [r] })
    else s.inject { meshPacket (.hubRead addr) c.core 1 c.fold (hubTile n) (hubTile m) c.number s.now with count := 1 }
  | _ => s.putOperand n c.core c.number addr none

/-- Those rows that the engine has not asked for yet. -/
def EngCall.unasked (c : EngCall) (l : List Word) : List Word := (l.filter (fun a => !c.asked.contains a)).dedup

/-! ### Admission (R319, R320, R324) -/

/-- The block of a call that arrives has been read: its queue is full, its block is checked, or it waits for its engine. Where the
block is not delivered, its other bytes stand as they are stored: DESIGN CHOICE (log 128). -/
def State.admitCall (s : State) (n : Nat) (c : EngCall) (block : Option Row) : State :=
  let key := queueKey c.engine
  let c := { c with block := block.getD (s.row c.q c.at0), admitted := s.now, server := c.engine }
  if (queueLimit c.engine).any (fun k => decide (k ≤ (s.calls n key).length)) then s.endCall n c (emptyReply egBusy)
  else
    let st := if (s.hub n).stopped ∧ c.engine ≠ 5 ∧ c.engine ≠ 8 then some egFault
      else if block.isNone then some egMemory else s.blockStatus n c
    s.modCalls n key (fun l => l ++ [{ c with reply := st.map emptyReply, early := st.isSome }])

/-- R319: the oldest call that has arrived at an engine: its block row is asked for, or has come and the call is admitted. -/
def State.arriveCall (s : State) (n : Nat) (c : EngCall) : State :=
  let a := clusterWord c.q c.at0
  match (s.hub n).fetched.find? (fun x => x.core == c.core && x.number == c.number && x.addr == a) with
  | some x =>
    ((s.modHub n (fun h => { h with arriving := h.arriving.erase c })).dropOperands n c).admitCall n { c with asked := [] } x.row
  | none =>
    if c.asked.contains a then s
    else (s.modHub n (fun h => { h with arriving := h.arriving.map (fun x => if x == c then { x with asked := [a] } else x) })).askRow
      c a

/-- Table 14-5: with two always-on phases left the engines of a hub stop, but for the walker; their calls end. -/
def State.stopEngines (s : State) (n : Nat) : State :=
  [0, 1, 2, 3, 6].foldl (fun (s : State) k => s.modCalls n k (fun l =>
    l.map (fun (c : EngCall) => { c with reply := some (emptyReply egFault) }))) (s.modHub n (fun h => { h with stopped := true }))

def execEngineCallAdmit (t n e : Nat) (s : State) : Host.Outcome State Fault Refusal :=
  let s := s.at t
  onUnit (validLea n && validEngine e) (match (s.hub n).arriving.find? (fun c => c.engine == e) with
    | some c => s.arriveCall n c
    | none => s)

/-! ### Service (R324, R349) -/

/-- Whether a call waits for another on its request entry: the sampling engines never work on one entry together, and the
walker and the attention unit serve calls on one entry in order of admission. -/
def State.callWaits (s : State) (n e : Nat) (c : EngCall) : Bool :=
  if e = 3 ∨ e = 4 then
    (s.calls n 3).any (fun x => x.reply.isSome && !x.early && x.server != e && x.entry == c.entry && c.entry != noEntry)
  else if e = 2 ∨ e = 5 then
    (s.calls n (7 - e)).any (fun x => x.reply.isNone && x.entry == c.entry && decide (x.admitted < c.admitted))
  else false

/-- The call that an engine takes next: none while it still serves one. -/
def State.nextCall (s : State) (n e : Nat) : Option EngCall :=
  let l := s.calls n (queueKey e)
  if l.any (fun c => c.server == e && served l c) then none
  else if e = 3 ∨ e = 4 then l.find? (fun c => c.reply.isNone && !s.callWaits n e c)
  else match l.find? (fun c => c.reply.isNone) with
    | some c => if s.callWaits n e c then none else some c
    | none => none

/-- The engine asks for the data rows that a call lacks; it takes the call up again once they are there. -/
def State.askRows (s : State) (n e : Nat) (c : EngCall) (l : List Word) : State :=
  let more := c.unasked l
  more.foldl (fun (s : State) a => s.askRow c a) (s.modCalls n (queueKey e) (fun k =>
    k.map (fun x => if sameCall x c then { x with asked := x.asked ++ more } else x)))

/-- Runs a function on the call that stands next, once its data rows are there. -/
def State.serveCall (s : State) (n e fn : Nat) (run : EngCall → State → EngReply × State) : State :=
  match s.nextCall n e with
  | some c =>
    if c.fn = fn then
      let (r, u) := run c s
      if (u.hub n).wants.isEmpty then
        (u.dropOperands n c).modCalls n (queueKey e) (fun l =>
          l.map (fun x => if sameCall x c then { x with reply := some r, server := e } else x))
      else s.askRows n e c (u.hub n).wants
    else s
  | none => s

/-! ### Rows out -/

/-- The bytes of some rows. -/
def rowsBytes (l : List Row) : List (BitVec 8) := l.flatMap (fun r => toBytes 512 r.toNat)

/-- Rows filled with bytes; behind the last byte stands a free value, the same for the same call block and bytes (R326). -/
def packRows (rest : Row) : Nat → List (BitVec 8) → List Row
  | 0, _ => []
  | n + 1, l =>
    let k := Nat.min 512 l.length
    BitVec.ofNat 4096 (ofBytes (l.take k) + rest.toNat / 256 ^ k * 256 ^ k) :: packRows rest n (l.drop 512)

def rowsFor (bytes : Nat) : Nat := (bytes + 511) / 512

/-- A reply that writes bytes to the result rows. -/
def EngCall.giving (c : EngCall) (s : State) (st units : Nat) (bytes : List (BitVec 8)) : EngReply × State :=
  ({ emptyReply st with
     units := units, result := packRows (Config.rowRest c.block bytes) (rowsFor bytes.length) bytes, at0 := c.result }, s)

/-- A reply without result rows. -/
def failCall (st : Nat) (s : State) : EngReply × State := (emptyReply st, s)

end Sys2Proof.Machine
end

