-- ==== Sys2Proof/Machine/Crypto.lean ====
section
/-! DEFINITION. The cryptographic functions of the crypto engine (R351, R352, R391, R393, R395, R446): SHA-384 and SHA-256,
AES-256 with GCM, GMAC and key wrap, HMAC and HKDF, ECDSA and ECDH over P-384, and LMS. -/

namespace Sys2Proof.Machine

/-! ### SHA-2 (FIPS 180-4) -/

/-- One member of the family: word width, rounds, round constants (first word uppermost), and the distances of the four
mixing functions. -/
structure Sha where
  w  : Nat
  rounds : Nat
  k  : Nat
  up0 : Nat × Nat × Nat
  up1 : Nat × Nat × Nat
  lo0 : Nat × Nat × Nat
  lo1 : Nat × Nat × Nat

def k512a : Nat := 0x428A2F98D728AE227137449123EF65CDB5C0FBCFEC4D3B2FE9B5DBA58189DBBC3956C25BF348B53859F111F1B605D019923F82A4AF194F9BAB1C5ED5DA6D8118D807AA98A303024212835B0145706FBE243185BE4EE4B28C550C7DC3D5FFB4E272BE5D74F27B896F80DEB1FE3B1696B19BDC06A725C71235C19BF174CF692694E49B69C19EF14AD2EFBE4786384F25E30FC19DC68B8CD5B5240CA1CC77AC9C652DE92C6F592B02754A7484AA6EA6E4835CB0A9DCBD41FBD476F988DA831153B5983E5152EE66DFABA831C66D2DB43210B00327C898FB213FBF597FC7BEEF0EE4C6E00BF33DA88FC2D5A79147930AA72506CA6351E003826F142929670A0E6E7027B70A8546D22FFC2E1B21385C26C9264D2C6DFC5AC42AED53380D139D95B3DF650A73548BAF63DE766A0ABB3C77B2A881C2C92E47EDAEE692722C851482353B
def k512b : Nat := 0xA2BFE8A14CF10364A81A664BBC423001C24B8B70D0F89791C76C51A30654BE30D192E819D6EF5218D69906245565A910F40E35855771202A106AA07032BBD1B819A4C116B8D2D0C81E376C085141AB532748774CDF8EEB9934B0BCB5E19B48A8391C0CB3C5C95A634ED8AA4AE3418ACB5B9CCA4F7763E373682E6FF3D6B2B8A3748F82EE5DEFB2FC78A5636F43172F6084C87814A1F0AB728CC702081A6439EC90BEFFFA23631E28A4506CEBDE82BDE9BEF9A3F7B2C67915C67178F2E372532BCA273ECEEA26619CD186B8C721C0C207EADA7DD6CDE0EB1EF57D4F7FEE6ED17806F067AA72176FBA0A637DC5A2C898A6113F9804BEF90DAE1B710B35131C471B28DB77F523047D8432CAAB7B40C724933C9EBE0A15C9BEBC431D67C49C100D4C4CC5D4BECB3E42B6597F299CFC657E2A5FCB6FAB3AD6FAEC6C44198C4A475817
def k256 : Nat := 0x428A2F9871374491B5C0FBCFE9B5DBA53956C25B59F111F1923F82A4AB1C5ED5D807AA9812835B01243185BE550C7DC372BE5D7480DEB1FE9BDC06A7C19BF174E49B69C1EFBE47860FC19DC6240CA1CC2DE92C6F4A7484AA5CB0A9DC76F988DA983E5152A831C66DB00327C8BF597FC7C6E00BF3D5A7914706CA63511429296727B70A852E1B21384D2C6DFC53380D13650A7354766A0ABB81C2C92E92722C85A2BFE8A1A81A664BC24B8B70C76C51A3D192E819D6990624F40E3585106AA07019A4C1161E376C082748774C34B0BCB5391C0CB34ED8AA4A5B9CCA4F682E6FF3748F82EE78A5636F84C878148CC7020890BEFFFAA4506CEBBEF9A3F7C67178F2

def sha512 : Sha := ⟨64, 80, k512a * 2 ^ 2560 + k512b, (28, 34, 39), (14, 18, 41), (1, 8, 7), (19, 61, 6)⟩
def sha256 : Sha := ⟨32, 64, k256, (2, 13, 22), (6, 11, 25), (7, 18, 3), (17, 19, 10)⟩

/-- Words of `w` bits, first one uppermost. -/
def wordsOf (w v : Nat) : Nat → List Nat
  | 0 => []
  | n + 1 => v / 2 ^ (w * n) % 2 ^ w :: wordsOf w v n

def init384 : List Nat := wordsOf 64 0xCBBB9D5DC1059ED8629A292A367CD5079159015A3070DD17152FECD8F70E593967332667FFC00B318EB44A8768581511DB0C2E0D64F98FA747B5481DBEFA4FA4 8
def init256 : List Nat := wordsOf 32 0x6A09E667BB67AE853C6EF372A54FF53A510E527F9B05688C1F83D9AB5BE0CD19 8

def rotr (w n x : Nat) : Nat := x / 2 ^ n + x % 2 ^ n * 2 ^ (w - n)

def Sha.upper (s : Sha) (r : Nat × Nat × Nat) (x : Nat) : Nat := rotr s.w r.1 x ^^^ rotr s.w r.2.1 x ^^^ rotr s.w r.2.2 x
def Sha.lower (s : Sha) (r : Nat × Nat × Nat) (x : Nat) : Nat := rotr s.w r.1 x ^^^ rotr s.w r.2.1 x ^^^ x / 2 ^ r.2.2

/-- The message schedule, newest word first. -/
def Sha.schedule (s : Sha) : Nat → List Nat → List Nat
  | 0, l => l
  | n + 1, l =>
    s.schedule n ((s.lower s.lo1 (l.getD 1 0) + l.getD 6 0 + s.lower s.lo0 (l.getD 14 0) + l.getD 15 0) % 2 ^ s.w :: l)

def Sha.round (s : Sha) (h : List Nat) (kw : Nat × Nat) : List Nat :=
  let g := fun i => h.getD i 0
  let all := 2 ^ s.w - 1
  let ch := (g 4 &&& g 5) ^^^ ((all ^^^ g 4) &&& g 6)
  let maj := (g 0 &&& g 1) ^^^ (g 0 &&& g 2) ^^^ (g 1 &&& g 2)
  let t1 := g 7 + s.upper s.up1 (g 4) + ch + kw.1 + kw.2
  let t2 := s.upper s.up0 (g 0) + maj
  [(t1 + t2) % 2 ^ s.w, g 0, g 1, g 2, (g 3 + t1) % 2 ^ s.w, g 4, g 5, g 6]

/-- One block of 16 words. -/
def Sha.block (s : Sha) (h words : List Nat) : List Nat :=
  let w := (s.schedule (s.rounds - 16) words.reverse).reverse
  List.zipWith (fun a b => (a + b) % 2 ^ s.w) h (((wordsOf s.w s.k s.rounds).zip w).foldl s.round h)

def Sha.blockBytes (s : Sha) : Nat := 2 * s.w

/-- Whole blocks of a message. -/
def Sha.blocks (s : Sha) (h : List Nat) : Nat → List (BitVec 8) → List Nat
  | 0, _ => h
  | n + 1, l => s.blocks (s.block h (wordsOf s.w (ofBytesBE (l.take s.blockBytes)) 16)) n (l.drop s.blockBytes)

/-- The padding of a message of `n` bytes. -/
def Sha.padding (s : Sha) (n : Nat) : List (BitVec 8) :=
  let b := s.blockBytes
  let z := (2 * b - (n + 1 + s.w / 4) % b) % b
  0x80 :: (List.replicate z 0 ++ toBytesBE (s.w / 4) (8 * n))

/-- The chaining words at the end of a message whose earlier bytes, `before` of them, are in `h`. -/
def Sha.finish (s : Sha) (h : List Nat) (before : Nat) (l : List (BitVec 8)) : List Nat :=
  let m := l ++ s.padding (before + l.length)
  s.blocks h (m.length / s.blockBytes) m

def wordsBytes (w : Nat) (l : List Nat) : List (BitVec 8) := l.flatMap (toBytesBE (w / 8))

def sha384 (l : List (BitVec 8)) : List (BitVec 8) := (wordsBytes 64 (sha512.finish init384 0 l)).take 48
def sha2_256 (l : List (BitVec 8)) : List (BitVec 8) := wordsBytes 32 (sha256.finish init256 0 l)

/-! ### HMAC and HKDF with SHA-384 -/

def xorPad (b : Nat) (l : List (BitVec 8)) : List (BitVec 8) :=
  (l ++ List.replicate (128 - l.length) 0).map (fun x => x ^^^ BitVec.ofNat 8 b)
def hmac384 (key msg : List (BitVec 8)) : List (BitVec 8) :=
  let k := if 128 < key.length then sha384 key else key
  sha384 (xorPad 0x5C k ++ sha384 (xorPad 0x36 k ++ msg))
/-- HKDF-SHA-384 for up to 48 bytes. -/
def hkdf384 (ikm salt info : List (BitVec 8)) (n : Nat) : List (BitVec 8) :=
  (hmac384 (hmac384 salt ikm) (info ++ [1])).take n

/-! ### AES-256 (FIPS 197) -/

def sboxTable : Nat := 0x16BB54B00F2D99416842E6BF0D89A18CDF2855CEE9871E9B948ED9691198F8E19E1DC186B95735610EF6034866B53E708A8BBD4B1F74DDE8C6B4A61C2E2578BA08AE7A65EAF4566CA94ED58D6D37C8E779E4959162ACD3C25C2406490A3A32E0DB0B5EDE14B8EE4688902A22DC4F816073195D643D7EA7C41744975FEC130CCDD2F3FF1021DAB6BCF5389D928F40A351A89F3C507F02F94585334D43FBAAEFD0CF584C4A39BECB6A5BB1FC20ED00D153842FE329B3D63B52A05A6E1B1A2C830975B227EBE28012079A059618C323C7041531D871F1E5A534CCF73F362693FDB7C072A49CAFA2D4ADF04759FA7DC982CA76ABD7FE2B670130C56F6BF27B777C63
def invSboxTable : Nat := 0x7D0C2155631469E126D677BA7E042B17619953833CBBEBC8B0F52AAE4D3BE0A0EF9CC9939F7AE52D0D4AB519A97F51605FEC8027591012B131C7078833A8DD1FF45ACD78FEC0DB9A2079D2C64B3E56FC1BBE18AA0E62B76F89C5291D711AF1476EDF751CE837F9E28535ADE72274AC9673E6B4F0CECFF297EADC674F4111913A6B8A130103BDAFC1020F3FCA8F1E2CD00645B3B80558E4F70AD3BC8C00ABD890849D8DA75746155EDAB9EDFD5048706C92B6655DCC5CA4D41698688664F6F87225D18B6D49A25B76B224D92866A12E084EC3FA420B954CEE3D23C2A632947B54CBE9DEC444438E3487FF2F9B8239E37CFBD7F3819EA340BF38A53630D56A0952
def sbox (b : Nat) : Nat := sboxTable / 256 ^ b % 256
def invSbox (b : Nat) : Nat := invSboxTable / 256 ^ b % 256

def xtime (a : Nat) : Nat := if a < 128 then 2 * a else (2 * a ^^^ 0x11B) % 256
/-- The product of two bytes in the field of AES. -/
def gf8 : Nat → Nat → Nat → Nat
  | 0, _, _ => 0
  | n + 1, a, b => (if b % 2 = 1 then a else 0) ^^^ gf8 n (xtime a) (b / 2)

def xor4 (a b : List Nat) : List Nat := List.zipWith (· ^^^ ·) a b

/-- The key schedule: words of four bytes, newest first. -/
def aesExpand : Nat → Nat → Nat → List (List Nat) → List (List Nat)
  | 0, _, _, l => l
  | n + 1, i, rcon, l =>
    let t := l.headD []
    let t := if i % 8 = 0 then
        (match (t.drop 1 ++ t.take 1).map sbox with
         | x :: r => (x ^^^ rcon) :: r
         | [] => [])
      else if i % 8 = 4 then t.map sbox else t
    aesExpand n (i + 1) (if i % 8 = 0 then xtime rcon else rcon) (xor4 (l.getD 7 []) t :: l)

def pieces (k : Nat) : Nat → List Nat → List (List Nat)
  | 0, _ => []
  | n + 1, l => l.take k :: pieces k n (l.drop k)

/-- The fifteen round keys, 16 bytes each. -/
def aesKeys (key : List (BitVec 8)) : List (List Nat) :=
  let w := (aesExpand 52 8 1 (pieces 4 8 (key.map BitVec.toNat)).reverse).reverse
  pieces 16 15 w.flatten

def shiftRows (l : List Nat) : List Nat := (List.range 16).map (fun i => l.getD ((i + 4 * (i % 4)) % 16) 0)
def invShiftRows (l : List Nat) : List Nat := (List.range 16).map (fun i => l.getD ((i + 16 - 4 * (i % 4)) % 16) 0)
def mixWith (m : List Nat) (l : List Nat) : List Nat :=
  (List.range 16).map (fun i => (List.range 4).foldl (fun acc j =>
    acc ^^^ gf8 8 (l.getD (4 * (i / 4) + j) 0) (m.getD ((j + 4 - i % 4) % 4) 0)) 0)

def aesEncrypt (keys : List (List Nat)) (block : List Nat) : List Nat :=
  let s := xor4 block (keys.headD [])
  let s := ((keys.drop 1).take 13).foldl (fun s k => xor4 (mixWith [2, 3, 1, 1] (shiftRows (s.map sbox))) k) s
  xor4 (shiftRows (s.map sbox)) (keys.getD 14 [])
def aesDecrypt (keys : List (List Nat)) (block : List Nat) : List Nat :=
  let ks := keys.reverse
  let s := xor4 block (ks.headD [])
  let s := ((ks.drop 1).take 13).foldl (fun s k => mixWith [14, 11, 13, 9] (xor4 ((invShiftRows s).map invSbox) k)) s
  xor4 ((invShiftRows s).map invSbox) (ks.getD 14 [])

/-! ### GCM (SP 800-38D) -/

def block128 (v : Nat) : List Nat := wordsOf 8 v 16
def ofBlock (l : List Nat) : Nat := l.foldl (fun a b => a * 256 + b) 0

/-- The product in GF(2¹²⁸), bit 0 of the field being the highest bit. -/
def gf128 : Nat → Nat → Nat → Nat → Nat
  | 0, _, _, z => z
  | n + 1, x, v, z =>
    gf128 n x (if v % 2 = 1 then v / 2 ^^^ 0xE1 * 2 ^ 120 else v / 2) (if x / 2 ^ n % 2 = 1 then z ^^^ v else z)

def zeroPad16 (l : List (BitVec 8)) : List (BitVec 8) := l ++ List.replicate ((16 - l.length % 16) % 16) 0

def ghash (h : Nat) : Nat → Nat → List (BitVec 8) → Nat
  | 0, y, _ => y
  | n + 1, y, l => ghash h n (gf128 128 (y ^^^ ofBytesBE (l.take 16)) h 0) (l.drop 16)

/-- The counter blocks' key stream from a counter on. -/
def ctrStream (keys : List (List Nat)) (iv : Nat) : Nat → Nat → List (BitVec 8)
  | 0, _ => []
  | n + 1, c => (aesEncrypt keys (block128 (iv * 2 ^ 32 + c % 2 ^ 32))).map (BitVec.ofNat 8) ++ ctrStream keys iv n (c + 1)

def gcmCrypt (key iv data : List (BitVec 8)) : List (BitVec 8) :=
  List.zipWith (· ^^^ ·) data (ctrStream (aesKeys key) (ofBytesBE iv) ((data.length + 15) / 16) 2)
/-- The tag over additional data and ciphertext. -/
def gcmTag (key iv aad cipher : List (BitVec 8)) : List (BitVec 8) :=
  let keys := aesKeys key
  let h := ofBlock (aesEncrypt keys (block128 0))
  let l := zeroPad16 aad ++ zeroPad16 cipher ++ toBytesBE 8 (8 * aad.length) ++ toBytesBE 8 (8 * cipher.length)
  toBytesBE 16 (ghash h (l.length / 16) 0 l ^^^ ofBlock (aesEncrypt keys (block128 (ofBytesBE iv * 2 ^ 32 + 1))))

/-! ### Key wrap (RFC 3394) -/

/-- Undoes the wrapping steps from step `t` down to 1; `rs` are the 64-bit registers. -/
def unwrapSteps (keys : List (List Nat)) : Nat → Nat → List Nat → Nat × List Nat
  | 0, a, rs => (a, rs)
  | t + 1, a, rs =>
    let i := t % rs.length
    let b := ofBlock (aesDecrypt keys (block128 ((a ^^^ (t + 1)) * 2 ^ 64 + rs.getD i 0)))
    unwrapSteps keys t (b / 2 ^ 64) (rs.set i (b % 2 ^ 64))

/-- The key in a wrapped key of 40 bytes, where the check value is right. -/
def keyUnwrap (kek wrapped : List (BitVec 8)) : Option (List (BitVec 8)) :=
  let w := wordsOf 64 (ofBytesBE wrapped) 5
  let (a, rs) := unwrapSteps (aesKeys kek) 24 (w.headD 0) (w.drop 1)
  if a = 0xA6A6A6A6A6A6A6A6 ∧ wrapped.length = 40 then some (wordsBytes 64 rs) else none

/-! ### The curve P-384 -/

def p384 : Nat := 2 ^ 384 - 2 ^ 128 - 2 ^ 96 + 2 ^ 32 - 1
def n384 : Nat := 0xFFFFFFFFFFFFFFFFFFFFFFFFFFFFFFFFFFFFFFFFFFFFFFFFC7634D81F4372DDF581A0DB248B0A77AECEC196ACCC52973
def b384 : Nat := 0xB3312FA7E23EE7E4988E056BE3F82D19181D9C6EFE8141120314088F5013875AC656398D8A2ED19D2A85C8EDD3EC2AEF
def g384 : Nat × Nat :=
  (0xAA87CA22BE8B05378EB1C71EF320AD746E1D3B628BA79B9859F741E082542A385502F25DBF55296C3A545E3872760AB7,
   0x3617DE4A96262C6F5D9E98BF9292DC29F8F41DBD289A147CE9DA3113B5F0B8C00A60B1CE1D7E819D7A431D7C90EA0E5F)

/-- bᵉ mod m over the low bits of e. -/
def powMod (m : Nat) : Nat → Nat → Nat → Nat
  | 0, _, _ => 1
  | k + 1, b, e => (if e % 2 = 1 then b else 1) * powMod m k (b * b % m) (e / 2) % m
def invMod (m a : Nat) : Nat := powMod m 384 (a % m) (m - 2)

/-- The sum of two points; none is the point at infinity. -/
def ecAdd (a b : Option (Nat × Nat)) : Option (Nat × Nat) :=
  match a, b with
  | none, b => b
  | a, none => a
  | some (x1, y1), some (x2, y2) =>
    if x1 = x2 ∧ (y1 + y2) % p384 = 0 then none
    else
      let l := if x1 = x2 then (3 * x1 * x1 + p384 - 3) * invMod p384 (2 * y1) % p384
        else (y2 + p384 - y1) * invMod p384 (x2 + p384 - x1) % p384
      let x3 := (l * l + 2 * p384 - x1 - x2) % p384
      some (x3, (l * (x1 + p384 - x3) + p384 - y1) % p384)
def ecMul : Nat → Nat → Option (Nat × Nat) → Option (Nat × Nat)
  | 0, _, _ => none
  | n + 1, k, a => ecAdd (if k % 2 = 1 then a else none) (ecMul n (k / 2) (ecAdd a a))
def onCurve (a : Nat × Nat) : Bool :=
  decide (a.1 < p384) && decide (a.2 < p384) && a.2 * a.2 % p384 == (a.1 * a.1 * a.1 + (p384 - 3) * a.1 + b384) % p384

/-- A public key in uncompressed SEC1 form, 97 bytes. -/
def sec1 (l : List (BitVec 8)) : Option (Nat × Nat) :=
  let a := (ofBytesBE ((l.drop 1).take 48), ofBytesBE ((l.drop 49).take 48))
  if l.length = 97 ∧ l.headD 0 = 4 ∧ onCurve a then some a else none
def toSec1 (a : Nat × Nat) : List (BitVec 8) := 4 :: (toBytesBE 48 a.1 ++ toBytesBE 48 a.2)

/-- ECDSA P-384 with SHA-384; the signature is r then s, 48 bytes each. -/
def ecdsaOk (pub msg sig : List (BitVec 8)) : Bool :=
  match sec1 pub with
  | none => false
  | some a =>
    let r := ofBytesBE (sig.take 48)
    let s := ofBytesBE ((sig.drop 48).take 48)
    let w := invMod n384 s
    let z := ofBytesBE (sha384 msg)
    sig.length == 96 && decide (0 < r) && decide (r < n384) && decide (0 < s) && decide (s < n384) &&
    (match ecAdd (ecMul 384 (z * w % n384) (some g384)) (ecMul 384 (r * w % n384) (some a)) with
     | some x => x.1 % n384 == r
     | none => false)

/-! ### LMS and HSS (RFC 8554, SP 800-208), with SHA-256 of 32 or 24 bytes -/

/-- Digest length and tree height of an LMS type. -/
def lmsType (t : Nat) : Option (Nat × Nat) :=
  if 5 ≤ t ∧ t ≤ 9 then some (32, 5 * (t - 4)) else if 10 ≤ t ∧ t ≤ 14 then some (24, 5 * (t - 9)) else none
/-- Digest length, w, p and ls of an LM-OTS type. -/
def otsType (t : Nat) : Option (Nat × Nat × Nat × Nat) :=
  match t with
  | 1 => some (32, 1, 265, 7)
  | 2 => some (32, 2, 133, 6)
  | 3 => some (32, 4, 67, 4)
  | 4 => some (32, 8, 34, 0)
  | 5 => some (24, 1, 200, 8)
  | 6 => some (24, 2, 101, 6)
  | 7 => some (24, 4, 51, 4)
  | 8 => some (24, 8, 26, 0)
  | _ => none

/-- Coefficient `i` of a byte string in digits of `w` bits. -/
def otsCoef (l : List (BitVec 8)) (w i : Nat) : Nat := (l.getD (i * w / 8) 0).toNat / 2 ^ (8 - w - i * w % 8) % 2 ^ w

/-- Steps of a hash chain. -/
def otsChain (n : Nat) (id : List (BitVec 8)) (i : Nat) : Nat → Nat → List (BitVec 8) → List (BitVec 8)
  | 0, _, x => x
  | k + 1, j, x => otsChain n id i k (j + 1) ((sha2_256 (id ++ toBytesBE 2 i ++ toBytesBE 1 j ++ x)).take n)

/-- The public key candidate of an LM-OTS signature: none where it is malformed. -/
def otsKey (id : List (BitVec 8)) (q : Nat) (msg sig : List (BitVec 8)) : Option (List (BitVec 8)) :=
  match otsType (ofBytesBE (sig.take 4)) with
  | none => none
  | some (n, w, p, ls) =>
    let idq := id ++ toBytesBE 4 q
    let d := (sha2_256 (idq ++ toBytesBE 2 0x8181 ++ (sig.drop 4).take n ++ msg)).take n
    let sum := ((List.range (8 * n / w)).map (fun i => 2 ^ w - 1 - otsCoef d w i)).foldl (· + ·) 0
    let all := d ++ toBytesBE 2 (sum * 2 ^ ls)
    let ys := (List.range p).flatMap (fun i =>
      let a := otsCoef all w i
      otsChain n idq i (2 ^ w - 1 - a) a ((sig.drop (4 + n + n * i)).take n))
    if sig.length = 4 + n * (p + 1) then some ((sha2_256 (idq ++ toBytesBE 2 0x8080 ++ ys)).take n) else none

/-- From a leaf up to the root. -/
def lmsRoot (n : Nat) (id : List (BitVec 8)) : Nat → Nat → List (BitVec 8) → List (BitVec 8) → List (BitVec 8)
  | 0, _, x, _ => x
  | h + 1, r, x, path =>
    let y := path.take n
    lmsRoot n id h (r / 2) ((sha2_256 (id ++ toBytesBE 4 (r / 2) ++ toBytesBE 2 0x8383 ++
      (if r % 2 = 1 then y ++ x else x ++ y))).take n) (path.drop n)

/-- One level: the public key is type, LM-OTS type, identifier and root. -/
def lmsOk (pub msg sig : List (BitVec 8)) : Bool :=
  let ot := ofBytesBE ((pub.drop 4).take 4)
  match lmsType (ofBytesBE (pub.take 4)), otsType ot with
  | some (n, h), some (m, _, p, _) =>
    let id := (pub.drop 8).take 16
    let q := ofBytesBE (sig.take 4)
    let os := 4 + m * (p + 1)
    let rest := sig.drop (4 + os)
    n == m && pub.length == 24 + n && decide (q < 2 ^ h) && ofBytesBE ((sig.drop 4).take 4) == ot &&
    rest.take 4 == pub.take 4 && sig.length == 8 + os + n * h &&
    (match otsKey id q msg ((sig.drop 4).take os) with
     | some k =>
       let r := 2 ^ h + q
       lmsRoot n id h r ((sha2_256 (id ++ toBytesBE 4 r ++ toBytesBE 2 0x8282 ++ k)).take n) (rest.drop 4) == (pub.drop 24).take n
     | none => false)
  | _, _ => false

/-- How many bytes a signature of the level takes whose public key is given. -/
def lmsSigBytes (pub : List (BitVec 8)) : Nat :=
  match lmsType (ofBytesBE (pub.take 4)), otsType (ofBytesBE ((pub.drop 4).take 4)) with
  | some (n, h), some (_, _, p, _) => 12 + n * (p + 1) + n * h
  | _, _ => 0
def lmsPubBytes (pub : List (BitVec 8)) : Nat := ((lmsType (ofBytesBE (pub.take 4))).map (fun t => 24 + t.1)).getD 0

/-- The levels below the root: each public key is signed by the level above it. -/
def hssLevels : Nat → List (BitVec 8) → List (BitVec 8) → List (BitVec 8) → Bool
  | 0, pub, msg, sig => lmsOk pub msg sig
  | n + 1, pub, msg, sig =>
    let k := lmsSigBytes pub
    let rest := sig.drop k
    let next := rest.take (lmsPubBytes rest)
    lmsOk pub next (sig.take k) && hssLevels n next msg (rest.drop next.length)

/-- The HSS check: the public key is the level count and the top level's key, zero-padded where it stands in a slot. -/
def hssOk (pub msg sig : List (BitVec 8)) : Bool :=
  let l := ofBytesBE (pub.take 4)
  let top := (pub.drop 4).take (lmsPubBytes (pub.drop 4))
  decide (1 ≤ l) && decide (l ≤ 8) && ofBytesBE (sig.take 4) == l - 1 && hssLevels (l - 1) top msg (sig.drop 4)

end Sys2Proof.Machine
end

