-- ==== Sys2Proof/Machine/Report.lean ====
section
/-! DEFINITION. The module identity (R578), the restore report (R600, R601), and what a fold that is struck goes through
(R546 to R549, R589, R591, R592). -/

namespace Sys2Proof.Machine

/-! ### The module identity -/

/-- The first 8 bytes of SHA-384 over the identity public key; zero while the module has none. -/
def State.identity (s : State) : List (BitVec 8) :=
  if s.sec.identity then (sha384 Config.identityPublic).take 8 else List.replicate 8 0

/-! ### The restore report -/

/-- Kinds of what goes out as one message: the restore report, an attestation report. -/
def outRestore : Nat := 0
def outAttest : Nat := 1

def wholeModule : Nat := 0xFFFF

/-- The mask of some restore classes (Table 18-5). -/
def classes (l : List Nat) : Nat := (l.map (2 ^ ·)).foldl (· + ·) 0

/-- Table 18-4. -/
def State.reportBytes (s : State) (event cause scope beat0 defaulted rebuilt lost : Nat) : List (BitVec 8) :=
  s.identity ++ toBytes 4 s.restore.seq ++ toBytes 1 event ++ toBytes 1 cause ++ toBytes 2 scope ++ toBytes 8 s.ns ++
  toBytes 8 defaulted ++ toBytes 8 rebuilt ++ toBytes 8 lost ++ toBytes 8 beat0 ++ toBytes 8 0

/-- R600: the report is numbered, sent, and written to GLB_RESTORE_w. -/
def State.restoreReport (s : State) (event cause scope beat0 defaulted rebuilt lost : Nat) : State :=
  let s := { s with restore := { s.restore with seq := (s.restore.seq + 1) % 2 ^ 32 } }
  let b := s.reportBytes event cause scope beat0 defaulted rebuilt lost
  let s := (List.range 8).foldl (fun (s : State) w =>
    s.setReg .glbRestore 0 w (BitVec.ofNat 64 (ofBytes ((b.drop (8 * w)).take 8)))) s
  s.send (.report outRestore b)

/-- R588: the most recent reset, and the count of all. -/
def State.noteReset (s : State) (cls cause : Nat) : State :=
  ((s.setFld Fld.glbResetCauseClass 0 0 cls).setFld Fld.glbResetCauseCause 0 0 cause).bump Fld.glbResetCauseResetCount 0 0

/-! ### Norm watch slots (Table 06-5) -/

/-- A reset returns a slot whose policy is not OFF to WARMUP. -/
def NormSlot.warmed (n : NormSlot) : NormSlot :=
  { n with state := if n.policy = 0 then 0 else 1, left := if n.policy = 0 then 0 else n.warmup, mean := 0, triggers := 0 }

def warmNorm (m : Map NormSlot) : Map NormSlot := Map.mapOn NormSlot.reset m (fun _ => true) NormSlot.warmed

/-! ### Loads under way (R396, R409, R548) -/

/-- A model record as it was before the load that ends. -/
def Model.unloaded (m : Model) : Option Model :=
  if m.state = 1 then none else some { m with next := none, loading := none }

/-- What a load wrote is released; the record of its handle is as it was. -/
def State.dropLoad (s : State) (ep seq : Nat) : State :=
  { s with models := s.models.filterMap (fun e =>
      if e.2.loading = some (ep, seq) then e.2.unloaded.map (fun m => (e.1, m)) else some e) }

/-- The LOAD_MODEL items under way, with their endpoints, that a test names. -/
def State.loads (s : State) (p : Item → Bool) : List (Nat × Item) :=
  s.endpoints.flatMap (fun e => (e.2.items.filter (fun i => i.opcode == opLoad && i.begun && i.fin.isNone && p i)).map (fun i => (e.1, i)))

/-- Those loads end with a status. -/
def State.endLoads (s : State) (p : Item → Bool) (st : Nat) : State :=
  (s.loads p).foldl (fun (s : State) x => (s.dropLoad x.1 x.2.seq).complete x.1 x.2.seq st 0 none) s

/-- The fold that a LOAD_MODEL names (Table 12-5). -/
def Item.loadFold (i : Item) : Nat := descBytes i.desc 36 1

/-! ### A fold that is struck -/

/-- ARMED, RUNNING or STOPPING. -/
def State.foldLive (s : State) (f : Nat) : Bool :=
  s.foldState f == foldArmed || s.foldState f == foldRunning || s.foldState f == foldStopping

/-- R546, R548: the swath ends at once and fails; the fold stands in STOPPED_FAULT; a load into it ends. -/
def State.strike (s : State) (f : Nat) : State :=
  let s := s.endLoads (fun i => i.loadFold == f) stFault
  if s.foldLive f then s.stopFault f none else s

/-- R466: every port that the block needs leads to a partner. -/
def State.blockUp (s : State) (f : Nat) : Bool :=
  !s.multi f || (s.blockPorts f).all (fun p => !(s.portLinks p).isEmpty)

/-- R414: a model whose copy the fold holds is REVALIDATING. -/
def State.revalidating (s : State) (f : Nat) : Bool :=
  s.models.any (fun e => e.2.state == 4 && !e.2.adapter && e.2.cur.fold == f)

/-- What must hold before a fold that was stopped is armed again: its clusters are ON, its ports UP, and its copy stands. -/
def State.mayRearm (s : State) (f : Nat) : Bool :=
  (s.foldState f == foldStopped || s.foldState f == foldIdle) && (s.fold f).rearm && (s.fold f).replacing.isNone &&
  (s.foldClusters f).all s.domainOn && s.blockUp f && !s.revalidating f

/-- The stewards arm a struck fold again; one whose arming is refused stays IDLE, and its settings keep their values. -/
def State.rearmStruck (s : State) (f : Nat) (setup : Bool) : State :=
  let ms := (s.fold f).markers.filter (fun m => m.1 == 2)
  let s := (s.modFold f (fun x => { x with rearm := false })).toIdle f
  (s.modFold f (fun x => { x with markers := ms })).rearmFold f setup

def State.tryRearm (s : State) (f : Nat) : State := if s.mayRearm f then s.rearmStruck f false else s

/-- Every fold that waits to be armed again is tried. -/
def State.rearmAll (s : State) : State := (Map.keys s.folds).foldl (fun (s : State) f => s.tryRearm f) s

/-- A struck fold that will be armed again without a re-placement. -/
def State.strikeRearm (s : State) (f : Nat) : State :=
  let live := s.foldLive f
  let s := s.strike f
  if live then s.modFold f (fun x => { x with rearm := true }) else s

end Sys2Proof.Machine
end

