-- ==== Sys2Proof/Machine/Links.lean ====
section
/-! DEFINITION. Links (13): training, Skeltin frames and their retry, step markers, and remote windows. -/

namespace Sys2Proof.Machine

/-! ### A link goes down (R418, R461, R453) -/

/-- R418: the connection of an endpoint fails. `cls` is the class that its RESUME entry will name. -/
def State.detach (s : State) (ep cls : Nat) : State :=
  if (s.endpoint ep).state = 0 then s
  else
    let s := s.modEndpoint ep (fun e => { e with
      state := 1, due := none, headSeen := false, resumeClass := cls })
    let fs := (s.folds.filter (fun x => x.2.owed.any (fun o => o.1 == ep))).map Prod.fst
    fs.foldl (fun (s : State) f =>
      (s.modFold f (fun x => { x with owed := x.owed.filter (fun o => o.1 != ep) })).tryForm f) s

def State.detachLink (s : State) (l cls : Nat) : State :=
  (s.endpoints.filter (fun e => e.2.link == l && decide (2 ≤ e.2.state))).foldl (fun (s : State) e => s.detach e.1 cls) s

/-- The Skeltin links of a port that are UP, those that Standby idles among them. -/
def State.upLinks (s : State) (p : Nat) : List Nat :=
  (List.range 96).filter (fun l => (s.linkOf l).port == p && (s.linkOf l).mode == 1 && s.lnkState l == lnkUp)

/-- LNK_PORT_p as the port's links stand. -/
def State.countLinks (s : State) (p : Nat) : State :=
  let n := (s.upLinks p).length
  (s.setFld Fld.lnkPortLinksUp 0 p (Nat.min n 24)).setFld Fld.lnkPortState 0 p (if n = 0 then 0 else 1)

/-- The requests of a cluster's queue pairs that wait on a port: those whose window's owner lies that way. -/
def State.waitingOn (s : State) (p : Nat) : List QReq :=
  s.clusters.flatMap (fun c => c.2.queues.flatMap (fun e => e.2.flight.filter (fun r => match remoteOf r.addr with
    | .window id _ => (Map.find s.remotes id).any (fun w => w.owner != s.ownCoord && s.roleToward w.owner == s.portRole p)
    | _ => false)))

/-- The header under which a request of a queue pair is known (Table 13-4). -/
def QReq.header (r : QReq) (block : Nat) : RowHeader :=
  match remoteOf r.addr with
  | .window id off => windowHeader r.write r.n id r.gen off r.core r.tag r.launch block
  | _ => windowHeader r.write r.n 0 r.gen 0 r.core r.tag r.launch block

/-- R461: a port with no UP link is down. -/
def State.portDown (s : State) (p l : Nat) : State :=
  let s := s.report (srcLink l) 0x6004 p 0
  let s := { s with ports := Map.set Port.reset s.ports p Port.reset }
  let other := (List.range p).any (fun q => s.portRole q == s.portRole p && !(s.portLinks q).isEmpty)
  let s := if other then s
    else (s.waitingOn p).foldl (fun (s : State) r =>
      s.refuseHere (r.header (s.blockTag ((s.foldOf (clusterOf r.core)).getD 0)))) s
  (List.range 256).foldl (fun (s : State) f => if s.multi f ∧ s.usesPort f p then s.strikeRearm f else s) s

/-- The port's link count changes, and the port goes down with its last UP link. Where only idled ones are left, the lowest
of them carries its frames. -/
def State.linkLost (s : State) (p l : Nat) (was : Bool) : State :=
  let s := s.countLinks p
  let s := if (s.portLinks p).isEmpty then (match (s.upLinks p).head? with
    | some k => s.modLink k (fun x => { x with idled := false })
    | none => s) else s
  if was ∧ (s.portLinks p).isEmpty then s.portDown p l else s

/-- A K reset of a link (Table 18-1): what lists K is cleared, and mode and port take effect. -/
def State.resetLink (s : State) (l cause : Nat) : State :=
  let old := (s.linkOf l).port
  let was := !(s.portLinks old).isEmpty
  let s := (s.noteReset 6 cause).clearRegs 32 (fun r u _ => r.place.scope == .link && u == l)
  let mode := s.fld Fld.lnkCfgMode l 0
  let trains := s.fld Fld.lnkCfgEnable l 0 == 1 && mode != 0
  let s := s.modLink l (fun k => { k with
    mode := mode, port := s.fld Fld.lnkCfgPort l 0, trainAt := s.now, idled := false
    kReset := if trains then some (cause, s.beat) else none })
  let s := s.setFld Fld.lnkStatusState l 0 (if trains then lnkTraining else lnkDown)
  let bound := s.endpoints.any (fun e => e.2.link == l && decide (2 ≤ e.2.state))
  let s := (s.detachLink l 4).linkLost old l was
  if trains then s else s.restoreReport 6 cause l s.beat (if bound then classes [11] else 0) 0 0

/-! ### LINK_WAKE and the end of a span (R491, R596, R598) -/

/-- A link that Standby idled asks to rise to full rate: 36,000 ticks. Its request names the link in place of a bank. -/
def State.askWake (s : State) (l : Nat) : State := s.askLeave clsLinkWake (24 * linkLea l) 0 0 3000 0 (some l)

/-- A link that has risen carries frames again. -/
def State.wakeLink (s : State) (g : Grant) : State :=
  match g.cls == clsLinkWake, g.bank with
  | true, some l => (s.modLink l (fun x => { x with idled := false })).countLinks (s.linkOf l).port
  | _, _ => s

/-- The power-up of a domain or of a bank ends by its own event. -/
def execGrantSpanEnd (t n g : Nat) (s : State) : Host.Outcome State Fault Refusal :=
  let s := s.at t
  onUnit (validLea n) (match (s.grants n).find? (fun x => x.id == g) with
    | some x => if x.cls ≠ clsPowerOn ∧ x.ends ≤ s.now then (s.endSpan n x).wakeLink x else s
    | none => s)

/-! ### LINK_TRAINING (R454 to R456) -/

/-- 20 ms. -/
def State.trainTicks (s : State) : Nat := 20000 * s.beatTicks

def oppositeRole (role : Nat) : Nat := if role % 2 = 1 then role + 1 else role - 1

/-- R456: the partner is the neighbour in the port's direction, on a port of the opposite direction. Before LNK_TORUS is
valid no port takes part in the torus, and nothing is compared. -/
def State.miscabled (s : State) (l : Nat) (r : Training) : Bool :=
  let k := s.linkOf l
  let role := s.portRole k.port
  k.mode == 1 && decide (1 ≤ role) && decide (role ≤ 6) && s.fld Fld.lnkTorusValid 0 0 == 1 &&
  (s.portNeighbour k.port != some (r.coord.1 + 32 * r.coord.2.1 + 1024 * r.coord.2.2) || r.role != oppositeRole role)

/-- What the link has shown of its partner and its lanes. -/
def State.showPartner (s : State) (l : Nat) (r : Training) : State :=
  let s := (s.setFld Fld.lnkStatusPartnerX l 0 r.coord.1).setFld Fld.lnkStatusPartnerY l 0 r.coord.2.1
  let s := (s.setFld Fld.lnkStatusPartnerZ l 0 r.coord.2.2).setFld Fld.lnkStatusPartnerLink l 0 r.link
  (s.setFld Fld.lnkStatusReversed l 0 (if r.reversed then 1 else 0)).setFld Fld.lnkStatusInverted l 0 r.inverted

/-- R600: the report of the K reset that ends with this training. -/
def State.endLinkReset (s : State) (l : Nat) : State :=
  match (s.linkOf l).kReset with
  | some (cause, beat) => (s.modLink l (fun k => { k with kReset := none })).restoreReport 6 cause l beat
      (if s.endpoints.any (fun e => e.2.link == l && e.2.state == 1) then classes [11] else 0) 0 0
  | none => s

/-- A link comes UP: its port is reset with its first link. -/
def State.linkUp (s : State) (l : Nat) : State :=
  let p := (s.linkOf l).port
  let first := (s.portLinks p).isEmpty
  let s := s.setFld Fld.lnkStatusState l 0 lnkUp
  if (s.linkOf l).mode = 1 then
    let s := if first then { s with ports := Map.set Port.reset s.ports p Port.reset } else s
    (s.countLinks p).rearmAll
  else (s.setFld Fld.lnkPortLinksUp 0 p 1).setFld Fld.lnkPortState 0 p 1

def State.trainLink (s : State) (l : Nat) (r : Training) : State :=
  let late := decide ((s.linkOf l).trainAt + s.trainTicks < s.now)
  let s := match r.failed, late with
    | some n, _ => (s.setFld Fld.lnkStatusState l 0 lnkFailed).report (srcLink l) 0x6001 l n
    | none, true => (s.setFld Fld.lnkStatusState l 0 lnkFailed).report (srcLink l) 0x6001 l 5
    | none, false =>
      let s := s.showPartner l r
      if s.miscabled l r then
        (s.setFld Fld.lnkStatusState l 0 lnkFailed).report (srcLink l) 0x6002 l
          (r.coord.1 + 32 * r.coord.2.1 + 1024 * r.coord.2.2)
      else s.linkUp l
  s.endLinkReset l

def execLinkTraining (t link : Nat) (r : Training) (s : State) : Host.Outcome State Fault Refusal :=
  let s := s.at t
  onUnit (validLink link) (whenever (s.lnkState link == lnkTraining) (fun s => s.trainLink link r) s)

/-! ### SKELTIN_DATA_FRAME and NAK (R457 to R463) -/

/-- R459, R460: the frames that an acknowledgement covers leave the replay buffer. -/
def Port.acked (p : Port) (ack : Nat) : Port :=
  { p with replay := p.replay.filter (fun f => !decide ((ack + 65536 - f.seq) % 65536 < 32768)) }

/-- R460: every frame that is still kept goes out again, in order. -/
def State.resend (s : State) (p : Nat) : State :=
  (s.port p).replay.foldl (fun (s : State) f =>
    match nextInTurn (s.portLinks p) (s.port p).nextLink with
    | some l =>
      let s := s.modPort p (fun x => { x with
        nextLink := l + 1, replay := x.replay.map (fun g => if g.seq == f.seq then { g with link := l } else g) })
      s.emit p l f.tx.kind f.tx.vc f.seq f.tx.payload
    | none => s) s

def State.takeNak (s : State) (p seq : Nat) : State := (s.modPort p (fun x => x.acked seq)).resend p

/-- The fold of a block tag (R466). -/
def State.foldOfTag (s : State) (tag : Nat) : Option Nat :=
  (List.range 256).find? (fun f => s.multi f && s.blockTag f == tag)

/-- A slot send of a multi-module fold from another module (R462): it goes on from the hub of its link as elastic traffic (R24). A
block tag that this module does not hold names no fold. -/
def State.linkSlot (s : State) (p n : Nat) (h : RowHeader) (r : Row) : State :=
  match s.transitOf p h with
  | some (tag, t) => if h.index = 0 ∨ t.come = 0 then s
      else (s.setTransit tag { t with come := t.come - 1 }).sendLinkRow tag t h.index (some r)
  | none =>
    if h.index ≠ 0 then s
    else match s.foldOfTag h.block with
      | none => s.refuseBack p n 3 h
      | some f =>
        let t : Transit := { port := p, lea := n, header := h, fold := f, target := none, come := h.rows - 1, left := h.rows,
                             rows := [], relay := false }
        (s.drawTag.setTransit s.nextTag t).sendLinkRow s.nextTag t 0 (some r)

/-- R473, R546: a partner's fold was struck: this part of the block ends its swath in the same way. -/
def State.takeFirmware (s : State) (h : RowHeader) : State :=
  match s.foldOfTag h.block with
  | some f =>
    if h.window = 1 then (if s.foldLive f then s.stopFault f (some stFault) else s) else s.strikeRearm f
  | none => s

/-! ### Relaying (R465) -/

/-- A packet crosses the module from the hub at which it came in to that of the link by which port `p` sends next. -/
def State.relayOn (s : State) (n p vc : Nat) (h : RowHeader) (r : Row) : State :=
  match nextInTurn (s.portLinks p) (s.port p).nextLink with
  | none => s
  | some l =>
    let t : Transit := { port := p, lea := linkLea l, header := h, fold := noFold, target := none, come := 0, left := 0, rows := [],
                         relay := true }
    (s.setTransit s.nextTag t).inject { meshPacket (.relay vc) (h.src % noCore) 0 noFold (hubTile n) (hubTile (linkLea l)) s.nextTag
      s.now with row := some r }

/-- A request for a window of module `owner` goes on towards it. One that no port carries is refused. -/
def State.relayRequest (s : State) (p n owner : Nat) (h : RowHeader) (r : Row) : State :=
  match s.portToward owner with
  | some out =>
    let s := if h.index = 0 then { s with relays := s.relays ++ [⟨p, out, h.src, h.tag⟩] } else s
    s.relayOn n out 0 h r
  | none => if h.index = 0 then s.refuseBack p n 0 h else s

/-- The last packet of an answer. -/
def endsAnswer (h : RowHeader) : Bool := h.kind != 3 || decide (h.rows ≤ h.index + 1)

/-- An answer to a request that the module relayed goes back the way it came. -/
def State.relayAnswer (s : State) (p n : Nat) (h : RowHeader) (r : Row) : State :=
  match s.relays.find? (fun x => x.outPort == p && x.src == h.src && x.tag == h.tag) with
  | some x => ({ s with relays := if endsAnswer h then s.relays.erase x else s.relays }).relayOn n x.inPort 1 h r
  | none => s

/-- The module to which a window belongs, where it is another one. DESIGN CHOICE (log 132): a header names no module, so a request
is relayed by the remote window entry of its window, and an answer by its request. -/
def State.windowElsewhere (s : State) (id : Nat) : Option Nat :=
  if (Map.find s.windows id).isSome then none
  else (Map.find s.remotes id).bind (fun w => if w.owner = s.ownCoord then none else some w.owner)

/-- A whole row packet has come on port `p` by a link of lea `n`. -/
def State.takePacket (s : State) (p n : Nat) (h : RowHeader) (r : Row) : State :=
  match h.kind with
  | 1 | 2 => (match s.windowElsewhere h.window with
      | some owner => s.relayRequest p n owner h r
      | none => s.deposit p n h r)
  | 6 => s.linkSlot p n h r
  | 7 => s.takeFirmware h
  | _ => if (s.queueOfTag h.src h.tag).isSome then s.answerOwn n h r else s.relayAnswer p n h r

/-- Takes the whole packets out of the bytes of a channel; a header of kind 0 is padding to the end of the frame. -/
def takePackets (p n : Nat) : Nat → List (BitVec 8) → State → List (BitVec 8) × State
  | 0, l, s => (l, s)
  | k + 1, l, s =>
    let h := headerOf (l.take 32)
    let need := if headerRow h then 544 else 32
    if l.isEmpty ∨ h.kind = 0 then ([], s)
    else if l.length < need then (l, s)
    else takePackets p n k (l.drop need) (s.takePacket p n h (BitVec.ofNat 4096 (ofBytes ((l.take need).drop 32))))

/-- A data frame in order, by link `l`: its payload joins its channel's packets, and its place in the receive buffer is free again.
R24: a packet enters at the hub of the link that carried its last frame. -/
def State.takeData (s : State) (p l : Nat) (b : List (BitVec 8)) : State :=
  let vc := bytesAt (ofBytes (b.take 2)) 1 1 % 4
  let all := Map.get [] (s.port p).parts vc ++ (b.drop 8).take 244
  let (rest, s) := takePackets p (linkLea l) all.length all s
  s.modPort p (fun x => { x with
    parts := Map.set [] x.parts vc rest, owed := Map.set 0 x.owed vc (Map.get 0 x.owed vc + 1) })

/-- The next frames that came ahead of their order are taken. -/
def State.takeAhead (s : State) (p : Nat) : Nat → State
  | 0 => s
  | n + 1 =>
    let next := ((s.port p).rxSeq + 1) % 65536
    match Map.find (s.port p).ahead next with
    | some (l, b) =>
      ((s.modPort p (fun x => { x with rxSeq := next, ahead := Map.del x.ahead next })).takeData p l b).takeAhead p n
    | none => s

/-- A frame of the next number has come. -/
def State.nextFrame (s : State) (p : Nat) : State :=
  s.modPort p (fun x => { x with rxSeq := (x.rxSeq + 1) % 65536, dropping := false })

/-- A data frame that passes its CRC: in order it is taken; ahead of its order it is kept, or discarded after a failure;
a duplicate is discarded. -/
def State.dataFrame (s : State) (p l seq : Nat) (b : List (BitVec 8)) : State :=
  let x := s.port p
  let gap := (seq + 65536 - (x.rxSeq + 1)) % 65536
  if gap = 0 then ((s.nextFrame p).takeData p l b).takeAhead p x.ahead.length
  else if x.dropping ∨ 8192 ≤ gap then s
  else s.modPort p (fun x => { x with ahead := Map.put x.ahead seq (l, b) })

/-- R460: a frame fails its CRC. -/
def State.badFrame (s : State) (p l : Nat) : State :=
  let s := ((s.bump Fld.lnkFecCrcFail l 0).bump Fld.lnkCntRetryCount l 0).modPort p (fun x => { x with
    dropping := true, ahead := [] })
  s.emit p l 3 0 (s.port p).rxSeq []

def frameIn (f : BitVec 2048) : List (BitVec 8) := toBytes 256 f.toNat

def State.takeFrame256 (s : State) (l : Nat) (b : List (BitVec 8)) : State :=
  let p := (s.linkOf l).port
  let v := ofBytes (b.take 8)
  let kind := bytesAt v 0 1
  if ofBytes (b.drop 252) ≠ crc32 (b.take 252) then s.badFrame p l
  else if kind ≠ 0 ∧ kind ≠ 1 ∧ kind ≠ 3 then s
  else
    let credit := bytesAt v 6 2
    let s := s.modPort p (fun x => { x.acked (bytesAt v 4 2) with
      credits := Map.set vcCredits x.credits (credit / 2 ^ 14)
        (Nat.min vcCredits (Map.get vcCredits x.credits (credit / 2 ^ 14) + credit % 2 ^ 14)) })
    let s := if kind = 1 then (s.dataFrame p l (bytesAt v 2 2) b).emit p l 0 0 0 []
      else if kind = 3 then s.takeNak p (bytesAt v 4 2) else s
    s.pumpAll p

def execSkeltinDataFrame (t link : Nat) (frame : BitVec 2048) (s : State) : Host.Outcome State Fault Refusal :=
  let s := s.at t
  onUnit (validLink link) (whenever (s.skeltinUp link) (fun s => s.takeFrame256 link (frameIn frame)) s)

def execNak (t link seq : Nat) (s : State) : Host.Outcome State Fault Refusal :=
  let s := s.at t
  onUnit (validLink link) (whenever (s.skeltinUp link) (fun s => s.takeNak (s.linkOf link).port (seq % 65536)) s)

/-! ### Step markers (R467 to R473) -/

/-- R473, R546: the fold is struck on every module of its block. DESIGN CHOICE (log 143): a firmware header says in its window field
what struck it, 0 for a loss (R546) and 1 for a STEP_MISMATCH. -/
def State.tellBlock (s : State) (f why : Nat) : State :=
  let h : RowHeader := { windowHeader true 0 why 0 0 0 0 (s.beat % 2 ^ 32) (s.blockTag f) with kind := 7 }
  (s.partners f).foldl (fun (s : State) c => s.sendPacket c 3 h []) s

/-- R473: a marker of an earlier swath. -/
def State.stepMismatch (s : State) (f : Nat) (m : Marker) : State :=
  ((s.report (srcHub (s.rootLea f) (some f)) 0x6012 m.tag m.swath).stopFault f (some stFault)).tellBlock f 1

def State.swathRuns (s : State) (f : Nat) : Bool := s.foldState f == foldRunning || s.foldState f == foldStopping

/-- What a marker that was not seen before does. -/
def State.actMarker (s : State) (f kind : Nat) (m : Marker) : State :=
  if s.swathRuns f ∧ seqLt m.swath (s.fold f).swath then s.stepMismatch f m
  else if kind = 2 then
    if s.foldState f = foldArmed ∧ m.settings ≠ s.settings f then
      ((s.foldMismatch f m.src).toIdle f).setFld Fld.timFoldCfgEnable 0 f 0
    else s.tryRearm f
  else if kind = 1 ∧ s.swathRuns f ∧ ¬ (s.fold f).drained ∧
      (s.fold f).relayed.contains (s.ownCoord, 1, (s.fold f).swath, 0, 0) then s.endDrainBlock f
  else s

/-- A step marker comes on its port as the next frame in order. -/
def State.takeMarker (s : State) (kind : Nat) (m : Marker) : State :=
  let s := (s.nextFrame m.port).takeAhead m.port (s.port m.port).ahead.length
  match s.foldOfTag m.tag with
  | none => s.holdEarly kind m
  | some f =>
    if m.src = s.ownCoord ∨ (s.fold f).relayed.contains (markerKey kind m) then s
    else if (s.fold f).image.isNone then s.holdEarly kind m
    else (s.keepMarker f kind s.now m).actMarker f kind m

def State.marker (s : State) (t kind : Nat) (m : Marker) : Host.Outcome State Fault Refusal :=
  let s := s.at t
  onUnit (decide (m.port < 96)) (whenever (!(s.portLinks m.port).isEmpty) (fun s => s.takeMarker kind m) s)

def execStepMarkerArmed (t : Nat) (m : Marker) (s : State) : Host.Outcome State Fault Refusal := s.marker t 2 m
def execStepMarkerJoin (t : Nat) (m : Marker) (s : State) : Host.Outcome State Fault Refusal := s.marker t 0 m
def execStepMarkerDrained (t : Nat) (m : Marker) (s : State) : Host.Outcome State Fault Refusal := s.marker t 1 m

/-! ### Windows (R474 to R479) -/

/-- R476: an announcement keeps a remote window entry current; a module holds 1,024. -/
def execWindowAnnounce (t owner id gen rows : Nat) (s : State) : Host.Outcome State Fault Refusal :=
  let s := s.at t
  .next (whenever ((Map.find s.remotes (id % 65536)).isSome || decide (s.remotes.length < 1024))
    (fun s => { s with remotes := Map.put s.remotes (id % 65536) ⟨owner, gen % 65536, rows % 2 ^ 32⟩ }) s)

/-- R477: why a request is refused: cause 1 for a window closed or stale, 2 for the range. -/
def State.judgeWindow (s : State) (h : RowHeader) : Option Nat :=
  match Map.find s.windows h.window with
  | none => some 1
  | some w =>
    let age := (s.beat + 2 ^ 32 - h.launch % 2 ^ 32) % 2 ^ 32
    if ¬ w.isOpen ∨ w.gen ≠ h.gen ∨ (2000 < age ∧ age < 2 ^ 31) ∨ (w.closing ∧ ¬ s.windowBusy h.window) then some 1
    else if w.rows < h.offset + h.rows then some 2
    else none

def State.modWindow (s : State) (id : Nat) (f : Window → Window) : State :=
  match Map.find s.windows id with
  | some w => { s with windows := Map.put s.windows id (f w) }
  | none => s

/-- R477, R479: a request at the hub of its link. Its first row is judged there, and what is admitted goes on to the target. -/
def State.windowRequest (s : State) (x : Inbound) : State :=
  let h := x.header
  if h.kind = 1 ∧ h.index ≠ 0 then
    match s.transitOf x.port h with
    | some (tag, t) => if t.come = 0 then s
        else (s.setTransit tag { t with come := t.come - 1 }).sendLinkRow tag t h.index (some x.row)
    | none => s
  else match s.judgeWindow h with
    | some 2 => (s.bump Fld.lnkWinStatRangeRefusals 0 0).refuseBack x.port x.lea 2 h
    | some c => (s.bump Fld.lnkWinStatClosedRefusals 0 0).refuseBack x.port x.lea c h
    | none => match Map.find s.windows h.window with
      | none => s
      | some w =>
        let t : Transit := { port := x.port, lea := x.lea, header := h, fold := w.fold, target := some w.target
                             come := if h.kind = 1 then h.rows - 1 else 0, left := h.rows, rows := [], relay := false }
        (s.drawTag.setTransit s.nextTag t).sendLinkRow s.nextTag t 0 (if h.kind = 1 then some x.row else none)

/-- Takes a delivered packet out of the inbox. -/
def State.takeInbox (s : State) (f : Inbound → Bool) : Option (Inbound × State) :=
  (takeFirst f s.inbox).map (fun x => (x.1, { s with inbox := x.2 }))

def execWindowRequest (t : Nat) (h : RowHeader) (row : Row) (s : State) : Host.Outcome State Fault Refusal :=
  let s := s.at t
  .next (match s.takeInbox (fun x => (h.kind == 1 || h.kind == 2) && x.header == h && x.row == row) with
    | some (x, s) => s.windowRequest x
    | none => s)

/-- R479: a refusal reaches the sender. -/
def State.takeRefusal (s : State) (core : Nat) (k cause : Nat) (r : QReq) : State :=
  let q := clusterOf core
  let (id, off) := match remoteOf r.addr with
    | .window id off => (id, off)
    | _ => (0, 0)
  let s := s.answer core k ⟨r.tag, if r.write then [] else emptyRows (r.n - r.got), some cause⟩
  let s := if cause = 2 then s.report (srcAgent q (s.foldOf q)) 0x6021 id off
    else s.report (srcAgent q (s.foldOf q)) 0x6020 id r.gen
  s.failItems? (s.foldOf q) core stFault

def execRefusal (t tag cause : Nat) (s : State) : Host.Outcome State Fault Refusal :=
  let s := s.at t
  .next (match s.takeInbox (fun x => x.header.kind == 5 && x.header.tag == tag && x.header.cause == cause) with
    | some (x, s) => (match s.queueOfTag x.header.src tag with
      | some k => (match (s.queue (clusterOf x.header.src) k).flight.find? (fun r => r.tag == tag) with
        | some r => s.takeRefusal x.header.src k cause r
        | none => s)
      | none => s)
    | none => s)

/-- R478: a window closes. One that its fold's image still declares opens again, as a re-placement asks (R475). -/
def State.endWindow (s : State) (id : Nat) : State :=
  match Map.find s.windows id with
  | some w =>
    let s := s.modWindow id (fun w => { w with isOpen := false, closing := false })
    if s.foldState w.fold = foldArmed ∨ s.foldState w.fold = foldRunning then s.openWindows w.fold else s
  | none => s

def execWindowClose (t id : Nat) (s : State) : Host.Outcome State Fault Refusal :=
  let s := s.at t
  .next (whenever ((Map.find s.windows id).any (fun w => w.closing && !s.windowBusy id)) (fun s => s.endWindow id) s)

end Sys2Proof.Machine
end

