-- ==== Sys2Proof/Machine/Domain.lean ====
section
/-! DEFINITION. The power domain of a cluster going dark and coming back (R41 to R44, R166 to R169, R496, R506, R628), and
the quiesce that several events share. -/

namespace Sys2Proof.Machine

/-! ### Going dark -/

/-- R167: a valid open partition that includes the bank has retain set. -/
def State.bankHeld (s : State) (q b : Nat) : Bool :=
  (List.range 64).any (fun i => s.partValid q i && s.partOpen q i && s.partMask q i / 2 ^ b % 2 == 1 &&
    s.fld Fld.cluPartCfgRetain q i == 1)

/-- The row lies in a retained partition. -/
def State.rowHeld (s : State) (q a : Nat) : Bool :=
  (s.partOf q a).any (fun i => s.partOpen q i && s.fld Fld.cluPartCfgRetain q i == 1)

/-- R167, R168: of a cluster's rows only those of retained partitions stay; a bank that is not held loses its power. -/
def State.retainRows (s : State) (q : Nat) : State :=
  let gone := fun (a : Nat) => !(s.bankHeld q (a / 1024) && s.rowHeld q a)
  let s' := (List.range 48).foldl (fun (x : State) b =>
    if s.bankHeld q b then x else x.setBit Fld.cluBankPowerPowered q 0 b false) s
  s'.modCluster q (fun c => { c with
    rows := Map.drop c.rows gone, err := Map.drop c.err gone, coded := Map.drop c.coded gone
    spoiled := c.spoiled.filter (fun a => !gone a), tags := Map.drop c.tags gone })

/-- R169: a cluster that goes dark through failure holds nothing. -/
def State.loseRows (s : State) (q : Nat) : State :=
  (s.setFld Fld.cluBankPowerPowered q 0 0).modCluster q (fun c => { c with
    rows := [], err := [], coded := [], spoiled := [], tags := [] })

/-- A domain goes dark: its cores, queues, groups and side path stop and lose what they held, and its grants go. -/
def State.darken (s : State) (q state : Nat) (hold : Bool) : State :=
  let s := if hold then s.retainRows q else s.loseRows q
  let s := { s with cores := Map.drop s.cores (fun c => clusterOf c == q) }
  let s := s.modCluster q (fun c => { c with
    access := [], flight := [], closing := [], filling := [], opens := [], queues := [], groups := [], jobs := [],
    norm := warmNorm c.norm, arrivals := [], overdraw := 0, droopAt := none, testedOn := false, count := 0 })
  let s := s.modArb (q / 24) (fun a => { a with
    waiting := a.waiting.filter (fun r => !(r.q == q && (r.mask != 0 || r.cls == clsPowerOn)))
    placed := a.placed.filter (fun g => !(g.q == q && (g.mask != 0 || g.cls == clsPowerOn))) })
  let s := (s.setFld Fld.cluBankPendingPending q 0 0).setFld Fld.cluPwrStateCapUnits q 0 0
  (s.setFld Fld.cluPwrStateThrottle q 0 0).setFld Fld.cluPwrStateState q 0 state

/-- A cluster whose domain is ON or RAMPING goes dark; what its retained partitions hold stays. -/
def State.goDark (s : State) (q : Nat) : State :=
  if s.domain q = domOn ∨ s.domain q = domRamping then s.darken q domDark true else s

/-- The exposed clusters, in ascending lea and cluster order. -/
def State.exposedList (s : State) : List Nat := (List.range 1536).filter s.exposed

def State.darkenAll (s : State) : State := (List.range 1536).foldl (fun (s : State) q => s.goDark q) s

/-- R523, R595: a cluster switched off by plan. -/
def State.switchOff (s : State) (q : Nat) : State :=
  if s.domain q = domOn ∨ s.domain q = domRamping then
    (s.darken q domDark true).modCluster q (fun c => { c with regionOff := true })
  else s

/-! ### Coming back -/

/-- The stewards power the exposed clusters up in ascending order. -/
def State.askAll (s : State) : State := s.exposedList.foldl (fun (s : State) q => s.askPower q) s

/-- R41, R508: the cap of a cluster by its working slices. -/
def State.sliceCap (s : State) (q : Nat) : Nat := if s.fld Fld.cluPwrStateSlicesOk q 0 = 0xF then 72 else 54

/-- R168: a cluster that is ON powers the banks that its open partitions want. -/
def State.wantBanks (s : State) (q : Nat) : State :=
  (List.range 48).foldl (fun (s : State) b => if s.bankWanted q b then s.powerBank q b else s) s

/-- The domain is ON: it counts in its arbiter's standing sum. -/
def State.setOn (s : State) (q : Nat) : State :=
  ((s.setFld Fld.cluPwrStateState q 0 domOn).setFld Fld.cluPwrStateCapUnits q 0 (s.sliceCap q)).wantBanks q

/-- R496: a domain that has ramped for 230,400 ticks from the start of its grant. -/
def State.ramped (s : State) (q : Nat) : Bool :=
  (s.grants (q / 24)).any (fun g => g.q == q && g.cls == clsPowerOn && g.bank.isNone && g.begun &&
    decide (g.start + 230400 ≤ s.now))

/-- R600: the report of a return from Region-off. -/
def State.endRegionOff (s : State) (q : Nat) : State :=
  if (s.cluster q).regionOff then
    (s.modCluster q (fun c => { c with regionOff := false })).restoreReport 7 0 q s.beat 0 0 (classes [14, 16])
  else s

/-! ### Standby (R596 to R598, Table 18-10) -/

/-- Step 3 of R596: every Skeltin port keeps its lowest UP link. -/
def State.idleLinks (s : State) : State :=
  (List.range 96).foldl (fun (s : State) p => ((s.portLinks p).drop 1).foldl (fun (s : State) l =>
    s.modLink l (fun k => { k with idled := true })) s) s

/-- Steps 2 to 4, once every fold has drained. -/
def State.enterStandby (s : State) : State :=
  let s := (List.range 64).foldl (fun (s : State) n => s.enterSelfRefresh n) s.darkenAll.idleLinks
  (s.setLp lpStandby).bump Fld.glbLpStatusStandbyCount 0 0

/-- Step 1: a RUNNING fold drains and stops, an ARMED one stops; both keep their enable bit and will be armed again. -/
def State.rest (s : State) (f : Nat) : State :=
  if s.foldState f = foldArmed then s.toIdle f
  else if (s.fold f).drained then (s.failSwath f none).toIdle f
  else s.setFoldState f foldStopping

def State.beginStandby (s : State) : State :=
  let fs := (Map.keys s.folds).filter s.foldBusy
  let s := { s with restore := { s.restore with standbyFolds := fs } }
  (fs.foldl (fun (s : State) f => s.rest f) s).setLp lpEntering

/-- R598: stacks, links and clusters come back, and the folds that entry stopped wait to be armed. -/
def State.beginReturn (s : State) : State :=
  let fs := s.restore.standbyFolds
  let s := { s with restore := { s.restore with standbyFolds := [], leaveBeat := s.beat } }
  let s := (List.range 64).foldl (fun (s : State) n => s.beginExit n) (s.setLp lpLeaving)
  let s := ((List.range 96).filter (fun l => (s.linkOf l).idled)).foldl (fun (s : State) l => s.askWake l) s
  (fs.foldl (fun (s : State) f =>
    if s.foldState f = foldIdle then s.modFold f (fun x => { x with rearm := true }) else s) s).askAll

/-- The clusters that the return waits for are ON: what can be armed is armed, and the report goes out (Table 18-3). -/
def State.endReturn (s : State) : State :=
  (s.rearmAll.setLp lpActive).restoreReport 8 0 wholeModule s.restore.leaveBeat 0 0 (classes [14, 16])

/-- One move between the low-power states, where its condition holds: the entry ends once nothing runs, and a change of
GLB_LP_CTL that comes while the module enters or leaves Standby is taken up after that. -/
def State.moveLp (s : State) : State :=
  let want := s.fld Fld.glbLpCtlState 0 0
  if s.inReset then s
  else if s.lpState = lpActive then (if want = 1 then s.beginStandby else s)
  else if s.lpState = lpEntering then
    (if (Map.keys s.folds).any s.swathRuns then s else s.enterStandby)
  else if s.lpState = lpStandby then (if want = 0 then s.beginReturn else s)
  else if s.exposedList.all (fun q => s.heldOff q || s.domainOn q) then s.endReturn
  else s

def State.settleLp (s : State) : State := s.moveLp.moveLp.moveLp

/-- What waits on a cluster that has come ON, or on a fold that has stopped. -/
def State.settle (s : State) : State := if s.lpState = lpActive then s else s.settleLp

def State.clusterOn (s : State) (q : Nat) : State :=
  let s := s.dropGrants (q / 24) (fun g => g.q == q && g.cls == clsPowerOn && g.bank.isNone)
  (((s.setOn q).setThrottle q).endRegionOff q).rearmAll.settle

def execClusterOn (t q : Nat) (s : State) : Host.Outcome State Fault Refusal :=
  let s := s.at t
  onUnit (validCluster q) (whenever (s.domain q == domRamping && s.ramped q) (fun s => s.clusterOn q) s)

/-! ### The quiesce (R506 steps 1 and 2, R520, R513) -/

/-- The fold stops issue: its swath fails, its items resume from their last commit, and it will be armed again. -/
def State.pauseFold (s : State) (f : Nat) : State :=
  if s.foldLive f then (s.stopFault f none).modFold f (fun x => { x with rearm := true }) else s

/-- R556: a re-placement that is under way ends, and starts again once the event has passed. -/
def State.haltReplacing (s : State) : State :=
  { s with folds := Map.mapOn Fold.reset s.folds (fun _ => true) (fun x => { x with
      replacing := x.replacing.map (fun r => { r with waits := true, picks := [] }) }) }

def State.pauseAll (s : State) : State :=
  ((Map.keys s.folds).foldl (fun (s : State) f => s.pauseFold f) s).haltReplacing

def State.quiesce (s : State) : State := s.pauseAll.darkenAll.settle

/-! ### The ends of a swath that a Standby entry waits for -/

def execSwathDrainEnd (t f : Nat) (s : State) : Host.Outcome State Fault Refusal :=
  let s := s.at t
  onUnit (validFold f) (whenever (s.mayDrain f) (fun s => (s.drainHere f).settle) s)

def execStileTimeout (t f : Nat) (s : State) : Host.Outcome State Fault Refusal :=
  let s := s.at t
  onUnit (validFold f) (whenever (s.isTimedOut f) (fun s =>
    let (id, gen) := s.stuckStile f
    ((s.report (srcHub (s.rootLea f) (some f)) 0x5012 id gen).stopFault f (some stFault)).settle) s)


end Sys2Proof.Machine
end

