-- ==== Sys2Proof/Machine/Restart.lean ====
section
/-! DEFINITION. What a reset of each class takes and keeps (R11, R84, R166, R327, R588 to R593, Table 18-3), and the masks
of its restore report (R601, Table 18-5). -/

namespace Sys2Proof.Machine

def clsP : Nat := 1
def clsW : Nat := 2
def clsL : Nat := 3
def clsC : Nat := 4
def clsF : Nat := 5

/-! ### The restore classes of the registers (Table 18-5) -/

def Reg.restoreClass : Reg → Option Nat
  | .timPpsTai => some 0
  | .timSrcCtl => some 0
  | .timFoldCfg => some 1
  | .timFoldHedge => some 1
  | .lnkFold => some 1
  | .thmFoldMode => some 1
  | .cluPartBanks => some 2
  | .cluPartCfg => some 2
  | .cluArrLayerCfg => some 3
  | .cluArrLayerSeed => some 3
  | .cluArrLayerNum => some 3
  | .cluArrGroupMap => some 3
  | .cluRtrSet => some 4
  | .hubStkRegion => some 5
  | .hubStkRegionCfg => some 5
  | .hubTokTable => some 7
  | .hubTokFold => some 7
  | .pwrLimit => some 8
  | .hubPwrBudget => some 8
  | .cluPwrCfg => some 8
  | .thmCfg => some 9
  | .thmCoolant => some 9
  | .cluArrCalCtl => some 9
  | .lnkCfg => some 10
  | .lnkPort => some 10
  | .lnkTorus => some 10
  | .fltStreamCfg => some 12
  | .fltStreamAddr => some 12
  | .fltReserve => some 12
  | .glbSeal => some 13
  | _ => none

/-- What a reset takes from a register: its word with every field that stays, or that only shows something, at its reset
value. -/
def Reg.takenWord (r : Reg) (u i mask : Nat) (w : Word) : Word :=
  r.fields.foldl (fun acc f => if f.acc = .ro ∧ r ≠ .glbSeal ∧ r ≠ .cluArrGroupMap ∧ r ≠ .hubTokTable ∧ r ≠ .hubTokFold
      ∨ f.cls &&& mask = 0 then
      setBits acc f.lo f.width (getBits (r.resetWord u i) f.lo f.width) else acc) w

/-- The settings that a reset of some registers takes, as they were. -/
def State.taken (s : State) (mask : Nat) (here : Reg → Nat → Nat → Bool) : Map Word :=
  s.regs.foldl (fun (acc : Map Word) e => match Reg.decode e.1 with
    | some (r, u, i) =>
      let w := r.takenWord u i mask e.2
      if here r u i ∧ r.restoreClass.isSome ∧ w ≠ r.resetWord u i then Map.put acc e.1 w else acc
    | none => acc) []

def Reg.bitsWhere (r : Reg) (p : FieldDesc → Bool) : Bool := r.fields.any p

/-- R601: the classes of which a setting that was taken stands again (`back`), or stands at its reset value. -/
def State.fateOf (s : State) (was : Map Word) (back : Bool) : Nat :=
  classes ((List.range 19).filter (fun c => was.any (fun e => match Reg.decode e.1 with
    | some (r, u, i) => r.restoreClass == some c && r.bitsWhere (fun f =>
        let old := getBits e.2 f.lo f.width
        let dflt := getBits (r.resetWord u i) f.lo f.width
        let now := getBits (s.reg r u i) f.lo f.width
        old != dflt && (if back then now == old else now == dflt && now != old))
    | none => false)))

/-- Two masks together. -/
def joinMask (a b : Nat) : Nat := a ||| b

/-- R600: the report of an event, with the fate of what its reset took. -/
def State.reportReset (s : State) (event cause scope beat0 : Nat) (was : Map Word) (defaulted rebuilt lost : Nat) : State :=
  s.restoreReport event cause scope beat0 (joinMask defaulted (s.fateOf was false)) (joinMask rebuilt (s.fateOf was true)) lost

/-! ### Parts that a reset empties -/

/-- R29, R31: pending substitutions take effect when the cluster leaves its reset. -/
def State.applySpares (s : State) (q : Nat) : State :=
  match sortUp id (s.cluster q).coreFail with
  | [] => s
  | [a] => (s.setFld Fld.cluCoreMapS0Used q 0 1).setFld Fld.cluCoreMapS0Index q 0 a
  | a :: b :: _ =>
    let s := (s.setFld Fld.cluCoreMapS0Used q 0 1).setFld Fld.cluCoreMapS0Index q 0 a
    (s.setFld Fld.cluCoreMapS1Used q 0 1).setFld Fld.cluCoreMapS1Index q 0 b

/-- R30. -/
def tooManyFailed (l : List Nat) : Bool := decide (2 < l.length) || !l.Nodup

/-- What runs in a cluster is gone; its rows, arrays with their calibration words, layer entries and norm settings stay. -/
def Cluster.restart (c : Cluster) : Cluster :=
  { c with access := [], flight := [], queues := [], groups := [], jobs := [], norm := warmNorm c.norm, arrivals := [],
           overdraw := 0, droopAt := none, tags := [], count := 0, hotSince := none, coolSince := none, marked := false,
           steady := false, used := [], port := [] }

/-- Calibration words from their record: those that a run has ended with, though no swath has taken them yet. -/
def Arr.recalled (a : Arr) : Arr := { a with words := a.staged.getD a.words, staged := none }

/-- A P or W reset takes the layer entries too, and with them the slots that watch them; calibration words are rebuilt from
their records (Table 18-3). -/
def Cluster.restartAll (p : Bool) (c : Cluster) : Cluster :=
  let c := c.restart
  let c := { c with arrays := Map.mapOn Arr.reset c.arrays (fun _ => true) Arr.recalled }
  let c := { c with layers := [], norm := Map.drop c.norm (fun i => decide (i < 256)), regionOff := false, closing := [],
                    filling := [], opens := [] }
  if p then { c with rows := [], err := [], coded := [], spoiled := [], scrubbed := 0, testedOn := false } else c

def Router.restart (r : Router) : Router := { r with cells := [], served := [], hold := [] }

/-- Working phases of the always-on rail (R482): phases 16 to 19. -/
def Hub.aoLeft (h : Hub) : Nat := 4 - (h.phasesOut.filter (fun i => decide (16 ≤ i))).length
def Hub.leaLeft (h : Hub) : Nat := 16 - (h.phasesOut.filter (fun i => decide (i < 16))).length

def Hub.restart (p : Bool) (h : Hub) : Hub :=
  { h with arb := Arbiter.reset, arriving := [], engines := [], fetched := [], walker := [], log := Log.reset,
           pools := if p then h.pools.map (fun e => (e.1, { e.2 with counts := [] })) else h.pools
           profiles := if p then [] else h.profiles, nextProfiles := if p then [] else h.nextProfiles, stopped := decide (h.aoLeft ≤ 2)
           dead := if p then decide (h.aoLeft < 2) else h.dead }

/-- R55: on exit from a W reset the alignment protocol runs for every lea whose hub router works, one that did not align
before among them. -/
def State.freeUnaligned (s : State) : State :=
  (List.range 64).foldl (fun (s : State) n =>
    if (s.hub n).dead ∧ ¬ (s.router (hubTile n)).dead then s.modHub n (fun h => { h with dead := decide (h.aoLeft < 2) }) else s) s

def Stack.restart (lost : Bool) (d : Stack) : Stack :=
  let d := { d with remote := [], agents := [], queueTurn := [], exitAt := none, errRows := [] }
  if lost then { d with rows := [], err := [] } else d

/-! ### Resets of class P and W -/

def State.notFree (s : State) : List Nat := (s.entries.filter (fun e => e.2.state != eFree)).map Prod.fst

/-- The items of an endpoint that a P or W reset decides (Table 12-11). -/
def Item.lostBy (p : Bool) (i : Item) : Item :=
  if p ∧ namesStream i.opcode then
    { i with placed := false, fin := some (if i.opcode = opClose then stOk else stStateLost, 0, i.handle) }
  else if i.fin.isSome then i
  else if i.opcode = opLoad ∧ i.begun then { i with fin := some (stReset, 0, i.handle) }
  else { i with begun := i.begun && namesStream i.opcode }

def Endpoint.restart (p : Bool) (e : Endpoint) : Endpoint :=
  if e.state = 0 then { e with isOpen := false }
  else { e with state := 1, due := none, headSeen := false, isOpen := false, badPeriod := none,
                resumeClass := if p then clsP else clsW, items := e.items.map (Item.lostBy p) }

/-- A model record after a P or W reset: a copy that was loading is gone. -/
def Model.restart (m : Model) : Option Model := if m.loading.isSome then m.unloaded else some m

/-- Whether a fold holds a copy of a model. -/
def State.placed (s : State) (f : Nat) : Bool :=
  s.models.any (fun e => decide (2 ≤ e.2.state) && (e.2.cur.fold == f || e.2.old.any (fun c => c.fold == f) ||
    (e.2.loading.isNone && e.2.next.any (fun c => c.fold == f))))

/-- Contents that a P or W reset takes (Table 18-3). -/
def State.lostBy (s : State) (p supply : Bool) : Nat :=
  classes ((if s.globalLog.recs.isEmpty && s.hubs.all (fun h => h.2.log.recs.isEmpty) then [] else [12]) ++
    (if p && s.clusters.any (fun c => !c.2.rows.isEmpty) then [14] else []) ++
    (if supply && s.drams.any (fun d => !d.2.rows.isEmpty) then [15] else []) ++
    (if s.cores.isEmpty && s.clusters.all (fun c => c.2.norm.isEmpty) then [] else [16]) ++
    (if p && !s.notFree.isEmpty then [18] else []))

/-- Settings outside the registers that a P or W reset leaves at their reset value. -/
def State.defaultedBy (s : State) (p : Bool) : Nat :=
  classes ((if s.globalLog.recs.isEmpty && s.hubs.all (fun h => h.2.log.recs.isEmpty) then [] else [12]) ++
    (if s.reg .cliDbKey 0 0 = 0 && s.endpoints.all (fun e => !e.2.isOpen && decide (e.2.state < 2)) then [] else [11]) ++
    (if p && (!s.notFree.isEmpty || s.hubs.any (fun h => !h.2.profiles.isEmpty)) then [6] else []))

/-- What firmware restores besides registers (Table 18-3). -/
def State.rebuiltBy (s : State) (p : Bool) : Nat :=
  classes ((if s.hubs.any (fun h => !h.2.pools.isEmpty) then [5] else []) ++
    (if !p && !s.notFree.isEmpty then [6, 18] else []) ++
    (if s.hubs.any (fun h => !h.2.tokens.isEmpty || !h.2.keys.isEmpty) then [7] else []) ++
    (if s.clusters.any (fun c => !c.2.arrays.isEmpty) then [17] else []))

/-- Levels that a reset does not change: the supply, its pins, and FLOW_LOSS_N. A segment stays isolated only over the reset
that its loss starts; after any other it is tried again. -/
def State.keepLevels (old s : State) (cause : Nat) : State :=
  let keep := fun (s : State) (f : Fld) (i : Nat) => s.setFld f 0 i (old.fld f 0 i)
  let s := [Fld.pwrStatusSupplyState, Fld.pwrStatusSegUp, Fld.pwrStatusSegLost, Fld.pwrStatusAuxPresent,
    Fld.pwrStatusHvPresent, Fld.pwrStatusPwrEn, Fld.pwrStatusInputDv, Fld.thmStatusFlowLossN].foldl
      (fun (s : State) f => keep s f 0) s
  let s := (List.range 4).foldl (fun (s : State) i => keep s Fld.pwrSegState i) s
  if cause = 4 ∨ old.fld Fld.pwrStatusSegLost 0 0 = 0 then s
  else
    let s := (s.setFld Fld.pwrStatusSegLost 0 0 0).setFld Fld.pwrStatusSegUp 0 0 15
    (List.range 4).foldl (fun (s : State) i => s.setFld Fld.pwrSegState 0 i 1) s

/-- Everything that runs stops, and every fold returns to IDLE; a fold that holds a copy keeps its image. -/
def State.stopEverything (s : State) : State :=
  let s := { s with folds := s.folds.map (fun e => (e.1, { e.2 with owed := [], replacing := none, rearm := false })) }
  let s := (Map.keys s.folds).foldl (fun (s : State) f => if s.foldLive f then s.stopFault f none else s) s
  let s := { s with folds := Map.mapOn Fold.reset s.folds (fun f => !s.placed f) (fun x => { x with image := none }) }
  { s with
    folds := Map.mapOn Fold.reset s.folds (fun _ => true) (fun x => { Fold.reset with image := x.image, swath := x.swath })
    cores := [], packets := [], windows := [], remotes := [], inbox := []
    transits := [], relays := [], early := [], ports := [], rebuilds := []
    routers := Map.mapOn Router.reset s.routers (fun _ => true) Router.restart }

/-- R588, R593: a reset of class P (`p`) or W. One that meets another takes it in. `supply` says that the stacks lost their
supply. The module stays in reset until READY. -/
def State.resetModule (s : State) (p : Bool) (cause : Nat) (supply : Bool) : State :=
  let mask := if p then 1 else 2
  let old := s
  let s := { s with endpoints := Map.mapOn Endpoint.reset s.endpoints (fun _ => true) (Endpoint.restart p) }
  let s := { s with models := s.models.filterMap (fun (e : Nat × Model) => e.2.restart.map (fun m => (e.1, m))) }
  let s := s.stopEverything
  let s := if p then s.notFree.foldl (fun (s : State) g => s.freeEntry g) s else s
  let was := s.taken mask (fun _ _ _ => true)
  let r := s.restore
  let s := keepLevels old (s.clearRegs mask (fun _ _ _ => true)) cause
  let s := s.noteReset (if p then clsP else clsW) cause
  let s := { s with
    clusters := Map.mapOn Cluster.reset s.clusters (fun _ => true) (Cluster.restartAll p)
    hubs := Map.mapOn Hub.reset s.hubs (fun _ => true) (Hub.restart p)
    drams := Map.mapOn Stack.reset s.drams (fun _ => true) (Stack.restart supply)
    mirrors := if p then [] else s.mirrors, shown := [], blanked := []
    time := { s.time with atTick := s.now, atNs := 0, mayStep := true, fresh := false, goodSince := none, lastEdge := none,
                          lastSync := none }
    thermal := { s.thermal with
      trayAt := none, heating := none, holdGood := none, derated := 0
      stopAt := if p then none else s.thermal.stopAt, causes := if p then [] else s.thermal.causes }
    power := { s.power with samples := [] }, sec := { s.sec with update := 0 }
    globalLog := Log.reset, streamed := 0
    links := if p then [] else s.links.map (fun e => (e.1, { e.2 with kReset := none, idled := false })) }
  let s := (Map.keys s.clusters).foldl (fun (s : State) q => s.setFld Fld.cluBankPendingPending q 0 0) s
  let s := (Map.keys s.drams).foldl (fun (s : State) n => match (s.dram n).failedDies.getLast? with
    | some d => s.setFld Fld.hubStkStatusFailedDie n 0 d
    | none => s) s
  let s := ((List.range 1536).foldl (fun (s : State) q => s.applySpares q) s).freeUnaligned
  { s with restore := { r with
      seq := if p then 0 else r.seq, inReset := true, bootAt := s.now, standbyFolds := []
      bootClass := if p then clsP else clsW, bootCause := cause, bootBeat := old.beat
      was := if r.inReset then r.was.foldl (fun (m : Map Word) (e : Nat × Word) => Map.put m e.1 e.2) was else was
      defaulted := joinMask (old.defaultedBy p) (if r.inReset then r.defaulted else 0)
      rebuilt := joinMask (old.rebuiltBy p) (if r.inReset then r.rebuilt else 0)
      lost := joinMask (old.lostBy p supply) (if r.inReset then r.lost else 0) } }

/-! ### Resets of class L, C and F -/

/-- R327: the calls of a hub end with ABORTED. Those of clusters of other leas receive it: their blocks get the record of an
admitted call, and a wait for one ends. -/
def State.abortCalls (s : State) (n : Nat) : State :=
  let calls := ((s.hub n).arriving.map (fun c => (false, c))) ++ ((s.hub n).engines.flatMap Prod.snd).map (fun c => (true, c))
  let s := s.modHub n (fun h => { h with arriving := [], engines := [], fetched := [] })
  calls.foldl (fun (s : State) x =>
    if x.2.core / 2048 = n ∨ x.2.steward then s
    else ((if x.1 then s.endCall n x.2 (emptyReply egAborted) else s).wakeCall x.2.core x.2.number egAborted)) s

/-- Core registers to zero (R84). -/
def State.zeroCores (s : State) (here : Nat → Bool) : State :=
  { s with cores := Map.drop s.cores (fun c => here (clusterOf c)) }

/-- The grants of a cluster and those it still asks for are gone. -/
def State.dropLeave (s : State) (q : Nat) : State :=
  s.modArb (q / 24) (fun a => { a with
    waiting := a.waiting.filter (fun r => !(r.q == q && r.mask != 0))
    placed := a.placed.filter (fun g => !(g.q == q && g.mask != 0)) })

/-- The folds with a cluster in lea `n`, or with a region or KV pool in stack `n`. -/
def State.foldsOfStack (s : State) (n : Nat) : List Nat :=
  (Map.keys s.folds).filter (fun f =>
    (List.range 64).any (fun i => s.regionValid n i && s.fld Fld.hubStkRegionCfgShare n i == 0 && s.regionFold n i == f) ||
    (s.fold f).image.any (fun im => im.kvPools.any (fun d => !d.scratch && d.unit == n)))
def State.foldsOfLea (s : State) (n : Nat) : List Nat :=
  ((Map.keys s.folds).filter (fun f => (s.foldClusters f).any (fun q => q / 24 == n)) ++ s.foldsOfStack n ++
    ((s.notFree.filter (fun g => entryHub g == n)).map (fun g => (s.entry g).fold))).dedup

/-- R11: the words of SRV_REQ_DATA_w, where the selected entry lies in lea `n`, and bit `n` of TIM_ALIGN_STATUS. -/
def State.clearShared (s : State) (n : Nat) : State :=
  let g := s.fld Fld.srvReqSelEntry 0 0
  let s := if entryHub g = n then { s with blanked := g :: s.blanked } else s
  s.setBit Fld.timAlignStatusAligned 0 0 n false

/-- R590: an L reset, up to the alignment of the lea and the re-arming of its folds. Its clusters keep their power (R628). -/
def State.resetLea (s : State) (n cause : Nat) : State :=
  let beat0 := s.beat
  let here := fun (r : Reg) (u _i : Nat) => match r.place.scope with
    | .hub => u == n
    | .cluster => u / 24 == n
    | .router => if u < 1536 then u / 24 == n else u == 1536 + n
    | _ => false
  let mine := fun (q : Nat) => q / 24 == n
  let cores := s.cores.any (fun c => mine (clusterOf c.1)) || s.clusters.any (fun c => mine c.1 && !c.2.norm.isEmpty)
  let entries := s.notFree.any (fun g => entryHub g == n)
  let s := s.noteReset clsL cause
  let s := s.endLoads (fun _ => true) stReset
  let s := s.abortCalls n
  let s := (s.foldsOfLea n).foldl (fun (s : State) f => s.strikeRearm f) s
  let was := s.taken 4 here
  let dark := (List.range 24).map (fun k => (24 * n + k, s.domain (24 * n + k)))
  let s := s.clearRegs 4 (fun r u i => here r u i && !([Reg.cluArrGroupMap, .hubTokTable, .hubTokFold].contains r))
  let s := dark.foldl (fun (s : State) x => s.setFld Fld.cluPwrStateState x.1 0 (if x.2 = domRamping then domDark else x.2)) s
  let s := (s.clearShared n).zeroCores mine
  let s := { s with clusters := Map.mapOn Cluster.reset s.clusters mine Cluster.restart }
  let s := s.modHub n (fun h => { h with arb := Arbiter.reset, walker := [] })
  let s := (List.range 24).foldl (fun (s : State) k => s.applySpares (24 * n + k)) s
  let s := dark.foldl (fun (s : State) x => (if x.2 = domRamping then s.askPower x.1 else s).powerAgain x.1) s
  let links := (List.range 96).filter (fun l => linkLea l == n && s.fld Fld.lnkStatusState l 0 != 0)
  let bound := s.endpoints.any (fun e => links.contains e.2.link && decide (2 ≤ e.2.state))
  let s := links.foldl (fun (s : State) l =>
    let p := (s.linkOf l).port
    let was := !(s.portLinks p).isEmpty
    let s := (s.modLink l (fun k => { k with trainAt := s.now, kReset := none })).setFld Fld.lnkStatusState l 0 lnkTraining
    (s.detachLink l clsL).linkLost p l was) s
  s.reportReset 3 cause n beat0 was (if bound then classes [11] else 0)
    (joinMask (if entries then classes [6, 18] else 0) (if s.hub n |>.pools |>.isEmpty then 0 else classes [5]))
    (if cores then classes [16] else 0)

/-- R591: a C reset, up to the alignment of the cluster and the re-arming of its fold. -/
def State.resetCluster (s : State) (q cause : Nat) : State :=
  let beat0 := s.beat
  let here := fun (r : Reg) (u _i : Nat) => (r.place.scope == .cluster || r.place.scope == .router) && u == q
  let cores := s.cores.any (fun c => clusterOf c.1 == q) || !(s.cluster q).norm.isEmpty
  let s := s.noteReset clsC cause
  let s := match s.foldOf q with
    | some f => s.strikeRearm f
    | none => s
  let was := s.taken 8 here
  let d := s.domain q
  let s := (s.clearRegs 8 (fun r u i => here r u i && r != .cluArrGroupMap)).setFld Fld.cluPwrStateState q 0 d
  let s := ((s.zeroCores (· == q)).modCluster q Cluster.restart).dropLeave q
  (s.applySpares q).reportReset 4 cause q beat0 was 0 0 (if cores then classes [16] else 0)

/-- A fold armed again from its image with the setup that stands; one that cannot be armed stays IDLE, and TIM_FOLD_CFG keeps
its value (R592). -/
def State.armAgain (s : State) (f : Nat) : State := s.rearmFold f false

/-- What an F reset clears: the registers of the fold's cores, its norm slots, and its counts. -/
def State.clearFold (s : State) (f : Nat) (qs : List Nat) : State :=
  let s := s.zeroCores (fun q => qs.contains q)
  let s := { s with clusters := Map.mapOn Cluster.reset s.clusters (fun q => qs.contains q) (fun c => { c with norm := warmNorm c.norm }) }
  s.clearRegs 16 (fun r u i =>
    (r.place.scope == .glob && i == f) || (r.place.scope == .cluster && qs.contains u))

/-- R592: an F reset. -/
def State.resetFold (s : State) (f cause : Nat) : State :=
  let beat0 := s.beat
  let qs := s.foldClusters f
  let held := s.cores.any (fun c => qs.contains (clusterOf c.1))
  let s := s.noteReset clsF cause
  let s := (if s.foldLive f then s.stopFault f none else s).clearFold f qs
  let s := (s.toIdle f).modFold f (fun x => { x with rearm := false })
  let s := if s.fld Fld.timFoldCfgEnable 0 f = 1 then s.armAgain f else s
  (s.reportReset 5 cause f beat0 [] 0 0 (if held then classes [16] else 0)).settle

end Sys2Proof.Machine
end

