-- ==== Sys2Proof/Machine/Place.lean ====
section
/-! DEFINITION. Placing the tensors of a copy and releasing them (R158, R178, R180, R216 to R222, R297, R397 to R408, R553). -/

namespace Sys2Proof.Machine

/-! ### Array weights and their shadow (R180, R243, Table 06-3) -/

/-- The 512 weights that input `i` has in output block `b`, as shadow rows of depth `d` hold them. -/
def shadowBlock (d : Nat) (rows : List Row) (i b : Nat) : BitVec 2048 :=
  BitVec.ofNat 2048 (rowBytes (rows.getD (rowsPerInput d * i + b / 2) 0) (256 * (b % 2)) 256)

/-- The programming rows of the array at position `p` of a group. -/
def arrayRows (d : Nat) (rows : List Row) (p : Nat) : List (BitVec 2048) :=
  (List.range 1024).map (fun r => shadowBlock d rows (1024 * (p % d) + r) (p / d))

/-- A weight −8 stands in some byte (R178). -/
def hasBadNibble (rows : List Row) : Bool :=
  rows.any (fun r => (toBytes 512 r.toNat).any (fun b => decide (b.toNat % 16 = 8) || decide (b.toNat / 16 = 8)))

/-- An array is programmed row by row, and unless it fails takes its first calibration: what the fit gives is drawn (R205,
R214, R216, R222). With a nibble 0b1000 no row is programmed (R178). -/
def State.programArray (s : State) (q a : Nat) (rows : List (BitVec 2048)) : State :=
  if rows.any badRow then s.report (srcAgent q (s.foldOf q)) 0x4007 a 0
  else
    let s := s.programRows q a 0 rows
    if s.arrState q a = 5 then s else s.fitDone q a (Config.firstFit s.fresh (arrayNo q a))

/-! ### Choosing groups (R401, R402) -/

def bitsIn (mask n : Nat) : List Nat := (List.range n).filter (fun i => mask / 2 ^ i % 2 == 1)

/-- The named groups of a copy, each with the arrays that its tensors mask in. -/
def Copy.groups (c : Copy) : List (Nat × Nat × Nat) :=
  let names := (c.tensors.filterMap (fun p => p.analog.map (fun a => (p.cluster, a.1)))).dedup
  names.map (fun n => (n.1, n.2, (c.tensors.filter (fun p => p.cluster == n.1)).foldl (fun (m : Nat) p =>
    match p.analog with
    | some (g, _, mask) => if g = n.2 then m ||| mask else m
    | none => m) 0))

/-- The array holds a program or takes one. -/
def State.inProgram (s : State) (q a : Nat) : Bool := [1, 2, 3].contains (s.arrState q a)

/-- The largest wear among the masked arrays of a FREE physical group; none when one of them may not be programmed (R39, R401), or
when another array of the group holds a program (log 141). -/
def State.groupWear (s : State) (q g mask : Nat) : Option Nat :=
  let l := (bitsIn mask 8).map (fun i => 8 * g + i)
  if l.all (fun a => s.arrState q a == 0 && s.mayProgram q a) ∧ ¬ (groupArrays g).any (s.inProgram q) then
    some (maxOf (l.map (fun a => s.fld Fld.cluArrWearWearCount q a)))
  else none

def leastWorn : List (Nat × Nat) → Option (Nat × Nat)
  | [] => none
  | x :: l => match leastWorn l with
    | none => some x
    | some y => if x.2 ≤ y.2 then some x else some y

def State.freeGroup (s : State) (q mask : Nat) : Option Nat :=
  (leastWorn ((List.range 4).filterMap (fun g => (s.groupWear q g mask).map (fun w => (g, w))))).map Prod.fst

/-- Programs the arrays of the tensors behind one named group into a physical group. -/
def State.programGroup (s : State) (c : Copy) (q named phys : Nat) : State :=
  c.tensors.foldl (fun (s : State) p => match p.analog with
    | some (g, d, mask) =>
      if p.cluster = q ∧ g = named then
        (bitsIn mask 8).foldl (fun (s : State) i => s.programArray q (8 * phys + i) (arrayRows d p.data i)) s
      else s
    | none => s) s

/-- Every named group of a copy takes a FREE physical group, and its arrays are programmed; none when one is lacking. -/
def State.placeGroups (c : Copy) : List (Nat × Nat × Nat) → State → Option State
  | [], s => some s
  | (q, g, mask) :: l, s => match s.freeGroup q mask with
    | none => none
    | some phys => State.placeGroups c l ((s.mapGroup q g phys).programGroup c q g phys)

/-! ### Room in the stacks (R297, R398) -/

/-- The rows that the valid regions of a stack take, as (base, end). -/
def State.spans (s : State) (n : Nat) : List (Nat × Nat) :=
  ((List.range 64).filter (s.regionValid n)).map (fun i =>
    (s.regionBase n i, s.regionBase n i + spanRows (s.regionWclass n i) (s.regionRows n i)))

/-- The lowest base at which a weight-class region of `count` rows fits. -/
def State.freeSpan (s : State) (n count : Nat) : Option Nat :=
  let l := s.spans n
  let k := spanRows true count
  leastFrom (fun b => decide (b + k ≤ 140625000) && l.all (fun x => decide (b + k ≤ x.1) || decide (x.2 ≤ b)))
    (0 :: l.map Prod.snd)

def State.freeSlot (s : State) (n : Nat) : Option Nat := (List.range 64).find? (fun i => !s.regionValid n i)

def toFive (n : Nat) : Nat := (n + 4) / 5 * 5

/-- A working stack that has room for one region of `count` rows. -/
def State.stackRoom (s : State) (n count : Nat) : Bool :=
  s.stackState n == stackActive && (s.freeSlot n).isSome && (s.freeSpan n (toFive count)).isSome

/-- The stacks in order of their distance from a lea's hub. -/
def nearStacks (n : Nat) : List Nat := sortUp (fun m => 64 * hops (hubTile n) (hubTile m) + m) (List.range 64)

/-- Deals the tensors that need rows in a stack out: (index, stack, offset in that stack's region). `sums` holds the rows
dealt to each stack so far. -/
def State.dealStacks (s : State) : List (Nat × Nat × Nat) → Map Nat → Option (List (Nat × Nat × Nat) × Map Nat)
  | [], sums => some ([], sums)
  | (i, lea, rows) :: l, sums =>
    match (nearStacks lea).find? (fun m => s.stackRoom m (Map.get 0 sums m + rows)) with
    | none => none
    | some m =>
      let at0 := Map.get 0 sums m
      (s.dealStacks l (Map.put sums m (at0 + rows))).map (fun x => ((i, m, at0) :: x.1, x.2))

/-- A region of the firmware that every fold may read. -/
def State.makeRegion (s : State) (n slot base count f : Nat) : State :=
  let s := (s.setFld Fld.hubStkRegionBaseRow n slot base).setFld Fld.hubStkRegionRowCount n slot count
  let s := (s.setFld Fld.hubStkRegionCfgWclass n slot 1).setFld Fld.hubStkRegionCfgShare n slot 1
  let s := (s.setFld Fld.hubStkRegionCfgFwOwned n slot 1).setFld Fld.hubStkRegionCfgFold n slot f
  s.setFld Fld.hubStkRegionCfgValid n slot 1

/-- Makes the regions of a copy; (stack, slot, base) of each. -/
def State.makeRegions (f : Nat) : List (Nat × Nat) → State → Option (List (Nat × Nat × Nat) × State)
  | [], s => some ([], s)
  | (n, rows) :: l, s =>
    match s.freeSlot n, s.freeSpan n (toFive rows) with
    | some slot, some base =>
      (State.makeRegions f l (s.makeRegion n slot base (toFive rows) f)).map (fun x => ((n, slot, base) :: x.1, x.2))
    | _, _ => none

/-! ### Copies of other models -/

/-- The copies that a model record stands for. -/
def Model.copies (m : Model) : List Copy := m.cur :: (m.next.toList ++ m.old)

/-- The copies that stand in the stacks: those of models that are not being loaded for the first time. -/
def State.placedCopies (s : State) : List Copy := (s.models.filter (fun e => e.2.state != 1)).flatMap (fun e => e.2.copies)

/-- R398: a copy with the same manifest hash, whose rows in the stacks are shared. -/
def State.twin (s : State) (hash : List (BitVec 8)) : Option Copy :=
  s.placedCopies.find? (fun c => c.hash == hash && !c.tensors.isEmpty)

/-- Which tensors have rows of their own in the stacks: all but those that the image places in a region of its fold. -/
def Placed.inShare (p : Placed) : Bool := p.region < 64 && !p.data.isEmpty

/-- Gives the tensors of a copy their place in the stacks, and writes them there. `fixed` names the tensors that a region of
the fold holds. -/
def State.placeStacks (s : State) (c : Copy) (fixed : List Nat) : Option (Copy × State) :=
  let ix := (List.range c.tensors.length).zip c.tensors
  match s.twin c.hash with
  | some t =>
    some ({ c with tensors := ix.map (fun (x : Nat × Placed) => match t.tensors[x.1]? with
      | some y => if fixed.contains x.1 then x.2 else { x.2 with stack := y.stack, region := y.region, row := y.row }
      | none => x.2) }, s)
  | none =>
    let need := (ix.filter (fun x => !fixed.contains x.1 && !x.2.data.isEmpty)).map (fun x => (x.1, x.2.cluster / 24, x.2.data.length))
    (s.dealStacks need []).bind (fun (dealt : List (Nat × Nat × Nat) × Map Nat) =>
      (State.makeRegions c.fold dealt.2 s).map (fun (made : List (Nat × Nat × Nat) × State) =>
        let tensors := ix.map (fun (x : Nat × Placed) => match dealt.1.find? (fun d => d.1 == x.1) with
          | some (_, m, off) => (match made.1.find? (fun r => r.1 == m) with
            | some (_, slot, base) => { x.2 with stack := m, region := slot, row := base + off }
            | none => x.2)
          | none => x.2)
        ({ c with tensors := tensors },
          (tensors.filter Placed.inShare).foldl (fun (s : State) p => s.stackWrites p.stack p.row p.data) made.2)))

/-! ### Numeric rows (R398, Table 06-3) -/

def stackAddr (n a : Nat) : Nat := n * 2 ^ 56 + a * 2 ^ 9

/-- The shadow bases of the array tensors of one layer in one cluster, in directory order. -/
def Copy.shadows (c : Copy) (p : Placed) : List Nat :=
  (c.tensors.filter (fun x => x.kind == 1 && x.layer == p.layer && x.cluster == p.cluster)).map (fun x => stackAddr x.stack x.row)

/-- The rows of a tensor as they stand in scratchpad. -/
def Copy.scratchRows (c : Copy) (p : Placed) (data : List Row) : List Row :=
  if p.kind ≠ 2 then data
  else
    let bases := c.shadows p
    (List.zipWith (fun (r : Row) (i : Nat) => match bases[i]? with
      | some b => Row.put r 256 8 b
      | none => r) data (List.range data.length))

/-! ### Scratchpad (R397, R553) -/

/-- The banks that open partitions want stand powered and filled, and the partitions are open (log 77). -/
def State.readyBanks (s : State) (q : Nat) : State :=
  let s := s.modCluster q (fun c => { c with opens := [] })
  (List.range 48).foldl (fun (s : State) b =>
    if ¬ s.bankWanted q b ∨ s.bankPowered q b then s
    else
      let ids := (Map.find (s.cluster q).filling b).toList
      let s := s.modArb (q / 24) (fun a => { a with waiting := a.waiting.filter (fun r => !ids.contains r.id) })
      let s := s.dropGrants (q / 24) (fun g => ids.contains g.id)
      let s := s.modCluster q (fun c => { c with filling := Map.del c.filling b })
      ((s.zeroBank q b).setBit Fld.cluBankPowerPowered q 0 b true).showPending q b) s

/-- Whether a tensor's rows lie where its fold reaches them. A factor of an adapter has its place and that of its master copy
(R256). -/
def State.scratchFits (s : State) (f : Nat) (p : Placed) : Bool :=
  (p.kind != 10 || (p.scratch.isSome && p.master.isSome)) && match p.scratch with
  | some a => s.reachesAll f p.cluster a p.data.length &&
      p.master.all (fun m => s.reachesAll f p.cluster m (2 * p.data.length))
  | none => true

/-- The steward reads the rows of a tensor from its copy in a stack; a row that the codes do not deliver is missing (R312). -/
def State.stackCopy (s : State) (p : Placed) : List (Option Row) × State := s.stackReads p.stack p.row none p.data.length

/-- Writes those of some rows that were delivered. -/
def State.putSome (s : State) (q a : Nat) : List (Option Row × Row) → State
  | [] => s
  | (there, r) :: l => (if there.isSome then s.stewardRow q a r else s).putSome q (a + 1) l

/-- R553: a tensor's scratchpad rows are written from its copy in a stack, and the master copy of adapter factors with them
(R256). -/
def State.writeScratch (s : State) (c : Copy) (p : Placed) : State :=
  match p.scratch with
  | some a =>
    let (l, s) := s.stackCopy p
    let s := s.putSome p.cluster a (l.zip (c.scratchRows p (l.map (·.getD 0))))
    match p.master with
    | some m => s.putSome p.cluster m (l.flatMap (fun r => [(r, masterRow (r.getD 0) 0), (r, masterRow (r.getD 0) 1)]))
    | none => s
  | none => s

def isLayerReg (a : Nat) : Bool :=
  match Reg.decode a with
  | some (.cluArrLayerCfg, _, _) => true
  | some (.cluArrLayerSeed, _, _) => true
  | some (.cluArrLayerNum, _, _) => true
  | _ => false

/-- R397: the steward configures the fold from its image: first what is not a layer entry, then the scratchpad rows, then
the layer entries, which run from copies of those rows (R241). None when a write is refused. -/
def State.configure (s : State) (c : Copy) (im : Image) : Option State :=
  match writeImages (im.setup.filter (fun w => !isLayerReg w.1)) s with
  | (false, _) => none
  | (true, s) =>
    let s := im.clusters.foldl (fun (s : State) q => s.readyBanks q) s
    if ¬ c.tensors.all (s.scratchFits c.fold) then none
    else
      let s := c.tensors.foldl (fun (s : State) p => s.writeScratch c p) s
      match writeImages (im.setup.filter (fun w => isLayerReg w.1)) s with
      | (false, _) => none
      | (true, s) => some (im.kvPools.foldl (fun (s : State) d => s.registerPool d) s)

/-! ### Tokeniser tables (R332, Tables 09-9 and 09-10) -/

/-- A fold is admitted to a table. -/
def State.admitFold (s : State) (n t f : Nat) : Option State :=
  if s.tokAdmits n t f then some s
  else ((List.range 32).find? (fun i => !s.bit Fld.hubTokTableFoldMask n t i)).map (fun i =>
    (s.setBit Fld.hubTokTableFoldMask n t i true).setReg .hubTokFold n (4 * t + i / 8)
      (setBits (s.reg .hubTokFold n (4 * t + i / 8)) (8 * (i % 8)) 8 f))

/-- What a table takes of the engine memory. DESIGN CHOICE (log 137): the bytes of its tokens, 4 for each log-probability and 12 for
each merge; the manual gives no layout. -/
def tableBytes (x : TokTable) : Nat :=
  (x.tokens.map List.length).foldl (· + ·) 0 + 4 * x.logp.length + 12 * x.merges.length

/-- R332: the tables of a hub fit its engine memory of 8 MiB. -/
def State.tableFits (s : State) (n t : Nat) (x : TokTable) : Bool :=
  decide (tableBytes x + ((s.hub n).tokens.map (fun e => if e.1 = t then 0 else tableBytes e.2)).foldl (· + ·) 0 ≤ 8388608)

def State.loadTable (s : State) (n t f : Nat) (x : TokTable) : Option State :=
  let loaded := s.fld Fld.hubTokTableLoaded n t == 1
  if 4 ≤ t ∨ 262144 < x.tokens.length ∨ (loaded ∧ Map.find (s.hub n).tokens t ≠ some x) ∨ ¬ s.tableFits n t x then none
  else
    let s := s.modHub n (fun h => { h with tokens := Map.put h.tokens t x })
    let s := (s.setFld Fld.hubTokTableLoaded n t 1).setFld Fld.hubTokTableKind n t x.kind
    (s.setFld Fld.hubTokTableEntries n t x.tokens.length).admitFold n t f

/-- The tables of a copy enter every hub of its fold. -/
def loadTables (f : Nat) : List (Nat × Nat × TokTable) → State → Option State
  | [], s => some s
  | (n, t, x) :: l, s => (s.loadTable n t f x).bind (loadTables f l)

/-- R396, R408: a fold leaves a table; a table that admits none is gone. -/
def State.leaveTable (s : State) (n t f : Nat) : State :=
  let s := (List.range 32).foldl (fun (s : State) i =>
    if s.bit Fld.hubTokTableFoldMask n t i ∧ getBits (s.reg .hubTokFold n (4 * t + i / 8)) (8 * (i % 8)) 8 = f then
      s.setBit Fld.hubTokTableFoldMask n t i false else s) s
  if s.fld Fld.hubTokTableFoldMask n t = 0 then
    (s.setReg .hubTokTable n t 0).modHub n (fun h => { h with tokens := Map.del h.tokens t })
  else s

/-! ### Releasing a copy (R396, R408) -/

/-- The arrays of a copy become FREE, or RETIRED (R220). -/
def State.freeArrays (s : State) (c : Copy) : State :=
  c.arrays.foldl (fun (s : State) x => s.retireArray x.1 (s.arrayOf x.1 x.2.1 x.2.2)) s

/-- The partitions, layer entries and route sets of a fold. -/
def State.freeCluster (s : State) (f q : Nat) : State :=
  let s := (List.range 64).foldl (fun (s : State) i =>
    if s.partValid q i ∧ s.partFold q i = f then (s.partApply q i true 0).setReg .cluPartBanks q i 0 else s) s
  (List.range 256).foldl (fun (s : State) e =>
    if s.fld Fld.cluArrLayerCfgFold q e = f then
      let s := ((s.setReg .cluArrLayerCfg q e (Reg.cluArrLayerCfg.resetWord q e)).setReg .cluArrLayerSeed q e 0).setReg
        .cluArrLayerNum q e 0
      s.modCluster q (fun c => { c with layers := Map.del c.layers e, norm := Map.del c.norm e })
    else s) s

def State.freeRoutes (s : State) (f : Nat) : State :=
  (List.range 1600).foldl (fun (s : State) u => (List.range 256).foldl (fun (s : State) i =>
    if s.fld Fld.cluRtrSetValid u i = 1 ∧ s.fld Fld.cluRtrSetFold u i = f then s.setReg .cluRtrSet u i 0 else s) s) s

def State.freeRegion (s : State) (n i : Nat) : State := (s.setReg .hubStkRegion n i 0).setReg .hubStkRegionCfg n i 0

/-- The regions of a fold, and those of a copy that no other copy reads. -/
def State.freeRegions (s : State) (c : Copy) : State :=
  let others := s.placedCopies.filter (fun x => x != c)
  let shared := fun (n i : Nat) => others.any (fun x => x.tensors.any (fun p => p.inShare && p.stack == n && p.region == i))
  let s := (c.tensors.filter Placed.inShare).foldl (fun (s : State) p =>
    if shared p.stack p.region then s else s.freeRegion p.stack p.region) s
  (List.range 64).foldl (fun (s : State) n => (List.range 64).foldl (fun (s : State) i =>
    if s.regionValid n i ∧ s.regionFold n i = c.fold ∧ s.fld Fld.hubStkRegionCfgFwOwned n i = 0 then s.freeRegion n i
    else s) s) s

/-- What the fold image gave the fold is gone, and the fold is IDLE without an image. -/
def State.freeFold (s : State) (c : Copy) (im : Image) : State :=
  let s := (s.toIdle c.fold).setFld Fld.timFoldCfgEnable 0 c.fold 0
  let s := im.kvPools.foldl (fun (s : State) d => s.modHub d.lea (fun h => { h with pools := Map.del h.pools d.index })) s
  let s := ((im.clusters.map (· / 24)).dedup).foldl (fun (s : State) n =>
    c.tables.foldl (fun (s : State) t => s.leaveTable n t c.fold) s) s
  let s := im.clusters.foldl (fun (s : State) q => s.freeCluster c.fold q) s
  (s.freeRoutes c.fold).modFold c.fold (fun x => { x with image := none })

/-- R408. An adapter leaves its base's fold as it is. -/
def State.releaseCopy (s : State) (adapter : Bool) (c : Copy) : State :=
  let s := s.freeArrays c
  if adapter then
    let others := s.placedCopies.filter (fun x => x != c)
    (c.tensors.filter Placed.inShare).foldl (fun (s : State) p =>
      if others.any (fun x => x.tensors.any (fun y => y.inShare && y.stack == p.stack && y.region == p.region)) then s
      else s.freeRegion p.stack p.region) s
  else
    let s := s.freeRegions c
    match (s.fold c.fold).image with
    | some im => s.freeFold c im
    | none => s

end Sys2Proof.Machine
end

