-- ==== Sys2Proof/Machine/Mend.lean ====
section
/-! DEFINITION. The guard of a swath (R62, R65) and the rows that the steward writes again in it (R158). -/

namespace Sys2Proof.Machine

/-- The copies that run in a fold. -/
def State.foldCopies (s : State) (f : Nat) : List Copy :=
  (s.models.filter (fun e => e.2.state != 1)).flatMap (fun e => e.2.copies.filter (fun c => c.fold == f))

/-- R158: the rows of a tensor that stand uncorrectable are written again from its stack copy. -/
def State.mendTensor (s : State) (c : Copy) (p : Placed) : State :=
  match p.scratch with
  | none => s
  | some a =>
    let lost := (List.range p.data.length).filter (fun i =>
      (s.cluster p.cluster).spoiled.contains (a + i) && s.rowWclass p.cluster (a + i))
    if lost.isEmpty then s
    else
      let (l, s) := s.stackCopy p
      let rows := c.scratchRows p (l.map (·.getD 0))
      lost.foldl (fun (s : State) i => match l[i]?, rows[i]? with
        | some (some _), some r => s.stewardRow p.cluster (a + i) r
        | _, _ => s) s

def State.mendRows (s : State) (f : Nat) : State :=
  (s.foldCopies f).foldl (fun (s : State) c => c.tensors.foldl (fun (s : State) p => s.mendTensor c p) s) s

/-! ### SWATH_GUARD_START -/

def State.guardStart (s : State) (f : Nat) : State :=
  let x := s.fold f
  let at_ := Nat.max x.drainAt (s.nominalGuard f)
  (s.modFold f (fun x => { x with phase := .guard, guardEnd := at_ + s.guardBeats f * s.beatTicks })).mendRows f

def execSwathGuardStart (t f : Nat) (s : State) : Host.Outcome State Fault Refusal :=
  let s := s.at t
  onUnit (validFold f) (whenever (s.foldState f == foldRunning && (s.fold f).phase == .drain && (s.fold f).drained &&
      decide (Nat.max (s.fold f).drainAt (s.nominalGuard f) ≤ s.now))
    (fun s => s.guardStart f) s)

end Sys2Proof.Machine
end

