-- ==== Sys2Proof/Machine/Load.lean ====
section
/-! DEFINITION. Checking and expanding a package (R388 to R396, R399 to R401, Table 11-5), and what becomes of the copy
(R404 to R410). -/

namespace Sys2Proof.Machine

/-! ### The package (Tables 11-1 to 11-4) -/

/-- A little-endian field of a package. -/
def leField (b : List (BitVec 8)) (i n : Nat) : Nat := ofBytes ((b.drop i).take n)

/-- The lengths of a package's parts. -/
structure Header where
  m : Nat
  s : Nat
  r : Nat
  n : Nat
deriving DecidableEq, Repr

def headerAt (b : List (BitVec 8)) : Header := ⟨leField b 8 4, leField b 12 4, leField b 16 4, leField b 20 4⟩

/-- A tensor directory entry (Table 11-3). -/
structure Dir where
  kind   : Nat
  coding : Nat
  layer  : Nat
  coded  : Nat
  rows   : Nat
  zero   : Nat
  hash   : List (BitVec 8)
deriving DecidableEq, Repr

def dirAt (man : List (BitVec 8)) (i : Nat) : Dir :=
  let b := (man.drop (128 + 64 * i)).take 64
  ⟨leField b 0 1, leField b 1 1, leField b 2 2, leField b 4 4, leField b 8 4, leField b 12 4, b.drop 16⟩

def manifest (b : List (BitVec 8)) : List (BitVec 8) := (b.drop 24).take (headerAt b).m
def dirs (man : List (BitVec 8)) : List Dir := (List.range (leField man 4 4)).map (dirAt man)
def streamLength (l : List Dir) : Nat := (l.map Dir.coded).foldl (· + ·) 0

def Dir.ok (d : Dir) : Bool :=
  decide (1 ≤ d.kind) && decide (d.kind ≤ 10) && decide (d.coding < 2) && d.zero == 0 &&
  (!(decide (7 ≤ d.kind) && decide (d.kind ≤ 9)) || d.layer == 0) && (d.coding == 1 || d.coded == 512 * d.rows)

/-- ASCII "VIRWPKG1". -/
def magic : List (BitVec 8) := [0x56, 0x49, 0x52, 0x57, 0x50, 0x4B, 0x47, 0x31]

/-- Step 1 of R394, as far as the bytes tell. -/
def bytesOk (b : List (BitVec 8)) (len : Nat) : Bool :=
  let h := headerAt b
  let man := manifest b
  let ds := dirs man
  b.take 8 == magic && b.length == len && decide (96 ≤ h.s) && decide (1 ≤ h.r) && decide (h.r ≤ 64) &&
  decide (1 ≤ leField man 4 4) && decide (leField man 4 4 ≤ 65536) && h.m == 128 + 64 * leField man 4 4 &&
  b.length == 24 + h.m + h.s + 160 * h.r + streamLength ds + 16 * h.n && h.n == ceilDiv (streamLength ds) 65536 &&
  leField man 0 2 == 1 && decide (leField man 2 1 < 16) && decide (leField man 3 1 < 4) && leField man 44 4 == h.n &&
  decide (1 ≤ leField man 40 2) && decide (leField man 40 2 ≤ 256) &&
  ((List.range 11).any (fun i => leField man 42 2 == 2 ^ i)) && leField man 80 48 == 0 && ds.all Dir.ok &&
  ((leField man 3 1 / 2 == 1) == ds.any (fun d => d.kind == 9)) &&
  (leField man 3 1 % 2 == 1 || (ds.any (fun d => d.kind == 8) && leField man 24 8 == 0))

/-! ### Signatures and the content key (R393, R395) -/

def signatures (b : List (BitVec 8)) : List (BitVec 8) := (b.drop (24 + (headerAt b).m)).take (headerAt b).s

/-- Step 2: what fails, if anything: 0 ECDSA, 1 HSS, 2 an empty slot. A slot holds the ECDSA key's 97 bytes, then from byte
100 the HSS key. -/
def State.signatureFault (s : State) (b : List (BitVec 8)) : Option Nat :=
  let man := manifest b
  match Map.find s.sec.signers (leField man 2 1) with
  | none => some 2
  | some k =>
    if ¬ ecdsaOk (k.take 97) man ((signatures b).take 96) then some 0
    else if s.fld Fld.wgtCtlEcdsaOnly 0 0 = 0 ∧ ¬ hssOk (k.drop 100) man ((signatures b).drop 96) then some 1
    else none

def recipient (b : List (BitVec 8)) (i : Nat) : List (BitVec 8) :=
  (b.drop (24 + (headerAt b).m + (headerAt b).s + 160 * i)).take 160

/-- The module's package key: its public half (R393). -/
def packagePublic : List (BitVec 8) :=
  match ecMul 384 Config.packageKey (some g384) with
  | some p => toSec1 p
  | none => []

/-- ASCII "Virwald-W1 package". -/
def packageInfo : List (BitVec 8) :=
  [0x56, 0x69, 0x72, 0x77, 0x61, 0x6C, 0x64, 0x2D, 0x57, 0x31, 0x20, 0x70, 0x61, 0x63, 0x6B, 0x61, 0x67, 0x65]

/-- Step 3: the content key. -/
def contentKey (b : List (BitVec 8)) : Option (List (BitVec 8)) :=
  let man := manifest b
  match ((List.range (headerAt b).r).map (recipient b)).find? (fun r => r.take 16 == (sha384 packagePublic).take 16) with
  | none => none
  | some r =>
    match sec1 ((r.drop 16).take 97) with
    | none => none
    | some p => match ecMul 384 Config.packageKey (some p) with
      | none => none
      | some z => keyUnwrap (hkdf384 (toBytesBE 48 z.1) ((man.drop 48).take 32) (packageInfo ++ (man.drop 8).take 8) 32)
          ((r.drop 120).take 40)

/-! ### Chunks and tensors (R389 to R391) -/

/-- The ciphertext and tag of chunk `i`. -/
def chunkAt (b : List (BitVec 8)) (i : Nat) : List (BitVec 8) :=
  let h := headerAt b
  (b.drop (24 + h.m + h.s + 160 * h.r + 65552 * i)).take 65552

def openChunk (key hash b : List (BitVec 8)) (i : Nat) : Option (List (BitVec 8)) :=
  let c := chunkAt b i
  let data := c.take (c.length - 16)
  let iv := List.replicate 8 0 ++ toBytesBE 4 i
  if gcmTag key iv (hash ++ toBytes 4 i) data = c.drop (c.length - 16) then some (gcmCrypt key iv data) else none

/-- Opens `n` chunks from chunk `i` on: the stream, or the chunk whose tag fails. -/
def openChunks (key hash b : List (BitVec 8)) : Nat → Nat → Except Nat (List (BitVec 8))
  | 0, _ => .ok []
  | n + 1, i => match openChunk key hash b i with
    | none => .error i
    | some l => (openChunks key hash b n (i + 1)).map (fun r => l ++ r)

def rowOf (l : List (BitVec 8)) : Row := BitVec.ofNat 4096 (ofBytes l)

/-- R390: the rows of one group, by its mask, and what follows them. -/
def expandRows (mask : Nat) : Nat → Nat → List (BitVec 8) → Option (List Row × List (BitVec 8))
  | 0, _, l => some ([], l)
  | n + 1, r, l =>
    if mask / 2 ^ r % 2 = 1 then
      if l.length < 512 then none
      else (expandRows mask n (r + 1) (l.drop 512)).map (fun x => (rowOf (l.take 512) :: x.1, x.2))
    else (expandRows mask n (r + 1) l).map (fun x => (0 :: x.1, x.2))

/-- R390: the groups that make `rows` rows; `n` bounds them. -/
def expandGroups : Nat → Nat → List (BitVec 8) → Option (List Row)
  | 0, rows, l => if rows = 0 ∧ l = [] then some [] else none
  | n + 1, rows, l =>
    if rows = 0 then (if l = [] then some [] else none)
    else
      let k := Nat.min 64 rows
      let mask := ofBytes (l.take 8)
      if l.length < 8 ∨ 2 ^ k ≤ mask then none
      else (expandRows mask k 0 (l.drop 8)).bind (fun x => (expandGroups n (rows - k) x.2).map (fun r => x.1 ++ r))

/-- The rows of a coded tensor (R353, R390). -/
def expand (coding rows : Nat) (l : List (BitVec 8)) : Option (List Row) :=
  if coding = 0 then (if l.length = 512 * rows then some ((List.range rows).map (fun i => rowOf ((l.drop (512 * i)).take 512))) else none)
  else expandGroups (ceilDiv rows 64) rows l

/-- Expands the tensors of a stream: their rows, or the tensor that breaks R390. -/
def expandAll : Nat → List Dir → List (BitVec 8) → Except Nat (List (List Row))
  | _, [], _ => .ok []
  | i, d :: ds, l => match expand d.coding d.rows (l.take d.coded) with
    | none => .error i
    | some r => (expandAll (i + 1) ds (l.drop d.coded)).map (fun x => r :: x)

/-- Step 5: the first tensor whose hash differs. -/
def wrongHash (ds : List Dir) (ts : List (List Row)) : Option Nat :=
  (List.range ds.length).find? (fun i => match ds[i]?, ts[i]? with
    | some d, some r => sha384 (rowsBytes r) != d.hash
    | _, _ => true)

/-! ### How a load fails (Table 11-5) -/

structure LoadFail where
  status : Nat
  code   : Nat
  p0     : Nat
  p1     : Nat
  src    : Source
  left   : Option State

def failStep (h f status step : Nat) : LoadFail := ⟨status, 0x7002, h, step, srcModule (some f), none⟩
def failAuth (h f status code p1 : Nat) : LoadFail := ⟨status, code, h, p1, srcModule (some f), none⟩

/-- What a LOAD_MODEL asks for: handle, fold, whether it replaces, digital placement, residence and length. -/
structure LoadAsk where
  handle : Nat
  fold   : Nat
  replace : Bool
  digital : Bool
  residence : Nat
  length : Nat
deriving DecidableEq, Repr

def loadAsk (d : BitVec 512) : LoadAsk :=
  { handle := descBytes d 2 2, fold := descBytes d 36 1, replace := descBytes d 1 1 % 2 == 1,
    digital := descBytes d 1 1 / 4 % 2 == 1, residence := descBytes d 32 4, length := descBytes d 40 8 }

/-- R400: no array is programmed. -/
def State.asksDigital (s : State) (a : LoadAsk) : Bool := a.digital || decide (a.residence < s.fld Fld.wgtCtlMinArrayS 0 0)

def isAdapter (b : List (BitVec 8)) : Bool := leField (manifest b) 3 1 % 2 == 1

/-- The base of an adapter: the handle of a READY model with its identifier. -/
def State.baseOf (s : State) (b : List (BitVec 8)) : Option (Nat × Model) :=
  s.models.find? (fun e => e.2.state == 2 && !e.2.adapter && e.2.ident == leField (manifest b) 24 8)

/-- The image that a package's load runs. -/
def State.loadImage (s : State) (a : LoadAsk) (p : Package) : Option Image := if s.asksDigital a then p.digitalImage else p.image

/-- Step 1 of R394. -/
def State.stepOneOk (s : State) (a : LoadAsk) (p : Package) : Bool :=
  bytesOk p.bytes a.length && (!s.asksDigital a || p.digitalImage.isSome) &&
  (if isAdapter p.bytes then (s.baseOf p.bytes).isSome
   else s.foldState a.fold == foldIdle && (s.loadImage a p).any s.shapeOk)

/-- The tensors of a copy, before they have their places in the stacks. -/
def makePlaced (digital : Bool) (d : Dir) (t : Tensor) (rows : List Row) : Placed :=
  { kind := d.kind, layer := d.layer, cluster := t.cluster, analog := if digital then none else t.analog, scratch := t.scratch, master := t.master,
    stack := (t.stackAt.map Prod.fst).getD 0, region := 64, row := (t.stackAt.map Prod.snd).getD 0, data := rows }

/-- The copy that a package makes, before it is placed. -/
def State.makeCopy (s : State) (a : LoadAsk) (p : Package) (ts : List (List Row)) : Copy :=
  let man := manifest p.bytes
  let digital := s.asksDigital a
  let ds := dirs man
  { fold := if isAdapter p.bytes then ((s.baseOf p.bytes).map (fun x => x.2.cur.fold)).getD a.fold else a.fold
    version := leField man 16 8, hash := sha384 man, digital := digital, g := leField man 40 2, ppp := leField man 42 2
    paired := leField man 32 8
    tensors := (List.range ds.length).filterMap (fun i => match ds[i]?, ts[i]?, p.places[i]? with
      | some d, some r, some t => some (makePlaced digital d t r)
      | some d, some r, none => some (makePlaced digital d ⟨0, none, none, none, none⟩ r)
      | _, _, _ => none)
    tables := p.tables.map Prod.fst }

/-- The tensors that the image places in a region of the fold. The shadow of an array tensor never lies there (R398). -/
def fixedOf (p : Package) : List Nat :=
  (List.range p.places.length).filter (fun i => (p.places[i]?).any (fun t => t.stackAt.isSome) &&
    (dirs (manifest p.bytes))[i]?.all (fun d => d.kind != 1))

/-- R178: an array tensor with a nibble 0b1000, by the cluster and the array of its named group. -/
def badTensor (c : Copy) : Option (Nat × Nat) :=
  (c.tensors.find? (fun p => p.kind == 1 && hasBadNibble p.data)).map (fun p =>
    (p.cluster, 8 * (p.analog.map (fun a => a.1)).getD 0))

/-- Step 6: the copy is placed and its fold configured. -/
def State.placeCopy (s : State) (c : Copy) (p : Package) (im : Option Image) : Option (Copy × State) :=
  (s.placeStacks c (fixedOf p)).bind (fun (x : Copy × State) =>
    (State.placeGroups x.1 x.1.groups x.2).bind (fun (s : State) =>
      match im with
      | none =>
        if x.1.tensors.all (s.scratchFits x.1.fold) then
          some (x.1, x.1.tensors.foldl (fun (s : State) p => s.writeScratch x.1 p) s)
        else none
      | some im =>
        let s := s.modFold x.1.fold (fun y => { y with image := some im })
        (s.configure x.1 im).bind (fun (s : State) =>
          let s := (List.range x.1.tensors.length).foldl (fun (s : State) i => match x.1.tensors[i]? with
            | some y => if (fixedOf p).contains i then s.stackWrites y.stack y.row y.data else s
            | none => s) s
          (loadTables x.1.fold ((((im.clusters.map (· / 24)).dedup).flatMap (fun n => p.tables.map (fun t => (n, t.1, t.2))))) s).map
            (fun (s : State) => (x.1, s)))))

/-- R216: an array of a copy that its program left FAILED, as (cluster, array). -/
def State.failedArray (s : State) (c : Copy) : Option (Nat × Nat) :=
  (c.arrays.map (fun x => (x.1, s.arrayOf x.1 x.2.1 x.2.2))).find? (fun x => s.arrState x.1 x.2 == arrFailed)

/-- R396: what a load leaves when one of its arrays fails: the arrays that it programmed are FREE again, with their wear, or
FAILED, and the group maps are as they were. -/
def State.undoArrays (s : State) (c : Copy) : State :=
  let after := (((State.placeGroups c c.groups s).getD s).freeArrays c)
  c.groups.foldl (fun (x : State) g => x.setReg .cluArrGroupMap g.1 0 (s.reg .cluArrGroupMap g.1 0)) after

/-- R394: the steps of a load in order. -/
def State.runLoad (s : State) (a : LoadAsk) (p : Package) : Except LoadFail (Copy × State) :=
  let h := a.handle
  if ¬ s.stepOneOk a p then .error (failStep h a.fold stDescriptor 1)
  else match s.signatureFault p.bytes with
    | some k => .error (failAuth h a.fold stNotAuth 0x8002 k)
    | none => match contentKey p.bytes with
      | none => .error (failAuth h a.fold stNotAuth 0x8003 0)
      | some key => match openChunks key (sha384 (manifest p.bytes)) p.bytes (headerAt p.bytes).n 0 with
        | .error i => .error (failAuth h a.fold stFault 0x8004 i)
        | .ok stream => match expandAll 0 (dirs (manifest p.bytes)) stream with
          | .error i => .error (failAuth h a.fold stFault 0x8004 i)
          | .ok ts => match wrongHash (dirs (manifest p.bytes)) ts with
            | some i => .error (failAuth h a.fold stFault 0x8004 i)
            | none => match badTensor (s.makeCopy a p ts) with
              | some (q, arr) => .error ⟨stFault, 0x4007, arr, 0, srcAgent q (some a.fold), none⟩
              | none => match s.placeCopy (s.makeCopy a p ts) p (if isAdapter p.bytes then none else s.loadImage a p) with
                | none => .error (failStep h a.fold stBusy 6)
                | some r => match r.2.failedArray r.1 with
                  | some (q, arr) => .error ⟨stFault, 0x4007, arr, 1, srcAgent q (some a.fold), some (s.undoArrays r.1)⟩
                  | none => .ok r

/-- The record of a handle whose load has reached READY. -/
def Model.ready (m : Model) (b : List (BitVec 8)) (base : Nat) (c : Copy) : Model :=
  if m.state = 1 then
    { m with
      state := 2, cur := c, loading := none, adapter := isAdapter b, ident := leField (manifest b) 8 8, base := base }
  else { m with next := some c, loading := none }

/-- A load reaches READY: the fold is armed, and the item completes. -/
def State.loadDone (s : State) (ep seq : Nat) (a : LoadAsk) (p : Package) (c : Copy) : State :=
  let s := s.modModel a.handle (fun m => m.ready p.bytes ((s.baseOf p.bytes).map Prod.fst |>.getD 0) c)
  let s := if isAdapter p.bytes then s else s.rearmFold c.fold false
  (s.recordModule.bump Fld.wgtStatLoadsDone 0 0).complete ep seq stOk 0 none

/-- R396: a load fails: nothing that it wrote stays. -/
def State.loadFailed (s : State) (ep seq : Nat) (x : LoadFail) : State :=
  let s := match x.left with
    | some y => y.dropLoad ep seq
    | none => (s.dropLoad ep seq).report x.src x.code x.p0 x.p1
  (s.bump Fld.wgtStatLoadsFailed 0 0).complete ep seq x.status 0 none

/-- R150: the steward may write in the partitions of a fold: it is IDLE, or in its guard. -/
def State.stewardMay (s : State) (f : Nat) : Bool := s.foldState f == foldIdle || s.inGuard f

/-- The clusters in which a load programs arrays. -/
def State.loadPrograms (s : State) (a : LoadAsk) (p : Package) : List Nat :=
  if s.asksDigital a then []
  else (p.places.filterMap (fun t => t.analog.map (fun _ => t.cluster))).dedup

/-- The whole load of a package that the client's buffer holds. An adapter's rows wait for a guard of its base's fold, and arrays
are programmed once the codecs hold their leave (R218): until then the load goes on. -/
def State.loadPackage (s : State) (ep : Nat) (i : Item) (p : Package) : State :=
  let a := loadAsk i.desc
  let qs := s.loadPrograms a p
  match s.runLoad a p with
  | .error x => if x.left.isSome ∧ ¬ s.codecReady qs then s.askCodecs qs else s.loadFailed ep i.seq x
  | .ok (c, x) =>
    if ¬ s.codecReady qs then s.askCodecs qs
    else if s.stewardMay c.fold then x.loadDone ep i.seq a p c
    else s

/-! ### WEIGHT_CODEC_CHUNK (R353) -/

/-- The programming rows of 256 bytes that rows of 512 bytes hold, the low half first (DESIGN CHOICE, log 118). -/
def programmingRows (rows : List Row) : List (BitVec 2048) :=
  rows.flatMap (fun r => [r.extractLsb' 0 2048, r.extractLsb' 2048 2048])

/-- R178, R214 to R218, R354: the rows of an array are programmed under leave, from row `row` on. With a nibble 0b1000 in one
of them none is. -/
def State.codecProgram (s : State) (q a row : Nat) (ws : List (BitVec 2048)) : State :=
  if ¬ s.mayProgram q a ∨ 1024 < row + ws.length then s
  else if ws.any badRow then s.report (srcAgent q (s.foldOf q)) 0x4007 a 0
  else if s.codecLeave q then s.programRows q a row ws
  else s.askCodec q

/-- Writes the rows that a chunk expands to, where no ARMED or RUNNING fold uses them, or in a guard. Rows of a stack go to its
controller as a request of the hub's agents (R300, R303). -/
def State.codecWrite (s : State) (dest : ChunkDest) (unit row : Nat) (rows : List Row) : State :=
  match dest with
  | .array a => s.codecProgram unit a row (programmingRows rows)
  | .stack =>
    let busy := fun (r : Nat) => s.foldBusy (s.regionFold unit r) && !s.inGuard (s.regionFold unit r)
    if (List.range rows.length).any (fun i => (s.regionOf unit (row + i)).any busy) then s
    else (s.modDram unit (fun d => { d with agents := d.agents ++ [⟨.codec, agentReq s.nextTag unit row rows.length 0 true rows⟩] })).drawTag
  | .scratch =>
    let free := fun (i : Nat) => s.stewardMay (s.partFold unit i)
    let parts := (List.range rows.length).map (fun i => if row + i < 49152 then s.partOf unit (row + i) else none)
    if parts.any Option.isNone then s.overrun unit row 1 (hubAddr (unit / 24))
    else if parts.all (fun p => p.any free) then (s.putRows unit row rows).2
    else s

/-- How many rows the groups of a chunk hold: 64 in each group before the last. DESIGN CHOICE (log 136): a chunk does not carry its
length, so its last group ends with the highest bit of its mask. -/
def chunkRows (coding : Nat) (l : List (BitVec 8)) : Nat → Nat
  | 0 => 0
  | n + 1 =>
    if coding = 0 then l.length / 512
    else if l.length < 8 then 0
    else
      let mask := ofBytes (l.take 8)
      let bits := (List.range 64).filter (fun r => mask / 2 ^ r % 2 == 1)
      let rest := l.drop (8 + 512 * bits.length)
      if rest.isEmpty then (bits.getLast?.map (· + 1)).getD 0 else 64 + chunkRows coding rest n

def execWeightCodecChunk (t n : Nat) (dest : ChunkDest) (unit row coding : Nat) (data : List (BitVec 8)) (s : State) :
    Host.Outcome State Fault Refusal :=
  let s := s.at t
  onUnit (validLea n && (match dest with
      | .stack => validLea unit
      | .scratch => validCluster unit && unit / 24 == n
      | .array a => validArray unit a && unit / 24 == n)) (
    match expand coding (chunkRows coding data data.length) data with
    | some rows => s.codecWrite dest unit row rows
    | none => s)

/-! ### REBUILD (R404 to R406, R209) -/

/-- The copy that holds a named group, with its model's handle. -/
def State.holder (s : State) (q g : Nat) : Option (Nat × Copy) :=
  (s.models.find? (fun e => decide (2 ≤ e.2.state) && (e.2.cur.holds q g || e.2.old.any (fun c => c.holds q g)))).map (fun e =>
    (e.1, if e.2.cur.holds q g then e.2.cur else (e.2.old.find? (fun c => c.holds q g)).getD e.2.cur))

def State.groupMask (c : Copy) (q g : Nat) : Nat :=
  ((c.groups.find? (fun x => x.1 == q && x.2.1 == g)).map (fun x => x.2.2)).getD 0

/-- The copy whose array tensors hold what a read of its shadow gives; for a row that the stack does not deliver stands the row
of the package source. -/
def State.shadowed (s : State) (c : Copy) : Copy × State :=
  let (ts, s) := c.tensors.foldl (fun (acc : List Placed × State) p =>
    if p.kind = 1 ∧ p.inShare then
      let (l, s) := acc.2.stackCopy p
      (acc.1 ++ [{ p with data := List.zipWith Option.getD l p.data }], s)
    else (acc.1 ++ [p], acc.2)) ([], s)
  ({ c with tensors := ts }, s)

def State.setRebuild (s : State) (q g : Nat) (phys : Option Nat) : State :=
  { s with rebuilds := ⟨q, g, phys⟩ :: s.rebuilds.filter (fun r => !(r.q == q && r.named == g)) }

/-- The bit of the record that tells of a rebuild that waits. -/
def State.showWaiting (s : State) (h : Nat) : State :=
  s.modModel h (fun m => { m with waiting := s.rebuilds.any (fun r => r.phys.isNone && m.cur.holds r.q r.named) })

/-- A DRIFTED group is rebuilt in a FREE one under the codec's leave (R218), or waits for it. A program that fails is given up
(R178, R216), and a later REBUILD takes another group. -/
def State.rebuild (s : State) (q g : Nat) : State :=
  match s.holder q g with
  | none => s
  | some (h, c) =>
    let drifted := (List.range 8).any (fun i => s.arrState q (s.arrayOf q g i) == 3)
    let now := s.rebuilds.find? (fun r => r.q == q && r.named == g)
    if ¬ drifted ∨ now.any (fun r => r.phys.isSome) then s
    else match s.freeGroup q (State.groupMask c q g) with
      | some phys =>
        if ¬ s.codecLeave q then s.askCodec q
        else
        let (c, s) := s.shadowed c
        let s := s.programGroup c q g phys
        if (bitsIn (State.groupMask c q g) 8).any (fun i => s.arrState q (8 * phys + i) != 2) then
          (groupArrays phys).foldl (fun (s : State) a => s.retireArray q a) s
        else
        let s := (s.setRebuild q g (some phys)).showWaiting h
        if (s.foldOf q).any s.foldBusy then s else (s.switchGroup ⟨q, g, some phys⟩).showWaiting h
      | none =>
        if now.isSome then s
        else (((s.report (srcAgent q (s.foldOf q)) 0x4006 g 0).bump Fld.wgtStatRebuildWaits 0 0).setRebuild q g none).showWaiting h

def execRebuild (t q g : Nat) (s : State) : Host.Outcome State Fault Refusal :=
  onUnit (validCluster q && decide (g < 4)) ((s.at t).rebuild q g)

/-! ### COPY_RETIRE (R408) -/

/-- Every entry of a fold is FREE, and its last swath has drained. -/
def State.foldEmpty (s : State) (f : Nat) : Bool :=
  (s.entriesOf f).isEmpty && (s.foldState f != foldRunning && s.foldState f != foldStopping || (s.fold f).drained)

/-- An adapter keeps its base. -/
def State.keptByAdapter (s : State) (h : Nat) : Bool :=
  s.models.any (fun e => e.2.adapter && e.2.base == h && e.2.state != 0)

/-- An adapter whose factors lie in a fold keeps the copy of its base there. -/
def State.keptIn (s : State) (h f : Nat) : Bool :=
  s.models.any (fun e => e.2.adapter && e.2.base == h && e.2.state != 0 && e.2.copies.any (fun c => c.fold == f))

/-- The groups that rebuilds of a copy have programmed and not switched in are FREE again. -/
def State.freeSpares (s : State) (c : Copy) : State :=
  (s.rebuilds.filter (fun r => c.holds r.q r.named)).foldl (fun (s : State) r => match r.phys with
    | some g => (groupArrays g).foldl (fun (s : State) a => s.retireArray r.q a) s
    | none => s) s

/-- A copy of a model is released. A rebuild of it stops. -/
def State.retireCopy (s : State) (adapter : Bool) (c : Copy) : State :=
  let s := s.freeSpares c
  let s := { s with rebuilds := s.rebuilds.filter (fun r => !c.holds r.q r.named) }
  (s.releaseCopy adapter c).recordModule

/-- Entries of a model that are not FREE, by fold of its current copy. -/
def State.modelEmpty (s : State) (h : Nat) (m : Model) : Bool :=
  if m.adapter then s.entries.all (fun e => e.2.state == eFree || e.2.adapter != h) else s.foldEmpty m.cur.fold

/-- R408: an older copy whose last stream has closed, or the copy of a RETIRING model. -/
def State.copyRetire (s : State) (h : Nat) : State :=
  match Map.find s.models h with
  | none => s
  | some m => match m.old.find? (fun c => s.foldEmpty c.fold && !s.keptIn h c.fold) with
    | some c => (s.modModel h (fun m => { m with old := m.old.erase c })).retireCopy m.adapter c
    | none =>
      if m.state = 3 ∧ m.old.isEmpty ∧ s.modelEmpty h m ∧ ¬ s.keptByAdapter h then
        let s := { s.retireCopy m.adapter m.cur with models := Map.del s.models h }
        m.unload.foldl (fun (s : State) x => s.complete x.1 x.2 stOk 0 none) s
      else s

def execCopyRetire (t handle : Nat) (s : State) : Host.Outcome State Fault Refusal :=
  .next ((s.at t).copyRetire handle)

end Sys2Proof.Machine
end

