-- ==== Sys2Proof/Machine/Replace.lean ====
section
/-! DEFINITION. What a lost part strikes, and the re-placement of struck folds (R33, R541, R546 to R556). -/

namespace Sys2Proof.Machine

/-! ### Positions (R33, Table 01-5) -/

def posFailed : Nat := 0
def posExposed : Nat := 1
def posSpare : Nat := 2

def State.setPosition (s : State) (q v : Nat) : State :=
  if s.position q = v then s
  else ({ s with positions := Map.set 1 s.positions q v }.recordModule).report (srcHub (q / 24) none) 0x9015 q v

/-- R574: the arrays of a failed position that hold a copy of the module records become RESERVED while they read. -/
def State.reserveArrays (s : State) (q : Nat) : State :=
  if s.store.copies.any (fun c => c.contains q) ∧ Config.arraysRead s.fresh q then
    ((List.range 32).foldl (fun (s : State) a => s.setArrState q a 6) s).drew
  else s

/-- A cluster is lost: its domain goes off at once with what it held, and its arrays with it; its position is failed. -/
def State.loseCluster (s : State) (q : Nat) : State :=
  let s := (s.darken q domFailed false).setPosition q posFailed
  (s.modCluster q (fun c => { c with arrays := [] })).reserveArrays q

/-- The hub that tells of a lea's loss: that of its lowest-numbered working neighbour. -/
def State.teller (s : State) (n : Nat) : Nat :=
  let near := [n - 8, n - 1, n + 1, n + 8].filter (fun m => decide (m < 64) && m != n && !(s.hub m).dead &&
    decide (dist (m / 8) (n / 8) + dist (m % 8) (n % 8) = 1))
  (near.head?).getD 0

/-! ### Streams that lose their state (R547) -/

/-- What is lost: clusters, stacks, and hubs with their request entries. -/
structure Lost where
  clusters : List Nat
  drams    : List Nat
  hubs     : List Nat
deriving DecidableEq, Repr

/-- A page table entry names a frame of a lost part. -/
def Lost.frame (l : Lost) (w : Word) : Bool :=
  if pteScratch w then l.clusters.contains (pteUnit w) else l.drams.contains (pteUnit w)

/-- The master copy of an adapter lay on a lost cluster. -/
def State.adapterLost (s : State) (l : Lost) (h : Nat) : Bool :=
  (Map.find s.models h).any (fun m => m.adapter && m.cur.tensors.any (fun p => p.kind == 10 && l.clusters.contains p.cluster))

def State.entryLost (s : State) (l : Lost) (g : Nat) : Bool :=
  let e := s.entry g
  l.hubs.contains (entryHub g) || e.pages.any (fun p => l.frame p.2) ||
  (e.countPage != 0 && l.frame (BitVec.ofNat 64 e.countPage)) || (e.adapter != 0 && s.adapterLost l e.adapter)

def State.loseState (s : State) (g code : Nat) : State :=
  let st := (s.entry g).state
  if st = eFree ∨ st = eDone ∨ st = eFailed ∨ st = eDraining then s
  else (s.loseEntry g).report (srcModule (some (s.entry g).fold)) 0x7013 g code

def State.loseStates (s : State) (l : Lost) (code : Nat) : State :=
  ((s.notFree).filter (s.entryLost l)).foldl (fun (s : State) g => s.loseState g code) s

/-! ### The choice of replacements (R550 to R552) -/

/-- A position of one of the two pools of R550; rectangle folds take spares only. -/
def State.candidateAt (s : State) (rect : Bool) (q : Nat) : Bool :=
  let picked := s.folds.any (fun f => f.2.replacing.any (fun r => r.picks.any (fun p => p.2 == q)))
  !picked && s.domain q != domFailed && !s.heldOff q && !(s.hub (q / 24)).dead && (s.foldOf q).isNone &&
  (s.position q == posSpare || (!rect && s.position q == posExposed && s.bit Fld.fltReserveMask 0 (q / 24) (q % 24)))

def leaClusters (n : Nat) : List Nat := (List.range 24).map (fun k => 24 * n + k)

/-- A rectangle fold: a spare of the lost cluster's lea, then of the fold's other leas. -/
def State.pickRect (s : State) (leas taken : List Nat) (lost : Nat) : Option Nat :=
  (((lost / 24) :: leas.filter (· != lost / 24)).flatMap leaClusters).find? (fun q => s.candidateAt true q && !taken.contains q)

/-- A fold of one lea: the nearest candidate that keeps it connected. -/
def State.pickNear (s : State) (keep taken : List Nat) (lost : Nat) : Option Nat :=
  (sortUp (fun q => hops (tileOf lost) (tileOf q) * 2048 + q)
    ((leaClusters (lost / 24)).filter (fun q => s.candidateAt false q && !taken.contains q &&
      connected ((q :: keep).map (· % 24))))).head?

/-- Picks for the lost clusters of an elastic fold, one after another. -/
def State.pickAll (s : State) (rect : Bool) (leas keep : List Nat) : List Nat → List (Nat × Nat) → Option (List (Nat × Nat))
  | [], acc => some acc
  | q :: l, acc =>
    let taken := acc.map Prod.snd
    match (if rect then s.pickRect leas taken q else s.pickNear (keep ++ taken) taken q) with
    | some x => s.pickAll rect leas keep l (acc ++ [(q, x)])
    | none => none

/-- An exact-mode fold's placement in lea `n`: every index is a surviving cluster of the fold or a candidate, and its slot
plan takes no dead router. -/
def State.placementFits (s : State) (im : Image) (lost : List Nat) (n : Nat) (p : List Nat × List Flow) : Bool :=
  p.1.length == im.clusters.length && p.1.Nodup && p.1.all (fun k => decide (k < 24) &&
    (s.candidateAt false (24 * n + k) || (im.clusters.contains (24 * n + k) && !lost.contains (24 * n + k)))) &&
  p.2.all (fun fl => fl.cells.all (fun c => !(s.router c.tile).dead))

/-- A tile of any lea, at the same place in lea `n`. -/
def tileIn (n x : Nat) : Nat := 5 * (n % 8) + tileX x % 5 + 64 * (5 * (n / 8) + tileY x % 5)

/-- The flows of a placement are given by cluster index; they stand in lea `n`. -/
def flowsIn (n : Nat) (l : List Flow) : List Flow :=
  l.map (fun f => { f with
    src := 24 * n + f.src % 24, dst := 24 * n + f.dst % 24, tree := f.tree.map (fun e => (tileIn n e.1, e.2)) })

def State.pickPlacement (s : State) (im : Image) (lost : List Nat) : Option (Nat × List Nat × List Flow) :=
  let own := ((im.clusters.head?).map (· / 24)).getD 0
  (own :: (List.range 64).filter (· != own)).findSome? (fun n =>
    ((im.placements.take 8).find? (fun p => s.placementFits im lost n (p.1, flowsIn n p.2))).map (fun p => (n, p)))

/-- What the steward chooses for fold `f`: (old, new) for each cluster of the image that moves. -/
def State.choosePicks (s : State) (f : Nat) (lost : List Nat) : Option (List (Nat × Nat)) :=
  match (s.fold f).image with
  | none => some []
  | some im =>
    if s.foldExact f then
      (s.pickPlacement im lost).map (fun p => ((im.clusters.zip p.2.1).map (fun x => (x.1, 24 * p.1 + x.2))).filter (fun x => x.1 != x.2))
    else
      let gone := im.clusters.filter lost.contains
      s.pickAll im.leaRect (s.foldLeas f) (im.clusters.filter (fun q => !gone.contains q)) gone []

def State.setReplacing (s : State) (f : Nat) (r : Option Replacing) : State := s.modFold f (fun x => { x with replacing := r })

/-- FLT_REPLACE_STAT.waiting. -/
def State.countWaiting (s : State) : State :=
  s.setFld Fld.fltReplaceStatWaiting 0 0 (Nat.min 65535 (s.folds.filter (fun f => f.2.replacing.any Replacing.waits)).length)

/-- A pick that is not under test-worthy power is powered up (R552). -/
def State.readyPick (s : State) (q : Nat) : State :=
  if s.domain q = domDark then s.askPower q else s

/-- The choice for a struck fold; without one it waits (R551). -/
def State.tryReplace (s : State) (f : Nat) : State :=
  match (s.fold f).replacing with
  | none => s
  | some r =>
    let s := s.setReplacing f (some { r with picks := [] })
    match s.choosePicks f r.lost with
    | some picks =>
      let s := s.setReplacing f (some { r with picks := picks, waits := false })
      (picks.foldl (fun (s : State) p => s.readyPick p.2) s).countWaiting
    | none =>
      let s := s.setReplacing f (some { r with picks := [], waits := true })
      (if r.waits then s else s.report (srcModule (some f)) 0x7012 f 0).countWaiting

/-- Folds that wait make their choice again. -/
def State.tryWaiting (s : State) : State :=
  ((Map.keys s.folds).filter (fun f => (s.fold f).replacing.any Replacing.waits)).foldl (fun (s : State) f => s.tryReplace f) s

/-! ### Striking folds (R546 to R549, R556) -/

/-- The folds that a loss strikes: a lost cluster, or a region or pool in a lost stack. -/
def State.struckBy (s : State) (l : Lost) : List Nat :=
  ((Map.keys s.folds).filter (fun f => s.foldState f != foldIdle && (s.foldClusters f).any l.clusters.contains) ++
    (l.drams.flatMap s.foldsOfStack).filter (fun f => s.foldState f != foldIdle)).dedup

/-- A drain that has ended lets its commit proceed, unless the batch or result rows were lost (R556). -/
def State.commitFirst (s : State) (l : Lost) (f : Nat) : Bool :=
  (s.fold f).drained && !((s.fold f).image.any (fun im => l.clusters.contains im.batchAt.1 || l.clusters.contains im.resultAt.1))

/-- One fold is struck. A second loss restarts the choice (R556). -/
def State.strikeFold (s : State) (l : Lost) (code : Nat) (f : Nat) : State :=
  let s := s.endLoads (fun i => i.loadFold == f) stFault
  let s := if s.foldLive f then (s.stopFault f none).tellBlock f 0 else s
  let lost := (((s.fold f).replacing.map Replacing.lost).getD [] ++ (s.foldClusters f).filter l.clusters.contains).dedup
  let s := s.setReplacing f (some ⟨code, s.now, lost, [], false⟩)
  s.report (srcModule (some f)) 0x7010 f code

/-- R3: while spare positions remain, a position that failed is made up for: spares are exposed until the exposed count,
with the spares that re-placements have picked, is that of the grade. First come the spares of the lost clusters' leas, then the
rest in ascending order (DESIGN CHOICE, log entry 102). A position of a lost lea keeps its state (log entry 74). -/
def State.spareOrder (s : State) (lost : List Nat) : List Nat :=
  let near := (lost.map (· / 24)).dedup
  let spares := (List.range 1536).filter (fun q => s.position q == posSpare && !(s.hub (q / 24)).dead &&
    !s.folds.any (fun f => f.2.replacing.any (fun r => r.picks.any (fun p => p.2 == q))))
  spares.filter (fun q => near.contains (q / 24)) ++ spares.filter (fun q => !near.contains (q / 24))

/-- The spares that a re-placement will expose: those it has picked, or, while it waits, one for each failed position. -/
def State.sparesFor (s : State) (r : Replacing) : Nat :=
  if r.waits then (r.lost.filter (fun q => s.position q == posFailed)).length
  else (r.picks.filter (fun p => s.position p.2 == posSpare)).length

def State.sparesOwed (s : State) : Nat :=
  (s.folds.map (fun f => (f.2.replacing.map s.sparesFor).getD 0)).foldl (· + ·) 0

def State.fillExposed (s : State) (lost : List Nat) : State :=
  let short := s.gradeCount - (s.countPos posExposed + s.sparesOwed)
  ((s.spareOrder lost).take short).foldl (fun (s : State) q => (s.setPosition q posExposed).askPower q) s

/-- R3, R33: a spare is exposed in the place of another position. When the exposed count would pass that of the grade, a
position of a lost lea goes for it: the one that the pick replaces, else the lowest (DESIGN CHOICE, log entry 102). -/
def State.exposeFor (s : State) (q : Nat) (old : Option Nat) : State :=
  let s := s.setPosition q posExposed
  let dead := fun (x : Nat) => s.position x == posExposed && (s.hub (x / 24)).dead
  if s.countPos posExposed ≤ s.gradeCount then s
  else match (old.filter dead).orElse (fun _ => (List.range 1536).find? dead) with
    | some x => s.setPosition x posFailed
    | none => s

/-- Folds that wait try again; the positions that their picks do not make up for are made up for by spares. -/
def State.retryWaiting (s : State) : State := s.tryWaiting.fillExposed []

/-- A loss: streams lose their state, folds stop, their items are settled, and re-placement begins. `part` is what goes.
A fold whose drain has ended commits first. -/
def State.strikeLoss (s : State) (l : Lost) (code : Nat) (part : State → State) : State :=
  let fs := s.struckBy l
  let s := (fs.filter (s.commitFirst l)).foldl (fun (s : State) f => s.commitSwath f) s
  let s := fs.foldl (fun (s : State) f => s.strikeFold l code f) s
  let s := (part s).loseStates l code
  ((fs.foldl (fun (s : State) f => s.tryReplace f) s).fillExposed l.clusters).settle

/-! ### Moving a fold (R553) -/

/-- Where clusters, stacks and hub registers of the image go. -/
structure Moves where
  clusters : List (Nat × Nat)
  drams    : List (Nat × Nat)
deriving DecidableEq, Repr

def moved (l : List (Nat × Nat)) (x : Nat) : Nat := ((l.find? (fun e => e.1 == x)).map Prod.snd).getD x
def Moves.q (m : Moves) (q : Nat) : Nat := moved m.clusters q
def Moves.n (m : Moves) (n : Nat) : Nat := moved m.drams n
def Moves.core (m : Moves) (c : Nat) : Nat := coreAddr (m.q (clusterOf c)) (coreIndex c)

/-- A register address of the image's setup. -/
def Moves.addr (m : Moves) (a : Nat) : Nat :=
  match Reg.decode a with
  | some (r, u, i) =>
    (match r.place.scope with
     | .cluster => r.addr (m.q u) i
     | .router => if u < 1536 then r.addr (m.q u) i else a
     | .hub => if r = .hubStkRegion ∨ r = .hubStkRegionCfg then r.addr (m.n u) i else a
     | _ => a)
  | none => a

/-- A remote address of a stack row. -/
def Moves.image (m : Moves) (im : Image) (flows : Option (List Flow)) : Image :=
  { im with
    clusters := im.clusters.map m.q
    code := im.code.map (fun e => (m.core e.1, e.2))
    stiles := im.stiles.map (fun e => (e.1, e.2.map m.core))
    queues := im.queues.map (fun e => (m.q e.1, e.2))
    items := im.items.map (fun e => (m.core e.1, e.2))
    batchAt := (m.q im.batchAt.1, im.batchAt.2), resultAt := (m.q im.resultAt.1, im.resultAt.2)
    kvPools := im.kvPools.map (fun d => { d with unit := if d.scratch then m.q d.unit else m.n d.unit })
    flows := flows.getD (im.flows.map (fun f => { f with src := m.q f.src, dst := m.q f.dst }))
    windows := im.windows.map (fun w => { w with unit := if w.stack then m.n w.unit else m.q w.unit })
    setup := im.setup.map (fun w => (m.addr w.1, w.2))
    streamRows := im.streamRows.map (fun r => (m.q r.1, r.2)) }

def Moves.copy (m : Moves) (f : Nat) (c : Copy) : Copy :=
  if c.fold = f then { c with tensors := c.tensors.map (fun p => { p with cluster := m.q p.cluster }) } else c

def Moves.model (m : Moves) (f : Nat) (x : Model) : Model :=
  { x with cur := m.copy f x.cur, next := x.next.map (m.copy f), old := x.old.map (m.copy f) }

/-- Scratchpad frames of moved clusters keep their streams. -/
def Moves.pte (m : Moves) (w : Word) : Word :=
  if pteScratch w then
    let q := m.q (pteUnit w)
    setBits (setBits w 50 6 (q / 24)) 45 5 (q % 24)
  else w

/-- The setup words of an image that concern the clusters and stacks that the fold moves to. -/
def Moves.concerns (m : Moves) (a : Nat) : Bool :=
  match Reg.decode a with
  | some (r, u, _) =>
    (match r.place.scope with
     | .cluster => m.clusters.any (fun e => e.2 == u)
     | .router => m.clusters.any (fun e => e.2 == u)
     | .hub => (r == .hubStkRegion || r == .hubStkRegionCfg) && m.drams.any (fun e => e.2 == u)
     | _ => false)
  | none => false

/-- The part of a copy in the clusters that move, in the manner of a copy of its own. -/
def Copy.within (c : Copy) (qs : List Nat) : Copy := { c with tensors := c.tensors.filter (fun p => qs.contains p.cluster) }

/-- R547: factors of the copy lay on one of these clusters: all of them return to those of their package. -/
def Copy.masterIn (c : Copy) (qs : List Nat) : Bool := c.tensors.any (fun p => p.kind == 10 && qs.contains p.cluster)

/-- The rows of the fold in a cluster as the steward reads them, those that are uncorrectable among them (R157, R553); the rows of
closed partitions are refused (R160). -/
def State.carryRows (s : State) (f q : Nat) : List (Nat × Option Row) × State :=
  let c := s.cluster q
  (((Map.keys c.rows ++ Map.keys c.err ++ c.spoiled).dedup).filter (s.reaches f q)).foldl
    (fun (acc : List (Nat × Option Row) × State) a =>
      match acc.2.schedulerRow q a f with
      | (.ok r, s) => (acc.1 ++ [(a, some r)], s)
      | (.error st, s) => (if st = 0x23 then acc.1 else acc.1 ++ [(a, none)], s)) ([], s)

/-- The steward writes the rows in another cluster; a row that could not be read stays uncorrectable there (R158). -/
def State.landRows (s : State) (f q : Nat) (l : List (Nat × Option Row)) : State :=
  l.foldl (fun (s : State) x =>
    if ¬ s.reaches f q x.1 then s
    else match x.2 with
      | some r => s.stewardRow q x.1 r
      | none =>
        if s.rowRefused q x.1 then s.gatedAccess q x.1 50 none 0
        else s.modCluster q (fun c => { c with spoiled := x.1 :: c.spoiled.filter (· != x.1) })) s

/-- The work moves: `m` with the new image. None when a group, a register or a row has no place. -/
def State.moveFold (s : State) (f : Nat) (m : Moves) (im : Image) (lost : List Nat) : Option State :=
  let (carried, s) := (m.clusters.filter (fun e => !lost.contains e.1)).foldl
    (fun (acc : List (Nat × Nat × List (Nat × Option Row)) × State) (e : Nat × Nat) =>
      let (l, s) := acc.2.carryRows f e.1
      (acc.1 ++ [(e.1, e.2, l)], s)) ([], s)
  let s := carried.foldl (fun (s : State) (e : Nat × Nat × List (Nat × Option Row)) =>
    let s := (s.foldCopies f).foldl (fun (s : State) c => s.freeArrays (c.within [e.1])) s
    s.freeCluster f e.1) s
  let s := { s with models := s.models.map (fun (e : Nat × Model) => (e.1, m.model f e.2)) }
  let s := s.modFold f (fun x => { x with image := some im })
  let news := m.clusters.map Prod.snd
  let anew := (m.clusters.filter (fun e => lost.contains e.1)).map Prod.snd
  let words := im.setup.filter (fun w => m.concerns w.1)
  match writeImages (words.filter (fun w => !isLayerReg w.1)) s with
  | (false, _) => none
  | (true, s) =>
    let s := news.foldl (fun (s : State) q => s.readyBanks q) s
    let s := carried.foldl (fun (s : State) (e : Nat × Nat × List (Nat × Option Row)) => s.landRows f e.2.1 e.2.2) s
    let s := (s.foldCopies f).foldl (fun (s : State) c => c.tensors.foldl (fun (s : State) p =>
      if anew.contains p.cluster || (p.kind == 10 && c.masterIn anew) then s.writeScratch c p else s) s) s
    let placed := (s.foldCopies f).foldl (fun (s : Option State) c => s.bind (fun s =>
      let (c, s) := s.shadowed (c.within news)
      State.placeGroups c c.groups s)) (some s)
    placed.bind (fun (s : State) => match writeImages (words.filter (fun w => isLayerReg w.1)) s with
      | (false, _) => none
      | (true, s) =>
        let s := { s with entries := s.entries.map (fun (e : Nat × Entry) =>
          (e.1, if e.2.fold = f then { e.2 with pages := e.2.pages.map (fun (p : Nat × Word) => (p.1, m.pte p.2)) } else e.2)) }
        let s := (s.entriesOf f).foldl (fun (s : State) g =>
          (s.entry g).pages.foldl (fun (s : State) (p : Nat × Word) => s.storePte g p.1 p.2) s) s
        let s := (s.foldLeas f).foldl (fun (s : State) n => s.modHub n (fun h => { h with pools := h.pools.map (fun (e : Nat × Pool) =>
          (e.1, if e.2.scratch ∧ ¬ lost.contains e.2.unit then { e.2 with unit := m.q e.2.unit } else e.2)) })) s
        some (im.kvPools.foldl (fun (s : State) d => s.registerPool d) s))

/-- Every pick stands exposed, ON and tested. -/
def State.picksReady (s : State) (r : Replacing) : Bool :=
  !r.waits && r.picks.all (fun p => s.position p.2 == posExposed && s.domainOn p.2 &&
    ((s.cluster p.2).testedOn || (s.foldOf p.2).isSome))

/-- The working stack nearest to a failed one. -/
def State.nearestStack (s : State) (n : Nat) : Option Nat := (nearStacks n).find? (fun m => s.stackState m != stackFailed)

/-- The slot plan of the placement that an exact-mode fold moves to. -/
def State.chosenFlows (s : State) (f : Nat) (im : Image) (r : Replacing) : Option (List Flow) :=
  if s.foldExact f then
    let news := im.clusters.map (moved r.picks)
    (im.placements.take 8).findSome? (fun p =>
      let n := ((news.head?).map (· / 24)).getD 0
      if p.1.map (fun k => 24 * n + k) = news then some (flowsIn n p.2) else none)
  else none

/-- The new clusters in which arrays of the fold's copies are programmed. -/
def State.replacePrograms (s : State) (f : Nat) (r : Replacing) : List Nat :=
  ((r.picks.filter (fun p => (s.foldCopies f).any (fun c => c.groups.any (fun g => g.1 == p.1)))).map Prod.snd).dedup

/-- R553, R554: the fold is armed on its new clusters. One that finds no place waits. -/
def State.replaceDone (s : State) (f : Nat) (r : Replacing) (im : Image) : State :=
  let away := ((List.range 64).filter (fun n => s.stackState n == stackFailed &&
    (im.kvPools.any (fun d => !d.scratch && d.unit == n) || im.setup.any (fun w => match Reg.decode w.1 with
      | some (.hubStkRegion, u, _) => u == n
      | _ => false)))).filterMap (fun n => (s.nearestStack n).map (fun m => (n, m)))
  let m : Moves := ⟨r.picks, away⟩
  let im' := m.image im (s.chosenFlows f im r)
  let idle := (s.toIdle f).setReplacing f none
  match idle.moveFold f m im' (r.lost.filter (fun q => s.position q != posExposed || (s.hub (q / 24)).dead)) with
  | none =>
    let s := s.setReplacing f (some { r with picks := [], waits := true })
    (s.report (srcModule (some f)) 0x7012 f 0).countWaiting
  | some x =>
    let ms := (s.now - r.since) / (1000 * s.beatTicks)
    let x := x.rearmStruck f false
    let x := (x.bump Fld.fltReplaceStatDone 0 0).setFld Fld.fltReplaceStatLastMs 0 0 (Nat.min 65535 ms)
    (x.report (srcModule (some f)) 0x7011 f ms).countWaiting

def execReplaceDone (t f : Nat) (s : State) : Host.Outcome State Fault Refusal :=
  let s := s.at t
  onUnit (validFold f) (match (s.fold f).replacing, (s.fold f).image with
    | some r, some im => whenever (s.foldState f == foldStopped && s.picksReady r && s.mayWake) (fun s =>
        if s.codecReady (s.replacePrograms f r) then s.replaceDone f r im else s.askCodecs (s.replacePrograms f r)) s
    | _, _ => s)

/-! ### SPARE_TEST_END (R552) -/

/-- The fold for which a cluster is picked. -/
def State.pickedBy (s : State) (q : Nat) : Option Nat :=
  (Map.keys s.folds).find? (fun f => (s.fold f).replacing.any (fun r => r.picks.any (fun p => p.2 == q)))

/-- The position whose place a pick takes. -/
def State.replacedBy (s : State) (q f : Nat) : Option Nat :=
  (s.fold f).replacing.bind (fun r => (r.picks.find? (fun p => p.2 == q)).map Prod.fst)

def State.spareTest (s : State) (q f : Nat) (pass : Bool) : State :=
  if pass then
    let s := s.modCluster q (fun c => { c with testedOn := true })
    if s.position q = posSpare then s.exposeFor q (s.replacedBy q f) else s
  else
    let s := s.report (srcHub (q / 24) none) 0x9016 q 0
    ((s.loseCluster q).tryReplace f).fillExposed [q]

def execSpareTestEnd (t q : Nat) (pass : Bool) (s : State) : Host.Outcome State Fault Refusal :=
  let s := s.at t
  onUnit (validCluster q) (match s.pickedBy q with
    | some f => whenever (s.domainOn q && !(s.cluster q).testedOn) (fun s => s.spareTest q f pass) s
    | none => s)

end Sys2Proof.Machine
end

