-- ==== Sys2Proof/Machine/Faults.lean ====
section
/-! DEFINITION. Finding and handling losses (R461, R538 to R545, R560, Tables 16-1 and 16-2). -/

namespace Sys2Proof.Machine

/-! ### HEARTBEAT (R538) -/

/-- What a cluster's heartbeat says: 0 ON, 1 DARK, 2 FAILED. -/
def State.heartState (s : State) (q : Nat) : Nat :=
  if s.domain q = domFailed ∨ s.position q = posFailed then 2 else if s.domain q = domOn then 0 else 1

/-- Every control node sends one each 10 µs, and with it the power agent of its cluster. -/
def State.heartbeat (s : State) (x : Nat) : State :=
  if (s.router x).dead then s
  else
    let s := s.modRouter x (fun r => { r with beatAt := s.now })
    match clusterOfTile x with
    | some q => (s.modCluster q (fun c => { c with beatAt := s.now })).send (.heartbeat x 1 (s.heartState q))
    | none => s.send (.heartbeat x 1 0)

def execHeartbeat (t tile : Nat) (s : State) : Host.Outcome State Fault Refusal :=
  onUnit (validTile tile) ((s.at t).heartbeat tile)

/-! ### Clusters and cores (R539, R540) -/

/-- A cluster is lost, for a cause of CLUSTER_FAIL. -/
def State.failCluster (s : State) (q cause : Nat) : State :=
  let s := s.report (srcAgent q (s.foldOf q)) 0x9011 cause 0
  s.strikeLoss ⟨[q], [], []⟩ 0x9011 (fun s => s.loseCluster q)

/-- R56: a C reset ends with the alignment of the cluster; one that cannot align stays in reset, silent (DEDUCED, log entry
101). -/
def State.clusterReset (s : State) (q cause : Nat) : State :=
  let aligned := Config.aligns s.fresh (64 + q)
  let s := s.drew.resetCluster q cause
  if aligned then s.rearmAll.settle else s.failCluster q 5

/-- The core is marked failed. A spare stands in after a reset of its cluster, unless R30 fails the position. -/
def State.failCore (s : State) (q j : Nat) : State :=
  let s := s.modCluster q (fun c => { c with coreFail := c.coreFail ++ [j] })
  if tooManyFailed (s.cluster q).coreFail then s.failCluster q 1
  else (s.report (srcAgent q (s.foldOf q)) 0x9011 1 0).clusterReset q 49

def execClusterFail (t q cause : Nat) (core : Option Nat) (s : State) : Host.Outcome State Fault Refusal :=
  let s := s.at t
  onUnit (validCluster q && core.all (fun j => decide (j < 48)))
    (whenever (s.position q != posFailed && s.domain q != domFailed && decide (1 ≤ cause) && decide (cause ≤ 4))
      (fun s => match core with
        | some j => s.failCore q j
        | none => s.failCluster q cause) s)

/-! ### Leas (Tables 16-1 and 16-2) -/

/-- The links of a lea leave their ports. -/
def State.loseLinks (s : State) (n : Nat) : State :=
  ((List.range 96).filter (fun l => linkLea l == n)).foldl (fun (s : State) l =>
    let p := (s.linkOf l).port
    let was := !(s.portLinks p).isEmpty
    ((s.setFld Fld.lnkStatusState l 0 lnkDown).detachLink l 0).linkLost p l was) s

/-- A router is dead from now on; what stood in it is gone. -/
def State.killRouter (s : State) (x : Nat) : State :=
  if (s.router x).dead then s
  else (s.modRouter x (fun r => { r with dead := true, deadAt := s.now, hold := [] })).bump Fld.fltReplaceStatDeadRouters 0 0

/-- What a lost lea held: its clusters go dark with their rows, its hub and stack are gone, and its links are down. `all`
says that its routers went with it. -/
def State.dropLea (s : State) (n : Nat) (all : Bool) : State :=
  let s := (leaClusters n).foldl (fun (s : State) q =>
    if s.domain q = domFailed then s else s.darken q domDark false) s
  let s := (s.refuseWaiting n).modDram n (fun d => { d with rows := [], err := [] })
  let s := s.setFld Fld.hubStkStatusState n 0 stackFailed
  let s := s.abortCalls n
  let s := s.modHub n (fun h => { Hub.reset with dead := true, log := h.log, phasesOut := h.phasesOut })
  let tiles := hubTile n :: (if all then (leaClusters n).map tileOf else [])
  (tiles.foldl (fun (s : State) x => s.killRouter x) s).loseLinks n

/-- R509, R541, Table 16-2. The loss of lea 0 stops the module. -/
def State.failLea (s : State) (n cause : Nat) : State :=
  if (s.hub n).dead then s
  else
    let s := s.report (srcHub (s.teller n) none) 0x9012 n cause
    let s := s.strikeLoss ⟨leaClusters n, [n], [n]⟩ 0x9012 (fun s => s.dropLea n (cause != 1))
    if n = 0 then s.resetModule true 4 false else s

/-- R56: a lea that cannot align is held in reset and not exposed. Its hub is silent; lea 0 stops the module (R20). -/
def State.holdLea (s : State) (n : Nat) : State :=
  let s := s.report (srcHub (s.teller n) none) 0x9012 n 1
  let s := s.strikeLoss ⟨leaClusters n, [n], [n]⟩ 0x9012 (fun s =>
    (((leaClusters n).foldl (fun (s : State) q => s.goDark q) s).modHub n (fun h => { h with dead := true })).loseLinks n)
  if n = 0 then s.resetModule true 4 false else s

/-- An L reset ends with the alignment of the lea (DEDUCED, log entry 101). -/
def State.leaReset (s : State) (n cause : Nat) : State :=
  let aligned := Config.aligns s.fresh n
  let s := s.drew.resetLea n cause
  if aligned then (s.setBit Fld.timAlignStatusAligned 0 0 n true).rearmAll.settle else s.holdLea n

/-! ### Silence (R540 to R545) -/

/-- 40 µs. -/
def State.silence (s : State) : Nat := 40 * s.beatTicks

/-- The folds whose slot plan a dead router breaks (R545). -/
def State.brokenPlans (s : State) (x : Nat) : List Nat :=
  (Map.keys s.folds).filter (fun f => s.foldExact f && (s.foldState f == foldRunning || s.foldState f == foldArmed) &&
    (s.fold f).image.any (fun im => im.flows.any (fun fl => fl.cells.any (fun c => c.tile == x))))

/-- The router of a cluster tile is dead: traffic goes round it, and the position is failed. -/
def State.failRouter (s : State) (x reporter : Nat) : State :=
  let s := s.report (srcHub (leaOfTile reporter) none) 0x9010 x reporter
  let s := (s.killRouter x).report (srcHub (leaOfTile x) none) 0x9013 x 0
  match clusterOfTile x with
  | none => s.failLea (leaOfTile x) 1
  | some q =>
    let later := (s.brokenPlans x).filter (fun f => !(s.foldClusters f).contains q)
    let s := if s.position q = posFailed then s
      else s.strikeLoss ⟨[q], [], []⟩ 0x9010 (fun s => s.loseCluster q)
    later.foldl (fun (s : State) f =>
      ((s.setReplacing f (some ⟨0x9010, s.now, [], [], false⟩)).report (srcModule (some f)) 0x7010 f 0x9010).tryReplace f) s

def State.routerSilent (s : State) (x reporter : Nat) : Bool :=
  !(s.router x).dead && !(s.router reporter).dead && decide (hops x reporter = 1) &&
  decide ((s.router x).beatAt + s.silence ≤ s.now)

def State.clusterSilent (s : State) (q : Nat) : Bool :=
  s.position q != posFailed && s.domain q != domFailed && !(s.hub (q / 24)).dead &&
  decide ((s.cluster q).beatAt + s.silence ≤ s.now)

def execHeartbeatLost (t : Nat) (router : Bool) (unit reporter : Nat) (s : State) : Host.Outcome State Fault Refusal :=
  let s := s.at t
  if router then
    onUnit (validTile unit && validTile reporter) (whenever (s.routerSilent unit reporter) (fun s => s.failRouter unit reporter) s)
  else onUnit (validCluster unit) (whenever (s.clusterSilent unit) (fun s => s.failCluster unit 5) s)

/-- R544: override entries, at most 16 in a router; (router, destination, port) each. -/
def State.addOverride (s : State) (r : Nat × Nat × Nat) : State :=
  s.modRouter r.1 (fun x =>
    let rest := x.overrides.filter (fun e => e.1 != r.2.1)
    if rest.length < 16 then { x with overrides := rest ++ [(r.2.1, r.2.2)] } else x)

def State.routesDone (s : State) (routes : List (Nat × Nat × Nat)) : State :=
  let s := routes.foldl (fun (s : State) r => s.addOverride r) s
  let last := maxOf ((s.routers.filter (fun r => r.2.dead)).map (fun r => r.2.deadAt))
  s.report (srcModule none) 0x9014 (s.fld Fld.fltReplaceStatDeadRouters 0 0) ((s.now - last) / (1000 * s.beatTicks))

def execRoutesDone (t : Nat) (routes : List (Nat × Nat × Nat)) (s : State) : Host.Outcome State Fault Refusal :=
  let s := s.at t
  onUnit (routes.all (fun r => validTile r.1 && validTile r.2.1 && decide (r.2.2 < 5)))
    (whenever (s.routers.any (fun r => r.2.dead)) (fun s => s.routesDone routes) s)

/-! ### Stacks (Table 16-2) -/

/-- The rows of an array tensor, read back from its arrays (R214). -/
def State.readBack (s : State) (p : Placed) : List Row :=
  match p.analog with
  | none => p.data
  | some (g, d, _) =>
    (List.range p.data.length).map (fun r =>
      let i := r / rowsPerInput d
      let at_ := fun (b : Nat) =>
        if b * d < 8 then
          weightsRow (s.arr p.cluster (s.arrayOf p.cluster g (b * d + i / 1024))).cells (i % 1024)
        else 0
      let b := 2 * (r % rowsPerInput d)
      BitVec.ofNat 4096 (at_ b + 2 ^ 2048 * (if d = 8 then 0 else at_ (b + 1))))

/-- What still stands of a tensor elsewhere than in its stack; none when it was held only there. -/
def State.heldElsewhere (s : State) (p : Placed) : Option (List Row) :=
  if p.analog.isSome then some (s.readBack p)
  else match p.scratch with
    | some a => if p.kind = 2 then some p.data else some ((List.range p.data.length).map (fun i => s.row p.cluster (a + i)))
    | none => none

/-- A shadow base in a numeric row, or in a layer entry's copy of one, follows the shadow. -/
def rebase (old new : Nat) (r : Row) : Row := if rowBytes r 256 8 = old then Row.put r 256 8 new else r

def State.rebaseShadow (s : State) (old new : Placed) : State :=
  let a := stackAddr old.stack old.row
  let b := stackAddr new.stack new.row
  s.modCluster old.cluster (fun c => { c with
    layers := c.layers.map (fun (e : Nat × LayerCopy) => (e.1, { e.2 with numeric := rebase a b e.2.numeric })) })

/-- The tensors of a copy that lay in a failed stack move to a new region; the flag tells whether some must be fetched. -/
def State.moveCopy (s : State) (n : Nat) (c : Copy) : (Copy × Bool) × State :=
  let ix := (List.range c.tensors.length).zip c.tensors
  let mine := ix.filter (fun x => x.2.inShare && x.2.stack == n)
  if mine.isEmpty then ((c, false), s)
  else match (s.dealStacks (mine.map (fun x => (x.1, n, x.2.data.length))) []).bind (fun dealt =>
      (State.makeRegions c.fold dealt.2 s).map (fun made => (dealt.1, made))) with
    | none => ((c, true), s)
    | some (dealt, made, s) =>
      let step := fun (acc : List Placed × Bool × State) (x : Nat × Placed) =>
        match dealt.find? (fun d => d.1 == x.1) with
        | none => (acc.1 ++ [x.2], acc.2)
        | some (_, m, off) => match made.find? (fun r => r.1 == m) with
          | none => (acc.1 ++ [x.2], acc.2)
          | some (_, slot, base) =>
            let p := { x.2 with stack := m, region := slot, row := base + off }
            match acc.2.2.heldElsewhere x.2 with
            | some rows => (acc.1 ++ [p], acc.2.1, (acc.2.2.stackWrites m (base + off) rows).rebaseShadow x.2 p)
            | none => (acc.1 ++ [p], true, acc.2.2.rebaseShadow x.2 p)
      let r := ix.foldl step ([], false, s)
      let c' := { c with tensors := r.1 }
      let s := (r.1.filter (fun p => p.kind == 2)).foldl (fun (s : State) p => match p.scratch with
        | some a => (s.putRows p.cluster a (c'.scratchRows p p.data)).2
        | none => s) r.2.2
      ((c', r.2.1), s)

/-- Every copy of a model leaves a failed stack. A model of which a tensor must be fetched is REVALIDATING (R414). -/
def State.moveModel (s : State) (n h : Nat) : State :=
  match Map.find s.models h with
  | none => s
  | some m =>
    if m.state < 2 then s
    else
      let (cur, s) := s.moveCopy n m.cur
      let (old, s) := m.old.foldl (fun (acc : List Copy × State) c =>
        let (r, s) := acc.2.moveCopy n c
        (acc.1 ++ [r.1], s)) ([], s)
      let (next, s) := match m.next with
        | some c => let (r, s) := s.moveCopy n c
          (some r, s)
        | none => (none, s)
      s.modModel h (fun m => { m with
        cur := cur.1, old := old, next := next.map Prod.fst
        state := if cur.2 ∧ m.state = 2 then 4 else m.state })

/-- The rows of a failed stack are gone; requests that wait for it are refused. -/
def State.dropStack (s : State) (n : Nat) : State :=
  let s := (s.refuseWaiting n).modDram n (fun d => { d with rows := [], err := [] })
  s.setFld Fld.hubStkStatusState n 0 stackFailed

def State.failStack (s : State) (n : Nat) : State :=
  let s := s.report (srcHub n none) 0x3010 n 0
  let s := s.strikeLoss ⟨[], [n], []⟩ 0x3010 (fun s => s.dropStack n)
  (Map.keys s.models).foldl (fun (s : State) h => s.moveModel n h) s

def execStackFail (t n : Nat) (s : State) : Host.Outcome State Fault Refusal :=
  let s := s.at t
  onUnit (validLea n) (whenever (s.stackState n != stackFailed && !(s.hub n).dead) (fun s => s.failStack n) s)

/-! ### ACK_TIMEOUT (R461) -/

/-- The oldest frame of a port that has waited 1 ms. -/
def State.timedOut (s : State) (p : Nat) : Option Frame :=
  (s.port p).replay.find? (fun f => decide (f.first + 1000 * s.beatTicks ≤ s.now))

/-- R461. A link that no longer carries frames of the port is not reset again; the frames that it carried go on the others. -/
def State.ackTimeout (s : State) (p : Nat) (f : Frame) : State :=
  let s := if (s.portLinks p).contains f.link then
      ((s.report (srcLink f.link) 0x6003 f.link (s.port p).replay.length).bump Fld.lnkCntDownCount f.link 0).resetLink f.link 81
    else s
  if (s.portLinks p).isEmpty then s else s.resend p

def execAckTimeout (t port : Nat) (s : State) : Host.Outcome State Fault Refusal :=
  let s := s.at t
  onUnit (decide (port < 96)) (match s.timedOut port with
    | some f => s.ackTimeout port f
    | none => s)

/-! ### RECORD_STREAM_SEND (R560) -/

def State.logAt (s : State) (l : Nat) : Log := if l = 64 then s.globalLog else (s.hub l).log
def State.setUnsent (s : State) (l n : Nat) : State :=
  if l = 64 then { s with globalLog := { s.globalLog with unsent := n } }
  else s.modHub l (fun h => { h with log := { h.log with unsent := n } })

/-- The oldest unsent records, oldest first, until `k` of them are to be streamed: those, and how many were passed. -/
def takeStreamed (ok : Rec → Bool) : Nat → List Rec → List Rec × Nat
  | _, [] => ([], 0)
  | 0, _ => ([], 0)
  | k + 1, r :: l =>
    if ok r then
      let (x, n) := takeStreamed ok k l
      (r :: x, n + 1)
    else
      let (x, n) := takeStreamed ok (k + 1) l
      (x, n + 1)

/-- One message of at most 8 records, or one datagram of at most 32. -/
def State.sendRecords (s : State) (l : Nat) : State :=
  let log := s.logAt l
  let k := if s.fld Fld.fltStreamCfgTarget 0 0 = 1 then 32 else 8
  let (recs, n) := takeStreamed (s.streams (l == 64)) k (log.recs.take log.unsent).reverse
  let s := s.setUnsent l (log.unsent - n)
  if recs.isEmpty then s
  else
    let s := s.send (.records l s.streamed recs)
    let s := { s with streamed := (s.streamed + recs.length) % 2 ^ 32 }
    s.bumpBy Fld.fltStreamStatSent 0 0 recs.length

/-- A datagram needs its Ethernet link UP. -/
def State.mayStream (s : State) : Bool :=
  s.fld Fld.fltStreamCfgEnable 0 0 == 1 &&
  (s.fld Fld.fltStreamCfgTarget 0 0 == 0 || (let l := s.fld Fld.fltStreamCfgLink 0 0
    decide (l < 96) && s.ethernetUp l))

def execRecordStreamSend (t log : Nat) (s : State) : Host.Outcome State Fault Refusal :=
  let s := s.at t
  onUnit (decide (log ≤ 64)) (whenever s.mayStream (fun s => s.sendRecords log) s)

end Sys2Proof.Machine
end

