-- ==== Sys2Proof/Machine/Power.lean ====
section
/-! DEFINITION. The power chain: limits and bubbles, unannounced steps, records, dips, regulator faults, and the supplies at
the connector (R481 to R513, R529, R606). -/

namespace Sys2Proof.Machine

/-! ### The input monitor (R485 to R488) -/

/-- 10 mW units of input power over the newest `n` beats; a beat without a measurement counts as zero. -/
def State.powerSum (s : State) (n : Nat) : Nat := (s.power.beats.take n).foldl (· + ·) 0

/-- The mean over the newest `n` beats, in whole watts. -/
def State.meanWatts (s : State) (n : Nat) : Nat := s.powerSum n / (100 * n)

/-- R533: the reference of the governor is the measured power. -/
def State.measureRef (s : State) : State := s.setFld Fld.thmSlewRefW 0 0 (Nat.min 65535 (s.meanWatts 1000))

def State.limitS (s : State) : Nat := s.fld Fld.pwrLimitSustainedW 0 0
def State.limitW (s : State) : Nat := s.fld Fld.pwrLimitWindowW 0 0

/-- ceil(64 · (mean − limit) / limit) where the mean exceeds the limit, at most 32. -/
def excessLevel (sum n limit : Nat) : Nat :=
  let whole := 100 * n * limit
  if sum ≤ whole then 0 else if whole = 0 then 32 else Nat.min 32 (ceilDiv (64 * (sum - whole)) whole)

/-- R487. -/
def State.moduleLevel (s : State) : Nat :=
  Nat.max (excessLevel (s.powerSum 2000) 2000 s.limitW) (excessLevel (s.powerSum 1000000) 1000000 s.limitS)

/-- Every cluster that is ON takes its throttle level. -/
def State.throttleAll (s : State) : State :=
  ((List.range 1536).filter s.domainOn).foldl (fun (s : State) q => s.setThrottle q) s

def State.unsteady (s : State) (p : Nat → Cluster → Bool) : State :=
  { s with clusters := s.clusters.map (fun (e : Nat × Cluster) =>
      (e.1, if p e.1 e.2 then { e.2 with steady := false } else e.2)) }

/-- R535: P_1s has come within 2.0 kW of min(L_s, P_allow). -/
def State.nearLimit (s : State) : Bool :=
  decide (100000000 * Nat.min s.limitS (s.fld Fld.thmMeasPAllowW 0 0) < s.powerSum 1000000 + 2000 * 100000000)

def inRange400 (dv : Nat) : Bool := decide (3600 ≤ dv) && decide (dv ≤ 4200)
def State.setInput (s : State) (dv : Nat) : State := s.setFld Fld.pwrStatusInputDv 0 0 dv
def State.setHv (s : State) (on : Bool) : State := s.setFld Fld.pwrStatusHvPresent 0 0 (if on then 1 else 0)
def State.hvPresent (s : State) : Bool := s.fld Fld.pwrStatusHvPresent 0 0 == 1
def State.auxPresent (s : State) : Bool := s.fld Fld.pwrStatusAuxPresent 0 0 == 1

/-- The beat enters the means, and t_mod follows. -/
def State.monitorBeat (s : State) (hvDv hvDa auxDv auxDa : Nat) : State :=
  let w := hvDv * hvDa + auxDv * auxDa
  let s := (s.modPower (fun p => { p with
    beats := (w :: p.beats).take 1000000
    goodAt := if 3600 ≤ hvDv then some (p.goodAt.getD s.now) else none })).setInput hvDv
  let s := if s.supply ≤ supStandby then s else s.setHv (inRange400 hvDv)
  let s := (s.setFld Fld.pwrInputPBeatW 0 0 (Nat.min 65535 (w / 100))).setFld Fld.pwrInputP2msW 0 0 (Nat.min 65535 (s.meanWatts 2000))
  let s := s.setFld Fld.pwrInputP1sW 0 0 (Nat.min 65535 (s.meanWatts 1000000))
  let old := s.fld Fld.pwrStatusThrottle 0 0
  let v := s.moduleLevel
  let s := s.setFld Fld.pwrStatusThrottle 0 0 v
  let s := if old = 0 ∧ 0 < v then s.report (srcModule none) 0x1001 v (s.meanWatts 2000) else s
  let s := if 0 < v then s.bump Fld.pwrEvtCntThrottleBeats 0 0 else s
  let s := if old = v then s else s.throttleAll
  if s.nearLimit then s.unsteady (fun _ _ => true) else s

def execInputMonitor (t hvDv hvDa auxDv auxDa : Nat) (s : State) : Host.Outcome State Fault Refusal :=
  .next (whenever (s.supply != supOff) (fun s => s.monitorBeat hvDv hvDa auxDv auxDa) (s.at t))

/-! ### The over-draw level (R489) -/

/-- The standing allowance and the active granted units of a cluster, in mA. -/
def State.allowedMa (s : State) (q : Nat) : Nat :=
  250 * (s.fld Fld.cluPwrCfgStanding q 0 +
    (((s.grants (q / 24)).filter (fun g => g.q == q && g.active s.now)).map Grant.units).foldl (· + ·) 0)

def State.overdrawCheck (s : State) (q ma : Nat) : State :=
  let allowed := s.allowedMa q
  let lvl := (s.cluster q).overdraw
  let s := if 5 * allowed < 4 * ma then
      s.modCluster q (fun c => { c with
        overdraw := if lvl = 0 then Nat.min 32 (ceilDiv (64 * (ma - allowed)) ma) else Nat.min 32 (lvl + 1)
        overAt := s.now })
    else if 0 < lvl ∧ (s.cluster q).overAt + 100 * s.beatTicks ≤ s.now then
      s.modCluster q (fun c => { c with overdraw := lvl - 1, overAt := s.now })
    else s
  s.setThrottle q

/-- The mean over 10 µs. What the domain draws apart from ramp ballast is given; the ballast is added to it (R495). -/
def execOverdrawCheck (t q milliamps : Nat) (s : State) : Host.Outcome State Fault Refusal :=
  let s := s.at t
  onUnit (validCluster q) (whenever (s.domainOn q)
    (fun s => s.overdrawCheck q (milliamps + s.ballastMa q (10 * s.beatTicks))) s)

/-! ### Unannounced steps and the voltage record (R498 to R500) -/

/-- A voltage lower than the record holds enters it. -/
def State.noteVoltage (s : State) (q mv : Nat) : State :=
  let low := s.fld Fld.cluPwrVminVminMv q 0
  if mv < low ∨ (s.fld Fld.cluPwrVminValid q 0 = 0 ∧ low = 0) then
    ((s.setFld Fld.cluPwrVminVminMv q 0 mv).setFld Fld.cluPwrVminValid q 0 1).setFld Fld.cluPwrVminTsVminTs q 0 s.ns
  else s

/-- R498: 25 mV below the set point the reservoir is connected. -/
def State.reservoir (s : State) (q mv : Nat) : State :=
  if mv + 25 ≤ setPoint q then s.bump Fld.cluPwrCntReservoirCount q 0 else s

def execReservoirConnect (t q mv : Nat) (s : State) : Host.Outcome State Fault Refusal :=
  let s := s.at t
  onUnit (validCluster q) (whenever (s.domainOn q) (fun s => (s.reservoir q mv).noteVoltage q mv) s)

/-- R499: 80 mV below the set point the throttle level goes to 32; a domain below 0.50 V is a failed cluster. -/
def State.droop (s : State) (q mv : Nat) : State :=
  let s := if mv + 80 ≤ setPoint q then
      let s := (s.modCluster q (fun c => { c with droopAt := some s.now })).setThrottle q
      (s.report (srcAgent q (s.foldOf q)) 0x1003 mv (setPoint q)).bump Fld.cluPwrCntDroopCount q 0
    else s
  let s := s.noteVoltage q mv
  if mv < 500 then s.failCluster q 2 else s

def execDroop (t q mv : Nat) (s : State) : Host.Outcome State Fault Refusal :=
  let s := s.at t
  onUnit (validCluster q) (whenever (s.domainOn q) (fun s => s.droop q mv) s)

def execDroopRelease (t : Nat) (d : Settled) (s : State) : Host.Outcome State Fault Refusal :=
  let s := s.at t
  onUnit (validCluster d.q) (whenever
    ((s.cluster d.q).droopAt.any (fun x => decide (x ≤ d.since) && decide (d.since + s.beatTicks ≤ s.now)))
    (fun s => (s.modCluster d.q (fun c => { c with droopAt := none })).setThrottle d.q) s)

/-- CLU_PWR_VMIN.rearm: a new record starts at the domain's present voltage. A position that is not exposed has no such
register (R35). -/
def State.rearmVmin (s : State) (q mv : Nat) : State :=
  ((s.setFld Fld.cluPwrVminValid q 0 0).setFld Fld.cluPwrVminVminMv q 0 mv).setFld Fld.cluPwrVminTsVminTs q 0 s.ns

def execVminRearm (t : Nat) (p : Path) (q mv : Nat) (s : State) : Host.Outcome State Fault Refusal :=
  let s := s.at t
  onUnit (validCluster q) ((whenever (s.exposed q) (fun s => s.rearmVmin q mv) s).completes p (Reg.cluPwrVmin.addr q 0)
    (s.exposed q))

/-! ### Current samples (R501) -/

def noSample : Nat := 0xFFFF

/-- The domain of R501 carries current. -/
def State.sampled (s : State) (domain : Nat) : Bool :=
  if domain < 1536 then s.domainOn domain else decide (supOn ≤ s.supply) && !(s.hub (domain - 1536)).dead

/-- What a cluster domain draws apart from ramp ballast is given; the ballast is added to it (R495). -/
def State.currentSample (s : State) (domain ma10 : Nat) : State :=
  let ballast := if domain < 1536 then s.ballastMa domain s.sampleTicks / 10 else 0
  let v := if s.sampled domain then Nat.min (ma10 + ballast) (noSample - 1) else noSample
  let s := s.modPower (fun p => { p with
    samples := Map.set [] p.samples domain ((v :: Map.get [] p.samples domain).take 4096) })
  let s := s.setFld Fld.pwrIlogHeadHeadTs 0 0 (s.ns / 1000000 * 1000000)
  if 1536 ≤ domain ∧ v ≠ noSample then s.setFld Fld.hubPwrRailAoRailDa (domain - 1536) 0 (v / 10) else s

def execCurrentSample (t domain tenMilliamps : Nat) (s : State) : Host.Outcome State Fault Refusal :=
  onUnit (decide (domain < 1600)) ((s.at t).currentSample domain tenMilliamps)

/-! ### Supply dips (R502 to R507) -/

def segUp : Nat := 1
def segIsolated : Nat := 2

/-- The segments that work and read below a voltage, in 10 mV, as a mask. -/
def State.segsBelow (s : State) (segs : List Nat) (v : Nat) : Nat :=
  ((List.range 4).map (fun i =>
    if s.fld Fld.pwrSegState 0 i = segUp ∧ segs.getD i 0 < v then 2 ^ i else 0)).foldl (· + ·) 0

def State.setSegs (s : State) (dv : Nat) (segs : List Nat) : State :=
  (List.range 4).foldl (fun (s : State) i => s.setFld Fld.pwrSegBus10mv 0 i (segs.getD i 0)) (s.setInput dv)

/-- R503: the supply is frozen. -/
def State.freeze (s : State) (dv : Nat) (segs : List Nat) : State :=
  let s := ((s.setSegs dv segs).setSupply supFrozen).modPower (fun p => { p with frozenAt := some s.now })
  (s.bump Fld.pwrEvtCntWarnCount 0 0).report (srcModule none) 0x1010 dv (s.segsBelow segs 3800)

def execSupplyWarn (t dv : Nat) (segs : List Nat) (s : State) : Host.Outcome State Fault Refusal :=
  let s := s.at t
  .next (whenever (s.supply == supOn && decide (3000 ≤ dv) && (decide (dv < 3400) || s.segsBelow segs 3800 != 0))
    (fun s => s.freeze dv segs) s)

def State.beatsSince (s : State) (x : Option Nat) : Nat :=
  match x with
  | some x => (s.now - x) / s.beatTicks
  | none => 0

/-- The folds keep the beats of the freeze that R504 leaves out. -/
def State.keepFrozen (s : State) : State :=
  { s with folds := s.folds.map (fun (e : Nat × Fold) => (e.1, { e.2 with frozen := s.frozenBeats e.1 })) }

/-- The freeze lifts: a later grant starts at the earliest 7,296 ticks from now. -/
def State.thaw (s : State) : State :=
  let s := s.keepFrozen
  let s := (List.range 64).foldl (fun (s : State) n => s.modArb n (fun a => { a with notBefore := s.now + 7296 })) s
  s.modPower (fun p => { p with frozenAt := none })

def execSupplyOk (t dv : Nat) (segs : List Nat) (s : State) : Host.Outcome State Fault Refusal :=
  let s := s.at t
  .next (whenever (s.supply == supFrozen && decide (3450 ≤ dv) && s.segsBelow segs 3850 == 0 &&
      decide (10 ≤ s.beatsSince s.power.frozenAt))
    (fun s =>
      let beats := s.beatsSince s.power.frozenAt
      ((s.setSegs dv segs).setSupply supOn).thaw.measureRef.report (srcModule none) 0x1011 beats 0) s)

/-- R506: the module quiesces. -/
def State.supplyQuiesce (s : State) : State :=
  let s := (s.quiesce.setSupply supQuiesced).modPower (fun p => { p with quietAt := some s.now, goodAt := none })
  (s.bump Fld.pwrEvtCntQuiesceCount 0 0).report (srcModule none) 0x1012 (s.fld Fld.pwrStatusInputDv 0 0) 0

def execSupplyQuiesce (t : Nat) (s : State) : Host.Outcome State Fault Refusal :=
  let s := s.at t
  .next (whenever (s.supply == supFrozen && decide (20000 ≤ s.beatsSince s.power.frozenAt)) State.supplyQuiesce s)

/-- What a quiesce loses: rows outside retained partitions, core registers and norm slots. -/
def quiesceLost : Nat := classes [14, 16]

/-- The beat at which something that began at a tick began. -/
def State.beatAt (s : State) (x : Option Nat) : Nat := s.nsAt (x.getD s.now) / 1000

/-- R506 steps 3 to 5. -/
def State.supplyResume (s : State) : State :=
  let beats := s.beatsSince s.power.quietAt
  let beat0 := s.beatAt s.power.quietAt
  let s := ((s.setSupply supOn).thaw.modPower (fun p => { p with quietAt := none })).measureRef.askAll
  (s.report (srcModule none) 0x1013 beats 0).restoreReport 10 0 wholeModule beat0 0 0 quiesceLost |>.rearmAll

def execSupplyResume (t : Nat) (s : State) : Host.Outcome State Fault Refusal :=
  let s := s.at t
  .next (whenever (s.supply == supQuiesced && decide (100000 ≤ s.beatsSince s.power.goodAt)) State.supplyResume s)

/-! ### The input goes (R507, R510 to R512) -/

def State.segsOff (s : State) : State :=
  let s := (s.setFld Fld.pwrStatusSegUp 0 0 0).setFld Fld.pwrStatusSegLost 0 0 0
  (List.range 4).foldl (fun (s : State) i => s.setReg .pwrSeg 0 i 0) s

/-- Table 14-6 without a usable 400 V input. -/
def State.noInput (s : State) (dv : Nat) : State :=
  let s := ((s.setInput dv).setHv false).segsOff
  (s.setSupply (if s.auxPresent then supStandby else supOff)).modPower (fun p => { p with
    chargeAt := none, goodAt := none, frozenAt := none, quietAt := none })

/-- All supply is lost: a P reset with cause 0 (Table 18-8), and the I3C address goes. -/
def State.loseAll (s : State) : State := (s.resetModule true 0 true).modSec (fun x => { x with i3c := none, halted := false })

/-- The input leaves its range: the module stops as for a P reset; with no auxiliary input either, all supply is lost. -/
def State.loseInput (s : State) (cause dv : Nat) : State :=
  let s := if s.supply = supOff then s
    else if ¬ s.auxPresent then s.loseAll
    else if supOn ≤ s.supply then s.resetModule true cause true else s
  (s.modThermal (fun x => { x with heating := none, governor := false })).noInput dv

def execInputLoss (t dv : Nat) (s : State) : Host.Outcome State Fault Refusal :=
  let s := s.at t
  .next (whenever (decide (dv < 3000)) (fun s => s.loseInput 2 dv) s)

def execInputOvervoltage (t dv : Nat) (s : State) : Host.Outcome State Fault Refusal :=
  let s := s.at t
  .next (whenever (decide (4250 < dv)) (fun s => s.loseInput 3 dv) s)

/-- R511: a reversed input draws no current; it is seen only where the auxiliary input feeds the module. -/
def execInputReversed (t : Nat) (s : State) : Host.Outcome State Fault Refusal :=
  let s := s.at t
  .next (whenever (s.auxPresent && !s.hvPresent) (fun s =>
    (s.setFld Fld.pwrStatusReversedSeen 0 0 1).report (srcModule none) 0x1014 0 0) s)

/-! ### The coolant check and the climb to ON (R510, R529, R606) -/

/-- Sixteenths of a degree in tenths. -/
def tenths (x : Int) : Int := x * 10 / 16

/-- Conditions 1 to 3 of R529: the first that fails. -/
def State.checkFails (s : State) : Option Nat :=
  let inlet := toSigned 16 (s.fld Fld.thmCoolantInletDc 0 0)
  if s.fld Fld.thmStatusFlowLossN 0 0 = 0 then some 1
  else if ¬ (s.thermal.trayAt.any (fun x => decide (s.now ≤ x + 1000000 * s.beatTicks)) ∧
      120 ≤ s.fld Fld.thmCoolantFlowDl 0 0 ∧ 150 ≤ inlet ∧ inlet ≤ 450) then some 2
  else if s.thermal.inletDead ∨ s.thermal.outletDead then some 3
  else none

def State.failCheck (s : State) (cond : Nat) : State :=
  ((s.modThermal (fun x => { x with heating := none })).setThm thmCheckFailed).report (srcModule none) 0x2021 cond 0

/-- The check begins: what can be judged now is judged, and the heater runs. -/
def State.startCheck (s : State) : State :=
  match s.checkFails with
  | some c => s.failCheck c
  | none => s.modThermal (fun x => { x with heating := some s.now })

def State.mayCheck (s : State) : Bool :=
  s.supply == supStandby && s.hvPresent && s.fld Fld.pwrStatusPwrEn 0 0 == 1 && s.thermal.heating.isNone

/-- The 400 V input appears; its precharge of 200 ms begins. -/
def State.precharge (s : State) (dv : Nat) : State :=
  let s := ((s.setInput dv).setHv true).modPower (fun p => { p with chargeAt := some s.now })
  let s := if s.supply = supOff then s.setSupply supStandby else s
  if s.mayCheck then s.startCheck else s

def execInputPrecharge (t dv : Nat) (s : State) : Host.Outcome State Fault Refusal :=
  let s := s.at t
  .next (whenever (!s.hvPresent && decide (s.supply ≤ supStandby))
    (fun s => if inRange400 dv then s.precharge dv else s.setInput dv) s)

def execPwrEnAssert (t : Nat) (s : State) : Host.Outcome State Fault Refusal :=
  let s := s.at t
  .next (whenever (s.fld Fld.pwrStatusPwrEn 0 0 == 0) (fun s =>
    let s := s.setFld Fld.pwrStatusPwrEn 0 0 1
    if s.mayCheck then s.startCheck else s) s)

/-- Table 14-6, last row: the module is ON; all its segments are tried, and boot begins. -/
def State.turnOn (s : State) : State :=
  let s := (s.resetModule true 1 true).setSupply supOn
  let s := (s.setFld Fld.pwrStatusSegUp 0 0 15).setFld Fld.pwrStatusSegLost 0 0 0
  let s := (List.range 4).foldl (fun (s : State) i => (s.setFld Fld.pwrSegState 0 i segUp).setFld Fld.pwrSegBus10mv 0 i 4200) s
  let s := (s.modThermal (fun x => { x with governor := true })).modPower (fun p => { p with frozenAt := none, quietAt := none })
  s.measureRef.setFld Fld.thmStatusSwapped 0 0 0

/-- R529 condition 4: the outlet reads above the inlet by half of 2,000 / (64 · F) K or more, or below it by as much. -/
def State.endCheck (s : State) (inlet outlet : Int) : State :=
  let flow : Int := s.fld Fld.thmCoolantFlowDl 0 0
  match s.checkFails with
  | some c => s.failCheck c
  | none =>
    if 2500 ≤ (outlet - inlet) * flow then s.turnOn
    else if 2500 ≤ (inlet - outlet) * flow then
      (((s.modThermal (fun x => { x with heating := none })).setThm thmCheckFailed).setFld Fld.thmStatusSwapped 0 0 1).report
        (srcModule none) 0x2020 (ofSigned 64 (tenths inlet)) (ofSigned 48 (tenths outlet))
    else (s.setFld Fld.thmStatusSwapped 0 0 0).failCheck 4

def State.checkOver (s : State) : Bool :=
  s.supply == supStandby && s.thermal.heating.any (fun x => decide (x + 5000000 * s.beatTicks ≤ s.now)) &&
  s.power.chargeAt.any (fun x => decide (x + 200000 * s.beatTicks ≤ s.now))

def execCoolantCheckEnd (t : Nat) (inlet outlet : Int) (sensorsOk : Bool) (s : State) : Host.Outcome State Fault Refusal :=
  let s := s.at t
  .next (whenever s.checkOver (fun s => (s.modThermal (fun x => { x with
    inletS := inlet, outletS := outlet
    inletDead := x.inletDead || !sensorsOk, outletDead := x.outletDead || !sensorsOk })).endCheck inlet outlet) s)

/-! ### PWR_EN deasserted (R513) -/

/-- Hubs, stacks and links lose their power: nothing runs until a check passes and the module boots afresh. -/
def State.powerOff (s : State) : State :=
  let s := (List.range 64).foldl (fun (s : State) n => (s.refuseWaiting n).loseLinks n) s
  let s := { s with drams := Map.mapOn Stack.reset s.drams (fun _ => true) (Stack.restart true) }
  let s := { s with restore := { s.restore with inReset := true } }
  (s.segsOff.setSupply supStandby).modPower (fun p => { p with frozenAt := none, quietAt := none })

def execPwrEnDeassert (t : Nat) (s : State) : Host.Outcome State Fault Refusal :=
  let s := s.at t
  .next (whenever (s.fld Fld.pwrStatusPwrEn 0 0 == 1) (fun s =>
    let s := (s.setFld Fld.pwrStatusPwrEn 0 0 0).modThermal (fun x => { x with heating := none, governor := false })
    if supOn ≤ s.supply then s.quiesce.powerOff else s) s)

/-! ### Regulator and bus faults (R508, R509, Table 14-5) -/

def sliceCount (v : Nat) : Nat := v % 2 + v / 2 % 2 + v / 4 % 2 + v / 8 % 2

/-- The grants of a cluster that was capped at 54 units. -/
def Grant.capped (g : Grant) : Grant := { g with units := Nat.min g.units 54 }

def State.sliceFail (s : State) (q i : Nat) : State :=
  let s := s.setBit Fld.cluPwrStateSlicesOk q 0 i false
  let left := sliceCount (s.fld Fld.cluPwrStateSlicesOk q 0)
  let s := s.report (srcAgent q (s.foldOf q)) 0x1020 i left
  if left < 3 then s.failCluster q 3
  else
    let s := if s.domainOn q then s.setFld Fld.cluPwrStateCapUnits q 0 54 else s
    let s := s.modArb (q / 24) (fun a => { a with placed := a.placed.map (fun (g : Grant) =>
      if g.q == q && g.mask != 0 && hasBallast g.cls then g.capped else g) })
    if s.domainOn q then s.setThrottle q else s

def execSliceFail (t q i : Nat) (s : State) : Host.Outcome State Fault Refusal :=
  let s := s.at t
  onUnit (validCluster q && decide (i < 4)) (whenever (s.bit Fld.cluPwrStateSlicesOk q 0 i && s.domain q != domFailed &&
    s.position q != posFailed) (fun s => s.sliceFail q i) s)

def State.phaseFail (s : State) (n i : Nat) : State :=
  let s := s.modHub n (fun h => { h with phasesOut := i :: h.phasesOut })
  if i < 16 then
    let left := (s.hub n).leaLeft
    let s := (s.setFld Fld.hubPwrRailLeaPhasesOk n 0 left).report (srcHub n none) 0x1021 i left
    s.setFld Fld.hubPwrBudgetBudget n 0 (Nat.min (s.fld Fld.hubPwrBudgetBudget n 0) (100 * Nat.min 15 left))
  else
    let left := (s.hub n).aoLeft
    let s := (s.setFld Fld.hubPwrRailAoPhasesOk n 0 left).report (srcHub n none) 0x1021 i left
    if left = 2 then s.stopEngines n else if left < 2 then s.failLea n 2 else s

def execPhaseFail (t n i : Nat) (s : State) : Host.Outcome State Fault Refusal :=
  let s := s.at t
  onUnit (validLea n && decide (i < 20)) (whenever (!(s.hub n).phasesOut.contains i && !(s.hub n).dead)
    (fun s => s.phaseFail n i) s)

/-- The rail goes to local sense; its set point rises by 20 mV. -/
def State.senseOpen (s : State) (n : Nat) (ao : Bool) : State :=
  let first := s.fld Fld.hubPwrRailLeaSenseOpen n 0 = 0 ∧ s.fld Fld.hubPwrRailAoSenseOpen n 0 = 0
  let b := s.fld Fld.hubPwrBudgetBudget n 0
  let s := s.setFld (if ao then Fld.hubPwrRailAoSenseOpen else Fld.hubPwrRailLeaSenseOpen) n 0 1
  let s := s.report (srcHub n none) 0x1022 (if ao then 1 else 0) 0
  if first then s.setFld Fld.hubPwrBudgetBudget n 0 (b * 9 / 10) else s

def execSenseOpen (t n : Nat) (ao : Bool) (s : State) : Host.Outcome State Fault Refusal :=
  let s := s.at t
  onUnit (validLea n) (whenever (!(s.hub n).dead &&
      s.fld (if ao then Fld.hubPwrRailAoSenseOpen else Fld.hubPwrRailLeaSenseOpen) n 0 == 0)
    (fun s => s.senseOpen n ao) s)

/-- The 16 leas of an isolated segment go dark; the loss of segment 0 stops the module (R509). -/
def State.segmentFail (s : State) (g bus : Nat) : State :=
  let s := (s.setFld Fld.pwrSegState 0 g segIsolated).setFld Fld.pwrSegBus10mv 0 g bus
  let s := (s.setBit Fld.pwrStatusSegUp 0 0 g false).setBit Fld.pwrStatusSegLost 0 0 g true
  let s := s.report (srcModule none) 0x1023 g bus
  if g = 0 then s.resetModule true 4 false
  else (List.range 16).foldl (fun (s : State) i => s.failLea (16 * g + i) 3) s |>.measureRef

def execSegmentFail (t g bus : Nat) (s : State) : Host.Outcome State Fault Refusal :=
  let s := s.at t
  onUnit (decide (g < 4)) (whenever (s.fld Fld.pwrSegState 0 g == segUp) (fun s => s.segmentFail g bus) s)

end Sys2Proof.Machine
end

