-- ==== Sys2Proof/Machine/Thermal.lean ====
section
/-! DEFINITION. Heat and coolant: reports, sensors, the allowance, HOLD, hot regions, stops and the slew governor (R514 to
R536, R609). Readings are in eighths of a degree, those of the two coolant sensors in sixteenths. -/

namespace Sys2Proof.Machine

end Sys2Proof.Machine

namespace Sys2Proof

/-! ### The sensors of Table 15-1 -/

/-- The limits of R525 and R527 of a sensor in its own unit; a trip only where R527 names one. -/
def Sensor.limit : Sensor → Int
  | .cluster _ => 880
  | .hub _ _ => 880
  | .stack _ => 840
  | .inlet => 0
  | .outlet => 1040
def Sensor.trip : Sensor → Option Int
  | .cluster _ => some 1000
  | .hub _ _ => some 1000
  | .stack _ => some 880
  | .inlet => none
  | .outlet => none
/-- The stop cause of Table 15-9. -/
def Sensor.cause : Sensor → Nat
  | .cluster _ => 2
  | .hub _ _ => 2
  | .stack _ => 3
  | .inlet => 0
  | .outlet => 4
/-- Ten degrees, in the sensor's unit. -/
def Sensor.ten : Sensor → Int
  | .outlet => 160
  | .inlet => 160
  | _ => 80

def Sensor.kind : Sensor → Nat
  | .cluster _ => 0
  | .hub _ _ => 1
  | .stack _ => 2
  | .inlet => 3
  | .outlet => 4
def Sensor.source : Sensor → Machine.Source
  | .cluster q => Machine.srcAgent q none
  | .hub n _ => Machine.srcHub n none
  | .stack n => Machine.srcHub n none
  | .inlet => Machine.srcModule none
  | .outlet => Machine.srcModule none
/-- A reading in eighths. -/
def Sensor.eighths (k : Sensor) (v : Int) : Int := if k.kind < 3 then v else v / 2

def Sensor.valid : Sensor → Bool
  | .cluster q => Machine.validCluster q
  | .hub n i => Machine.validLea n && decide (i < 4)
  | .stack n => Machine.validLea n
  | .inlet => true
  | .outlet => true

end Sys2Proof

namespace Sys2Proof.Machine

def State.flowDl (s : State) : Nat := s.fld Fld.thmCoolantFlowDl 0 0
/-- The tray's inlet figure, in tenths of a degree. -/
def State.trayInlet (s : State) : Int := toSigned 16 (s.fld Fld.thmCoolantInletDc 0 0)

/-! ### The tray's reports (R515) -/

def State.trayReport (s : State) (flow : Nat) (inlet : Int) : State :=
  let s := (s.setFld Fld.thmCoolantFlowDl 0 0 flow).setFld Fld.thmCoolantInletDc 0 0 (ofSigned 16 inlet)
  (s.setFld Fld.thmStatusTraySilent 0 0 0).modThermal (fun x => { x with trayAt := some s.now })

def execTrayReport (t flow : Nat) (inlet : Int) (s : State) : Host.Outcome State Fault Refusal :=
  .next (whenever (s.supply != supOff) (fun s => s.trayReport flow inlet) (s.at t))

/-- No write for 1 s; before the first write of a boot the second counts from the boot. -/
def State.traySilent (s : State) : State :=
  let ms := (s.now - s.thermal.trayAt.getD s.restore.bootAt) / (1000 * s.beatTicks)
  (s.setFld Fld.thmStatusTraySilent 0 0 1).report (srcModule none) 0x2001 ms 0

def execTraySilent (t : Nat) (s : State) : Host.Outcome State Fault Refusal :=
  let s := s.at t
  .next (whenever (s.supply != supOff && s.fld Fld.thmStatusTraySilent 0 0 == 0 &&
    decide (s.thermal.trayAt.getD s.restore.bootAt + 1000000 * s.beatTicks ≤ s.now)) State.traySilent s)

/-! ### The power allowance (R517 to R519) -/

/-- A number of L/min or watts as a fraction. -/
structure Frac where
  num : Nat
  den : Nat
deriving DecidableEq, Repr

def Frac.lower (a b : Frac) : Frac := if a.num * b.den ≤ b.num * a.den then a else b

def State.coolantDead (s : State) : Bool := s.thermal.inletDead || s.thermal.outletDead

/-- F_est = P_1s / (64 · (T_out − T_in)), where the rise is 2 K or more and both sensors work. -/
def State.flowEst (s : State) : Option Frac :=
  let rise := s.thermal.outletS - s.thermal.inletS
  if s.coolantDead ∨ rise < 32 then none else some ⟨s.powerSum 1000000, 400000000 * rise.toNat⟩

/-- F of R517. -/
def State.flowUsed (s : State) : Frac :=
  let base : Frac := if s.fld Fld.thmStatusTraySilent 0 0 = 1 then ⟨15, 1⟩ else ⟨s.flowDl, 10⟩
  let f := match s.flowEst with
    | some e => base.lower e
    | none => base
  if s.coolantDead then f.lower ⟨24, 1⟩ else f

/-- T_in of R517, in eightieths of a degree. -/
def State.inletUsed (s : State) : Int :=
  if s.fld Fld.thmStatusTraySilent 0 0 = 1 then 5 * s.thermal.inletS else max (8 * s.trayInlet) (5 * s.thermal.inletS)

/-- P_allow. -/
def State.allowance (s : State) : Frac :=
  let f := s.flowUsed
  Frac.lower ⟨s.limitS, 1⟩ (Frac.lower ⟨800 * f.num, f.den⟩ ⟨64 * f.num * (4400 - s.inletUsed).toNat, 80 * f.den⟩)

/-- R518: t_cool. -/
def State.coolLevel (s : State) : Nat :=
  let p := s.allowance
  let sum := s.powerSum 1000000
  let a := 100000000 * p.num
  if sum * p.den ≤ a then 0 else if a = 0 then 32 else Nat.min 32 (ceilDiv (64 * (sum * p.den - a)) a)

def State.derated (s : State) : Bool := decide (s.allowance.num < s.limitS * s.allowance.den)

/-- R520: the coolant asks for HOLD, or would let it end. -/
def State.coolantBad (s : State) : Bool := decide (s.flowUsed.num < 10 * s.flowUsed.den) || decide (3600 < s.inletUsed)
def State.coolantGood (s : State) : Bool := decide (12 * s.flowUsed.den ≤ s.flowUsed.num) && decide (s.inletUsed ≤ 3440)

def State.flowTenths (s : State) : Nat := 10 * s.flowUsed.num / Nat.max 1 s.flowUsed.den

def State.showMeas (s : State) : State :=
  let p := s.allowance
  let s' := s.setFld Fld.thmMeasPAllowW 0 0 (Nat.min 65535 (p.num / Nat.max 1 p.den))
  let s' := s'.setFld Fld.thmMeasFUsedDl 0 0 (Nat.min 65535 s.flowTenths)
  let s' := s'.setFld Fld.thmMeasTOutDc 0 0 (ofSigned 16 (tenths s.thermal.outletS))
  (s'.setFld Fld.thmMeasTInDc 0 0 (ofSigned 16 (tenths s.thermal.inletS))).setFld Fld.thmStatusTCool 0 0 s.coolLevel

/-- Seconds with P_allow below L_s: ten updates are one. -/
def State.countDerated (s : State) : State :=
  if ¬ s.derated then s
  else
    let n := s.thermal.derated + 1
    let s := s.modThermal (fun x => { x with derated := n })
    if n % 10 = 0 then s.bump Fld.thmCntDeratedS 0 0 else s

/-- R520: HOLD. -/
def State.enterHold (s : State) : State :=
  let s := (s.setThm thmHold).report (srcModule none) 0x2010 s.flowTenths (ofSigned 48 (s.inletUsed / 8))
  s.quiesce.modThermal (fun x => { x with stopAt := some s.now, holdGood := none })

def State.allowanceUpdate (s : State) : State :=
  let oldT := s.fld Fld.thmStatusTCool 0 0
  let oldP := s.fld Fld.thmMeasPAllowW 0 0
  let s := s.showMeas.countDerated
  let s := if s.fld Fld.thmMeasPAllowW 0 0 < oldP then s.measureRef else s
  let s := if s.fld Fld.thmStatusTCool 0 0 = oldT then s else s.throttleAll
  let s := if s.thm ≤ thmDerated then s.setThm (if s.derated then thmDerated else thmNormal) else s
  let s := s.modThermal (fun x => { x with holdGood :=
    if s.thm = thmHold ∧ s.coolantGood then some (x.holdGood.getD s.now) else none })
  if s.thm ≤ thmDerated ∧ s.coolantBad then s.enterHold else s

def execAllowanceUpdate (t : Nat) (s : State) : Host.Outcome State Fault Refusal :=
  let s := s.at t
  .next (whenever (decide (supOn ≤ s.supply)) State.allowanceUpdate s)

/-- R520: HOLD is left as a quiesce is. -/
def State.exitHold (s : State) : State :=
  let beat0 := s.beatAt s.thermal.stopAt
  let s := (s.setThm (if s.derated then thmDerated else thmNormal)).modThermal (fun x => { x with stopAt := none, holdGood := none })
  (s.measureRef.askAll.restoreReport 10 0 wholeModule beat0 0 0 quiesceLost).rearmAll

def execHoldExit (t : Nat) (s : State) : Host.Outcome State Fault Refusal :=
  let s := s.at t
  .next (whenever (s.thm == thmHold && s.thermal.holdGood.any (fun x => decide (x + 10000000 * s.beatTicks ≤ s.now)))
    State.exitHold s)

/-! ### Thermal stops (R525 to R527) -/

/-- What drives a cluster's hot level: readings with their thresholds (R521): its own sensor, its hub's, its stack's. -/
def State.ownDriver (s : State) (q : Nat) : Int × Int := ((s.cluster q).sensor, 8 * (s.fld Fld.thmCfgTHot 0 0 : Nat))
def State.hubReading (s : State) (n i : Nat) : Int := Map.get 200 (s.hub n).sensors i
def State.hubDrivers (s : State) (n : Nat) : List (Int × Int) :=
  (List.range 4).map (fun i => (s.hubReading n i, 8 * (s.fld Fld.thmCfgTHot 0 0 : Nat)))
def State.stackDriver (s : State) (n : Nat) : Int × Int := ((s.dram n).sensor, 8 * (s.fld Fld.thmCfgStackHot 0 0 : Nat))
def State.drivers (s : State) (q : Nat) : List (Int × Int) :=
  s.ownDriver q :: s.stackDriver (q / 24) :: s.hubDrivers (q / 24)

def State.hot (s : State) (q : Nat) : Bool := (s.drivers q).any (fun d => decide (d.2 ≤ d.1))
/-- Every driver reads `k` degrees or more below its threshold. -/
def State.coolBy (s : State) (k : Int) (q : Nat) : Bool := (s.drivers q).all (fun d => decide (d.1 + 8 * k ≤ d.2))

def State.reading (s : State) (k : Sensor) : Int :=
  match k with
  | .cluster q => (s.cluster q).sensor
  | .hub n i => s.hubReading n i
  | .stack n => (s.dram n).sensor
  | .inlet => s.thermal.inletS
  | .outlet => s.thermal.outletS

/-- The arbiters revoke every grant; what stewards ask for LINK_WAKE stays. -/
def State.revokeAll (s : State) : State :=
  { s with hubs := Map.mapOn Hub.reset s.hubs (fun _ => true) (fun h => { h with arb := { h.arb with
      placed := [], waiting := h.arb.waiting.filter (fun r => r.cls == clsLinkWake) } }) }

/-- R526: a fold is settled. -/
def State.settleFold (s : State) (f : Nat) : State :=
  if s.foldLive f then (s.stopFault f (some stThermal)).modFold f (fun x => { x with rearm := true }) else s

/-- Table 15-4 and R526. -/
def State.thermalStop (s : State) (cause : Nat) (reading : Int) (causes : List Sensor) : State :=
  let s := (Map.keys s.folds).foldl (fun (s : State) f => s.settleFold f) s
  let s := (s.haltReplacing.endLoads (fun _ => true) stThermal).revokeAll
  let s := (List.range 64).foldl (fun (s : State) n => (s.abortCalls n).enterSelfRefresh n) s
  let s := (s.darkenAll.setThm thmStopped).settle
  let s := (s.setFld Fld.thmStatusStopCause 0 0 cause).bump Fld.thmCntStopCount 0 0
  let s := (s.setFld Fld.thmSlewBallastW 0 0 0).modThermal (fun x => { x with
    stopAt := some s.now, holdGood := none, causes := causes })
  s.report (srcModule none) 0x2012 cause (ofSigned 48 reading)

def State.mayStop (s : State) : Bool := decide (supOn ≤ s.supply) && s.thm != thmStopped

/-- A reading is judged against the limit of its sensor and, in a stopped module, against its trip (R527). -/
def State.judgeSensor (s : State) (k : Sensor) : State :=
  let v := s.reading k
  if s.thm = thmStopped then
    (if k.trip.any (fun x => decide (x ≤ v)) then s.resetModule true 5 true else s)
  else if s.mayStop ∧ k.cause ≠ 0 ∧ k.limit ≤ v then
    s.thermalStop k.cause (if k.cause = 4 then v / 2 else v) [k]
  else s

/-! ### Sensors (R514, R516, R521, R524, Tables 15-1 and 15-2) -/

/-- What a reading changes in a cluster's standing: HOT or NORMAL, and since when it counts for R522 and R524. -/
def State.noteDrivers (s : State) (q : Nat) : State :=
  let hot := s.hot q
  let lvl := s.fld Fld.cluThmHotLevel q 0
  let off := s.fld Fld.cluThmState q 0 = 2
  let s := s.modCluster q (fun c => { c with
    hotSince := if hot ∧ lvl = 32 then some (c.hotSince.getD s.now) else none
    coolSince := if off ∧ s.coolBy 15 q then some (c.coolSince.getD s.now) else none })
  if off then s else s.setFld Fld.cluThmState q 0 (if hot then 1 else 0)

def State.noteLea (s : State) (n : Nat) : State := (leaClusters n).foldl (fun (s : State) q => s.noteDrivers q) s

/-- Working cluster sensors among some clusters. -/
def State.working (s : State) (qs : List Nat) : List Int :=
  (qs.filter (fun q => s.fld Fld.cluThmSensorFail q 0 == 0 && s.domain q != domFailed)).map (fun q => (s.cluster q).sensor)

def maxInt : List Int → Option Int
  | [] => none
  | a :: l => match maxInt l with
    | some b => some (max a b)
    | none => some a

/-- The clusters of the same lea whose tiles share an edge with that of `q`. -/
def nextTo (q : Nat) : List Nat := (leaClusters (q / 24)).filter (fun r => hops (tileOf q) (tileOf r) == 1)

/-- The substitute of a failed sensor (Table 15-2); none where a cluster sensor has no working neighbour. -/
def State.substitute (s : State) (k : Sensor) : Option Int :=
  match k with
  | .cluster q => (maxInt (s.working (nextTo q))).map (· + 80)
  | .hub n i =>
    let others := (List.range 4).filter (fun j => j != i && !(s.hub n).failedSensors.contains j)
    match maxInt (others.map (s.hubReading n)) with
    | some v => some v
    | none => (maxInt ((leaClusters n).map (fun q => (s.cluster q).sensor))).map (· + 80)
  | .stack _ => some (8 * (s.fld Fld.thmCfgStackHot 0 0 : Nat))
  | .inlet => some (s.trayInlet * 16 / 10)
  | .outlet => some (s.trayInlet * 16 / 10)

def State.sensorDead (s : State) (k : Sensor) : Bool :=
  match k with
  | .cluster q => s.fld Fld.cluThmSensorFail q 0 == 1
  | .hub n i => (s.hub n).failedSensors.contains i
  | .stack n => (s.dram n).sensorDead
  | .inlet => s.thermal.inletDead
  | .outlet => s.thermal.outletDead

/-- A reading is shown and kept. -/
def State.setSensor (s : State) (k : Sensor) (v : Int) (dead : Bool) : State :=
  match k with
  | .cluster q =>
    let s := s.modCluster q (fun c => { c with
      sensor := v, steady := c.steady && decide (v < 8 * (s.fld Fld.thmCfgTOpen 0 0 : Nat)) })
    (s.setFld Fld.cluThmTempC q 0 (ofSigned 8 (v / 8))).setFld Fld.cluThmSensorFail q 0 (if dead then 1 else 0)
  | .hub n i =>
    let s := s.modHub n (fun h => { h with
      sensors := Map.set 200 h.sensors i v
      failedSensors := if dead then (h.failedSensors ++ [i]).dedup else h.failedSensors.filter (· != i) })
    (s.setFld (if i = 0 then Fld.hubThmTemp0 else if i = 1 then Fld.hubThmTemp1 else if i = 2 then Fld.hubThmTemp2
      else Fld.hubThmTemp3) n 0 (ofSigned 8 (v / 8))).setBit Fld.hubThmFail n 0 i dead
  | .stack n =>
    let s := (s.modDram n (fun d => { d with sensor := v, sensorDead := dead })).setFld Fld.hubThmStackC n 0 (ofSigned 8 (v / 8))
    if dead then s.setFld Fld.hubStkStatusHotRefresh n 0 1 else s
  | .inlet => s.modThermal (fun x => { x with inletS := v, inletDead := dead })
  | .outlet => s.modThermal (fun x => { x with outletS := v, outletDead := dead })

/-- A failed sensor is recorded once, and substituted at each read. A cluster whose sensor has no substitute is switched
off as a hot one is. -/
def State.failSensor (s : State) (k : Sensor) : State :=
  let was := s.sensorDead k
  let v := s.substitute k
  let s := if was then s else s.report k.source 0x2002 k.kind (ofSigned 48 (k.eighths (v.getD 0)))
  match k, v with
  | .cluster q, none => (s.setFld Fld.cluThmSensorFail q 0 1).modCluster q (fun c => { c with
      marked := c.marked || s.domain q == domOn || s.domain q == domRamping, coolSince := none })
  | k, v => s.setSensor k (v.getD 0) true

/-- The clusters that a sensor drives. -/
def State.noteSensor (s : State) (k : Sensor) : State :=
  match k with
  | .cluster q => s.noteDrivers q
  | .hub n _ => s.noteLea n
  | .stack n => s.noteLea n
  | .inlet => s
  | .outlet => s

def State.sensorRead (s : State) (k : Sensor) (r : Option Int) : State :=
  let s := match r with
    | some v => s.setSensor k v false
    | none => s.failSensor k
  (s.noteSensor k).judgeSensor k

def execSensorRead (t : Nat) (k : Sensor) (reading : Option Int) (s : State) : Host.Outcome State Fault Refusal :=
  onUnit k.valid (whenever (s.supply != supOff) (fun s => s.sensorRead k reading) (s.at t))

/-! ### Hot regions (R521 to R524) -/

/-- Up by one each 100 µs while the cluster is hot, down by one each 1 ms once every driver reads 3 K below. -/
def State.hotStep (s : State) (q : Nat) : State :=
  let lvl := s.fld Fld.cluThmHotLevel q 0
  let since := (s.cluster q).hotAt
  let set := fun (s : State) (v : Nat) =>
    (((s.setFld Fld.cluThmHotLevel q 0 v).modCluster q (fun c => { c with hotAt := s.now })).noteDrivers q)
  let s := if s.hot q then
      (if lvl < 32 ∧ since + 100 * s.beatTicks ≤ s.now then set s (lvl + 1) else s)
    else if 0 < lvl ∧ s.coolBy 3 q ∧ since + 1000 * s.beatTicks ≤ s.now then set s (lvl - 1) else s
  if s.domainOn q then s.setThrottle q else s

def execHotLevelStep (t q : Nat) (s : State) : Host.Outcome State Fault Refusal :=
  let s := s.at t
  onUnit (validCluster q) (whenever (decide (supOn ≤ s.supply)) (fun s => s.hotStep q) s)

def State.ownHot (s : State) (q : Nat) : Bool := decide ((s.ownDriver q).2 ≤ (s.ownDriver q).1)
/-- Hot at level 32 for 10 ms. -/
def State.longHot (s : State) (q : Nat) : Bool :=
  (s.cluster q).hotSince.any (fun x => decide (x + 10000 * s.beatTicks ≤ s.now)) && s.domainOn q
/-- The hottest such cluster of a lea; ties go to the lower index. -/
def State.hottest (s : State) (n : Nat) : Option Nat :=
  ((leaClusters n).filter s.longHot).foldl (fun (best : Option Nat) q => match best with
    | some b => if (s.cluster b).sensor < (s.cluster q).sensor then some q else some b
    | none => some q) none

/-- R522: where the cause lies in a hub or stack sensor, one cluster of the lea at a time. -/
def State.mayMark (s : State) (q : Nat) : Bool :=
  s.longHot q && !(s.cluster q).marked && (s.ownHot q ||
    (s.hottest (q / 24) == some q && !(leaClusters (q / 24)).any (fun r => (s.cluster r).marked)))

def execHotOffMark (t q : Nat) (s : State) : Host.Outcome State Fault Refusal :=
  let s := s.at t
  onUnit (validCluster q) (whenever (s.mayMark q) (fun s => s.modCluster q (fun c => { c with marked := true })) s)

/-- The driver of a switch-off: 0 own, 1 hub, 2 stack, and its reading. -/
def State.hotDriver (s : State) (q : Nat) : Nat × Int :=
  let n := q / 24
  if s.ownHot q ∨ s.fld Fld.cluThmSensorFail q 0 = 1 then (0, (s.cluster q).sensor)
  else match (List.range 4).find? (fun i => decide (8 * (s.fld Fld.thmCfgTHot 0 0 : Nat) ≤ s.hubReading n i)) with
    | some i => (1, s.hubReading n i)
    | none => if (s.stackDriver n).2 ≤ (s.stackDriver n).1 then (2, (s.stackDriver n).1) else (0, (s.cluster q).sensor)

/-- A fold of a cluster switched off is re-placed from its next boundary; it loses no stream. -/
def State.replaceAfter (s : State) (f q code : Nat) : State :=
  let lost := (((s.fold f).replacing.map Replacing.lost).getD [] ++ [q]).dedup
  ((s.setReplacing f (some ⟨code, s.now, lost, [], false⟩)).report (srcModule (some f)) 0x7010 f code).tryReplace f

/-- R523. -/
def State.regionHotOff (s : State) (q : Nat) : State :=
  let f := s.foldOf q
  let (d, v) := s.hotDriver q
  let s := (s.report (srcAgent q f) 0x2011 d (ofSigned 48 v)).bump Fld.thmCntHotOffCount 0 0
  let s := (s.switchOff q).modCluster q (fun c => { c with marked := false, hotSince := none, coolSince := none })
  let s := (s.setFld Fld.cluThmState q 0 2).noteDrivers q
  match f with
  | some f => s.replaceAfter f q 0x2011
  | none => s

/-- R522: at the end of its fold's drain, or at once where no ARMED or RUNNING fold has it. -/
def State.mayHotOff (s : State) (q : Nat) : Bool :=
  (s.cluster q).marked && (s.domain q == domOn || s.domain q == domRamping) &&
  (match s.foldOf q with
   | some f => !(s.foldBusy f || s.foldState f == foldStopping) || (s.fold f).phase == Phase.guard || (s.fold f).drained
   | none => true)

def execRegionHotOff (t q : Nat) (s : State) : Host.Outcome State Fault Refusal :=
  let s := s.at t
  onUnit (validCluster q) (whenever (s.mayHotOff q) (fun s => (s.regionHotOff q).settle) s)

/-- R524: available again, and brought back by POWER_ON. One whose failed sensor has no substitute stays off. -/
def State.hotReturn (s : State) (q : Nat) : State :=
  let s := (s.setFld Fld.cluThmState q 0 0).modCluster q (fun c => { c with coolSince := none })
  (s.askPower q).retryWaiting

def execHotReturn (t q : Nat) (s : State) : Host.Outcome State Fault Refusal :=
  let s := s.at t
  onUnit (validCluster q) (whenever (s.fld Fld.cluThmState q 0 == 2 &&
      !(s.fld Fld.cluThmSensorFail q 0 == 1 && (s.substitute (.cluster q)).isNone) &&
      (s.cluster q).coolSince.any (fun x => decide (x + 1000000 * s.beatTicks ≤ s.now)))
    (fun s => s.hotReturn q) s)

/-! ### FLOW_LOSS_N and the clear (R525, R528, R609) -/

def State.flowLossN (s : State) (level : Bool) : State :=
  let s := s.setFld Fld.thmStatusFlowLossN 0 0 (if level then 1 else 0)
  if !level && s.mayStop then s.thermalStop 1 0 [] else s

def execFlowLossN (t : Nat) (level : Bool) (s : State) : Host.Outcome State Fault Refusal :=
  .next (whenever (s.supply != supOff) (fun s => s.flowLossN level) (s.at t))

/-- R528. -/
def State.mayClear (s : State) : Bool :=
  s.fld Fld.thmStatusFlowLossN 0 0 == 1 && decide (200 ≤ s.flowDl) && decide (s.thermal.outletS ≤ 800) &&
  s.thermal.causes.all (fun k => decide (s.reading k + k.ten ≤ k.limit))

/-- The stop ends. A module in Standby returns to Standby (R599). -/
def State.clearStop (s : State) : State :=
  let beat0 := s.beatAt s.thermal.stopAt
  let s := (s.setThm (if s.derated then thmDerated else thmNormal)).modThermal (fun x => { x with stopAt := none, causes := [] })
  let s := if s.lpState = lpStandby then s else (List.range 64).foldl (fun (s : State) n => s.beginExit n) s
  (s.measureRef.askAll.restoreReport 9 0 wholeModule beat0 0 0 quiesceLost).rearmAll

/-- Only the management path may write it; a clear that is refused completes with an error status, and one that meets no stop
does nothing. -/
def execStopClear (t : Nat) (p : Path) (s : State) : Host.Outcome State Fault Refusal :=
  let s := s.at t
  let ok := p == .mgmt && s.mayClear
  .next ((whenever (ok && s.thm == thmStopped) State.clearStop s).completes p (Reg.thmStopClr.addr 0 0) ok)

/-! ### The slew governor (R530 to R533) -/

/-- The power that clusters able to draw ballast can add, in quarter watts: those ON at thermal level 0, up to their cap. -/
def State.ballastRoom (s : State) : Nat :=
  if s.fld Fld.thmStatusTCool 0 0 ≠ 0 then 0
  else (((List.range 1536).filter (fun q => s.domainOn q && s.fld Fld.cluThmHotLevel q 0 == 0)).map (fun q =>
    s.fld Fld.cluPwrStateCapUnits q 0 -
      (((s.grants (q / 24)).filter (fun g => g.q == q && g.active s.now)).map Grant.units).foldl (· + ·) 0)).foldl (· + ·) 0

/-- R530, in whole watts. -/
def State.governorStep (s : State) : State :=
  let p := s.meanWatts 1000
  let old := s.fld Fld.thmSlewRefW 0 0
  let r := Nat.max (old - 4) (Nat.min p (old + 4))
  let g := s.fld Fld.thmSlewGrantFactor 0 0
  let g' := if r + 500 < p then g - 1 else if p < r + 250 then Nat.min 64 (g + 1) else g
  let base := p - s.fld Fld.thmSlewBallastW 0 0
  let want := (r - 500) - base
  let most := (Nat.min s.limitS (s.fld Fld.thmMeasPAllowW 0 0) - 500) - base
  let give := Nat.min (Nat.min want most) (s.ballastRoom / 4)
  let s := ((s.setFld Fld.thmSlewRefW 0 0 r).setFld Fld.thmSlewGrantFactor 0 0 g').setFld Fld.thmSlewBallastW 0 0 give
  if s.ballastRoom / 4 < Nat.min want most then s.report (srcModule none) 0x2030 r give else s

/-- R533: the governor rests in a freeze, a quiesce, HOLD and a stop. -/
def execSlewGovernor (t : Nat) (s : State) : Host.Outcome State Fault Refusal :=
  let s := s.at t
  .next (whenever (s.thermal.governor && s.supply == supOn && s.thm != thmHold && s.thm != thmStopped) State.governorStep s)

end Sys2Proof.Machine
end

