-- ==== Sys2Proof/Machine/Boot.lean ====
section
/-! DEFINITION. Boot: the image chosen, the identity, the self-test, alignment, revalidation and READY (R20, R55, R56, R412 to
R414, R423, R561 to R578, R600, R601, R628). -/

namespace Sys2Proof.Machine

/-! ### The image (R567 to R570) -/

/-- Why an image does not qualify (Table 17-7): 0 key hash, 1 ECDSA, 2 HSS, 3 body, 4 svn. -/
def State.imageFault (s : State) (i : FwImage) : Option Nat :=
  if ¬ i.keysOk then some 0
  else if ¬ i.ecdsaOk then some 1
  else if ¬ i.hssOk then some 2
  else if ¬ i.bodyOk then some 3
  else if i.svn < s.fld Fld.secFwMinSvn 0 0 then some 4
  else none

/-- A slot as a number: 0 A, 1 B. -/
def slotNo (b : Bool) : Nat := if b then 1 else 0
def Sec.slot (x : Sec) (b : Bool) : Option FwImage := if b then x.slotB else x.slotA
def Sec.bad (x : Sec) (b : Bool) : Bool := if b then x.badB else x.badA
def Sec.attempts (x : Sec) (b : Bool) : Nat := if b then x.attemptsB else x.attemptsA
def Sec.setSlot (x : Sec) (b : Bool) (i : Option FwImage) : Sec := if b then { x with slotB := i } else { x with slotA := i }
def Sec.setBad (x : Sec) (b v : Bool) : Sec := if b then { x with badB := v } else { x with badA := v }
def Sec.setAttempts (x : Sec) (b : Bool) (n : Nat) : Sec := if b then { x with attemptsB := n } else { x with attemptsA := n }

/-- The image of a slot when it qualifies, marked bad or not. -/
def State.sound (s : State) (b : Bool) : Option FwImage := (s.sec.slot b).filter (fun i => (s.imageFault i).isNone)

/-- The higher version, and on a tie slot A. -/
def better : Option FwImage → Option FwImage → Option (Bool × FwImage)
  | some a, some b => if a.version < b.version then some (true, b) else some (false, a)
  | some a, none => some (false, a)
  | none, some b => some (true, b)
  | none, none => none

/-- R568. -/
def State.chosen (s : State) : Option (Bool × FwImage) :=
  better (if s.sec.bad false then none else s.sound false) (if s.sec.bad true then none else s.sound true)

/-- R569: an image marked bad would have been chosen. -/
def State.fellBack (s : State) (b : Bool) : Bool :=
  (better (s.sound false) (s.sound true)).any (fun x => x.1 != b)

def State.reportFaults (s : State) : State :=
  [false, true].foldl (fun (s : State) b => match s.sec.slot b with
    | some i => (match s.imageFault i with
      | some k => s.report (srcModule none) 0x8101 (slotNo b) k
      | none => s)
    | none => s) s

/-- R569: an attempt; at three the image is marked bad. -/
def State.raiseAttempts (s : State) (b : Bool) : State :=
  s.modSec (fun x =>
    let n := x.attempts b + 1
    let x := x.setAttempts b n
    if 3 ≤ n then x.setBad b true else x)

/-- The image runs. -/
def State.runImage (s : State) (b : Bool) (i : FwImage) : State :=
  let s := (s.setFld Fld.glbBootStatusSlot 0 0 (slotNo b)).setFld Fld.secFwSvn 0 0 i.svn
  let s := (s.setFld Fld.secFwVersion 0 0 i.version).setFld Fld.glbNumericProfileFwNumeric 0 0 i.numeric
  let s := if s.fellBack b then (s.setFld Fld.glbBootStatusFallback 0 0 1).report (srcModule none) 0x8102 (slotNo (!b)) (slotNo b)
    else s
  if s.sec.stagedB = some b then
    ((s.setFld Fld.secFwStagedStaged 0 0 0).setFld Fld.secFwStagedVersion 0 0 0).modSec (fun x => { x with stagedB := none })
  else s

/-- The module stays in STANDBY_POWER (R568, R577). -/
def State.haltBoot (s : State) (step : Nat) : State :=
  let s := (s.setFld Fld.glbBootStatusStep 0 0 step).segsOff.setSupply supStandby
  (s.modSec (fun x => { x with halted := true })).modThermal (fun x => { x with governor := false })

/-! ### Identity and records (R575 to R577, R579) -/

def State.takeRecords (s : State) (found : BootFindings) : State :=
  found.copiesBad.foldl (fun (s : State) c => s.report (srcModule none) 0x8106 c.1 c.2) s

/-- Signing goes on at the recorded index; a tree that was complete is rebuilt from the seed. -/
def State.resumeSigning (s : State) : State :=
  let next := Nat.max (s.fld Fld.secAttestNextIndex 0 0) s.sec.reserved
  (s.setFld Fld.secAttestNextIndex 0 0 next).setFld Fld.secAttestNextTreeReady 0 0
    (if s.sec.tree < next / 2 ^ 20 then 1 else 0)

def identityFound (found : BootFindings) : Bool := decide (40 ≤ found.shares) && found.helperOk

def State.rebuildIdentity (s : State) (found : BootFindings) : State :=
  let n := Nat.min 64 found.shares
  let s := s.setFld Fld.glbBootStatusShares 0 0 n
  if identityFound found then
    let s := (s.takeRecords found).modSec (fun x => { x with identity := true })
    (if n < 64 then s.report (srcModule none) 0x8104 n 0 else s).resumeSigning
  else (s.report (srcModule none) 0x8105 n 0).modSec (fun x => { x with identity := false })

/-! ### Self-test and repair (R27, R30, R56, R571, R572) -/

/-- R571: an ACTIVE or DRIFTED array that its canaries find drifted, or that failed outright. -/
def State.arrayFound (s : State) (x : Nat × Nat) (failed : Bool) : State :=
  let st := s.arrState x.1 x.2
  if (st = 2 ∨ st = 3) ∧ validCluster x.1 ∧ x.2 < 32 then
    (s.setArrState x.1 x.2 (if failed then arrFailed else arrDrifted)).report (srcAgent x.1 none) 0x9103 x.2 (if failed then 1 else 0)
  else s

/-- R30, R571: a core that two testers fail is marked failed; an index that failed before and fails again is that of a spare
that stands in for it. -/
def State.selfTest (s : State) (found : BootFindings) : State :=
  let s := found.coresFailed.foldl (fun (s : State) c =>
    if c.1 < 131072 ∧ validCluster (clusterOf c.1) ∧ 2 ≤ c.2 then
      (s.modCluster (clusterOf c.1) (fun k => { k with coreFail := k.coreFail ++ [coreIndex c.1] })).report
        (srcCore c.1 none) 0x9101 c.1 c.2
    else s) s
  let s := found.clustersFailed.foldl (fun (s : State) c => s.report (srcAgent c.1 none) 0x9102 c.1 c.2) s
  let s := found.arraysDrifted.foldl (fun (s : State) x => s.arrayFound x false) s
  found.arraysFailed.foldl (fun (s : State) x => s.arrayFound x true) s

/-- R3, R572: the repair map. Spares are exposed in the place of positions that failed; with fewer good positions than the
grade exposes, every good one is. -/
def State.repairMap (s : State) (found : BootFindings) : State :=
  let s := (List.range 1536).foldl (fun (s : State) q =>
    if s.position q ≠ posFailed ∧ (found.clustersFailed.any (fun c => c.1 == q) || tooManyFailed (s.cluster q).coreFail) then
      s.loseCluster q
    else s.applySpares q) s
  let good := s.countPos posExposed + s.countPos posSpare
  if good < s.gradeCount then
    let s := ((List.range 1536).filter (fun q => s.position q == posSpare)).foldl (fun (s : State) q => s.setPosition q posExposed) s
    s.report (srcModule none) 0x9104 good s.gradeCount
  else s.fillExposed ((List.range 1536).filter (fun q => s.position q == posFailed))

/-- R55, R56: a lea that cannot align stays in reset and is reported (log entry 101). Under the module's own clock, beat 0 is
at the end of the alignment. -/
def State.alignLeas (s : State) (found : BootFindings) : State :=
  let s := (List.range 64).foldl (fun (s : State) n =>
    if found.unaligned.contains n ∧ ¬ (s.hub n).dead then
      (s.modHub n (fun h => { h with dead := true })).report (srcHub (s.teller n) none) 0x9012 n 1
    else if (s.hub n).dead then s
    else s.setBit Fld.timAlignStatusAligned 0 0 n true) s
  if s.timeSrc = 2 then s.stepTime 0 else s

/-- R454: every link that is in use trains. -/
def State.trainLinks (s : State) : State :=
  ((List.range 96).filter (fun l => !(s.hub (linkLea l)).dead)).foldl (fun (s : State) l =>
    let mode := s.fld Fld.lnkCfgMode l 0
    let trains := s.fld Fld.lnkCfgEnable l 0 == 1 && mode != 0
    (s.modLink l (fun k => { k with mode := mode, port := s.fld Fld.lnkCfgPort l 0, trainAt := s.now, idled := false })).setFld
      Fld.lnkStatusState l 0 (if trains then lnkTraining else lnkDown)) s

/-! ### Placement and models (R412 to R414, Table 18-3) -/

/-- The settings that firmware restores from its records: those of folds that hold a READY copy, the regions of placed
copies, and the tokeniser tables. -/
def State.onRecord (s : State) (r : Reg) (u i : Nat) : Bool :=
  match r with
  | .timFoldCfg => s.placed i
  | .timFoldHedge => s.placed i
  | .lnkFold => s.placed i
  | .thmFoldMode => s.placed i
  | .hubStkRegion => s.placedCopies.any (fun c => c.tensors.any (fun p => p.inShare && p.stack == u && p.region == i))
  | .hubStkRegionCfg => s.placedCopies.any (fun c => c.tensors.any (fun p => p.inShare && p.stack == u && p.region == i))
  | .cluArrGroupMap => true
  | .hubTokTable => true
  | .hubTokFold => true
  | _ => false

def State.restoreRecords (s : State) : State :=
  s.restore.was.foldl (fun (acc : State) (e : Nat × Word) => match Reg.decode e.1 with
    | some (r, u, i) =>
      if s.onRecord r u i then acc.setReg r u i (if r = .timFoldCfg then setBits e.2 63 1 0 else e.2) else acc
    | none => acc) s

/-- The folds of READY copies that were enabled. -/
def State.wereEnabled (s : State) : List Nat :=
  (List.range 256).filter (fun f => s.placed f &&
    ((Map.find s.restore.was (Reg.timFoldCfg.addr 0 f)).any (fun w => getBits w 63 1 == 1)))

/-- The steward writes what a fold's image sets up, as far as its clusters stand. -/
def writeLoose (l : List (Nat × Word)) (s : State) : State := l.foldl (fun (s : State) (w : Nat × Word) => (s.writeImage w.1 w.2).2) s

/-- The rows of a copy in scratchpad, and the layer entries that read them. -/
def State.fillCopy (s : State) (c : Copy) : State :=
  let s := (c.tensors.filter (fun p => s.exposed p.cluster)).foldl (fun (s : State) p => s.writeScratch c p) s
  match (s.fold c.fold).image with
  | some im => writeLoose (im.setup.filter (fun w => isLayerReg w.1)) s
  | none => s

/-- A copy of which nothing must be fetched is filled at once. -/
def State.replaceImage (s : State) (c : Copy) (stands : Bool) : State :=
  match (s.fold c.fold).image with
  | none => if stands then s.fillCopy c else s
  | some im =>
    let s := writeLoose (im.setup.filter (fun w => !isLayerReg w.1)) s
    let s := (im.clusters.filter s.exposed).foldl (fun (s : State) q => s.readyBanks q) s
    let s := if stands then s.fillCopy c else s
    im.kvPools.foldl (fun (s : State) d => s.registerPool d) s

/-- An adapter has no image of its own: its rows follow those of its base. -/
def State.replaceCopies (s : State) : State :=
  let ms := s.models.filter (fun e => e.2.state != 1)
  let s := (ms.filter (fun e => !e.2.adapter)).foldl (fun (s : State) e =>
    e.2.copies.foldl (fun (s : State) c => s.replaceImage c (e.2.state != 4)) s) s
  ((ms.filter (fun e => e.2.adapter && e.2.state != 4)).flatMap (fun e => e.2.copies)).foldl (fun (s : State) c =>
    (c.tensors.filter (fun p => s.exposed p.cluster)).foldl (fun (s : State) p => s.writeScratch c p) s) s

/-- The arrays of a tensor hold its weights. -/
def State.arraysHold (s : State) (p : Placed) : Bool :=
  match p.analog with
  | none => false
  | some (g, d, mask) => (bitsIn mask 8).all (fun i =>
      let x := s.arr p.cluster (s.arrayOf p.cluster g i)
      (arrayRows d p.data i).zipIdx.all (fun r => x.holdsRow r.2 r.1))

/-- R414 step 1: shadows are rebuilt from the arrays by verify reads. -/
def State.rebuildShadow (s : State) (p : Placed) : State :=
  if p.analog.isSome ∧ p.inShare then s.stackWrites p.stack p.row (if s.arraysHold p then p.data else s.readBack p) else s

/-- Step 2 and 3: a copy of which nothing must be fetched. -/
def State.copyStands (s : State) (c : Copy) : Bool := c.tensors.all (fun p => p.data.isEmpty || s.arraysHold p)

def State.supplyLost (s : State) : Bool := s.restore.lost / 2 ^ 15 % 2 == 1

/-- R414 after a loss of supply; with the stacks unhurt a READY copy is READY (R413). -/
def State.revalidate (s : State) : State :=
  if ¬ s.supplyLost then s
  else
    let ms := s.models.filter (fun e => e.2.state != 1)
    let s := (ms.flatMap (fun e => e.2.copies)).foldl (fun (s : State) c =>
      c.tensors.foldl (fun (s : State) p => s.rebuildShadow p) s) s
    { s with models := s.models.map (fun (e : Nat × Model) =>
      (e.1, if e.2.state = 2 ∧ ¬ e.2.copies.all s.copyStands then { e.2 with state := 4 } else e.2)) }

/-- R166: a bank that no valid open partition includes loses power. -/
def State.dropBanks (s : State) : State :=
  ((Map.keys s.clusters).filter (fun q => s.fld Fld.cluBankPowerPowered q 0 != 0)).foldl (fun (s : State) q =>
    (List.range 48).foldl (fun (s : State) b => s.dropBank q b) s) s

/-- R205: every ACTIVE or DRIFTED array is due for calibration at boot revalidation. -/
def State.dueArrays (s : State) : State :=
  s.clusters.foldl (fun (s : State) e => (Map.keys e.2.arrays).foldl (fun (s : State) a =>
    if s.arrState e.1 a = 2 ∨ s.arrState e.1 a = 3 then
      s.modArr e.1 a (fun x => { x with due := some .boot, driven := 0, driveBeat := none })
    else s) s) s

/-- R574: a copy of the module records moves from a failed position to the lowest good one of its bus segment that holds
none. -/
def State.moveRecords (s : State) : State :=
  { s with store := { s.store with copies := s.store.copies.zipIdx.map (fun (e : List Nat × Nat) =>
    e.1.map (fun q => if s.position q ≠ posFailed then q
      else (((List.range 384).map (fun k => 384 * e.2 + k)).find? (fun p =>
        s.position p != posFailed && !e.1.contains p)).getD q)) } }

/-- R628: every exposed cluster is ON. -/
def State.powerExposed (s : State) : State :=
  (s.exposedList.filter (fun q => !s.heldOff q)).foldl (fun (s : State) q => s.setOn q) s

/-- A fold is armed again; one that lost a position while the module was down is re-placed, and one whose copy is
REVALIDATING waits for it. -/
def State.rearmBooted (s : State) (f : Nat) : State :=
  let lost := (s.foldClusters f).filter (fun q => s.position q != posExposed || (s.hub (q / 24)).dead)
  if s.revalidating f then s.modFold f (fun x => { x with rearm := true })
  else if lost.isEmpty then s.armAgain f
  else
    let s := (s.setFoldState f foldStopped).setReplacing f (some ⟨0x9102, s.now, lost, [], false⟩)
    ((s.setFld Fld.timFoldCfgEnable 0 f 1).report (srcModule (some f)) 0x7010 f 0x9102).tryReplace f

/-! ### READY (R20, R423, R565, R600) -/

def State.newDbKey (s : State) : State := (s.setReg .cliDbKey 0 0 (BitVec.ofNat 64 (Config.dbKey s.fresh).toNat)).drew

def State.reachReady (s : State) : State :=
  let warm := s.restore.bootClass = clsW
  let ms := (s.now - s.restore.bootAt) / (1000 * s.beatTicks)
  let enabled := s.wereEnabled
  let r := s.restore
  let s := { s with restore := { r with inReset := false, was := [], defaulted := 0, rebuilt := 0, lost := 0 } }
  let s := (enabled.foldl (fun (s : State) f => s.rearmBooted f) s).newDbKey
  let s := (s.setFld Fld.glbBootStatusStep 0 0 9).setFld Fld.glbBootStatusBootMs 0 0 (Nat.min (2 ^ 32 - 1) ms)
  let s := s.modSec (fun x => { x.setAttempts (s.fld Fld.glbBootStatusSlot 0 0 == 1) 0 with halted := false })
  let s := s.report (srcModule none) 0x9105 ms (if warm then 1 else 0)
  s.reportReset (if warm then 2 else 1) r.bootCause wholeModule r.bootBeat r.was r.defaulted r.rebuilt r.lost

/-- Steps 3 to 5. -/
def State.bringUp (s : State) (found : BootFindings) : State :=
  let warm := s.restore.bootClass = clsW
  let s := s.setFld Fld.glbBootStatusWarm 0 0 (if warm then 1 else 0)
  let s := if warm then s else s.selfTest found
  let s := s.repairMap { found with clustersFailed := if warm then [] else found.clustersFailed }
  s.moveRecords.alignLeas found

/-- Steps 6 to 8. -/
def State.bringModels (s : State) : State := s.trainLinks.powerExposed.restoreRecords.revalidate.replaceCopies.dropBanks.dueArrays

/-- What must hold before boot can run: the module is ON in a reset, segment 0 and the hub of lea 0 work, no stop or hold
lasts, and STOP_N is released. -/
def State.mayBoot (s : State) : Bool :=
  s.inReset && s.supply == supOn && s.fld Fld.pwrSegState 0 0 == segUp && s.thm != thmStopped && s.thm != thmHold &&
  !s.power.stopHeld && !(s.hub 0).dead

/-- R20, R56: when lea 0 does not align, boot goes no further than its step 5, and the module is not READY. -/
def State.boot (s : State) (found : BootFindings) : State :=
  let s := s.reportFaults
  match s.chosen with
  | none => s.haltBoot 2
  | some (b, i) =>
    let s := ((s.raiseAttempts b).runImage b i).rebuildIdentity found
    if ¬ s.sec.identity then s.haltBoot 2
    else if found.unaligned.contains 0 then (s.bringUp found).setFld Fld.glbBootStatusStep 0 0 5
    else (s.bringUp found).bringModels.reachReady

def execBoot (t : Nat) (found : BootFindings) (s : State) : Host.Outcome State Fault Refusal :=
  let s := s.at t
  .next (whenever s.mayBoot (fun s => s.boot found) s)

end Sys2Proof.Machine
end

