-- ==== Sys2Proof/Machine/Security.lean ====
section
/-! DEFINITION. Signer slots, setup keys, attestation, the security version, the seal, and firmware update (R570, R578 to
R587, R612). -/

namespace Sys2Proof.Machine

/-! ### The command buffer and the result of a command (Tables 17-10, 17-11, 17-15) -/

def resBusy : Nat := 1
def resDone : Nat := 2
def resRefused : Nat := 3

def State.result (s : State) (v : Nat) : State := s.setFld Fld.secStatusResult 0 0 v

/-- The 512 bytes of SEC_KEYBUF. -/
def State.keybuf (s : State) : List (BitVec 8) :=
  (List.range 64).flatMap (fun w => toBytes 8 (s.fld Fld.secKeybufWord 0 w))

def State.setKeybuf (s : State) (b : List (BitVec 8)) : State :=
  (List.range 64).foldl (fun (s : State) w => s.setFld Fld.secKeybufWord 0 w (ofBytes ((b.drop (8 * w)).take 8))) s

/-- A command on the management path (R587); refused while the module is in reset. -/
def State.command (s : State) (p : Path) (f : State → State) : State :=
  if p != .mgmt then s else if s.inReset then s.result resRefused else f s

/-- A command of SEC_CMD, and how its write completes: on another path than the management path it is refused. -/
def State.secAccess (s : State) (p : Path) (f : State → State) : State :=
  (s.command p f).completes p (Reg.secCmd.addr 0 0) (p == .mgmt)

/-- R586: what the seal stops is refused and recorded. -/
def State.unsealed (s : State) (f : State → State) : State :=
  if s.sealed then (s.report (srcModule none) 0x8001 (Reg.secCmd.addr 0 0) 0).result resRefused else f s

/-! ### Signer slots (R582) -/

/-- An HSS key of 1 to 4 levels whose parameter sets the W1 knows. -/
def hssKeyOk (k : List (BitVec 8)) : Bool :=
  let levels := ofBytesBE (k.take 4)
  decide (1 ≤ levels) && decide (levels ≤ 4) && (lmsType (ofBytesBE ((k.drop 4).take 4))).isSome &&
    (otsType (ofBytesBE ((k.drop 8).take 4))).isSome

def State.setSigner (s : State) (slot : Nat) (k : Option (List (BitVec 8))) : State :=
  let s := s.modSec (fun x => { x with signers := match k with
    | some k => Map.put x.signers slot k
    | none => Map.del x.signers slot })
  ((s.setBit Fld.secStatusSignerMap 0 0 slot k.isSome).recordModule.report (srcModule none) 0x8107 slot (if k.isSome then 1 else 0)).result
    resDone

def State.installSigner (s : State) (slot : Nat) : State :=
  let k := s.keybuf.take 160
  if slot < 16 ∧ (sec1 (k.take 97)).isSome ∧ hssKeyOk (k.drop 100) then s.setSigner slot (some k) else s.result resRefused

def execInstallSigner (t : Nat) (p : Path) (slot : Nat) (s : State) : Host.Outcome State Fault Refusal :=
  .next ((s.at t).secAccess p (fun s => s.unsealed (fun s => s.installSigner slot)))

def State.eraseSigner (s : State) (slot : Nat) : State :=
  if slot < 16 then s.setSigner slot none else s.result resRefused

def execEraseSigner (t : Nat) (p : Path) (slot : Nat) (s : State) : Host.Outcome State Fault Refusal :=
  .next ((s.at t).secAccess p (fun s => s.unsealed (fun s => s.eraseSigner slot)))

/-! ### Setup keys (R583) -/

/-- ASCII "Virwald-W1 setup" and 8 zero bytes. -/
def setupInfo : List (BitVec 8) :=
  [0x56, 0x69, 0x72, 0x77, 0x61, 0x6C, 0x64, 0x2D, 0x57, 0x31, 0x20, 0x73, 0x65, 0x74, 0x75, 0x70] ++ List.replicate 8 0

/-- The key that a recipient block wraps for this module. -/
def unwrapSetup (r : List (BitVec 8)) : Option (List (BitVec 8)) :=
  if r.take 16 ≠ (sha384 packagePublic).take 16 then none
  else match sec1 ((r.drop 16).take 97) with
    | none => none
    | some p => match ecMul 384 Config.packageKey (some p) with
      | none => none
      | some z => keyUnwrap (hkdf384 (toBytesBE 48 z.1) Config.setupSalt setupInfo 32) ((r.drop 120).take 40)

def State.installSetupKey (s : State) (slot : Nat) : State :=
  match unwrapSetup (s.keybuf.take 160) with
  | none => s.result resRefused
  | some key =>
    let s := s.bump Fld.secStatusSetupInstalls 0 0
    let n := s.fld Fld.secStatusSetupInstalls 0 0
    let s := (List.range 64).foldl (fun (s : State) h =>
      if (s.hub h).dead then s else s.modHub h (fun x => { x with keys := Map.put x.keys slot ⟨none, key⟩ })) s
    let s := s.modSec (fun x => { x with setupKeys := Map.put x.setupKeys slot (key, n) })
    (s.recordModule.report (srcModule none) 0x8108 slot n).result resDone

def execInstallSetupKey (t : Nat) (p : Path) (slot : Nat) (s : State) : Host.Outcome State Fault Refusal :=
  .next ((s.at t).secAccess p (fun s => if slot < 256 then s.installSetupKey slot else s.result resRefused))

/-! ### The identity statement and attestation (R578 to R581) -/

def State.exportKeys (s : State) : State :=
  ((s.setKeybuf (toBytes 512 (Config.identityStatement s.fresh).toNat)).drew).result resDone

def execExportKeys (t : Nat) (p : Path) (s : State) : Host.Outcome State Fault Refusal :=
  .next ((s.at t).secAccess p State.exportKeys)

/-- What the repair record holds that an attestation covers: the positions, the substituted cores, and the failed dies of stacks
(R313). -/
def State.repairRecord (s : State) : List (Nat × Nat) :=
  s.positions ++ s.clusters.flatMap (fun (e : Nat × Cluster) => e.2.coreFail.map (fun j => (2048 + e.1, j))) ++
  s.drams.flatMap (fun (e : Nat × Stack) => e.2.failedDies.map (fun d => (4096 + e.1, d)))

/-- The image that runs. -/
def State.runningImage (s : State) : Option FwImage := s.sec.slot (s.fld Fld.glbBootStatusSlot 0 0 == 1)

def State.modelEntry (s : State) (h : Nat) (m : Model) : List (BitVec 8) :=
  toBytes 2 h ++ toBytes 1 m.state ++ toBytes 1 m.cur.fold ++
  toBytes 2 (((s.fold m.cur.fold).image.map Image.benver).getD 0) ++ toBytes 2 0 ++ toBytes 8 m.ident ++
  toBytes 8 m.cur.version ++ (m.cur.hash ++ List.replicate 48 0).take 48 ++ toBytes 8 0

/-- ASCII "VIRWATT1". -/
def attestMagic : List (BitVec 8) := [0x56, 0x49, 0x52, 0x57, 0x41, 0x54, 0x54, 0x31]

/-- Table 17-6 up to its signatures. -/
def State.attestBody (s : State) (nonce : List (BitVec 8)) : List (BitVec 8) :=
  let n := s.models.length
  attestMagic ++ toBytes 4 (352 + 80 * n + 3532) ++ toBytes 4 n ++ nonce ++ s.identity ++
  toBytes 8 (s.reg .glbNumericProfile 0 0).toNat ++ toBytes 8 s.beat ++ (Config.romHash ++ List.replicate 48 0).take 48 ++
  toBytesBE 48 ((s.runningImage.map (fun i => (Config.imageHash i).toNat)).getD 0) ++
  toBytes 4 (s.fld Fld.secFwVersion 0 0) ++ toBytes 2 (s.fld Fld.secFwSvn 0 0) ++ toBytes 2 (s.fld Fld.secFwMinSvn 0 0) ++
  toBytesBE 48 (Config.repairHash s.repairRecord).toNat ++ List.replicate 32 0 ++
  s.models.flatMap (fun e => s.modelEntry e.1 e.2)

/-- Table 17-6: both signatures over all that stands before them. -/
def State.attestReport (s : State) (index : Nat) (nonce : List (BitVec 8)) : List (BitVec 8) :=
  let b := s.attestBody nonce
  b ++ toBytesBE 96 (Config.identitySig s.fresh b).toNat ++ toBytesBE 3532 (Config.attestSig index b).toNat

def State.nextIndex (s : State) : Nat := s.fld Fld.secAttestNextIndex 0 0

/-- R579: the end of the block of 1,024 that holds an index. -/
def blockEnd (i : Nat) : Nat := (i / 1024 + 1) * 1024

/-- R579: the block is reserved before its first index is used. -/
def State.reserveIndex (s : State) : State :=
  if s.sec.reserved ≤ s.nextIndex then (s.modSec (fun x => { x with reserved := blockEnd s.nextIndex })).recordModule else s

/-- R580: the index lies in a lower tree after the one in use. -/
def State.needsTree (s : State) : Bool := decide (s.sec.tree < s.nextIndex / 2 ^ 20)
def State.treeReady (s : State) : Bool := s.fld Fld.secAttestNextTreeReady 0 0 == 1

def State.takeTree (s : State) : State :=
  if s.needsTree then
    let tree := s.nextIndex / 2 ^ 20
    let s := (s.modSec (fun x => { x with tree := tree })).setFld Fld.secAttestNextTreeReady 0 0 0
    s.report (srcModule none) 0x8109 tree 0
  else s

/-- A report is signed at the next index and sent. -/
def State.sendAttest (s : State) (nonce : List (BitVec 8)) : State :=
  let s := s.takeTree.reserveIndex
  let i := s.nextIndex
  let b := s.attestReport i nonce
  let s := (s.setFld Fld.secAttestNextIndex 0 0 (i + 1)).modSec (fun x => { x with attesting := none })
  ((s.send (.report outAttest b)).drew).result resDone

/-- No index is used twice (R579): the last one has been used. -/
def State.indicesSpent (s : State) : Bool := decide (s.nextIndex + 1024 < s.sec.reserved)

def State.attest (s : State) : State :=
  let nonce := s.keybuf.take 32
  if s.sec.attesting.isSome ∨ s.indicesSpent then s.result resRefused
  else if s.needsTree ∧ ¬ s.treeReady then (s.modSec (fun x => { x with attesting := some nonce })).result resBusy
  else s.sendAttest nonce

def execAttest (t : Nat) (p : Path) (s : State) : Host.Outcome State Fault Refusal :=
  .next ((s.at t).secAccess p State.attest)

/-- R580: half of the leaves of the current lower tree are used, and the next is not built. -/
def State.mayBuildTree (s : State) : Bool :=
  !s.inReset && s.sec.identity && !s.treeReady && decide (s.sec.tree * 2 ^ 20 + 2 ^ 19 ≤ s.nextIndex)

def State.buildTree (s : State) : State :=
  let s := s.setFld Fld.secAttestNextTreeReady 0 0 1
  match s.sec.attesting with
  | some nonce => s.sendAttest nonce
  | none => s

def execAttestTreeBuild (t : Nat) (s : State) : Host.Outcome State Fault Refusal :=
  let s := s.at t
  .next (whenever s.mayBuildTree State.buildTree s)

/-! ### The security version and the seal (R570, R586) -/

def State.commitSvn (s : State) : State := (s.setFld Fld.secFwMinSvn 0 0 (s.fld Fld.secFwSvn 0 0)).recordModule.result resDone

def execCommitSvn (t : Nat) (p : Path) (s : State) : Host.Outcome State Fault Refusal :=
  .next ((s.at t).secAccess p (fun s => s.unsealed State.commitSvn))

def State.setSeal (s : State) : State :=
  if s.sealed then s else (s.setFld Fld.glbSealSealed 0 0 1).report (srcModule none) 0x810A 0 0

def execSeal (t : Nat) (p : Path) (s : State) : Host.Outcome State Fault Refusal :=
  .next ((whenever (p == .mgmt) State.setSeal (s.at t)).completes p (Reg.glbSeal.addr 0 0) (p == .mgmt))

/-! ### Firmware update (R584, R585) -/

/-- The slot that an update writes: the one whose image does not run, or before boot the one that boot would not choose. -/
def State.otherSlot (s : State) : Bool :=
  if s.inReset then (match s.chosen with
    | some (b, _) => !b
    | none => false)
  else s.fld Fld.glbBootStatusSlot 0 0 != 1

/-- R584: from the start of boot until READY the module answers RETRY; without power it answers nothing. -/
def State.mayUpdate (s : State) : Bool :=
  s.supply != supOff && s.sec.update == 0 && !(decide (supOn ≤ s.supply) && s.inReset)

/-- The transfer begins: the slot is marked incomplete. -/
def State.startUpdate (s : State) : State :=
  let b := s.otherSlot
  let s := s.modSec (fun x =>
    let x := ((x.setSlot b none).setBad b false).setAttempts b 0
    { x with transfer := some b, stagedB := none, update := 1 })
  ((s.setFld Fld.secFwStagedStaged 0 0 0).setFld Fld.secFwStagedIncomplete 0 0 1).setFld Fld.secFwStagedVersion 0 0 0

def execRequestUpdate (t : Nat) (s : State) : Host.Outcome State Fault Refusal :=
  let s := s.at t
  .next (whenever s.mayUpdate State.startUpdate s)

/-- The image stands whole in its slot. -/
def State.takeImage (s : State) (b : Bool) (img : FwImage) : State :=
  (s.modSec (fun x => { x.setSlot b (some img) with update := 2 })).setFld Fld.secFwStagedIncomplete 0 0 0

def State.verifyUpdate (s : State) (b : Bool) (img : FwImage) : State :=
  match (if supOn ≤ s.supply then s.imageFault img else none) with
  | some k => (s.modSec (fun x => { x with update := 0 })).report (srcModule none) 0x8101 (slotNo b) k
  | none => s.takeImage b img

def execVerifyComplete (t : Nat) (img : FwImage) (s : State) : Host.Outcome State Fault Refusal :=
  let s := s.at t
  .next (match s.sec.transfer with
    | some b => whenever (s.sec.update == 1 && s.supply != supOff) (fun s => s.verifyUpdate b img) s
    | none => s)

def State.applyUpdate (s : State) (b : Bool) : State :=
  let version := ((s.sec.slot b).map FwImage.version).getD 0
  let s := s.modSec (fun x => { x with stagedB := some b, transfer := none, update := 0 })
  let s := (s.setFld Fld.secFwStagedStaged 0 0 1).setFld Fld.secFwStagedVersion 0 0 version
  s.report (srcModule none) 0x8103 (slotNo b) version

def execApplyComplete (t : Nat) (s : State) : Host.Outcome State Fault Refusal :=
  let s := s.at t
  .next (match s.sec.transfer with
    | some b => whenever (s.sec.update == 2 && s.supply != supOff) (fun s => s.applyUpdate b) s
    | none => s)

/-! ### The I3C address (R612) -/

def execSetdasa (t addr : Nat) (s : State) : Host.Outcome State Fault Refusal :=
  let s := s.at t
  .next (whenever (s.supply != supOff && decide (addr < 128)) (fun s => s.modSec (fun x => { x with i3c := some addr })) s)

end Sys2Proof.Machine
end

