-- ==== Sys2Proof/Machine/Resets.lean ====
section
/-! DEFINITION. Resets and low-power states as commands, register writes that start something, the auxiliary input, STOP_N,
and the end of a revalidation (R414, R484, R587, R588, R592 to R599, R619, R628). -/

namespace Sys2Proof.Machine

/-! ### Who may start a reset (R588, R593, R594) -/

/-- The rails are up, so that there is something to reset. -/
def State.railsUp (s : State) : Bool := decide (supOn ≤ s.supply)

/-- R593: a narrower reset inside one that is in progress, or inside one of the module, is refused. -/
def State.mayReset (s : State) : Bool := s.railsUp && !s.inReset

/-- A COLD command meets nothing wider than a W reset. -/
def State.mayCold (s : State) : Bool := s.railsUp && (!s.inReset || s.restore.bootClass == clsW)

def execCold (t : Nat) (p : Path) (s : State) : Host.Outcome State Fault Refusal :=
  let s := s.at t
  let ok := p == .mgmt && s.mayCold
  .next ((whenever ok (fun s => s.resetModule true 7 false) s).completes p (Reg.glbResetCtl.addr 0 0) ok)

def execWarm (t : Nat) (p : Path) (s : State) : Host.Outcome State Fault Refusal :=
  let s := s.at t
  let ok := p == .mgmt && s.mayReset
  .next ((whenever ok (fun s => s.resetModule false 16 false) s).completes p (Reg.glbResetCtl.addr 0 0) ok)

def State.mayResetLea (s : State) (n : Nat) : Bool := s.mayReset && !(s.hub n).dead

def execLea (t : Nat) (p : Path) (n : Nat) (s : State) : Host.Outcome State Fault Refusal :=
  let s := s.at t
  let ok := s.mayResetLea n
  onUnit (validLea n) ((whenever ok (fun s => s.leaReset n 32) s).completes p (Reg.glbResetCtl.addr 0 0) ok)

def State.mayResetCluster (s : State) (q : Nat) : Bool :=
  s.mayResetLea (q / 24) && s.domain q != domFailed && s.position q != posFailed

def execCluster (t : Nat) (p : Path) (q : Nat) (s : State) : Host.Outcome State Fault Refusal :=
  let s := s.at t
  let ok := s.mayResetCluster q
  onUnit (validCluster q) ((whenever ok (fun s => s.clusterReset q 48) s).completes p (Reg.glbResetCtl.addr 0 0) ok)

def execFold (t : Nat) (p : Path) (f : Nat) (s : State) : Host.Outcome State Fault Refusal :=
  let s := s.at t
  let ok := s.mayReset
  onUnit (validFold f) ((whenever ok (fun s => s.resetFold f 64) s).completes p (Reg.glbResetCtl.addr 0 0) ok)

def State.mayResetLink (s : State) (l : Nat) : Bool := s.mayResetLea (linkLea l) && (s.linkOf l).kReset.isNone

def execLink (t : Nat) (p : Path) (l : Nat) (s : State) : Host.Outcome State Fault Refusal :=
  let s := s.at t
  let ok := s.mayResetLink l
  onUnit (validLink l) ((whenever ok (fun s => s.resetLink l 80) s).completes p (Reg.glbResetCtl.addr 0 0) ok)

/-! ### STOP_N and the watchdogs -/

/-- STOP_N holds the module in its P reset; without rails it holds off the boot. -/
def State.holdStop (s : State) : State :=
  (if s.railsUp then s.resetModule true 6 false else s).modPower (fun x => { x with stopHeld := true })

def execStopN (t : Nat) (s : State) : Host.Outcome State Fault Refusal :=
  let s := s.at t
  .next (whenever (s.supply != supOff && !s.power.stopHeld) State.holdStop s)

/-- The cold boot bound counts from the release. -/
def execStopNRelease (t : Nat) (s : State) : Host.Outcome State Fault Refusal :=
  let s := s.at t
  .next (whenever s.power.stopHeld (fun s =>
    { s.modPower (fun x => { x with stopHeld := false }) with restore := { s.restore with bootAt := s.now } }) s)

def execChiefWatchdog (t : Nat) (s : State) : Host.Outcome State Fault Refusal :=
  let s := s.at t
  .next (whenever s.mayReset (fun s => s.resetModule false 17 false) s)

def execStewardWatchdog (t n : Nat) (s : State) : Host.Outcome State Fault Refusal :=
  let s := s.at t
  onUnit (validLea n) (whenever (s.mayResetLea n) (fun s => s.leaReset n 33) s)

/-! ### Standby, its end, and Region-off (R595 to R599, R628) -/

/-- A write of GLB_LP_CTL, judged as any other; the states follow it. -/
def State.writeLp (s : State) (p : Path) (v : Word) : Written × State :=
  if s.inReset then (.refused, s)
  else match s.writeWord p .glbLpCtl 0 0 v with
    | (.done, x) => (.done, x.settleLp)
    | r => r

/-- How a write ended, on the path that carried it. -/
def State.ended (p : Path) (addr : Nat) (w : Written × State) : State := w.2.completes p addr (w.1 == .done)

def execStandby (t : Nat) (p : Path) (s : State) : Host.Outcome State Fault Refusal :=
  .next (State.ended p (Reg.glbLpCtl.addr 0 0) ((s.at t).writeLp p 1))
def execActive (t : Nat) (p : Path) (s : State) : Host.Outcome State Fault Refusal :=
  .next (State.ended p (Reg.glbLpCtl.addr 0 0) ((s.at t).writeLp p 0))

/-- A write of GLB_LP_OFF_n: clusters whose bit it sets are switched off, and those whose bit it clears asked for again. -/
def State.writeLpOff (s : State) (p : Path) (n : Nat) (v : Word) : Written × State :=
  let old := s.reg .glbLpOff 0 n
  match s.writeWord p .glbLpOff 0 n v with
  | (.done, x) =>
    let x := (maskClusters n v).foldl (fun (s : State) q => s.switchOff q) x
    let x := ((maskClusters n old).filter (fun q => s.exposed q && !(maskClusters n v).contains q)).foldl
      (fun (s : State) q => s.askPower q) x
    (.done, x.retryWaiting.settle)
  | r => r

def execRegionOff (t : Nat) (p : Path) (n k : Nat) (s : State) : Host.Outcome State Fault Refusal :=
  let s := s.at t
  onUnit (validLea n && decide (k < 24)) (State.ended p (Reg.glbLpOff.addr 0 n)
    (s.writeLpOff p n (s.reg .glbLpOff 0 n ||| BitVec.ofNat 64 (2 ^ k))))

/-- An idle cluster: ON, exposed, in no fold that is not IDLE, with nothing placed on it. -/
def State.mayIdleOff (s : State) (q : Nat) : Bool :=
  s.domain q == domOn && s.exposed q && (s.foldOf q).isNone && !s.inReset && s.lpState == lpActive && s.fld Fld.thmSlewBallastW 0 0 == 0

def execIdlenessSwitchOff (t q : Nat) (s : State) : Host.Outcome State Fault Refusal :=
  let s := s.at t
  onUnit (validCluster q) (whenever (s.mayIdleOff q) (fun s => s.switchOff q) s)

/-! ### The auxiliary input (R484, Table 14-6) -/

def State.auxIn (s : State) : State :=
  let s := s.setFld Fld.pwrStatusAuxPresent 0 0 1
  if s.supply = supOff then s.setSupply supStandby else s

def execAuxiliaryInputPresent (t dv : Nat) (s : State) : Host.Outcome State Fault Refusal :=
  let s := s.at t
  .next (whenever (decide (0 < dv) && !s.auxPresent) State.auxIn s)

/-- Without a 400 V input the module falls to OFF. -/
def State.auxOut (s : State) : State :=
  let s := s.setFld Fld.pwrStatusAuxPresent 0 0 0
  if s.supply ≤ supStandby ∧ ¬ s.hvPresent then (if s.supply = supOff then s else s.loseAll.setSupply supOff) else s

def execAuxiliaryInputLoss (t : Nat) (s : State) : Host.Outcome State Fault Refusal :=
  let s := s.at t
  .next (whenever s.auxPresent State.auxOut s)

/-! ### ALERT_N (R608) -/

/-- The module drives ALERT_N low. -/
def State.alertN (s : State) : Bool :=
  s.supply != supOff && (s.thm == thmHold || s.thm == thmStopped || s.thm == thmCheckFailed ||
    s.supply == supFrozen || s.supply == supQuiesced || (s.sec.halted && s.supply == supStandby))

/-! ### MODEL_REVALIDATED (R414) -/

/-- The rows of a tensor in a stack, as the package source gives them. -/
def State.fetchRows (s : State) (p : Placed) : State := if p.inShare then s.stackWrites p.stack p.row p.data else s

/-- A group of which a layer failed its hash is programmed again: its contents are retired, and a FREE group that may be
programmed takes its place (R216, R220, R401, R402). -/
def State.fetchGroup (s : State) (c : Copy) (x : Nat × Nat × Nat) : State :=
  let (q, named, mask) := x
  if c.tensors.all (fun p => p.cluster != q || !p.analog.any (fun a => a.1 == named) || s.arraysHold p) then s
  else
    let s := (bitsIn mask 8).foldl (fun (s : State) i => s.retireArray q (s.arrayOf q named i)) s
    match s.freeGroup q mask with
    | some phys => if s.codecLeave q then (s.mapGroup q named phys).programGroup c q named phys else s.askCodec q
    | none => s

/-- Every array layer of a model stands in its arrays. -/
def State.layersHold (s : State) (m : Model) : Bool :=
  m.copies.all (fun c => c.tensors.all (fun p => p.analog.isNone || s.arraysHold p))

/-- The tensors that failed are fetched. Once every one has passed its hash the model is READY, and its folds can be armed. -/
def State.modelRevalidated (s : State) (h : Nat) (m : Model) : State :=
  let s := m.copies.foldl (fun (s : State) c => c.groups.foldl (fun (s : State) g => s.fetchGroup c g)
    (c.tensors.foldl (fun (s : State) p => s.fetchRows p) s)) s
  if ¬ s.layersHold m then s
  else
    let s := m.copies.foldl (fun (s : State) c => s.fillCopy c) s
    (s.modModel h (fun m => { m with state := 2 })).rearmAll

def execModelRevalidated (t handle : Nat) (s : State) : Host.Outcome State Fault Refusal :=
  let s := s.at t
  .next (match Map.find s.models handle with
    | some m => whenever (m.state == 4 && s.mayReset && m.copies.all (fun c => s.stewardMay c.fold))
        (fun s => s.modelRevalidated handle m) s
    | none => s)

/-! ### Every other register (R7 to R10, R453, R587, R594, R619) -/

/-- SEC_CMD (Table 17-10). -/
def State.secCommand (s : State) (op slot : Nat) : State :=
  s.command .mgmt (fun s => match op with
    | 1 => s.unsealed (fun s => s.installSigner slot)
    | 2 => s.unsealed (fun s => s.eraseSigner slot)
    | 3 => s.installSetupKey slot
    | 4 => s.exportKeys
    | 5 => s.attest
    | 6 => s.unsealed State.commitSvn
    | _ => s)

/-- GLB_RESET_CTL (Table 18-7): the reset that an operation and a target name, where it may start. -/
def State.resetCommand (s : State) (op x : Nat) : Option State :=
  match op with
  | 1 => if s.mayReset then some (s.resetModule false 16 false) else none
  | 2 => if validLea x && s.mayResetLea x then some (s.leaReset x 32) else none
  | 3 => if validCluster x && s.mayResetCluster x then some (s.clusterReset x 48) else none
  | 4 => if validFold x && s.mayReset then some (s.resetFold x 64) else none
  | 5 => if validLink x && s.mayResetLink x then some (s.resetLink x 80) else none
  | 6 => if s.mayCold then some (s.resetModule true 7 false) else none
  | _ => none

/-- A write that is not refused, and what it starts. -/
def State.andThen (w : Written × State) (f : State → Written × State) : Written × State :=
  match w with
  | (.done, s) => f s
  | r => r

def State.orRefuse (s : State) (r : Option State) : Written × State :=
  match r with
  | some x => (.done, x)
  | none => (.refused, s)

/-- A write to a register that is there. -/
def State.writeReg (s : State) (p : Path) (r : Reg) (u i : Nat) (v : Word) : Written × State :=
  match r with
  | .timFoldCfg => s.writeFoldCfg i v
  | .glbLpCtl => s.writeLp p v
  | .glbLpOff => s.writeLpOff p i v
  | .glbSeal => State.andThen (s.writeWord p r u i v) (fun x => (.done, if v.getLsbD 0 then x.setSeal else x))
  | .secCmd => State.andThen (s.writeWord p r u i v) (fun x => (.done, x.secCommand (getBits v 0 8) (getBits v 8 8)))
  | .glbResetCtl => State.andThen (s.writeWord p r u i v) (fun x => s.orRefuse (x.resetCommand (getBits v 0 4) (getBits v 8 16)))
  | .thmStopClr => State.andThen (s.writeWord p r u i v) (fun x =>
      if v.getLsbD 0 ∧ s.thm = thmStopped then s.orRefuse (if s.mayClear then some x.clearStop else none) else (.done, x))
  | .thmCoolant => State.andThen (s.writeWord p r u i v) (fun x =>
      (.done, x.trayReport (x.fld Fld.thmCoolantFlowDl 0 0) x.trayInlet))
  | .cluPwrVmin => State.andThen (s.writeWord p r u i v) (fun x =>
      (.done, if v.getLsbD 63 then x.rearmVmin u (Config.measured s.now (128 + u)) else x))
  | .fltReserve => State.andThen (s.writeWord p r u i v) (fun x => (.done, x.retryWaiting))
  | .lnkCfg => State.andThen (s.writeWord p r u i v) (fun x =>
      let old := s.reg .lnkCfg u i
      let new := x.reg .lnkCfg u i
      (.done, if (getBits old 1 2 != getBits new 1 2 || getBits old 8 8 != getBits new 8 8) && s.mayResetLea (linkLea u) then
        x.resetLink u 82 else x))
  | _ => s.writeWord p r u i v

/-- R7, R8: a write to the setup space, and how it ends. -/
def State.writeSetup (s : State) (p : Path) (addr width : Nat) (v : Word) : Written × State :=
  match s.reach addr width with
  | some (r, u, i) => s.writeReg p r u i v
  | none => (.refused, s)

def execRegisterWrite (t : Nat) (p : Path) (addr width : Nat) (v : Word) (s : State) : Host.Outcome State Fault Refusal :=
  .next (State.ended p addr ((s.at t).writeSetup p addr width v))

end Sys2Proof.Machine
end

