-- ==== Sys2Proof/Machine/Client.lean ====
section
/-! DEFINITION. Endpoints: connections, the doorbell page, the checks before acceptance, and replay (R415 to R423, R426,
R428 to R430, R436 to R438, R441 to R446). -/

namespace Sys2Proof.Machine

/-! ### Connections (R416 to R418, R423) -/

def State.mayConnect (s : State) (ep link : Nat) : Bool :=
  (s.endpoint ep).valid && (s.endpoint ep).state == 1 && s.ethernetUp link && !s.inReset

/-- Table 12-1: a connection that the W1 supports. -/
def transportOk (reliable : Bool) (mtu : Nat) : Bool := reliable && [1024, 2048, 4096].contains mtu

/-- The local queue pair of an endpoint (R415). -/
def queuePair (ep : Nat) : Nat := 0x400000 + ep

/-- The kind of message that carries the queue pair and the doorbell key in the reply to a connection request. -/
def outConnect : Nat := 2

def State.connect (s : State) (ep link : Nat) : State :=
  (s.modEndpoint ep (fun e => { e with state := 2, link := link, headSeen := false, due := none })).send
    (.report outConnect (toBytes 4 (queuePair ep) ++ toBytes 4 (s.fld Fld.cliDbKeyDbKey 0 0)))

def execConnectionRequest (t ep : Nat) (c : Caller) (s : State) : Host.Outcome State Fault Refusal :=
  let s := s.at t
  onUnit (validEp ep && validLink c.link)
    (whenever (s.mayConnect ep c.link && transportOk c.reliable c.mtu) (fun s => s.connect ep c.link) s)

/-- A transport timeout names no reset. -/
def execConnectionFail (t ep : Nat) (s : State) : Host.Outcome State Fault Refusal :=
  let s := s.at t
  onUnit (validEp ep) (whenever (decide (2 ≤ (s.endpoint ep).state)) (fun s => s.detach ep 0) s)

/-! ### Writes that are ignored (R421, R422, R441, R558) -/

def State.badDoorbell (s : State) (ep : Nat) (v : Word) : State :=
  let s := s.bump Fld.cliStatBadDoorbells 0 0
  let period := s.beat / 100
  if (s.endpoint ep).badPeriod = some period then s
  else (s.modEndpoint ep (fun e => { e with badPeriod := some period })).report (srcModule none) 0x7001 ep v.toNat

/-- The kind of message that tells of a remote access error on the connection of an endpoint. -/
def outAccess : Nat := 3

/-- R420, R423: what reaches the doorbell page of a connected endpoint. An aligned write of 8 bytes under the present key is
carried out; anything else completes with a remote access error. -/
def State.inPage (s : State) (ep : Nat) (key : BitVec 32) (ok : Bool) (f : State → State) : State :=
  if (s.endpoint ep).state < 2 then s
  else if ok ∧ s.fld Fld.cliDbKeyDbKey 0 0 = key.toNat then f s
  else s.send (.report outAccess (toBytes 4 (queuePair ep)))

/-! ### Doorbells (R421) -/

def State.doorbell (s : State) (ep : Nat) (v : Word) : State :=
  let e := s.endpoint ep
  let tail := getBits v 0 32
  let n := seqSub tail e.nextSub
  if e.subSize < n then s.badDoorbell ep v
  else if n ≤ seqSub e.tail e.nextSub then s
  else s.modEndpoint ep (fun e => { e with tail := tail })

/-! ### COMPLETION_HEAD (R422) and what it frees (Table 10-2) -/

/-- A released entry returns to FREE once the client has taken the final of its CLOSE, and its draft entry with it. -/
def State.freeClosed (s : State) (ep head : Nat) : State :=
  let done := s.entries.filter (fun e => e.2.ep == ep && e.2.state == eDone && !e.2.draft && e.2.closed.any (fun c => seqLt c head))
  done.foldl (fun (s : State) e =>
    let s := match s.draftOf e.1 with
      | some d => s.freeEntry d
      | none => s
    { s.freeEntry e.1 with mirrors := Map.del s.mirrors e.1 }) s

def State.takeHead (s : State) (ep : Nat) (v : Word) : State :=
  let e := s.endpoint ep
  let head := getBits v 0 32
  if seqLt head e.head ∨ seqLt e.nextCmp head then s.badDoorbell ep v
  else (s.modEndpoint ep (fun e => { e with head := head })).freeClosed ep head

/-! ### Replay (R442 to R444) -/

/-- The ledger from sequence `c` on: the first sequence without an entry. -/
def Endpoint.ledgerEnd (e : Endpoint) : Nat → Nat → Nat
  | 0, c => c
  | n + 1, c => if (Map.find e.ring (c % e.cmpSize)).any (fun x => x.c == c) then e.ledgerEnd n (seqAdd c 1) else c

/-- Where replay starts to read: the floor of the entry that the client read last; the first sequence when it has read
none. -/
def Endpoint.ledgerStart (e : Endpoint) (head : Nat) : Option Nat :=
  let last := seqSub head 1
  match (Map.find e.ring (last % e.cmpSize)).filter (fun x => x.c == last) with
  | some x => some x.floor
  | none => if head = e.first then some e.first else none

/-- One above the highest ring sequence with an ACCEPT or REJECT in the ring. -/
def Endpoint.ledgerSub (e : Endpoint) : Nat :=
  match (e.ring.filter (fun x => x.2.kind == 1 || x.2.kind == 3)).map (fun x => x.2.seq) with
  | [] => e.nextSub
  | a :: l => seqAdd (l.foldl (fun (m : Nat) x => if seqLt m x then x else m) a) 1

/-- Rewrites what a committed swath of a ring gave, and its OUTPUT entry. -/
def State.replayOutput (s : State) (ep f swath : Nat) (late : Bool) : State :=
  let mine := s.mirrors.filter (fun m => m.2.entry.ep == ep && m.2.entry.fold == f && m.2.swath == swath && !m.2.told)
  let jobs := mine.filter (fun m => !m.2.data.isEmpty)
  let s := jobs.foldl (fun (s : State) m => s.writeStream m.1 ep m.2.offset m.2.data) s
  let s := jobs.foldl (fun (s : State) m => s.writeHeader m.1 ep swath m.2.byItem) s
  let s := s.writeEntry ep { entryOf 4 (if late then stLate else stOk) 0 0 0xFFFFFFFF swath jobs.length with replayed := true }
  { s with mirrors := s.mirrors.map (fun (m : Nat × Mirror) =>
      if mine.any (fun x => x.1 == m.1) then (m.1, { m.2 with told := true }) else m) }

/-- Table 12-11 for one item. -/
def State.replayItem (s : State) (ep : Nat) (i : Item) : State :=
  let s := if namesStream i.opcode then
      (match Map.find s.mirrors i.entry with
       | some m => if m.told ∨ m.entry.ep ≠ ep then s else s.replayOutput ep m.entry.fold m.swath m.late
       | none => s)
    else if i.opcode = opLoad ∧ i.begun ∧ i.fin.isNone then (s.dropLoad ep i.seq).owe ep i.seq stReset 0 none
    else s
  s.finish ep i.seq true

/-- What the client's head lets replay read and write. Without room for RESUME, replay waits for the head to move. -/
def State.replay (s : State) (ep : Nat) (v : Word) : State :=
  let e := s.endpoint ep
  let head := getBits v 0 32
  match e.ledgerStart head with
  | none => s.badDoorbell ep v
  | some start =>
    if seqLt head e.head then s.badDoorbell ep v else
    let s := s.modEndpoint ep (fun e => { e with
      head := head, nextCmp := e.ledgerEnd e.cmpSize start, nextSub := e.ledgerSub, tail := e.ledgerSub })
    let e := s.endpoint ep
    if e.room < e.unresolved + 1 then s
    else
      let s := s.writeEntry ep { entryOf 5 0 0 0 0xFFFFFFFF 0 e.resumeClass with replayed := true }
      let s := e.items.foldl (fun (s : State) i => s.replayItem ep i) s
      (s.modEndpoint ep (fun e => { e with headSeen := true })).freeClosed ep head

def State.headWrite (s : State) (ep : Nat) (v : Word) : State :=
  if (s.endpoint ep).state = 2 ∧ ¬ (s.endpoint ep).headSeen then s.replay ep v else s.takeHead ep v

def execCompletionHead (t ep : Nat) (key : BitVec 32) (v : Word) (s : State) : Host.Outcome State Fault Refusal :=
  let s := s.at t
  onUnit (validEp ep) (s.inPage ep key true (fun s => s.headWrite ep v))

/-- What the endpoint came to owe while it replayed, the output of a swath that committed since among it, is written in replay
too. `bad` are the streams whose writes ended in an error (R433). -/
def State.replayDone (s : State) (ep : Nat) (bad : List Nat) : State :=
  let s := bad.foldl (fun (s : State) g => s.failOutput ep g) s
  let s := (s.endpoint ep).items.foldl (fun (s : State) i => s.replayItem ep i) s
  ((s.modEndpoint ep (fun e => { e with state := 3, resumeClass := 0 })).bump Fld.cliStatReplays 0 0).flushFinals ep

def execReplayDone (t : Nat) (a : Acked) (s : State) : Host.Outcome State Fault Refusal :=
  let s := s.at t
  onUnit (validEp a.ep)
    (whenever ((s.endpoint a.ep).state == 2 && (s.endpoint a.ep).headSeen) (fun s => s.replayDone a.ep a.bad) s)

/-! ### CREDIT_SLOT_WRITE (R441) -/

/-- The open stream of an endpoint that holds a credit slot. -/
def State.creditOf (s : State) (ep slot : Nat) : Option Nat :=
  (s.entries.find? (fun e => e.2.ep == ep && e.2.state != eFree && e.2.state != eDone && !e.2.draft && e.2.credit == slot)).map Prod.fst

def State.takeCredit (s : State) (ep g : Nat) (v : Word) : State :=
  let e := s.entry g
  if e.produced < v.toNat ∨ v.toNat < e.consumed then s.badDoorbell ep v
  else s.modEntry g (fun e => { e with consumed := v.toNat })

def State.creditWrite (s : State) (ep slot : Nat) (v : Word) : State :=
  match s.creditOf ep slot with
  | some g => s.takeCredit ep g v
  | none => s

def execCreditSlotWrite (t ep : Nat) (key : BitVec 32) (slot : Nat) (v : Word) (s : State) : Host.Outcome State Fault Refusal :=
  let s := s.at t
  onUnit (validEp ep && decide (slot < 504)) (s.inPage ep key true (fun s => s.creditWrite ep slot v))

/-! ### SUBMISSION_DOORBELL (R421), and every access to the page (R420) -/

/-- Table 12-2: an aligned write of 8 bytes. While an endpoint replays no doorbell is served. -/
def State.pageWrite (s : State) (ep off : Nat) (v : Word) : State :=
  if off = 0 then whenever (s.endpoint ep).attached (fun s => s.doorbell ep v) s
  else if off = 8 then s.headWrite ep v
  else if off < 64 then s
  else s.creditWrite ep ((off - 64) / 8) v

def execSubmissionDoorbell (t ep : Nat) (key : BitVec 32) (a : PageAccess) (s : State) :
    Host.Outcome State Fault Refusal :=
  let s := s.at t
  onUnit (validEp ep) (s.inPage ep key (a.verb == .write && a.len == 8 && a.off % 8 == 0 && decide (a.off < 4096))
    (fun s => s.pageWrite ep a.off a.v))

/-! ### The checks before acceptance (R426, R428, Tables 12-3 to 12-6) -/

/-- The bytes `lo` to `hi − 1` of a descriptor are zero. -/
def zeroBytes (d : BitVec 512) (lo hi : Nat) : Bool := descBytes d lo (hi - lo) == 0

def descOp (d : BitVec 512) : Nat := descBytes d 0 1
def descModel (d : BitVec 512) : Nat := descBytes d 2 2
def descSeq (d : BitVec 512) : Nat := descBytes d 4 4
def descHandle (d : BitVec 512) : Nat := descBytes d 8 4
def descCount (d : BitVec 512) : Nat := descBytes d 12 4

def knownOp (op : Nat) : Bool := (decide (1 ≤ op) && decide (op ≤ 6)) || [0x10, 0x11, 0x20, 0x21, 0x30, 0x31].contains op
def namesModel (op : Nat) : Bool := op == opOpen || op == opLoad || op == opUnload
def isSetupOp (op : Nat) : Bool := op == opSetupRead || op == opSetupWrite

def flagsOk (op flags : Nat) : Bool :=
  if op = opOpen then decide (flags ≤ 1)
  else if op = opLoad then flags % 2 ^ 8 &&& 0xFA == 0
  else if op = opUnload then flags &&& 0xFD == 0
  else flags == 0

def countOk (op n : Nat) : Bool :=
  if op = opAppend ∨ op = opAdapt then true
  else if op = opGenerate then decide (1 ≤ n)
  else if op = opVerify then decide (1 ≤ n) && decide (n ≤ 16)
  else n == 0

/-- The parameters of an opcode lie in their ranges, and what it does not use is zero (Table 12-5). -/
def paramsOk (d : BitVec 512) : Bool :=
  let op := descOp d
  if op = opOpen then
    decide (descBytes d 48 2 ≤ 4095) && decide (descBytes d 50 2 ≤ 1023) && decide (descBytes d 52 2 ≤ 503) &&
    decide (descBytes d 54 1 / 16 ≤ 2) && zeroBytes d 55 64
  else if op = opAppend then
    decide (descBytes d 40 1 ≤ 2) && decide (descBytes d 41 1 ≤ 3) && zeroBytes d 42 44 && zeroBytes d 48 64
  else if op = opGenerate then zeroBytes d 56 64
  else if op = opVerify then zeroBytes d 40 64
  else if op = opAdapt then zeroBytes d 44 64 && (f32 (descBytes d 40 4)).isFin && !f32Lt (descBytes d 40 4) 0
  else if op = opLoad then zeroBytes d 37 40 && zeroBytes d 48 64
  else if op = opQuery then
    decide (descBytes d 32 1 ≤ 3) && zeroBytes d 33 34 && decide (descBytes d 34 2 ≤ 4095) && zeroBytes d 40 64
  else if op = opSetupRead then zeroBytes d 40 48
  else op == opSetupWrite || zeroBytes d 32 64

def hasBuffer (op : Nat) : Bool :=
  [opOpen, opAppend, opVerify, opAdapt, opLoad, opQuery, opSetupRead].contains op

/-- Check 2. -/
def formOk (d : BitVec 512) : Bool :=
  let op := descOp d
  knownOp op && flagsOk op (descBytes d 1 1) && countOk op (descCount d) &&
  (if namesModel op then decide (1 ≤ descModel d) && decide (descModel d ≤ 4095) else descModel d == 0) &&
  (namesStream op || descHandle d == 0xFFFFFFFF) && (hasBuffer op || zeroBytes d 16 32) && paramsOk d

/-- Check 3: the handle carries the tag of an entry that is not FREE, and that a client may name. -/
def State.handleOk (s : State) (h : Nat) : Bool :=
  let e := s.entry (h % 65536)
  decide (h % 65536 < 32768) && e.state != eFree && e.gen == h / 65536 && !e.draft

/-- R446: the GMAC tag over descriptor bytes 0 to 47 under the endpoint's setup key. -/
def State.gmacOk (s : State) (ep : Nat) (d : BitVec 512) : Bool :=
  match Map.find s.sec.setupKeys (s.endpoint ep).slot with
  | none => false
  | some (key, n) =>
    gcmTag key (toBytesBE 4 ep ++ toBytesBE 4 (descSeq d) ++ toBytesBE 4 n) (toBytes 48 d.toNat) [] ==
      toBytes 16 (descBytes d 48 16)

/-- Check 5, and R445: a setup endpoint holds no streams. -/
def Endpoint.permits (e : Endpoint) (op : Nat) : Bool :=
  if e.setup then op == opQuery || op == opFence || isSetupOp op
  else !isSetupOp op && (e.models || !(op == opLoad || op == opUnload))

/-- Check 8: the model, its adapter, and the parent of an OPEN_STREAM. -/
def State.openStatus (s : State) (d : BitVec 512) : Nat :=
  let h := descModel d
  let a := descBytes d 48 2
  let p := descBytes d 40 4
  let ready := fun (h : Nat) (ok : Model → Bool) => (Map.find s.models h).any (fun m => m.state == 2 && ok m)
  if ¬ ready h (fun m => !m.adapter) ∨ (a ≠ 0 ∧ ¬ ready a (fun m => m.adapter && m.base == h)) then stNoModel
  else if p = 0 then 0
  else
    let e := s.entry (p % 65536)
    if s.handleOk p ∧ e.model = h ∧ e.adapter = a ∧ descBytes d 44 4 ≤ e.c then 0 else stDescriptor

/-- The status of the first check that fails, or zero. -/
def State.checkDesc (s : State) (ep : Nat) (d : BitVec 512) : Nat :=
  let e := s.endpoint ep
  let op := descOp d
  if descSeq d ≠ e.nextSub then stDescriptor
  else if ¬ formOk d then stDescriptor
  else if namesStream op ∧ ¬ s.handleOk (descHandle d) then stDescriptor
  else if namesStream op ∧ (s.entry (descHandle d % 65536)).ep ≠ ep then stNotAuth
  else if ¬ e.permits op then stNotAuth
  else if isSetupOp op ∧ ¬ s.gmacOk ep d then stNotAuth
  else if isSetupOp op ∧ ¬ e.isOpen then stClosed
  else if op = opOpen then s.openStatus d
  else 0

/-! ### DESCRIPTOR_FETCH, ACCEPT, REJECT, CARRIED_ACCEPT (R428 to R430, R436 to R438) -/

def State.mayFetch (s : State) (ep : Nat) : Bool :=
  let e := s.endpoint ep
  e.attached && e.due.isNone && e.tail != e.nextSub

/-- R419: the read of the submission slot that is due. -/
def Endpoint.fetchOut (e : Endpoint) (ep : Nat) : Out :=
  .fetch ep ((e.subVa.toNat + 64 * (e.nextSub % e.subSize)) % 2 ^ 64) (getBits e.keys 32 32) 64

def execDescriptorFetch (t ep : Nat) (d : BitVec 512) (s : State) : Host.Outcome State Fault Refusal :=
  let s := s.at t
  onUnit (validEp ep) (whenever (s.mayFetch ep) (fun s =>
    let st := s.checkDesc ep d
    (s.send ((s.endpoint ep).fetchOut ep)).modEndpoint ep (fun e => { e with due := some (d, st) })) s)

/-- The handle that an entry shows: the stream that the descriptor names. -/
def shownHandle (d : BitVec 512) : Nat := if namesStream (descOp d) then descHandle d else 0xFFFFFFFF

/-- A descriptor that is accepted, as an item. -/
def makeItem (d : BitVec 512) (now c : Nat) : Item :=
  { seq := descSeq d, opcode := descOp d, flags := descBytes d 1 1, desc := d, at0 := now, cseq := c, begun := false,
    left := 0, value := 0, placed := false, status := none, data := [], fin := none }

/-- A model record while its first load runs. -/
def loadingModel (f : Nat) (item : Nat × Nat) : Model :=
  { Model.reset with state := 1, cur := { Copy.reset with fold := f }, loading := some item }

/-- Table 11-7: a load begins, or is refused. -/
def State.startLoad (s : State) (ep : Nat) (i : Item) : State :=
  let a := loadAsk i.desc
  let begin := s.modItem ep i.seq (fun i => { i with begun := true })
  match Map.find s.models a.handle with
  | none => { begin with models := Map.put s.models a.handle (loadingModel a.fold (ep, i.seq)) }
  | some m =>
    if ¬ a.replace then s.complete ep i.seq stDescriptor 0 none
    else if m.state ≠ 2 ∨ m.loading.isSome ∨ m.next.isSome then s.complete ep i.seq stBusy 0 none
    else begin.modModel a.handle (fun m => { m with loading := some (ep, i.seq) })

/-- How an item ends that comes after the CLOSE of its stream: refused; that of a lost stream as R362 says. -/
def State.afterClose (s : State) (g : Nat) (i : Item) : Nat :=
  if ¬ (s.entry g).lost then stDescriptor else if i.opcode = opClose then stOk else stStateLost

/-- What acceptance starts: a stream's entry takes its state; an item of a stream that is closed is refused; a load
begins, except in Standby (R597). -/
def State.afterAccept (s : State) (ep : Nat) (i : Item) : State :=
  if namesStream i.opcode then
    (if (s.entry i.entry).state = eDone then s.complete ep i.seq (s.afterClose i.entry i) (s.itemSwath i) none else s.settleEntry i.entry)
  else if i.opcode = opLoad ∧ s.mayWake then s.startLoad ep i
  else s

def State.acceptDesc (s : State) (ep : Nat) (d : BitVec 512) : State :=
  let c := (s.endpoint ep).nextCmp
  let i := makeItem d s.now c
  let s := s.modEndpoint ep (fun e => { e with items := e.items ++ [i], due := none, nextSub := seqAdd e.nextSub 1 })
  (s.writeEntry ep (entryOf 1 0 i.opcode i.seq (shownHandle d) (s.itemSwath i) 0)).afterAccept ep i

def execAccept (t ep : Nat) (s : State) : Host.Outcome State Fault Refusal :=
  let s := s.at t
  let e := s.endpoint ep
  onUnit (validEp ep) (match e.due with
    | some (d, 0) => whenever (e.attached && decide (e.unresolved + 3 ≤ e.room)) (fun s => s.acceptDesc ep d) s
    | _ => s)

/-- A REJECT takes the descriptor's place in submission order, under the sequence that was due. -/
def State.rejectDesc (s : State) (ep : Nat) (d : BitVec 512) (st : Nat) : State :=
  let seq := (s.endpoint ep).nextSub
  let s := s.modEndpoint ep (fun e => { e with due := none, nextSub := seqAdd e.nextSub 1 })
  (s.writeEntry ep (entryOf 3 st (descOp d) seq (shownHandle d) 0 0)).bump Fld.cliStatRejected 0 0

def execReject (t ep : Nat) (s : State) : Host.Outcome State Fault Refusal :=
  let s := s.at t
  let e := s.endpoint ep
  onUnit (validEp ep) (match e.due with
    | some (d, st) => whenever (st != 0 && e.attached && decide (e.unresolved + 2 ≤ e.room)) (fun s => s.rejectDesc ep d st) s
    | none => s)

/-- The item with the oldest ACCEPT. -/
def Endpoint.oldest (e : Endpoint) : Option Item := e.items.find? (fun i => seqSub e.nextCmp i.cseq == e.reach e.nextCmp)

/-- The ACCEPT is copied to next_cmp, and holds the ring from there. -/
def State.carry (s : State) (ep : Nat) (i : Item) : State :=
  let e := s.endpoint ep
  match Map.find e.ring (i.cseq % e.cmpSize) with
  | none => s
  | some x =>
    let s := s.modItem ep i.seq (fun i => { i with cseq := e.nextCmp })
    (s.writeEntry ep { x with carried := true }).bump Fld.cliStatCarries 0 0

def execCarriedAccept (t ep : Nat) (s : State) : Host.Outcome State Fault Refusal :=
  let s := s.at t
  let e := s.endpoint ep
  onUnit (validEp ep) (match e.oldest with
    | some i => whenever (e.attached && decide (e.room < e.unresolved + 3) && seqLt i.cseq e.head &&
        decide (e.unresolved + 1 ≤ e.room)) (fun s => s.carry ep i) s
    | none => s)

end Sys2Proof.Machine
end

