-- ==== Sys2Proof/Machine/Scalar.lean ====
section
/-! DEFINITION. NOP, the scalar ALU and the branches (Tables 03-6 and 03-7). -/

namespace Sys2Proof.Machine

/-- NOP stands in either slot and changes nothing (R82). -/
def nopOp : Op :=
  { cls := 0x00, fn := 0, inA := true, inB := true, dst := none, srcs := [], legal := true, whole := true, room := true,
    run := fun _ s => .ok s }

/-! ### The scalar ALU, in the places of Table 03-6: a form with .I follows the one without. -/

/-- A scalar instruction: slot A, scalar sources, a scalar destination, a fixed latency. -/
def scalarOp (o : CoreOp) (fn : Nat) (srcs : List Nat) (lat : Nat) (val : Files → Word) : Op :=
  { cls := 0x01, fn := fn, inA := true, inB := false, dst := some (sCode o.d), srcs := srcs.map sCode,
    legal := decide (o.d < 32) && srcs.all (fun n => decide (n < 32)), whole := true, room := true,
    run := fun f s => .ok (s.putS o.core o.d (val f) lat), idle := fun _ s => .ok (s.readyNoSooner o.core (sCode o.d) (s.now + lat)) }

def evalAddOp (k : AddOp) (a b : Word) : Word :=
  match k with
  | .add => a + b
  | .sub => a - b
  | .and => a &&& b
  | .or => a ||| b
  | .xor => a ^^^ b

/-- Shifts take the low six bits of their count. -/
def evalShiftOp (k : ShiftOp) (a n : Word) : Word :=
  match k with
  | .shl => a <<< (n.toNat % 64)
  | .shr => a >>> (n.toNat % 64)
  | .sra => a.sshiftRight (n.toNat % 64)

def evalMinOp (k : MinOp) (a b : Word) : Word :=
  match k with
  | .min => if a.slt b then a else b
  | .max => if a.slt b then b else a
  | .minu => if a.ult b then a else b
  | .maxu => if a.ult b then b else a

/-- The low 64 bits, or the high 64 bits signed or unsigned, of the 128-bit product. -/
def evalMulOp (k : MulOp) (a b : Word) : Word :=
  match k with
  | .mul => a * b
  | .mulh => BitVec.extractLsb' 64 64 (a.signExtend 128 * b.signExtend 128)
  | .mulhu => BitVec.extractLsb' 64 64 (a.setWidth 128 * b.setWidth 128)

def relHolds (r : Rel) (a b : Word) : Bool :=
  match r with
  | .eq => a == b
  | .ne => a != b
  | .lt => a.slt b
  | .ltu => a.ult b
  | .ge => !a.slt b
  | .geu => !a.ult b

def addOp (o : CoreOp) (k : AddOp) (i : Bool) : Op :=
  scalarOp o (2 * k.ctorIdx + i.toNat) (if i then [o.a] else [o.a, o.b]) 1 (fun f => evalAddOp k (f.s o.a) (if i then o.i else f.s o.b))
def shiftOp (o : CoreOp) (k : ShiftOp) (i : Bool) : Op :=
  scalarOp o (10 + 2 * k.ctorIdx + i.toNat) (if i then [o.a] else [o.a, o.b]) 1 (fun f => evalShiftOp k (f.s o.a) (if i then o.i else f.s o.b))
def minOp (o : CoreOp) (k : MinOp) : Op := scalarOp o (16 + k.ctorIdx) [o.a, o.b] 1 (fun f => evalMinOp k (f.s o.a) (f.s o.b))
def mulOp (o : CoreOp) (k : MulOp) : Op := scalarOp o (20 + k.ctorIdx) [o.a, o.b] 3 (fun f => evalMulOp k (f.s o.a) (f.s o.b))
def liOp (o : CoreOp) : Op := scalarOp o 23 [] 1 (fun _ => o.i)
/-- sD[63:22] = sA[41:0], sD[21:0] = imm. -/
def luiOp (o : CoreOp) : Op := scalarOp o 24 [o.a] 1 (fun f => BitVec.extractLsb' 0 42 (f.s o.a) ++ o.imm)

/-- pD is all ones if the relation holds, else zero. -/
def cmpOp (o : CoreOp) (r : Rel) : Op :=
  { cls := 0x01, fn := 25 + r.ctorIdx, inA := true, inB := false, dst := some (pCode o.d), srcs := [sCode o.a, sCode o.b],
    legal := decide (o.d < 8) && decide (o.a < 32) && decide (o.b < 32), whole := true, room := true,
    run := fun f s => .ok (s.putP o.core o.d (if relHolds r (f.s o.a) (f.s o.b) then BitVec.allOnes 64 else 0) 1),
    idle := fun _ s => .ok (s.readyNoSooner o.core (pCode o.d) (s.now + 1)) }

/-- Table 03-7. -/
def sysValue (s : State) (c i : Nat) : Nat :=
  let f := (s.foldOf (clusterOf c)).getD 0
  match i with
  | 0 => c
  | 1 => f
  | 2 => (s.fold f).swath
  | 3 => s.swathTick f
  | 4 => s.beat
  | 5 => s.planeTicks + 4 * s.fld Fld.cluThmFreqStep (clusterOf c) 0
  | _ => s.fld Fld.timFoldCfgMode 0 f

/-- R90: an imm above 6 is illegal. -/
def sysRdOp (o : CoreOp) (s : State) : Op :=
  let v := BitVec.ofNat 64 (sysValue s o.core o.u)
  { scalarOp o 31 [] 1 (fun _ => v) with legal := decide (o.d < 32) && decide (o.u < 7) }

/-! ### Branches. The program counter is a 12-bit bundle index (R77). A taken branch costs 2 idle ticks, a taken LOOP none
(R80). A gated-off instruction takes the time of an active one (R85). -/

def branchOp (fn : Nat) (dst : Option Nat) (srcs : List Nat) (legal : Bool) (run : Files → State → Done) : Op :=
  { cls := 0x02, fn := fn, inA := true, inB := false, dst := dst, srcs := srcs, legal := legal, whole := false, room := true, run := run }

def State.nextPc (s : State) (c : Nat) : Nat := (s.core c).pc + 1

/-- The program counter plus a signed displacement. -/
def State.pcPlus (s : State) (c : Nat) (d : Word) : Nat := ((s.core c).pc + d.toNat) % 4096

def brOp (o : CoreOp) : Op :=
  branchOp 0 none [] true (fun f s =>
    .jump s (if (o.gate f).getLsbD 0 then s.pcPlus o.core o.i else s.nextPc o.core) 2)

def brPOp (o : CoreOp) : Op :=
  branchOp 1 none [] true (fun f s =>
    if (o.gate f).getLsbD 0 then .jump s (s.pcPlus o.core o.i) 2 else .jump s (s.nextPc o.core) 0)

/-- sA −= 1; when sA ≠ 0, branch to imm. The register names sA also as its destination. -/
def loopOp (o : CoreOp) : Op :=
  branchOp 2 (some (sCode o.a)) [sCode o.a] (decide (o.a < 32)) (fun f s =>
    if (o.gate f).getLsbD 0 then
      let left := if o.a = 0 then 0 else f.s o.a - 1
      .jump (s.putS o.core o.a left 1) (if left = 0 then s.nextPc o.core else o.u % 4096) 0
    else .jump s (s.nextPc o.core) 0)

def jalOp (o : CoreOp) : Op :=
  branchOp 3 (some (sCode o.d)) [] (decide (o.d < 32)) (fun f s =>
    if (o.gate f).getLsbD 0 then
      .jump (s.putS o.core o.d (BitVec.ofNat 64 (s.nextPc o.core)) 1) (o.u % 4096) 2
    else .jump s (s.nextPc o.core) 2)

def jrOp (o : CoreOp) : Op :=
  branchOp 4 none [sCode o.a] (decide (o.a < 32)) (fun f s =>
    .jump s (if (o.gate f).getLsbD 0 then (f.s o.a).toNat % 4096 else s.nextPc o.core) 2)

end Sys2Proof.Machine
end

