-- ==== Sys2Proof/Machine/Vector.lean ====
section
/-! DEFINITION. The vector instructions (Table 03-8, R91, R230, R621 to R624). -/

namespace Sys2Proof.Machine

/-! ### Lanes -/

def laneWidth : LaneType → Nat
  | .i8 => 8
  | .i32 => 32
  | .f8e4 => 8
  | .f8e5 => 8
  | .b16 => 16
  | .f32 => 32

def laneCount (ty : LaneType) : Nat := 512 / laneWidth ty

/-- The floating format of a lane; none for an integer lane. -/
def laneFmt : LaneType → Option Fmt
  | .i8 => none
  | .i32 => none
  | .f8e4 => some e4m3
  | .f8e5 => some e5m2
  | .b16 => some bf16
  | .f32 => some fp32

/-- The bit pattern of lane `i` of `w` bits. -/
def lane (v : Vec) (w i : Nat) : Nat := v.toNat / 2 ^ (w * i) % 2 ^ w

/-- The register whose lanes, from lane 0 on, are the given patterns. -/
def lanesNat (w : Nat) : List Nat → Nat
  | [] => 0
  | x :: r => x % 2 ^ w + 2 ^ w * lanesNat w r
def ofLanes (w : Nat) (l : List Nat) : Vec := BitVec.ofNat 512 (lanesNat w l)

/-- R85: lanes whose lowest byte's predicate bit is 0 keep what the destination held. -/
def gated (g : Word) (w : Nat) (old : Vec) (new : Nat → Nat) : Vec :=
  ofLanes w ((List.range (512 / w)).map (fun i => if g.getLsbD (w / 8 * i) then new i else lane old w i))

/-- A lane-wise operation, on integers or on floating numbers; its result is saturated or rounded once (R91). -/
def laneOp (ty : LaneType) (fi : List Int → Int) (ff : List FV → FV) (xs : List Nat) : Nat :=
  match laneFmt ty with
  | none => ofSigned (laneWidth ty) (saturate (laneWidth ty) (fi (xs.map (toSigned (laneWidth ty)))))
  | some f => f.write true (ff (xs.map (f.read true)))

/-! ### The shape of a vector instruction: slot B, gated by lanes -/

/-- The place of operation `n` of Table 03-8 with a type. -/
def vecPlace (n : Nat) (ty : LaneType) : Nat := 6 * n + ty.ctorIdx

def vecOp (o : CoreOp) (n : Nat) (ty : LaneType) (srcs : List Nat) (legal : Bool) (lat : Nat) (new : Files → Nat → Nat) : Op :=
  { cls := 0x03, fn := vecPlace n ty, inA := false, inB := true, dst := some (vCode o.d), srcs := srcs.map vCode,
    legal := legal && decide (o.d < 32) && srcs.all (fun n => decide (n < 32)), whole := false, room := true,
    run := fun f s => .ok (s.putV o.core o.d (gated (o.gate f) (laneWidth ty) (f.v o.d) (new f)) lat) }

def isInt (ty : LaneType) : Bool := (laneFmt ty).isNone
def argLane (f : Files) (ty : LaneType) (n i : Nat) : Nat := lane (f.v n) (laneWidth ty) i

def sumInt (l : List Int) : Int := l.foldl (· + ·) 0
def pick2 (g : Int → Int → Int) (l : List Int) : Int := g (l.getD 0 0) (l.getD 1 0)
def pickF2 (g : FV → FV → FV) (l : List FV) : FV := g (l.getD 0 .nan) (l.getD 1 .nan)

def evalVAdd (k : VAddOp) (ty : LaneType) (a b : Nat) : Nat :=
  match k with
  | .add => laneOp ty (pick2 (· + ·)) (pickF2 FV.add) [a, b]
  | .sub => laneOp ty (pick2 (· - ·)) (pickF2 (fun x y => x.add y.negate)) [a, b]
  | .min => laneOp ty (pick2 Min.min) (pickF2 FV.min) [a, b]
  | .max => laneOp ty (pick2 Max.max) (pickF2 FV.max) [a, b]

def vAddOp (o : CoreOp) (k : VAddOp) (ty : LaneType) : Op :=
  vecOp o k.ctorIdx ty [o.a, o.b] true (if isInt ty then 2 else 4)
    (fun f i => evalVAdd k ty (argLane f ty o.a i) (argLane f ty o.b i))

/-- The bit operations; a count at or above the lane width shifts every bit out (R622). -/
def evalVBit (k : VBitOp) (w : Nat) (a b n : Nat) : Nat :=
  match k with
  | .and => Nat.land a b
  | .or => Nat.lor a b
  | .xor => Nat.xor a b
  | .shl => a * 2 ^ n % 2 ^ w
  | .shr => a / 2 ^ n
  | .sra => ofSigned w (toSigned w a / 2 ^ n)

def VBitOpIsShift : VBitOp → Bool
  | .shl => true
  | .shr => true
  | .sra => true
  | _ => false

def vAndOp (o : CoreOp) (k : VBitOp) (ty : LaneType) : Op :=
  vecOp o (4 + k.ctorIdx) ty (if VBitOpIsShift k then [o.a] else [o.a, o.b]) (isInt ty && (!VBitOpIsShift k || decide (o.u < 64))) 2
    (fun f i => evalVBit k (laneWidth ty) (argLane f ty o.a i) (argLane f ty o.b i) o.u)

/-- V.MUL, and V.FMA, which adds vC and rounds once (R230). -/
def vMulOp (o : CoreOp) (fma : Bool) (ty : LaneType) : Op :=
  vecOp o (10 + fma.toNat) ty (if fma then [o.a, o.b, o.c] else [o.a, o.b]) true 4 (fun f i =>
    laneOp ty (fun l => l.getD 0 0 * l.getD 1 0 + (if fma then l.getD 2 0 else 0))
      (fun l => let p := (l.getD 0 .nan).mul (l.getD 1 .nan); if fma then p.add (l.getD 2 .nan) else p)
      [argLane f ty o.a i, argLane f ty o.b i, argLane f ty o.c i])

/-- V.CMP of two lanes: false when either is NaN. −0 equals +0. -/
def evalVRel (r : VRel) (ty : LaneType) (a b : Nat) : Bool :=
  match laneFmt ty with
  | none =>
    let x := toSigned (laneWidth ty) a
    let y := toSigned (laneWidth ty) b
    match r with
    | .eq => x == y
    | .lt => decide (x < y)
    | .le => decide (x ≤ y)
  | some f =>
    let x := f.read true a
    let y := f.read true b
    if x.isNan || y.isNan then false
    else match r with
      | .eq => !FV.lt false x y && !FV.lt false y x
      | .lt => FV.lt false x y
      | .le => !FV.lt false y x

/-- pD, gated bit by bit (R85). -/
def vCmpOp (o : CoreOp) (r : VRel) (ty : LaneType) : Op :=
  { cls := 0x03, fn := vecPlace (12 + r.ctorIdx) ty, inA := false, inB := true, dst := some (pCode o.d), srcs := [vCode o.a, vCode o.b],
    legal := decide (o.d < 8) && decide (o.a < 32) && decide (o.b < 32), whole := false, room := true,
    run := fun f s =>
      let n := lanesNat 1 ((List.range 64).map (fun i =>
        let j := i / (laneWidth ty / 8)
        if evalVRel r ty (argLane f ty o.a j) (argLane f ty o.b j) then 1 else 0))
      let g := o.gate f
      .ok (s.putP o.core o.d ((BitVec.ofNat 64 n &&& g) ||| (f.p o.d &&& ~~~ g)) 2) }

/-- V.SEL writes every byte of vD; its predicate selects and does not gate (R85). -/
def vSelOp (o : CoreOp) (ty : LaneType) : Op :=
  { vecOp o 15 ty [o.a, o.b] true 2 (fun _ _ => 0) with
    run := fun f s =>
      let w := laneWidth ty
      let v := ofLanes w ((List.range (512 / w)).map (fun i =>
        if (o.gate f).getLsbD (w / 8 * i) then lane (f.v o.a) w i else lane (f.v o.b) w i))
      .ok (s.putV o.core o.d v 2) }

/-! ### V.CVT (R623) -/

def laneTypeOf : Nat → Option LaneType
  | 0 => some .i8
  | 1 => some .i32
  | 2 => some .f8e4
  | 3 => some .f8e5
  | 4 => some .b16
  | 5 => some .f32
  | _ => none

/-- Converts a lane under R225 to R228; a conversion between equal types copies it. -/
def convertLane (src dst : LaneType) (x : Nat) : Nat :=
  if src = dst then x
  else match laneFmt src, laneFmt dst with
    | none, none => ofSigned (laneWidth dst) (saturate (laneWidth dst) (toSigned (laneWidth src) x))
    | none, some g => g.write true (.ofInt (toSigned (laneWidth src) x))
    | some f, none => ofSigned (laneWidth dst) (FV.toInt (laneWidth dst) (f.read true x))
    | some f, some g => g.write true (f.read true x)

/-- Which source lane feeds destination lane `i`, for part `k`. -/
def cvtLane (ns nd k i : Nat) : Option Nat :=
  if nd ≤ ns then some (nd * k + i) else if ns * k ≤ i ∧ i < ns * k + ns then some (i - ns * k) else none

def cvtParts (ns nd : Nat) : Nat := if nd < ns then ns / nd else nd / ns

def vCvtOp (o : CoreOp) (ty : LaneType) : Op :=
  let k := o.u / 8 % 4
  match laneTypeOf (o.u % 8) with
  | none => vecOp o 16 ty [o.a] false 3 (fun _ _ => 0)
  | some src =>
    vecOp o 16 ty [o.a] (decide (k < cvtParts (laneCount src) (laneCount ty)) && decide (o.u < 32)) 3 (fun f i =>
      match cvtLane (laneCount src) (laneCount ty) k i with
      | some j => convertLane src ty (argLane f src o.a j)
      | none => argLane f ty o.d i)

/-! ### V.EXP2, V.RCP, V.RSQRT (R230) -/

def funNo : VFun → Nat
  | .exp2 => 0
  | .rcp => 1
  | .rsqrt => 2

/-- The exact value, with a sticky bit where it is not dyadic; none where the manual states no value. -/
def funValue (k : VFun) (x : FV) : Option Dy :=
  match k, x with
  | .exp2, .fin _ _ _ => if x.exp2.isFin then some x.exp2.dy else some ⟨1, 2000⟩
  | .rcp, .fin _ m _ => if m = 0 then none else some ((Dy.ofInt 1).quot x.dy)
  | .rsqrt, .fin n m _ => if m = 0 ∨ n then none else some ((Dy.ofInt 1).quot (Dy.sqrt x.dy))
  | _, _ => none

/-- The codes of the format within one unit in the last place of an exact magnitude: the two neighbours, and for a value
that the format holds exactly also the one below. -/
def ulpCodes (f : Fmt) (d : Dy) : List Nat :=
  let c := f.magnitude d.m.natAbs d.e
  let v := (f.read false c).dy
  let a : Dy := ⟨d.m.natAbs, d.e⟩
  if v.lt a then [c, c + 1] else if a.lt v then [c - 1, c] else [c, c + 1, c - 1]

def evalVFun (k : VFun) (f : Fmt) (x : Nat) : Nat :=
  let v := f.read true x
  if v.isNan then f.nanCode
  else match funValue k v with
    | none => Config.funBits (funNo k) x % 2 ^ f.width
    | some d =>
      let cs := (ulpCodes f d).map (fun c => if f.maxCode < c then f.maxCode + 1 else if c < 2 ^ f.mb then 0 else c)
      cs.getD (Config.ulpPick (funNo k) x % cs.length) 0 + (if d.m < 0 then 2 ^ (f.eb + f.mb) else 0)

def vExp2Op (o : CoreOp) (k : VFun) (ty : LaneType) : Op :=
  match ty, laneFmt ty with
  | .b16, some f => vecOp o (17 + k.ctorIdx) ty [o.a] true 8 (fun r i => evalVFun k f (argLane r ty o.a i))
  | .f32, some f => vecOp o (17 + k.ctorIdx) ty [o.a] true 8 (fun r i => evalVFun k f (argLane r ty o.a i))
  | _, _ => vecOp o (17 + k.ctorIdx) ty [o.a] false 8 (fun _ _ => 0)

/-! ### Reductions and moves -/

/-- V.RED.ADD forms the exact sum and rounds once; V.RED.MAX is NaN when any lane is. -/
def evalVRed (isMax : Bool) (ty : LaneType) (xs : List Nat) : Nat :=
  if isMax then
    laneOp ty (fun l => l.foldl Max.max (l.getD 0 0)) (fun l => l.foldl FV.max (l.getD 0 .nan)) xs
  else laneOp ty sumInt FV.sum xs

def vRedOp (o : CoreOp) (isMax : Bool) (ty : LaneType) : Op :=
  vecOp o (20 + isMax.toNat) ty [o.a] true 6 (fun f i =>
    if i = 0 then evalVRed isMax ty ((List.range (laneCount ty)).map (argLane f ty o.a)) else 0)

/-- The index is the lowest byte of vB's lane, modulo the lane count (R624). -/
def vShufOp (o : CoreOp) (ty : LaneType) : Op :=
  vecOp o 22 ty [o.a, o.b] true 3 (fun f i => argLane f ty o.a (argLane f ty o.b i % 256 % laneCount ty))

/-- sA as a lane: saturated for an integer type, the low bits for a floating one (R624). -/
def laneOfS (ty : LaneType) (x : Word) : Nat :=
  if isInt ty then ofSigned (laneWidth ty) (saturate (laneWidth ty) x.toInt) else x.toNat % 2 ^ laneWidth ty

def vBcastOp (o : CoreOp) (ty : LaneType) : Op :=
  let op := vecOp o 23 ty [] (decide (o.a < 32)) 2 (fun f _ => laneOfS ty (f.s o.a))
  { op with srcs := [sCode o.a] }

def vInsOp (o : CoreOp) (ty : LaneType) : Op :=
  let op := vecOp o 25 ty [] (decide (o.a < 32) && decide (o.u < laneCount ty)) 2 (fun f i =>
    if i = o.u then laneOfS ty (f.s o.a) else argLane f ty o.d i)
  { op with srcs := [sCode o.a] }

/-- V.EXT is gated whole by bit 0 (R85). -/
def vExtOp (o : CoreOp) (ty : LaneType) : Op :=
  { cls := 0x03, fn := vecPlace 24 ty, inA := false, inB := true, dst := some (sCode o.d), srcs := [vCode o.a],
    legal := decide (o.d < 32) && decide (o.a < 32) && decide (o.u < laneCount ty), whole := true, room := true,
    run := fun f s =>
      let x := argLane f ty o.a o.u
      .ok (s.putS o.core o.d (if isInt ty then BitVec.ofInt 64 (toSigned (laneWidth ty) x) else BitVec.ofNat 64 x) 2),
    idle := fun _ s => .ok (s.readyNoSooner o.core (sCode o.d) (s.now + 2)) }

end Sys2Proof.Machine
end

