-- ==== Sys2Proof/Machine/Cores.lean ====
section
/-! DEFINITION. The instructions of the compute core as commands: what each asks of issue, and the bundle it belongs to
(R77 to R79, R132). -/

namespace Sys2Proof.Machine

/-- The fields of a core instruction and its operation; none for every other command. -/
def coreOp : Instr → Option (CoreOp × (State → Op))
  | .nop _ o => some (o, fun _ => nopOp)
  | .add _ o f i => some (o, fun _ => addOp o f i)
  | .shl _ o f i => some (o, fun _ => shiftOp o f i)
  | .min _ o f => some (o, fun _ => minOp o f)
  | .mul _ o f => some (o, fun _ => mulOp o f)
  | .li _ o => some (o, fun _ => liOp o)
  | .lui _ o => some (o, fun _ => luiOp o)
  | .cmp _ o r => some (o, fun _ => cmpOp o r)
  | .sysRd _ o => some (o, sysRdOp o)
  | .br _ o => some (o, fun _ => brOp o)
  | .brP _ o => some (o, fun _ => brPOp o)
  | .loop _ o => some (o, fun _ => loopOp o)
  | .jal _ o => some (o, fun _ => jalOp o)
  | .jr _ o => some (o, fun _ => jrOp o)
  | .vAdd _ o f ty => some (o, fun _ => vAddOp o f ty)
  | .vAnd _ o f ty => some (o, fun _ => vAndOp o f ty)
  | .vMul _ o fma ty => some (o, fun _ => vMulOp o fma ty)
  | .vCmp _ o r ty => some (o, fun _ => vCmpOp o r ty)
  | .vSel _ o ty => some (o, fun _ => vSelOp o ty)
  | .vCvt _ o ty => some (o, fun _ => vCvtOp o ty)
  | .vExp2 _ o f ty => some (o, fun _ => vExp2Op o f ty)
  | .vRedAdd _ o isMax ty => some (o, fun _ => vRedOp o isMax ty)
  | .vShuf _ o ty => some (o, fun _ => vShufOp o ty)
  | .vBcast _ o ty => some (o, fun _ => vBcastOp o ty)
  | .vExt _ o ty => some (o, fun _ => vExtOp o ty)
  | .vIns _ o ty => some (o, fun _ => vInsOp o ty)
  | .mma _ o k hiA hiB => some (o, mmaOp o k hiA hiB)
  | .accClr _ o => some (o, accClrOp o)
  | .accMv _ o => some (o, accMvOp o)
  | .rowLd _ o tile => some (o, rowLdOp o tile)
  | .rowSt _ o tile => some (o, fun _ => rowStOp o tile)
  | .qPutRd _ o q => some (o, fun _ => qPutRdOp o q)
  | .qPutWr _ o q => some (o, fun _ => qPutWrOp o q)
  | .qGet _ o q d => some (o, qGetOp o q d)
  | .qWait _ o q => some (o, fun _ => qWaitOp o q)
  | .qWaitWr _ o q => some (o, fun _ => qWaitWrOp o q)
  | .slotSend _ o => some (o, fun _ => slotSendOp o)
  | .arrIssue _ o g => some (o, arrIssueOp o g)
  | .arrCollect _ o g => some (o, fun _ => arrCollectOp o g)
  | .leaveReq _ o => some (o, leaveReqOp o)
  | .leaveWait _ o => some (o, fun _ => leaveWaitOp o)
  | .stile _ o => some (o, fun _ => stileOp o)
  | .swathWait _ o => some (o, fun _ => swathWaitOp o)
  | .engCall _ o => some (o, fun _ => engCallOp o)
  | .engWait _ o => some (o, fun _ => engWaitOp o)
  | .recEmit _ o => some (o, recEmitOp o)
  | _ => none

end Sys2Proof.Machine

namespace Sys2Proof

open Machine

def CoreOp.isSwathWait : Instr → Bool
  | .swathWait .. => true
  | _ => false

/-- Whether the core's bundle holds this instruction in its slot. -/
def CoreOp.stands (o : CoreOp) (op : Op) (s : State) : Bool := (s.bundle o.core).any (fun b => o.spelt op s.funcs (slotWord o.slot b))

/-- The slot A instruction beside a slot B word that is none: it issues once it is accepted. -/
def CoreOp.beside (o : CoreOp) (op : Op) (s : State) : State :=
  if o.slot = .a ∧ o.stands op s ∧ o.accepted op s then o.besideBad op s else s

/-- A core instruction is given. Slot A of a bundle of two waits for its slot B; a bundle that is whole issues or waits.
DESIGN CHOICE (log 106): between runs a SWATH.WAIT issues only where the other slot of its bundle holds NOP; a bundle of
SWATH.WAIT and another instruction is held whole, for R132 holds that instruction and R79 issues both on one tick. -/
def CoreOp.command (o : CoreOp) (i : Instr) (op : State → Op) (s : State) : State :=
  let k := s.core o.core
  if ¬ s.coreFree o.core then s
  else if ¬ o.pair then
    if k.held.isSome then s
    else s.issue o.core (CoreOp.isSwathWait i) (o.accepted (op s) s)
      (fun b => o.spelt (op s) s.funcs (slotWord o.slot b) && slotWord o.slot.other b == 0) (o.beside (op s)) (o.alone (op s))
  else if o.slot = .a then
    if (s.bundle o.core).any (fun b => badWord s.funcs .a (slotWord .a b) || badWord s.funcs .b (slotWord .b b)) then
      s.issue o.core false false (fun _ => false) (o.beside (op s)) id
    else if k.held.isSome ∨ ¬ o.stands (op s) s then s else s.modCore o.core (fun k => { k with held := some i })
  else match k.held.bind coreOp with
    | some (a, opA) =>
      s.issue o.core false (a.accepted (opA s) s && o.accepted (op s) s)
        (fun b => a.spelt (opA s) s.funcs (slotWord .a b) && o.spelt (op s) s.funcs (slotWord .b b)) id (CoreOp.both a (opA s) o (op s))
    | none => s

/-- The meaning of a core instruction: its core exists, and so does the unit its mnemonic names (`known`). -/
def CoreOp.exec (o : CoreOp) (i : Instr) (t : Nat) (known : Bool) (op : State → Op) (s : State) :
    Host.Outcome State Fault Refusal :=
  onUnit (validCore o.core && known) (o.command i op (s.at t))

end Sys2Proof

namespace Sys2Proof.Machine

def execNop (t : Nat) (o : CoreOp) (s : State) : Host.Outcome State Fault Refusal :=
  o.exec (.nop t o) t true (fun _ => nopOp) s
def execAdd (t : Nat) (o : CoreOp) (f : AddOp) (i : Bool) (s : State) : Host.Outcome State Fault Refusal :=
  o.exec (.add t o f i) t true (fun _ => addOp o f i) s
def execShl (t : Nat) (o : CoreOp) (f : ShiftOp) (i : Bool) (s : State) : Host.Outcome State Fault Refusal :=
  o.exec (.shl t o f i) t true (fun _ => shiftOp o f i) s
def execMin (t : Nat) (o : CoreOp) (f : MinOp) (s : State) : Host.Outcome State Fault Refusal :=
  o.exec (.min t o f) t true (fun _ => minOp o f) s
def execMul (t : Nat) (o : CoreOp) (f : MulOp) (s : State) : Host.Outcome State Fault Refusal :=
  o.exec (.mul t o f) t true (fun _ => mulOp o f) s
def execLi (t : Nat) (o : CoreOp) (s : State) : Host.Outcome State Fault Refusal :=
  o.exec (.li t o) t true (fun _ => liOp o) s
def execLui (t : Nat) (o : CoreOp) (s : State) : Host.Outcome State Fault Refusal :=
  o.exec (.lui t o) t true (fun _ => luiOp o) s
def execCmp (t : Nat) (o : CoreOp) (r : Rel) (s : State) : Host.Outcome State Fault Refusal :=
  o.exec (.cmp t o r) t true (fun _ => cmpOp o r) s
def execSysRd (t : Nat) (o : CoreOp) (s : State) : Host.Outcome State Fault Refusal :=
  o.exec (.sysRd t o) t true (sysRdOp o) s
def execBr (t : Nat) (o : CoreOp) (s : State) : Host.Outcome State Fault Refusal :=
  o.exec (.br t o) t true (fun _ => brOp o) s
def execBrP (t : Nat) (o : CoreOp) (s : State) : Host.Outcome State Fault Refusal :=
  o.exec (.brP t o) t true (fun _ => brPOp o) s
def execLoop (t : Nat) (o : CoreOp) (s : State) : Host.Outcome State Fault Refusal :=
  o.exec (.loop t o) t true (fun _ => loopOp o) s
def execJal (t : Nat) (o : CoreOp) (s : State) : Host.Outcome State Fault Refusal :=
  o.exec (.jal t o) t true (fun _ => jalOp o) s
def execJr (t : Nat) (o : CoreOp) (s : State) : Host.Outcome State Fault Refusal :=
  o.exec (.jr t o) t true (fun _ => jrOp o) s
def execVAdd (t : Nat) (o : CoreOp) (f : VAddOp) (ty : LaneType) (s : State) : Host.Outcome State Fault Refusal :=
  o.exec (.vAdd t o f ty) t true (fun _ => vAddOp o f ty) s
def execVAnd (t : Nat) (o : CoreOp) (f : VBitOp) (ty : LaneType) (s : State) : Host.Outcome State Fault Refusal :=
  o.exec (.vAnd t o f ty) t true (fun _ => vAndOp o f ty) s
def execVMul (t : Nat) (o : CoreOp) (fma : Bool) (ty : LaneType) (s : State) : Host.Outcome State Fault Refusal :=
  o.exec (.vMul t o fma ty) t true (fun _ => vMulOp o fma ty) s
def execVCmp (t : Nat) (o : CoreOp) (r : VRel) (ty : LaneType) (s : State) : Host.Outcome State Fault Refusal :=
  o.exec (.vCmp t o r ty) t true (fun _ => vCmpOp o r ty) s
def execVSel (t : Nat) (o : CoreOp) (ty : LaneType) (s : State) : Host.Outcome State Fault Refusal :=
  o.exec (.vSel t o ty) t true (fun _ => vSelOp o ty) s
def execVCvt (t : Nat) (o : CoreOp) (ty : LaneType) (s : State) : Host.Outcome State Fault Refusal :=
  o.exec (.vCvt t o ty) t true (fun _ => vCvtOp o ty) s
def execVExp2 (t : Nat) (o : CoreOp) (f : VFun) (ty : LaneType) (s : State) : Host.Outcome State Fault Refusal :=
  o.exec (.vExp2 t o f ty) t true (fun _ => vExp2Op o f ty) s
def execVRedAdd (t : Nat) (o : CoreOp) (isMax : Bool) (ty : LaneType) (s : State) : Host.Outcome State Fault Refusal :=
  o.exec (.vRedAdd t o isMax ty) t true (fun _ => vRedOp o isMax ty) s
def execVShuf (t : Nat) (o : CoreOp) (ty : LaneType) (s : State) : Host.Outcome State Fault Refusal :=
  o.exec (.vShuf t o ty) t true (fun _ => vShufOp o ty) s
def execVBcast (t : Nat) (o : CoreOp) (ty : LaneType) (s : State) : Host.Outcome State Fault Refusal :=
  o.exec (.vBcast t o ty) t true (fun _ => vBcastOp o ty) s
def execVExt (t : Nat) (o : CoreOp) (ty : LaneType) (s : State) : Host.Outcome State Fault Refusal :=
  o.exec (.vExt t o ty) t true (fun _ => vExtOp o ty) s
def execVIns (t : Nat) (o : CoreOp) (ty : LaneType) (s : State) : Host.Outcome State Fault Refusal :=
  o.exec (.vIns t o ty) t true (fun _ => vInsOp o ty) s
def execMma (t : Nat) (o : CoreOp) (k : MmaKind) (hiA hiB : Bool) (s : State) : Host.Outcome State Fault Refusal :=
  o.exec (.mma t o k hiA hiB) t true (mmaOp o k hiA hiB) s
def execAccClr (t : Nat) (o : CoreOp) (s : State) : Host.Outcome State Fault Refusal :=
  o.exec (.accClr t o) t true (accClrOp o) s
def execAccMv (t : Nat) (o : CoreOp) (s : State) : Host.Outcome State Fault Refusal :=
  o.exec (.accMv t o) t true (accMvOp o) s
def execRowLd (t : Nat) (o : CoreOp) (tile : Bool) (s : State) : Host.Outcome State Fault Refusal :=
  o.exec (.rowLd t o tile) t true (rowLdOp o tile) s
def execRowSt (t : Nat) (o : CoreOp) (tile : Bool) (s : State) : Host.Outcome State Fault Refusal :=
  o.exec (.rowSt t o tile) t true (fun _ => rowStOp o tile) s
def execQPutRd (t : Nat) (o : CoreOp) (q : Nat) (s : State) : Host.Outcome State Fault Refusal :=
  o.exec (.qPutRd t o q) t (decide (q < 16)) (fun _ => qPutRdOp o q) s
def execQPutWr (t : Nat) (o : CoreOp) (q : Nat) (s : State) : Host.Outcome State Fault Refusal :=
  o.exec (.qPutWr t o q) t (decide (q < 16)) (fun _ => qPutWrOp o q) s
def execQGet (t : Nat) (o : CoreOp) (q : Nat) (d : GetDst) (s : State) : Host.Outcome State Fault Refusal :=
  o.exec (.qGet t o q d) t (decide (q < 16)) (qGetOp o q d) s
def execQWait (t : Nat) (o : CoreOp) (q : Nat) (s : State) : Host.Outcome State Fault Refusal :=
  o.exec (.qWait t o q) t (decide (q < 16)) (fun _ => qWaitOp o q) s
def execQWaitWr (t : Nat) (o : CoreOp) (q : Nat) (s : State) : Host.Outcome State Fault Refusal :=
  o.exec (.qWaitWr t o q) t (decide (q < 16)) (fun _ => qWaitWrOp o q) s
def execSlotSend (t : Nat) (o : CoreOp) (s : State) : Host.Outcome State Fault Refusal :=
  o.exec (.slotSend t o) t true (fun _ => slotSendOp o) s
def execArrIssue (t : Nat) (o : CoreOp) (g : Nat) (s : State) : Host.Outcome State Fault Refusal :=
  o.exec (.arrIssue t o g) t (decide (g < 4)) (arrIssueOp o g) s
def execArrCollect (t : Nat) (o : CoreOp) (g : Nat) (s : State) : Host.Outcome State Fault Refusal :=
  o.exec (.arrCollect t o g) t (decide (g < 4)) (fun _ => arrCollectOp o g) s
def execLeaveReq (t : Nat) (o : CoreOp) (s : State) : Host.Outcome State Fault Refusal :=
  o.exec (.leaveReq t o) t true (leaveReqOp o) s
def execLeaveWait (t : Nat) (o : CoreOp) (s : State) : Host.Outcome State Fault Refusal :=
  o.exec (.leaveWait t o) t true (fun _ => leaveWaitOp o) s
def execStile (t : Nat) (o : CoreOp) (s : State) : Host.Outcome State Fault Refusal :=
  o.exec (.stile t o) t true (fun _ => stileOp o) s
def execSwathWait (t : Nat) (o : CoreOp) (s : State) : Host.Outcome State Fault Refusal :=
  o.exec (.swathWait t o) t true (fun _ => swathWaitOp o) s
def execEngCall (t : Nat) (o : CoreOp) (s : State) : Host.Outcome State Fault Refusal :=
  o.exec (.engCall t o) t true (fun _ => engCallOp o) s
def execEngWait (t : Nat) (o : CoreOp) (s : State) : Host.Outcome State Fault Refusal :=
  o.exec (.engWait t o) t true (fun _ => engWaitOp o) s
def execRecEmit (t : Nat) (o : CoreOp) (s : State) : Host.Outcome State Fault Refusal :=
  o.exec (.recEmit t o) t true (recEmitOp o) s

end Sys2Proof.Machine
end

