-- ==== Sys2Proof/Machine/EngineAttend.lean ====
section
/-! DEFINITION. The attention score unit and the KV page walker's translations (R337 to R340, R347 to R349). -/

namespace Sys2Proof.Machine

/-! ### The look-aside buffer (R347) -/

/-- The page table entry of a page (Table 10-4). The look-aside buffer keeps the 64 translations used last; a miss reads the row of
the stack in which the entry lies (R374), and none comes of a row that is not delivered. -/
def State.translate (s : State) (n : Nat) (c : EngCall) (page : Nat) : Option Word × State :=
  let g := c.entry
  let gen := (s.entry g).gen
  let mine := fun (l : Lookaside) => l.entry == g && l.gen == gen && l.page == page
  match (s.hub n).walker.find? mine with
  | some l => (some l.pte, s.modHub n (fun h => { h with walker := l :: h.walker.filter (fun x => !mine x) }))
  | none =>
    let (m, a) := (s.entry g).tableRow page
    match s.callRead c (stackWord m a) with
    | (none, s) => (none, s)
    | (some r, s) =>
      let w := BitVec.ofNat 64 (rowBytes r (8 * (page % 64)) 8)
      (some w, s.modHub n (fun h => { h with walker := (⟨g, gen, page, w⟩ :: h.walker).take 64 }))

def ptePresent (w : Word) : Bool := getBits w 63 1 == 1

/-- A row of a frame, by its remote address. -/
def frameAddr (w : Word) (i : Nat) : Word :=
  let a := 128 * pteFrame w + i
  if pteScratch w then clusterWord (pteUnit w) a else stackWord (pteUnit w) a

/-! ### The layout of KV in a page

The manual fixes neither. Each position takes 65,536 / ppp bytes of its page; a KV head takes 2·d_h elements of it, its
key first. Heads follow each other, and head h lies in the page group h / (heads of one group). -/

/-- What Table 09-6 gives. -/
structure Attention where
  dh    : Nat
  rows  : Nat
  head  : Nat
  fp8   : Bool
  scale : Nat
  visible : Nat
  pos   : List Nat
deriving DecidableEq, Repr

def EngCall.attention (c : EngCall) : Attention :=
  { dh := c.param 0 2, rows := c.param 2 2, head := c.param 4 2, fp8 := c.param 6 1 == 1, scale := c.param 8 4,
    visible := c.param 12 4, pos := (List.range (c.param 2 2)).map (fun i => c.param (16 + 4 * i) 4) }

def Attention.width (a : Attention) : Nat := if a.fp8 then 1 else 2
def Attention.headBytes (a : Attention) : Nat := 2 * a.dh * a.width
def Attention.headsPer (a : Attention) (m : Copy) : Nat := 65536 / m.ppp / a.headBytes

/-- The ranges of Table 09-6, and room for the query rows. -/
def State.attentionLegal (s : State) (c : EngCall) : Bool :=
  let a := c.attention
  let m := s.copyOf c.entry
  let e := s.entry c.entry
  (a.dh == 64 || a.dh == 128 || a.dh == 256) && decide (1 ≤ a.rows) && decide (a.rows ≤ 64) && decide (a.head ≤ 255) &&
  decide (c.param 6 1 < 2) && c.param 7 1 == 0 && (f32 a.scale).isFin && decide (a.visible ≤ e.c + e.tent) &&
  a.pos.all (fun p => decide (p < a.visible)) && decide (2 * a.dh * a.rows ≤ 512 * c.inputs) &&
  decide (0 < a.headsPer m) && decide (a.head / a.headsPer m < m.g)

/-- The elements of one KV vector as numbers. -/
def Attention.elems (a : Attention) (bytes : List (BitVec 8)) : List FV :=
  (List.range a.dh).map (fun i =>
    if a.fp8 then e4m3.read false (ofBytes ((bytes.drop i).take 1))
    else bf16.read false (ofBytes ((bytes.drop (2 * i)).take 2)))

/-- What reading a key position gives: its key and value, no page, or an error. -/
inductive KvRead where
  | kv (k v : List FV)
  | noPage
  | bad
deriving DecidableEq, Repr

/-- Reads the rows `i` to `i + n − 1` of a frame. -/
def State.frameRows (s : State) (c : EngCall) (w : Word) (i : Nat) : Nat → Option (List Row) × State
  | 0 => (some [], s)
  | n + 1 =>
    let (r, s) := s.callRead c (frameAddr w i)
    let (l, s) := s.frameRows c w (i + 1) n
    (match r, l with
     | some r, some l => some (r :: l)
     | _, _ => none, s)

/-- The KV of one position (R374). -/
def State.readKv (s : State) (n : Nat) (c : EngCall) (p : Nat) : KvRead × State :=
  let a := c.attention
  let m := s.copyOf c.entry
  match s.translate n c (p / m.ppp * m.g + a.head / a.headsPer m) with
  | (none, s) => (.bad, s)
  | (some w, s) =>
  if ¬ ptePresent w then (.noPage, s)
  else
    let at_ := p % m.ppp * (65536 / m.ppp) + a.head % a.headsPer m * a.headBytes
    let first := at_ / 512
    let last := (at_ + a.headBytes - 1) / 512
    let (rows, s) := s.frameRows c w first (last + 1 - first)
    match rows with
    | none => (.bad, s)
    | some rows =>
      let bytes := (rowsBytes rows).drop (at_ % 512)
      (.kv (a.elems bytes) (a.elems (bytes.drop (a.dh * a.width))), s)

/-- Reads the KV of the positions from `p` on. -/
def State.readKvs (s : State) (n : Nat) (c : EngCall) (p : Nat) : Nat → List KvRead × State
  | 0 => ([], s)
  | k + 1 =>
    let (x, s) := s.readKv n c p
    let (l, s) := s.readKvs n c (p + 1) k
    (x :: l, s)

/-! ### Scores and attention -/

/-- The exact sum of products of two vectors. -/
def dot (a b : List FV) : FV := FV.sum (List.zipWith FV.mul a b)

/-- R337 step 1: s = scale · Σ q·k, rounded once to FP32. -/
def score (scale : Nat) (q k : List FV) : Nat := toF32 ((f32 scale).mul (dot q k))

def f32NegInf : Nat := 0xFF800000

/-- The running values of one query row: m, the sum, and the output (FP32 bits). -/
structure Running where
  m   : Nat
  sum : Nat
  out : List Nat
deriving DecidableEq, Repr

/-- exp(x − m) of FP32 values, before rounding; zero where x is −infinity. -/
def expDiff (x m : Nat) : FV := if x = f32NegInf then .fin false 0 0 else ((f32 x).add (f32 m).negate).exp

/-- R337 for one block of keys with their scores and values. Step 3 scales by 2^((m − m_new)·log₂e) = exp(m − m_new). -/
def Running.block (r : Running) (l : List (Nat × List FV)) : Running :=
  let top := l.foldl (fun a x => if f32Lt a x.1 then x.1 else a) r.m
  let w := expDiff r.m top
  let sum := toF32 ((f32 r.sum).mul w)
  let out := r.out.map (fun o => toF32 ((f32 o).mul w))
  let es := l.map (fun x => expDiff x.1 top)
  { m := top, sum := toF32 (FV.sum (f32 sum :: es)),
    out := (List.range out.length).map (fun j =>
      toF32 (FV.sum (f32 (out.getD j 0) :: List.zipWith (fun e x => FV.mul e (x.2.getD j (.fin false 0 0))) es l))) }

/-- The keys in blocks of 64. -/
def blocks {α : Type} : Nat → List α → List (List α)
  | 0, _ => []
  | n + 1, l => if l.isEmpty then [] else l.take 64 :: blocks n (l.drop 64)

def attendRow (a : Attention) (q : List FV) (kv : List (List FV × List FV)) : Running :=
  let l := kv.map (fun x => (score a.scale q x.1, x.2))
  (blocks (l.length / 64 + 1) l).foldl Running.block { m := f32NegInf, sum := 0, out := List.replicate a.dh 0 }

/-- R338: the output row in BF16; zeros without a visible key. -/
def Running.write (r : Running) (none_ : Bool) : List (BitVec 8) :=
  r.out.flatMap (fun o => toBytes 2 (if none_ then 0 else bf16.write false ((f32 o).div (f32 r.sum))))
/-- m and ℓ = m + ln(sum). -/
def Running.stats (r : Running) (none_ : Bool) : List (BitVec 8) :=
  toBytes 4 r.m ++ toBytes 4 (if none_ then f32NegInf else toF32 ((f32 r.m).add (f32 r.sum).ln))

/-- What the query rows and the keys together give: an error, or numbers. -/
def kvStatus (q : List (List FV)) (kv : List KvRead) : Option Nat :=
  if kv.contains .noPage then some egPageFault
  else if kv.contains .bad then some egMemory
  else if q.any (fun r => r.any (fun x => !x.isFin)) || kv.any (fun x => match x with
      | .kv k v => k.any (fun y => !y.isFin) || v.any (fun y => !y.isFin)
      | _ => false) then some egNonfinite
  else none

def KvRead.pair : KvRead → List FV × List FV
  | .kv k v => (k, v)
  | _ => ([], [])

/-- The query rows, BF16, packed across the input rows. -/
def Attention.queries (a : Attention) (rows : List Row) : List (List FV) :=
  let bytes := rowsBytes rows
  (List.range a.rows).map (fun i => (List.range a.dh).map (fun j =>
    bf16.read false (ofBytes ((bytes.drop (2 * (i * a.dh + j))).take 2))))

/-- How many positions the query rows see. -/
def Attention.seen (a : Attention) : Nat := Nat.min a.visible (maxOf (a.pos.map (· + 1)))

def runAttend (n : Nat) (c : EngCall) (s : State) : EngReply × State :=
  let a := c.attention
  if ¬ s.attentionLegal c then failCall egBadBlock s
  else if c.limit < rowsFor (2 * a.dh * a.rows) + 1 then failCall egSpace s
  else
    let (ins, s) := s.callRows c c.input c.inputs
    match ins with
    | none => failCall egMemory s
    | some rows =>
      let q := a.queries rows
      let (kv, s) := s.readKvs n c 0 a.seen
      match kvStatus q kv with
      | some st => failCall st s
      | none =>
        let pairs := kv.map KvRead.pair
        let res := (List.range a.rows).map (fun i =>
          let vis := Nat.min a.visible (a.pos.getD i 0 + 1)
          (attendRow a (q.getD i []) (pairs.take vis), vis == 0))
        let out := res.flatMap (fun r => r.1.write r.2)
        let pad := packRows (Config.rowRest c.block out) (rowsFor out.length) out
        let stats := res.flatMap (fun r => r.1.stats r.2)
        ({ emptyReply egOk with
          units := a.seen, result := pad ++ packRows (Config.rowRest c.block stats) 1 stats, at0 := c.result }, s)

/-- R339: the scores of a key range, a new row for each query row; a key that is not visible gets −infinity. -/
def runScores (n : Nat) (c : EngCall) (s : State) : EngReply × State :=
  let a := c.attention
  let first := c.param 272 4
  let count := c.param 276 2
  if ¬ s.attentionLegal c ∨ count = 0 ∨ 1024 < count then failCall egBadBlock s
  else if c.limit < a.rows * rowsFor (4 * count) then failCall egSpace s
  else
    let (ins, s) := s.callRows c c.input c.inputs
    match ins with
    | none => failCall egMemory s
    | some rows =>
      let q := a.queries rows
      let (kv, s) := s.readKvs n c first (Nat.min count (a.seen - first))
      match kvStatus q kv with
      | some st => failCall st s
      | none =>
        let rowsOf := fun (i : Nat) =>
          let bytes := (List.range count).flatMap (fun j =>
            toBytes 4 (if first + j ≤ a.pos.getD i 0 then
              match kv[j]? with
              | some x => score a.scale (q.getD i []) x.pair.1
              | none => f32NegInf
            else f32NegInf))
          packRows (Config.rowRest c.block bytes) (rowsFor (4 * count)) bytes
        ({ emptyReply egOk with units := count, result := (List.range a.rows).flatMap rowsOf, at0 := c.result }, s)

def execAttend (t n : Nat) (s : State) : Host.Outcome State Fault Refusal :=
  onUnit (validLea n) ((s.at t).serveCall n 2 0 (runAttend n))
def execScores (t n : Nat) (s : State) : Host.Outcome State Fault Refusal :=
  onUnit (validLea n) ((s.at t).serveCall n 2 1 (runScores n))

end Sys2Proof.Machine
end

