-- ==== Sys2Proof/Machine/EngineCrypto.lean ====
section
/-! DEFINITION. Calls of the crypto engine and of the norm watch (R350 to R352, R355, R356). -/

namespace Sys2Proof.Machine

/-! ### GCM (R351) -/

def State.keyOf (s : State) (n slot : Nat) (owner : Option Nat) : Option (List (BitVec 8)) :=
  match Map.find (s.hub n).keys slot with
  | some k => if k.owner = owner then some k.key else none
  | none => none

/-- What both directions check: the ranges, then the key. -/
def State.gcmStatus (s : State) (n : Nat) (c : EngCall) : Except Nat (List (BitVec 8)) :=
  let len := c.param 272 4
  if c.param 1 1 ≠ 0 ∨ 256 < c.param 2 2 ∨ len = 0 ∨ 65536 < len ∨ 128 < c.inputs ∨ 512 * c.inputs < len then .error egBadBlock
  else if c.limit < c.inputs then .error egSpace
  else match s.keyOf n (c.param 0 1) (some c.fold) with
    | some k => if k.length = 32 then .ok k else .error egNoTable
    | none => .error egNoTable

def EngCall.iv (c : EngCall) : List (BitVec 8) := toBytes 12 (c.param 4 12)
def EngCall.aad (c : EngCall) : List (BitVec 8) := toBytes (c.param 2 2) (c.param 16 (c.param 2 2))

/-- The same number of rows as the input. -/
def EngCall.sameRows (c : EngCall) (s : State) (data : List (BitVec 8)) (tag : Option Nat) : EngReply × State :=
  ({ emptyReply egOk with
     units := data.length, result := packRows (Config.rowRest c.block data) c.inputs data, at0 := c.result, tagBytes := tag }, s)

def runDecrypt (n : Nat) (c : EngCall) (s : State) : EngReply × State :=
  match s.gcmStatus n c with
  | .error st => failCall st s
  | .ok key =>
    match s.callRows c c.input c.inputs with
    | (none, s) => failCall egMemory s
    | (some rows, s) =>
      let data := (rowsBytes rows).take (c.param 272 4)
      if gcmTag key c.iv c.aad data ≠ toBytes 16 (rowBytes c.block 480 16) then failCall egAuth s
      else c.sameRows s (gcmCrypt key c.iv data) none

def runEncrypt (n : Nat) (c : EngCall) (s : State) : EngReply × State :=
  match s.gcmStatus n c with
  | .error st => failCall st s
  | .ok key =>
    match s.callRows c c.input c.inputs with
    | (none, s) => failCall egMemory s
    | (some rows, s) =>
      let out := gcmCrypt key c.iv ((rowsBytes rows).take (c.param 272 4))
      c.sameRows s out (some (ofBytes (gcmTag key c.iv c.aad out)))

/-! ### SHA384 (R351). Byte 0 bit 0 finalises; bytes 4 to 7 give the data length. The state row holds the chaining words,
the bytes hashed so far and those that fill no block yet; a zero row starts a hash. -/

def shaState (h : List Nat) (total : Nat) (rest : List (BitVec 8)) : Row :=
  BitVec.ofNat 4096 (ofBytes (h.flatMap (toBytes 8) ++ toBytes 8 total ++ rest))

def runSha (c : EngCall) (s : State) : EngReply × State :=
  let len := c.param 4 4
  let final := c.param 0 1 % 2 = 1
  if 1 < c.param 0 1 ∨ 512 * c.inputs < len ∨ c.stateRow = 0xFFFF then failCall egBadBlock s
  else if final ∧ c.limit < 1 then failCall egSpace s
  else
    let (ins, s) := s.callRows c c.input c.inputs
    let (st, s) := s.callRows c c.stateRow 1
    match ins, st with
    | some ins, some st =>
      let old := st.getD 0 0
      let total := rowBytes old 64 8
      let h := if old = 0 then init384 else (List.range 8).map (fun i => rowBytes old (8 * i) 8)
      let data := toBytes (total % 128) (rowBytes old 72 (total % 128)) ++ (rowsBytes ins).take len
      if final then
        let d := (wordsBytes 64 (sha512.finish h (total / 128 * 128) data)).take 48
        let (r, s) := c.giving s egOk len d
        ({ r with state := [0], stateAt := c.stateRow }, s)
      else
        let k := data.length / 128
        ({ emptyReply egOk with
           units := len, state := [shaState (sha512.blocks h k data) (total + len) (data.drop (128 * k))],
           stateAt := c.stateRow }, s)
    | _, _ => failCall egMemory s

def execGcmDecrypt (t n : Nat) (s : State) : Host.Outcome State Fault Refusal :=
  onUnit (validLea n) ((s.at t).serveCall n 6 0 (runDecrypt n))
def execGcmEncrypt (t n : Nat) (s : State) : Host.Outcome State Fault Refusal :=
  onUnit (validLea n) ((s.at t).serveCall n 6 1 (runEncrypt n))
def execSha384 (t n : Nat) (s : State) : Host.Outcome State Fault Refusal :=
  onUnit (validLea n) ((s.at t).serveCall n 6 2 runSha)

/-! ### Signature checks of the stewards (R352) -/

/-- A steward's check enters the queue of the crypto engine with its result: OK, or AUTH where the signature does not
verify. With the queue full it ends with BUSY (R324). -/
def State.stewardCall (s : State) (n fn : Nat) (ok : Bool) : State :=
  if (queueLimit 6).any (fun k => decide (k ≤ (s.calls n 6).length)) then s.countCall n 6 (hubAddr n) egBusy
  else
    let c : EngCall := { hub := n, core := hubAddr n, number := s.nextTag, engine := 6, fn := fn, at0 := 0, fold := 0, block := 0,
                         admitted := s.now, reply := some (emptyReply (if ok then egOk else egAuth)), server := 6,
                         steward := true, early := true, asked := [] }
    { s.modCalls n 6 (fun l => l ++ [c]) with nextTag := s.nextTag + 1 }

def execEcdsaVerify (t n : Nat) (pub msg sig : List (BitVec 8)) (s : State) : Host.Outcome State Fault Refusal :=
  onUnit (validLea n) ((s.at t).stewardCall n 3 (ecdsaOk pub msg sig))
def execLmsVerify (t n : Nat) (pub msg sig : List (BitVec 8)) (s : State) : Host.Outcome State Fault Refusal :=
  onUnit (validLea n) ((s.at t).stewardCall n 4 (lmsOk pub msg sig))

/-! ### The norm watch (R355, R356) -/

/-- Serves the oldest call of cluster `q` to its norm watch. -/
def State.serveNorm (s : State) (q fn : Nat) (run : EngCall → State → EngReply × State) : State :=
  let n := q / 24
  match (s.calls n 8).find? (fun c => c.reply.isNone && c.q == q) with
  | some c =>
    if c.fn = fn then
      let (r, s) := run c s
      s.modCalls n 8 (fun l => l.map (fun x => if sameCall x c then { x with reply := some r } else x))
    else s
  | none => s

def runNormSet (c : EngCall) (s : State) : EngReply × State :=
  let slot := c.param 0 2
  let policy := c.param 2 1
  if slot < 256 ∨ 271 < slot ∨ (policy ≠ 1 ∧ policy ≠ 3) ∨ c.param 3 1 = 0 then failCall egBadBlock s
  else (emptyReply egOk, s.setNormSlot c.q slot
    ((s.normSlot c.q slot).configured policy (c.param 3 1) (c.param 4 2) (c.param 6 2)))

/-- R356. Slots 0 to 255 watch layer entries and no submitted norm (06): naming one is a parameter out of range. DEDUCED (log 135). -/
def runNormSubmit (c : EngCall) (s : State) : EngReply × State :=
  let slot := c.param 0 2
  let n := c.param 4 4
  if slot < 256 ∨ 271 < slot ∨ (s.normSlot c.q slot).policy = 2 then failCall egBadBlock s
  else if ¬ (f32 n).isFin then failCall egNonfinite (s.noteOverflow c.fold c.core)
  else
    let m := s.normSlot c.q slot
    let (hit, m') := m.judge n
    let s := s.setNormSlot c.q slot m'
    if ¬ hit then (emptyReply egOk, s)
    else
      let s := s.report (srcAgent c.q (some c.fold)) 0x4005 slot n
      (emptyReply (if m.policy = 1 then egNormTrigger else if m.policy = 3 then egNormFail else egOk), s)

def execNormSet (t q : Nat) (s : State) : Host.Outcome State Fault Refusal :=
  onUnit (validCluster q) ((s.at t).serveNorm q 0 runNormSet)
def execNormSubmit (t q : Nat) (s : State) : Host.Outcome State Fault Refusal :=
  onUnit (validCluster q) ((s.at t).serveNorm q 1 runNormSubmit)

end Sys2Proof.Machine
end

