-- ==== Sys2Proof/Machine/EngineSample.lean ====
section
/-! DEFINITION. The sampling engines and the calls of the KV page walker (R342 to R349, R375, R377, R383, R384). -/

namespace Sys2Proof.Machine

/-! ### Sampling -/

def State.profileOf (s : State) (g : Nat) : Profile := Map.get Profile.reset (s.hub (entryHub g)).profiles (s.entry g).profile

/-- l″ of R383, FP32 bits. -/
def Profile.penalise (p : Profile) (count l : Nat) : Nat :=
  if count = 0 then l
  else
    let c := toF32 (.ofInt count)
    let l1 := if FV.lt false (.fin false 0 0) (f32 l) then f32Div l p.rho else f32Mul l p.rho
    f32Sub (f32Sub l1 (f32Mul c p.alphaF)) p.alphaP

/-- A token with its value, and later its probability (FP32 bits). -/
abbrev Scored := Nat × Nat

/-- The order of R342: larger values first, lower tokens among equals. -/
def ahead (a b : Scored) : Bool := f32Lt b.2 a.2 || (!f32Lt a.2 b.2 && decide (a.1 < b.1))

def insertScored (x : Scored) : List Scored → List Scored
  | [] => [x]
  | y :: l => if ahead x y then x :: y :: l else y :: insertScored x l
def rankScored (l : List Scored) : List Scored := l.foldr insertScored []

/-- What a draw gives: the token, its log-probability and u (FP32 bits). -/
structure Drawn where
  token : Nat
  logp  : Nat
  u     : Nat
deriving DecidableEq, Repr

/-- R343: u in units of 2⁻²⁴. -/
def drawU (seed pos j : Nat) : Nat :=
  (mix (BitVec.ofNat 64 seed + mix (BitVec.ofNat 64 (64 * pos + j)))).toNat / 2 ^ 40

/-- R342 step 6: the shortest prefix whose cumulative probability reaches a bound, with its sums. -/
def keepTo (bound : Dy) (sum : Dy) : List Scored → List (Nat × Dy)
  | [] => []
  | x :: l =>
    let sum := sum.add (f32 x.2).dy
    if bound.le sum then [(x.1, sum)] else (x.1, sum) :: keepTo bound sum l

/-- The first token whose cumulative probability exceeds a bound; the last one kept where none does. -/
def pick (bound : Dy) : List (Nat × Dy) → Nat
  | [] => 0
  | [x] => x.1
  | x :: l => if bound.lt x.2 then x.1 else pick bound l

/-- R342 steps 2 to 7 on penalised logits. A kept −infinity has the probability zero. The draw of another value that is no number
is free: the manual states none. -/
def Profile.draw (p : Profile) (logits : List Nat) (seed pos j : Nat) : Drawn :=
  let free := Config.undrawn logits seed pos j
  let scored := (List.range logits.length).zip logits
  if (f32 p.temp).isZero then
    { token := ((rankScored scored).headD (0, 0)).1, logp := free.toNat % 2 ^ 32, u := free.toNat / 2 ^ 32 }
  else
    let top := (rankScored (scored.map (fun x => (x.1, f32Div x.2 p.temp)))).take p.topK
    let m := (top.headD (0, 0)).2
    let u := drawU seed pos j
    if ¬ (f32 m).isFin ∨ top.any (fun x => !(f32 x.2).isFin && x.2 != f32NegInf) then
      { token := (top.getD (free.toNat % top.length) (0, 0)).1, logp := free.toNat % 2 ^ 32,
        u := toF32 (.ofDy ⟨u, -24⟩) }
    else
      let es := top.map (fun x => (x.1, if x.2 = f32NegInf then 0 else toF32 ((f32 (f32Sub x.2 m)).exp)))
      let total := toF32 (FV.sum (es.map (fun x => f32 x.2)))
      let probs := rankScored (es.map (fun x => (x.1, f32Div x.2 total)))
      let all := Dy.sum (probs.map (fun x => (f32 x.2).dy))
      let kept := keepTo ((f32 p.topP).dy.mul all) ⟨0, 0⟩ probs
      let sum := (kept.getLastD (0, ⟨0, 0⟩)).2
      let token := pick ((⟨u, -24⟩ : Dy).mul sum) kept
      let prob := ((probs.find? (fun x => x.1 == token)).map Prod.snd).getD 0
      { token := token, logp := toF32 (f32 prob).ln, u := toF32 (.ofDy ⟨u, -24⟩) }

/-- The logits of one position as FP32 bits, penalised by the counts of the entry (R381, R383). -/
def State.penalised (s : State) (g : Nat) (raw : List Nat) : List Nat :=
  let e := s.entry g
  (List.range raw.length).map (fun t =>
    (s.profileOf g).penalise (if e.countPage = 0 then 0 else countOf e.counts t) (raw.getD t 0 * 65536))

/-- The count table takes a drawn token, where the profile counts output. -/
def State.countDrawn (s : State) (g token pos : Nat) : State :=
  if (s.profileOf g).countOut then s.countTok g token pos else s

/-- The raw BF16 logits of position `i`; each position begins a row. -/
def logitsAt (rows : List Row) (v i : Nat) : List Nat :=
  ((rows.drop (i * rowsFor (2 * v))).take (rowsFor (2 * v))).flatMap (fun r => rowHalves r 0 256) |>.take v

def finite16 (x : Nat) : Bool := (bf16.read false x).isFin

/-- R342 to R344. The vocabulary size is in parameter bytes 0 to 3, the position in 4 to 7 and the draw index in byte 8. -/
def runSample (c : EngCall) (s : State) : EngReply × State :=
  let v := c.param 0 4
  let g := c.entry
  if v = 0 ∨ 262144 < v ∨ c.inputs < rowsFor (2 * v) ∨ 63 < c.param 8 1 then failCall egBadBlock s
  else if c.limit < 1 then failCall egSpace s
  else
    let (ins, s) := s.callRows c c.input (rowsFor (2 * v))
    match ins with
    | none => failCall egMemory s
    | some rows =>
      let raw := logitsAt rows v 0
      if ¬ raw.all finite16 then failCall egNonfinite s
      else
        let pos := c.param 4 4
        let x := (s.profileOf g).draw (s.penalised g raw) (s.entry g).seed pos (c.param 8 1)
        let before := (s.entry g).counts
        let s := s.countDrawn g x.token pos
        let ev := if (s.profileOf g).countOut ∧ (s.entry g).countPage ≠ 0 ∧ (countToken before x.token pos).2 then 1 else 0
        c.giving s egOk 1 (toBytes 4 x.token ++ toBytes 4 x.logp ++ toBytes 4 x.u ++ toBytes 4 ev)

/-- R345: positions are sampled in order; the count, the last sample and the state with its counts. -/
def State.verifyFrom (s : State) (c : EngCall) (rows : List Row) (v pos0 n i : Nat) : Nat → Nat × Nat × State
  | 0 => (i, 0, s)
  | k + 1 =>
    let g := c.entry
    let x := (s.profileOf g).draw (s.penalised g (logitsAt rows v i)) (s.entry g).seed (pos0 + i) 0
    let s := s.countDrawn g x.token (pos0 + i)
    if i < n ∧ x.token = c.param (4 + 4 * i) 4 then s.verifyFrom c rows v pos0 n (i + 1) k else (i, x.token, s)

/-- R345. The count of drafts is in parameter bytes 68 to 69 and pos₀ in 72 to 75. -/
def runVerify (c : EngCall) (s : State) : EngReply × State :=
  let v := c.param 0 4
  let n := c.param 68 2
  let need := (n + 1) * rowsFor (2 * v)
  if v = 0 ∨ 262144 < v ∨ n = 0 ∨ 16 < n ∨ c.inputs < need then failCall egBadBlock s
  else if c.limit < 1 then failCall egSpace s
  else
    let (ins, s) := s.callRows c c.input need
    match ins with
    | none => failCall egMemory s
    | some rows =>
      if ¬ (List.range (n + 1)).all (fun i => (logitsAt rows v i).all finite16) then failCall egNonfinite s
      else
        let (a, y, s) := s.verifyFrom c rows v (c.param 72 4) n 0 (n + 1)
        c.giving s egOk (a + 1) (toBytes 4 a ++ toBytes 4 y)

def validSampler (e : Nat) : Bool := e == 3 || e == 4

def execSample (t n e : Nat) (s : State) : Host.Outcome State Fault Refusal :=
  onUnit (validLea n && validSampler e) ((s.at t).serveCall n e 0 runSample)
def execVerify (t n e : Nat) (s : State) : Host.Outcome State Fault Refusal :=
  onUnit (validLea n && validSampler e) ((s.at t).serveCall n e 1 runVerify)

/-! ### The page walker (R348, R349). TRANSLATE: first page in parameter bytes 0 to 3, count in 4 to 5. EXTEND and TRIM:
the tentative count or the length in bytes 0 to 3. -/

def translateAll (n : Nat) (c : EngCall) : Nat → Nat → State → List (Option Word) × State
  | 0, _, s => ([], s)
  | k + 1, p, s =>
    let (w, s) := s.translate n c p
    let (l, s) := translateAll n c k (p + 1) s
    (w :: l, s)

def runTranslate (n : Nat) (c : EngCall) (s : State) : EngReply × State :=
  let first := c.param 0 4
  let k := c.param 4 2
  if k = 0 ∨ 64 < k ∨ (s.entry c.entry).ptCap < first + k then failCall egBadBlock s
  else if c.limit < 1 then failCall egSpace s
  else
    let (ws, s) := translateAll n c k first s
    if ¬ ws.all Option.isSome then failCall egMemory s
    else c.giving s egOk k (ws.flatMap (fun w => toBytes 8 (w.getD 0).toNat))

def runExtend (c : EngCall) (s : State) : EngReply × State :=
  match s.extendTo c.entry (c.param 0 4) with
  | some s => ({ emptyReply egOk with units := c.param 0 4 }, s)
  | none => failCall egPageFault s

def runTrim (c : EngCall) (s : State) : EngReply × State := (emptyReply egOk, s.trimTo c.entry (c.param 0 4))

def execTranslate (t n : Nat) (s : State) : Host.Outcome State Fault Refusal :=
  onUnit (validLea n) ((s.at t).serveCall n 5 0 (runTranslate n))
def execExtend (t n : Nat) (s : State) : Host.Outcome State Fault Refusal :=
  onUnit (validLea n) ((s.at t).serveCall n 5 1 runExtend)
def execTrim (t n : Nat) (s : State) : Host.Outcome State Fault Refusal :=
  onUnit (validLea n) ((s.at t).serveCall n 5 2 runTrim)

end Sys2Proof.Machine
end

