-- ==== Sys2Proof/Machine/EngineText.lean ====
section
/-! DEFINITION. The audio front-end and the tokeniser (R328 to R336). -/

namespace Sys2Proof.Machine

/-! ### FEATURES (R328 to R330, Table 09-5) -/

def audioRates : List Nat := [8000, 16000, 22050, 24000, 32000, 44100, 48000]
def fftSizes : List Nat := [64, 128, 256, 512, 1024, 2048]

/-- The parameters of FEATURES. -/
structure Audio where
  inRate  : Nat
  outRate : Nat
  fft     : Nat
  window  : Nat
  hop     : Nat
  shape   : Nat
  flags   : Nat
  bands   : Nat
  lo      : Nat
  hi      : Nat
  floor   : Nat
  normRow : Nat
  samples : Nat
deriving DecidableEq, Repr

/-- Table 09-5; a sample count at offset 36 lets the last input row be partly used, and zero means whole rows. -/
def EngCall.audio (c : EngCall) : Audio :=
  { inRate := c.param 0 4, outRate := c.param 4 4, fft := c.param 8 2, window := c.param 10 2, hop := c.param 12 2,
    shape := c.param 14 1, flags := c.param 15 1, bands := c.param 16 2, lo := c.param 20 4, hi := c.param 24 4,
    floor := c.param 28 4, normRow := c.param 32 2,
    samples := if c.param 36 4 = 0 then 256 * c.inputs else c.param 36 4 }

/-- The ranges of Table 09-5 and R330. -/
def EngCall.audioLegal (c : EngCall) : Bool :=
  let a := c.audio
  audioRates.contains a.inRate && audioRates.contains a.outRate && decide (a.outRate ≤ a.inRate) &&
  fftSizes.contains a.fft && decide (16 ≤ a.window) && decide (a.window ≤ a.fft) && decide (1 ≤ a.hop) &&
  decide (a.hop ≤ 2048) && decide (a.shape < 3) && decide (a.flags < 4) && decide (1 ≤ a.bands) &&
  decide (a.bands ≤ 256) && c.param 18 2 == 0 && (f32 a.lo).isFin && (f32 a.hi).isFin && (f32 a.floor).isFin &&
  !f32Lt a.lo 0 && !f32Lt a.hi a.lo && !FV.lt false (.ofDy ⟨a.outRate, -1⟩) (f32 a.hi) && f32Lt 0 a.floor &&
  decide (c.inputs ≤ 512) && decide (a.samples ≤ 256 * c.inputs) && c.stateRow != 0xFFFF

/-- How many output samples some input samples give. -/
def outSamples (a : Audio) (ops : List Row) : Nat :=
  if a.inRate = a.outRate then a.samples
  else a.samples * a.outRate / a.inRate + (if Config.resampleMore ops then 1 else 0)

/-- The frames that `n` samples complete, once `skip` have been discarded, and what is left: tail and skip. -/
def framing (window hop skip n : Nat) : Nat × Nat × Nat :=
  let m := n - skip
  let f := if window ≤ m then (m - window) / hop + 1 else 0
  let used := f * hop
  (f, m - used, if n < skip then skip - n else used - m)

/-- The state block after a call (R328): the rest of the history and tail moves on with the new samples. -/
def audioState (a : Audio) (ops : List Row) (old : List Row) (pcm : List (BitVec 8)) (outs tail skip : Nat) : List Row :=
  let row0 := (old.getD 0 0)
  let phase := if a.inRate = a.outRate then rowBytes row0 0 8 else (Config.resamplePhase ops).toNat
  let hist := ((toBytes 512 row0.toNat).drop 16).take 126 ++ pcm
  let kept := hist.drop (hist.length - 126)
  let before := ((old.drop 1).flatMap (fun r => toBytes 512 r.toNat)).take (2 * rowBytes row0 8 2)
  let fresh := (List.range outs).flatMap (fun i => toBytes 2 (Config.tailSample ops i).toNat)
  let all := before ++ fresh
  BitVec.ofNat 4096 (ofBytes (toBytes 8 phase ++ toBytes 2 tail ++ toBytes 2 skip ++ toBytes 4 0 ++ kept)) ::
    packRows 0 8 (all.drop (all.length - 2 * tail))

/-- R329, R330: feature (f, b) from the energy of its band: the logarithm above the floor, the normalisation with the pair of
band b, and BF16. Every step rounds once to FP32. -/
def Audio.feature (a : Audio) (norm : List Nat) (b energy : Nat) : Nat :=
  let x := if a.flags / 2 % 2 = 1 then toF32 (f32 (if f32Lt energy a.floor then a.floor else energy)).ln else energy
  let x := if a.flags % 2 = 1 then
      toF32 ((f32 (toF32 ((f32 x).add (bf16.read false (norm.getD (2 * b) 0)).negate))).mul (bf16.read false (norm.getD (2 * b + 1) 0)))
    else x
  bf16.write false (f32 x)

/-- The energy of a band: a number that is not negative. -/
def bandEnergy (ops : List Row) (i : Nat) : Nat := (Config.bandEnergy ops i).toNat % 0x7F800000

def runFeatures (c : EngCall) (s : State) : EngReply × State :=
  let a := c.audio
  if ¬ c.audioLegal then failCall egBadBlock s
  else
    let (ins, s) := s.callRows c c.input c.inputs
    let (st, s) := s.callRows c c.stateRow 9
    let (norm, s) := if a.flags % 2 = 1 then s.callRows c a.normRow 2 else (some [], s)
    match ins, st, norm with
    | some ins, some st, some norm =>
      if (norm.flatMap (fun r => rowHalves r 0 256)).take (2 * a.bands) |>.any (fun x => !(bf16.read false x).isFin) then
        failCall egNonfinite s
      else
        let ops := BitVec.ofNat 4096 (rowBytes c.block 16 480) :: (ins ++ st ++ norm)
        let outs := outSamples a ops
        let row0 := st.getD 0 0
        let (f, tail, skip) := framing a.window a.hop (rowBytes row0 10 2) (rowBytes row0 8 2 + outs)
        let bytes := f * a.bands * 2
        if Nat.min c.limit 256 < rowsFor bytes then failCall egSpace s
        else
          let data := (List.range (f * a.bands)).flatMap (fun i =>
            toBytes 2 (a.feature (norm.flatMap (fun r => rowHalves r 0 256)) (i % a.bands) (bandEnergy ops i)))
          ({ emptyReply egOk with
             units := f, result := packRows 0 (rowsFor bytes) data, at0 := c.result,
             state := audioState a ops st ((rowsBytes ins).take (2 * a.samples)) outs tail skip, stateAt := c.stateRow }, s)
    | _, _, _ => failCall egMemory s

def execFeatures (t n : Nat) (s : State) : Host.Outcome State Fault Refusal :=
  onUnit (validLea n) ((s.at t).serveCall n 0 0 runFeatures)

/-! ### ENCODE and DECODE (R333 to R335). Byte 0 names the table, bytes 4 to 7 the bytes or tokens of the input. -/

/-- A table number above 3 names none. -/
def State.tableStatus (s : State) (n : Nat) (c : EngCall) : Option Nat :=
  if 4 ≤ c.param 0 1 ∨ ¬ s.tokAdmits n (c.param 0 1) c.fold then some egNoTable else none

def runEncode (n : Nat) (c : EngCall) (s : State) : EngReply × State :=
  let bytes := c.param 4 4
  match s.tableStatus n c with
  | some st => failCall st s
  | none =>
    if 128 < c.inputs ∨ 512 * c.inputs < bytes then failCall egBadBlock s
    else match s.callRows c c.input c.inputs with
      | (none, s) => failCall egMemory s
      | (some rows, s) =>
        let toks := (s.tokTable n (c.param 0 1)).encode ((rowsBytes rows).take bytes)
        let fit := toks.take (128 * c.limit)
        c.giving s (if fit.length < toks.length then egTruncated else egOk) fit.length (fit.flatMap (toBytes 4))

/-- R335: the most tokens whose bytes fit the rows, counted from the last down. -/
def fitTokens (t : TokTable) (carry : List (BitVec 8)) (toks : List Nat) (room : Nat) : Nat → Nat
  | 0 => 0
  | k + 1 => if (t.decode carry (toks.take (k + 1))).1.length ≤ room then k + 1 else fitTokens t carry toks room k

/-- The state row of DECODE: the bytes carried, and the first token not written. -/
def decodeState (carry : List (BitVec 8)) (next : Nat) : Row :=
  BitVec.ofNat 4096 (carry.length + 2 ^ 8 * ofBytes carry + 2 ^ 32 * next)

def runDecode (n : Nat) (c : EngCall) (s : State) : EngReply × State :=
  let count := c.param 4 4
  match s.tableStatus n c with
  | some st => failCall st s
  | none =>
    if 16384 < count ∨ 128 * c.inputs < count ∨ c.stateRow = 0xFFFF then failCall egBadBlock s
    else
      let (ins, s) := s.callRows c c.input c.inputs
      let (st, s) := s.callRows c c.stateRow 1
      match ins, st with
      | some ins, some st =>
        let t := s.tokTable n (c.param 0 1)
        let toks := (List.range count).map (fun i => rowBytes (ins.getD (i / 128) 0) (4 * (i % 128)) 4)
        let old := st.getD 0 0
        let carry := (toBytes 3 (rowBytes old 1 3)).take (rowByte old 0 % 4)
        if toks.any (fun x => decide (t.tokens.length ≤ x)) then failCall egBadBlock s
        else
          let k := fitTokens t carry toks (512 * c.limit) count
          let (bytes, left) := t.decode carry (toks.take k)
          let (r, s) := c.giving s (if k < count then egTruncated else egOk) bytes.length bytes
          ({ r with state := [decodeState left (if k < count then k else 0)], stateAt := c.stateRow }, s)
      | _, _ => failCall egMemory s

def execEncode (t n : Nat) (s : State) : Host.Outcome State Fault Refusal :=
  onUnit (validLea n) ((s.at t).serveCall n 1 0 (runEncode n))
def execDecode (t n : Nat) (s : State) : Host.Outcome State Fault Refusal :=
  onUnit (validLea n) ((s.at t).serveCall n 1 1 (runDecode n))

end Sys2Proof.Machine
end

