-- ==== Sys2Proof/Machine/Requests.lean ====
section
/-! DEFINITION. What the opcodes of a ring do once they are accepted (R359, R360, R379, R384, R397, R408, R409, R426, R427,
R431 to R433, R440, R441, R445 to R447). -/

namespace Sys2Proof.Machine

/-! ### Items whose own step is due -/

/-- The oldest item of an opcode whose step has not run. -/
def Endpoint.dueItem (e : Endpoint) (op : Nat) : Option Item :=
  e.items.find? (fun i => i.opcode == op && !i.begun && i.fin.isNone)

/-- R418, R597: the items of an endpoint may go on; in Standby only QUERY and FENCE do. -/
def State.mayServe (s : State) (ep op : Nat) : Bool :=
  (s.endpoint ep).attached && !s.inReset && (s.lpState != lpStandby || op == opQuery || op == opFence)

/-- The step of the oldest item of an opcode that waits for it. -/
def State.serveItem (s : State) (ep op : Nat) (f : Item → State → State) : State :=
  match (s.endpoint ep).dueItem op with
  | some i => whenever (s.mayServe ep op) (f i) s
  | none => s

def Item.count (i : Item) : Nat := descBytes i.desc 12 4
def Item.bufVa (i : Item) : Nat := descBytes i.desc 16 8
def Item.bufKey (i : Item) : Nat := descBytes i.desc 24 4
def Item.bufLen (i : Item) : Nat := descBytes i.desc 28 4

/-- The item of a stream ends with a status, once it is the stream's oldest (R361). -/
def State.endItem (s : State) (ep : Nat) (i : Item) (st : Nat) : State :=
  whenever ((s.endpoint ep).inTurn i) (fun s => (s.complete ep i.seq st (s.itemSwath i) none).settleEntry i.entry) s

/-- The item has its input, with `n` units to go. -/
def State.startItem (s : State) (ep : Nat) (i : Item) (n : Nat) (data : List (BitVec 32)) : State :=
  (s.modItem ep i.seq (fun x => { x with begun := true, left := n, data := data })).settleEntry i.entry

/-! ### OPEN_STREAM (R359, R379, R384, R426, R441) -/

/-- The FREE local indices of a hub, ascending. -/
def State.freeLocals (s : State) (n : Nat) : List Nat := (List.range 512).filter (fun i => (s.entry (512 * n + i)).state == eFree)

/-- The lea of a fold with the most FREE entries, the lowest among equals. -/
def State.emptiest (s : State) (f : Nat) : Option Nat :=
  (s.foldLeas f).foldl (fun (best : Option Nat) n => match best with
    | none => some n
    | some m => if (s.freeLocals m).length < (s.freeLocals n).length then some n else some m) none

/-- The model that drafts for a model: READY in the same fold. -/
def State.draftModel (s : State) (m : Model) : Option Nat :=
  if m.cur.paired = 0 then none
  else (s.models.find? (fun e => e.2.state == 2 && !e.2.adapter && e.2.ident == m.cur.paired && e.2.cur.fold == m.cur.fold)).map Prod.fst

/-- A profile from its 32 bytes (Table 10-6). -/
def profileBits (w : BitVec 256) : Profile :=
  let v := w.toNat
  let part := fun i n => v / 256 ^ i % 256 ^ n
  { temp := part 0 4, topP := part 4 4, topK := part 8 2, countIn := part 10 2 % 2 == 1, countOut := part 10 2 / 2 % 2 == 1,
    rho := part 12 4, alphaF := part 16 4, alphaP := part 20 4 }

def fp32One : Nat := 0x3F800000

/-- `a ≤ b` for two FP32 values that are numbers. -/
def f32Le (a b : Nat) : Bool := !(f32 a).isNan && !(f32 b).isNan && !f32Lt b a

/-- The ranges of Table 10-6. -/
def profileOk (w : BitVec 256) : Bool :=
  let p := profileBits w
  let v := w.toNat
  (f32Le 0 p.temp || (f32 p.temp).isZero) && !f32Le p.topP 0 && f32Le p.topP fp32One && decide (1 ≤ p.topK) &&
  decide (p.topK ≤ 256) && v / 256 ^ 10 % 256 ^ 2 / 4 == 0 && f32Le fp32One p.rho && v / 256 ^ 24 == 0

/-- R384: a profile that an entry in state QUEUED or RUNNING names changes at the next formation. -/
def State.writeProfile (s : State) (n i : Nat) (p : Profile) : State :=
  let named := s.entries.any (fun e => entryHub e.1 == n && e.2.profile == i && (e.2.state == eQueued || e.2.state == eRunning))
  s.modHub n (fun h =>
    if named then { h with nextProfiles := Map.put h.nextProfiles i p }
    else { h with profiles := Map.set Profile.reset h.profiles i p, nextProfiles := Map.del h.nextProfiles i })

/-- The entry that an OPEN_STREAM gets: global index `g`, linked with `d`. -/
def openEntry (old : Entry) (g ep : Nat) (i : Item) (f model : Nat) (d : Option Nat) (isDraft : Bool) : Entry :=
  { Entry.reset with
    state := eOpen, priority := descBytes i.desc 54 1 % 16, outMode := descBytes i.desc 54 1 / 16 % 4, draft := isDraft
    gen := old.gen, model := model, adapter := if isDraft then 0 else descBytes i.desc 48 2
    ptBase := stackWord (entryHub g) ((Config.pageTableRow g).toNat % 140625000), ptCap := (Config.pageTableCap g).toNat
    linked := d.getD 0xFFFF
    profile := descBytes i.desc 50 2, seed := descBytes i.desc 32 8, seq := i.seq, ep := ep, fold := f
    parent := if isDraft ∨ descBytes i.desc 40 4 = 0 then none else some (descBytes i.desc 40 4, descBytes i.desc 44 4)
    bufVa := i.bufVa, bufKey := i.bufKey, bufLen := i.bufLen, credit := descBytes i.desc 52 2 }

/-- The output bound that the fold image gives for a model and output mode, where the buffer holds it and no other open
stream has the credit slot. -/
def State.bufferFits (s : State) (ep : Nat) (i : Item) (im : Image) : Bool :=
  decide (64 < i.bufLen) && decide (lookup3 im.outBound (descModel i.desc) (descBytes i.desc 54 1 / 16) ≤ i.bufLen - 64) &&
  (s.creditOf ep (descBytes i.desc 52 2)).isNone

/-- The entry, its draft entry and its count table page are taken. -/
def State.allocate (s : State) (ep : Nat) (i : Item) (m : Model) (n : Nat) (draft : Option Nat) : Option (Nat × State) :=
  let f := m.cur.fold
  match s.freeLocals n with
  | [] => none
  | a :: rest =>
    let g := 512 * n + a
    let d := draft.bind (fun _ => rest.head?.map (fun b => 512 * n + b))
    if draft.isSome ∧ d.isNone then none
    else
      let s := s.modEntry g (fun e => openEntry e g ep i f (descModel i.desc) d false)
      (s.takeFrame n (s.groupPool g 0)).map (fun (x : Word × State) =>
        let s := x.2.modEntry g (fun e => { e with countPage := x.1.toNat })
        match draft, d with
        | some dm, some d => (g, s.modEntry d (fun e => openEntry e d ep i f dm (some g) true))
        | _, _ => (g, s))

/-- The profile that flag 0 names is read, checked and written. -/
def State.openProfile (s : State) (i : Item) (n : Nat) (profile : Option (BitVec 256)) : Except Nat State :=
  if i.flags % 2 = 0 then .ok s
  else match profile with
    | none => .error stFault
    | some w => if profileOk w then .ok (s.writeProfile n (descBytes i.desc 50 2) (profileBits w)) else .error stDescriptor

def State.openStream (s : State) (ep : Nat) (profile : Option (BitVec 256)) (i : Item) : State :=
  let fail := fun st => s.complete ep i.seq st 0 none
  let st := s.openStatus i.desc
  match Map.find s.models (descModel i.desc) with
  | none => fail stNoModel
  | some m =>
    if st ≠ 0 then fail st
    else match (s.fold m.cur.fold).image, s.emptiest m.cur.fold with
      | some im, some n =>
        if ¬ s.bufferFits ep i im then fail stDescriptor
        else match s.openProfile i n profile with
          | .error st => fail st
          | .ok x => match x.allocate ep i m n (s.draftModel m) with
            | none => fail stBusy
            | some (g, x) => x.complete ep i.seq stOk 0 (some ((x.entry g).gen * 65536 + g))
      | _, _ => fail stBusy

def execOpenStream (t ep : Nat) (profile : Option (BitVec 256)) (s : State) : Host.Outcome State Fault Refusal :=
  let s := s.at t
  onUnit (validEp ep) (s.serveItem ep opOpen (fun i s => s.openStream ep profile i))

/-! ### APPEND_INPUT, GENERATE, VERIFY_DRAFT, ADAPT_STEP -/

/-- Little-endian words of four bytes. -/
def words32 : List (BitVec 8) → List (BitVec 32)
  | a :: b :: c :: d :: l => (d ++ c ++ b ++ a) :: words32 l
  | _ => []

/-- The tokeniser table that an APPEND_INPUT of text names. -/
def State.appendText (s : State) (ep : Nat) (i : Item) (bytes : List (BitVec 8)) : State :=
  let n := entryHub i.entry
  let t := descBytes i.desc 41 1
  if ¬ s.tokAdmits n t (s.entry i.entry).fold then s.endItem ep i stNoModel
  else
    let toks := (s.tokTable n t).encode bytes
    s.startItem ep i toks.length (toks.map (BitVec.ofNat 32))

/-- The bytes of an input that a kind and a count need; those of PCM come as they are. -/
def inputBytes (kind count len : Nat) : Nat := if kind = 0 then 4 * count else if kind = 1 then count else len

def State.append (s : State) (ep : Nat) (data : Option (List (BitVec 8))) (i : Item) : State :=
  let kind := descBytes i.desc 40 1
  let need := inputBytes kind i.count i.bufLen
  if i.bufLen < need then s.endItem ep i stDescriptor
  else match data with
    | none => s.endItem ep i stFault
    | some b =>
      if b.length < need then s.endItem ep i stFault
      else if kind = 1 then s.appendText ep i (b.take need)
      else s.startItem ep i i.count (words32 (b.take need))

def execAppendInput (t ep : Nat) (data : Option (List (BitVec 8))) (s : State) : Host.Outcome State Fault Refusal :=
  let s := s.at t
  onUnit (validEp ep) (s.serveItem ep opAppend (fun i s => s.append ep data i))

def execGenerate (t ep : Nat) (s : State) : Host.Outcome State Fault Refusal :=
  let s := s.at t
  onUnit (validEp ep) (s.serveItem ep opGenerate (fun i s => s.startItem ep i i.count []))

/-- Input that takes `k` words a unit. -/
def State.takeWords (s : State) (ep k : Nat) (data : Option (List (BitVec 32))) (i : Item) : State :=
  if i.bufLen < 4 * k * i.count then s.endItem ep i stDescriptor
  else match data with
    | none => s.endItem ep i stFault
    | some l =>
      if l.length < k * i.count then s.endItem ep i stFault else s.startItem ep i i.count (l.take (k * i.count))

def execVerifyDraft (t ep : Nat) (data : Option (List (BitVec 32))) (s : State) : Host.Outcome State Fault Refusal :=
  let s := s.at t
  onUnit (validEp ep) (s.serveItem ep opVerify (fun i s => s.takeWords ep 1 data i))

/-- A stream without an adapter has nothing to train. -/
def execAdaptStep (t ep : Nat) (data : Option (List (BitVec 32))) (s : State) : Host.Outcome State Fault Refusal :=
  let s := s.at t
  onUnit (validEp ep) (s.serveItem ep opAdapt (fun i s =>
    if (s.entry i.entry).adapter = 0 then s.endItem ep i stNoModel else s.takeWords ep 2 data i))

/-! ### CLOSE (R362, R379) -/

/-- R377, R379: every page of an entry and its count table page are released. -/
def State.release (s : State) (g : Nat) : State :=
  let s := s.trimTo g 0
  let p := (s.entry g).countPage
  let s := if p = 0 then s else s.countFrame (entryHub g) (BitVec.ofNat 64 p) (fun c => c - 1)
  s.modEntry g (fun e => { e with state := eDone, tent := 0, countPage := 0, counts := [], parent := none })

def State.closeStream (s : State) (ep : Nat) (i : Item) : State :=
  let g := i.entry
  let later := (s.streamItems g).filter (fun j => j.seq != i.seq)
  let s := match s.draftOf g with
    | some d => s.release d
    | none => s
  let s := (s.release g).complete ep i.seq stOk (s.itemSwath i) none
  later.foldl (fun (s : State) j => s.complete ep j.seq (s.afterClose g j) (s.itemSwath j) none) s

/-- A CLOSE whose stream is DRAINING. -/
def State.dueClose (s : State) (ep : Nat) : Option Item :=
  (s.endpoint ep).items.find? (fun i => i.opcode == opClose && i.fin.isNone && (s.entry i.entry).state == eDraining)

def execClose (t ep : Nat) (s : State) : Host.Outcome State Fault Refusal :=
  let s := s.at t
  onUnit (validEp ep) (match s.dueClose ep with
    | some i => whenever (s.mayServe ep opClose) (fun s => s.closeStream ep i) s
    | none => s)

/-! ### LOAD_MODEL (R394 to R397, R409) -/

/-- A load that has begun takes its package; a buffer that cannot be read ends it (R433). -/
def State.takePackage (s : State) (ep : Nat) (i : Item) (pkg : Option Package) : State :=
  if s.models.any (fun e => e.2.loading == some (ep, i.seq)) then
    match pkg with
    | some p => s.loadPackage ep i p
    | none => (s.dropLoad ep i.seq).complete ep i.seq stFault 0 none
  else s

/-- The oldest LOAD_MODEL that is not decided. -/
def Endpoint.dueLoad (e : Endpoint) : Option Item := e.items.find? (fun i => i.opcode == opLoad && i.fin.isNone)

def State.loadModel (s : State) (ep : Nat) (i : Item) (pkg : Option Package) : State :=
  (if i.begun then s else s.startLoad ep i).takePackage ep i pkg

def execLoadModel (t ep : Nat) (pkg : Option Package) (s : State) : Host.Outcome State Fault Refusal :=
  let s := s.at t
  onUnit (validEp ep) (match (s.endpoint ep).dueLoad with
    | some i => whenever (s.mayServe ep opLoad && s.mayWake) (fun s => s.loadModel ep i pkg) s
    | none => s)

/-! ### UNLOAD_MODEL (R408, R409) -/

/-- The load into a handle that an unload stops. -/
def State.stopBuild (s : State) (h : Nat) : State :=
  match (Map.find s.models h).bind Model.loading with
  | some (ep, seq) => (s.dropLoad ep seq).complete ep seq stFault 0 none
  | none => s

/-- A new version that is READY and not yet current is released. -/
def State.dropNext (s : State) (h : Nat) : State :=
  match (Map.find s.models h).bind Model.next with
  | some c => (s.modModel h (fun m => { m with next := none })).retireCopy false c
  | none => s

/-- Flag 1: every entry of the model enters FAILED. -/
def State.forceOut (s : State) (h : Nat) (adapter : Bool) : State :=
  (s.entries.filter (fun e => if adapter then e.2.adapter == h else e.2.model == h)).foldl (fun (s : State) e => s.loseEntry e.1) s

def State.unloadModel (s : State) (ep : Nat) (i : Item) : State :=
  let h := descModel i.desc
  match Map.find s.models h with
  | none => s.complete ep i.seq stNoModel 0 none
  | some m =>
    let s := (s.stopBuild h).dropNext h
    let s := s.modItem ep i.seq (fun x => { x with begun := true })
    if (Map.find s.models h).isNone then s.complete ep i.seq stOk 0 none
    else
      let s := s.modModel h (fun m => { m with state := 3, unload := m.unload ++ [(ep, i.seq)] })
      let s := if i.flags / 2 % 2 = 1 then s.forceOut h m.adapter else s
      s.copyRetire h

def execUnloadModel (t ep : Nat) (s : State) : Host.Outcome State Fault Refusal :=
  let s := s.at t
  onUnit (validEp ep) (s.serveItem ep opUnload (fun i s => s.unloadModel ep i))

/-! ### QUERY (R427) -/

/-- The entry of a stream as at the last formation; a handle that names none makes the request stale. -/
def State.queryEntry (s : State) (h : Nat) : Option (List (BitVec 8)) :=
  let g := h % 65536
  let e := s.entry g
  if g < 32768 ∧ e.state ≠ eFree ∧ e.gen = h / 65536 then some (toBytes 64 (Map.get Entry.reset s.shown g).encode) else none

def State.queryBlock (s : State) (ep : Nat) (d : BitVec 512) : Option (List (BitVec 8)) :=
  match descBytes d 32 1 with
  | 0 => some (toBytes 8 (s.readWord .glbNumericProfile 0 0).toNat ++ toBytes 8 (s.readWord .timBeat 0 0).toNat ++
      toBytes 8 (s.readWord .timStatus 0 0).toNat)
  | 1 => some (toBytes 32 (s.modelRecord (descBytes d 34 2)))
  | 2 => s.queryEntry (descBytes d 36 4)
  | _ => some (toBytes 8 (s.endpoint ep).stateWord.toNat ++ toBytes 8 (s.endpoint ep).posWord.toNat)

/-- An item that ends with the bytes that it wrote. -/
def State.answerItem (s : State) (ep : Nat) (i : Item) (bytes : List (BitVec 8)) : State :=
  ((s.send (.write ep i.bufVa i.bufKey bytes)).modItem ep i.seq (fun x => { x with value := bytes.length })).complete ep i.seq
    stOk 0 none

def State.query (s : State) (ep : Nat) (bufferOk : Bool) (i : Item) : State :=
  match s.queryBlock ep i.desc with
  | none => s.complete ep i.seq stDescriptor 0 none
  | some b =>
    if i.bufLen < b.length then s.complete ep i.seq stDescriptor 0 none
    else if ¬ bufferOk then s.complete ep i.seq stFault 0 none
    else s.answerItem ep i b

def execQuery (t ep : Nat) (bufferOk : Bool) (s : State) : Host.Outcome State Fault Refusal :=
  let s := s.at t
  onUnit (validEp ep) (s.serveItem ep opQuery (fun i s => s.query ep bufferOk i))

/-! ### FENCE (R432) -/

def execFence (t ep : Nat) (s : State) : Host.Outcome State Fault Refusal :=
  let s := s.at t
  onUnit (validEp ep) (s.serveItem ep opFence (fun i s =>
    if (s.endpoint ep).mayFinish i then s.complete ep i.seq stOk 0 none else s))

/-! ### SETUP_READ, SETUP_WRITE (R445 to R447) -/

def State.setupRead (s : State) (ep : Nat) (bufferOk : Bool) (i : Item) : State :=
  match s.readSetup (descBytes i.desc 32 8) 64 with
  | (_, false) => s.complete ep i.seq stDescriptor 0 none
  | (v, true) =>
    if i.bufLen < 8 then s.complete ep i.seq stDescriptor 0 none
    else if ¬ bufferOk then s.complete ep i.seq stFault 0 none
    else s.answerItem ep i (toBytes 8 v.toNat)

def execSetupRead (t ep : Nat) (bufferOk : Bool) (s : State) : Host.Outcome State Fault Refusal :=
  let s := s.at t
  onUnit (validEp ep) (s.serveItem ep opSetupRead (fun i s => s.setupRead ep bufferOk i))

/-- How a setup write ends the item that asked for it. -/
def Written.status : Written → Nat
  | .done => stOk
  | .refused => stDescriptor
  | .locked => stNotAuth
  | .forbidden => stNotAuth

def State.setupWrite (s : State) (ep : Nat) (i : Item) : State :=
  let (w, s) := s.writeSetup .rdma (descBytes i.desc 32 8) 64 (BitVec.ofNat 64 (descBytes i.desc 40 8))
  s.complete ep i.seq w.status 0 none

def execSetupWrite (t ep : Nat) (s : State) : Host.Outcome State Fault Refusal :=
  let s := s.at t
  onUnit (validEp ep) (s.serveItem ep opSetupWrite (fun i s => s.setupWrite ep i))

end Sys2Proof.Machine
end

