-- ==== Sys2Proof/Machine/Dispatch.lean ====
section
/-! DEFINITION. One arm for each command: the meaning it calls. -/

namespace Sys2Proof.Machine

def exec (i : Instr) (s : State) : Host.Outcome State Fault Refusal :=
  match i with
  | .nop t o => Sys2Proof.Machine.execNop t o s
  | .add t o f imm => Sys2Proof.Machine.execAdd t o f imm s
  | .shl t o f imm => Sys2Proof.Machine.execShl t o f imm s
  | .min t o f => Sys2Proof.Machine.execMin t o f s
  | .mul t o f => Sys2Proof.Machine.execMul t o f s
  | .li t o => Sys2Proof.Machine.execLi t o s
  | .lui t o => Sys2Proof.Machine.execLui t o s
  | .cmp t o r => Sys2Proof.Machine.execCmp t o r s
  | .sysRd t o => Sys2Proof.Machine.execSysRd t o s
  | .br t o => Sys2Proof.Machine.execBr t o s
  | .brP t o => Sys2Proof.Machine.execBrP t o s
  | .loop t o => Sys2Proof.Machine.execLoop t o s
  | .jal t o => Sys2Proof.Machine.execJal t o s
  | .jr t o => Sys2Proof.Machine.execJr t o s
  | .vAdd t o f ty => Sys2Proof.Machine.execVAdd t o f ty s
  | .vAnd t o f ty => Sys2Proof.Machine.execVAnd t o f ty s
  | .vMul t o fma ty => Sys2Proof.Machine.execVMul t o fma ty s
  | .vCmp t o r ty => Sys2Proof.Machine.execVCmp t o r ty s
  | .vSel t o ty => Sys2Proof.Machine.execVSel t o ty s
  | .vCvt t o ty => Sys2Proof.Machine.execVCvt t o ty s
  | .vExp2 t o f ty => Sys2Proof.Machine.execVExp2 t o f ty s
  | .vRedAdd t o isMax ty => Sys2Proof.Machine.execVRedAdd t o isMax ty s
  | .vShuf t o ty => Sys2Proof.Machine.execVShuf t o ty s
  | .vBcast t o ty => Sys2Proof.Machine.execVBcast t o ty s
  | .vExt t o ty => Sys2Proof.Machine.execVExt t o ty s
  | .vIns t o ty => Sys2Proof.Machine.execVIns t o ty s
  | .mma t o k hiA hiB => Sys2Proof.Machine.execMma t o k hiA hiB s
  | .mmaStart t core => Sys2Proof.Machine.execMmaStart t core s
  | .mmaEnd t core => Sys2Proof.Machine.execMmaEnd t core s
  | .accClr t o => Sys2Proof.Machine.execAccClr t o s
  | .accMv t o => Sys2Proof.Machine.execAccMv t o s
  | .rowLd t o tile => Sys2Proof.Machine.execRowLd t o tile s
  | .rowSt t o tile => Sys2Proof.Machine.execRowSt t o tile s
  | .qPutRd t o q => Sys2Proof.Machine.execQPutRd t o q s
  | .qPutWr t o q => Sys2Proof.Machine.execQPutWr t o q s
  | .qGet t o q d => Sys2Proof.Machine.execQGet t o q d s
  | .qWait t o q => Sys2Proof.Machine.execQWait t o q s
  | .qWaitWr t o q => Sys2Proof.Machine.execQWaitWr t o q s
  | .slotSend t o => Sys2Proof.Machine.execSlotSend t o s
  | .arrIssue t o g => Sys2Proof.Machine.execArrIssue t o g s
  | .arrCollect t o g => Sys2Proof.Machine.execArrCollect t o g s
  | .leaveReq t o => Sys2Proof.Machine.execLeaveReq t o s
  | .leaveWait t o => Sys2Proof.Machine.execLeaveWait t o s
  | .stile t o => Sys2Proof.Machine.execStile t o s
  | .swathWait t o => Sys2Proof.Machine.execSwathWait t o s
  | .engCall t o => Sys2Proof.Machine.execEngCall t o s
  | .engWait t o => Sys2Proof.Machine.execEngWait t o s
  | .recEmit t o => Sys2Proof.Machine.execRecEmit t o s
  | .recordSend t core => Sys2Proof.Machine.execRecordSend t core s
  | .bankAccess t q bank => Sys2Proof.Machine.execBankAccess t q bank s
  | .scrubRead t q row => Sys2Proof.Machine.execScrubRead t q row s
  | .partitionDescriptorWrite t p q imm cfg v => Sys2Proof.Machine.execPartitionDescriptorWrite t p q imm cfg v s
  | .partitionClose t p q imm => Sys2Proof.Machine.execPartitionClose t p q imm s
  | .bankClosure t q bank => Sys2Proof.Machine.execBankClosure t q bank s
  | .partitionOpen t p q imm => Sys2Proof.Machine.execPartitionOpen t p q imm s
  | .bankFillDone t q bank => Sys2Proof.Machine.execBankFillDone t q bank s
  | .layerEntryWrite t p q e r v => Sys2Proof.Machine.execLayerEntryWrite t p q e r v s
  | .arrayAccept t q g => Sys2Proof.Machine.execArrayAccept t q g s
  | .arrayRotationEnd t q g => Sys2Proof.Machine.execArrayRotationEnd t q g s
  | .arrayPlane t q g => Sys2Proof.Machine.execArrayPlane t q g s
  | .arrayAccumulation t q g => Sys2Proof.Machine.execArrayAccumulation t q g s
  | .arrayResultReady t q g => Sys2Proof.Machine.execArrayResultReady t q g s
  | .sideRowFetched t q => Sys2Proof.Machine.execSideRowFetched t q s
  | .sideDelivery t q => Sys2Proof.Machine.execSideDelivery t q s
  | .calibrationDue t q a c => Sys2Proof.Machine.execCalibrationDue t q a c s
  | .calibrationSlice t q a periods => Sys2Proof.Machine.execCalibrationSlice t q a periods s
  | .calibrationFitDone t q a fit => Sys2Proof.Machine.execCalibrationFitDone t q a fit s
  | .arrayRowProgram t q a row w pulses stuck => Sys2Proof.Machine.execArrayRowProgram t q a row w pulses stuck s
  | .ppsEdge t => Sys2Proof.Machine.execPpsEdge t s
  | .ptpSync t offset => Sys2Proof.Machine.execPtpSync t offset s
  | .timeLocked t => Sys2Proof.Machine.execTimeLocked t s
  | .holdover t => Sys2Proof.Machine.execHoldover t s
  | .referenceClockLoss t => Sys2Proof.Machine.execReferenceClockLoss t s
  | .foldArm t p f img => Sys2Proof.Machine.execFoldArm t p f img s
  | .foldStop t p f => Sys2Proof.Machine.execFoldStop t p f s
  | .swathOpen t f => Sys2Proof.Machine.execSwathOpen t f s
  | .swathRunStart t f => Sys2Proof.Machine.execSwathRunStart t f s
  | .stileRelease t f id => Sys2Proof.Machine.execStileRelease t f id s
  | .swathDrainEnd t f => Sys2Proof.Machine.execSwathDrainEnd t f s
  | .outputEntry t f a => Sys2Proof.Machine.execOutputEntry t f a s
  | .swathGuardStart t f => Sys2Proof.Machine.execSwathGuardStart t f s
  | .stileTimeout t f => Sys2Proof.Machine.execStileTimeout t f s
  | .leaveRequestPlace t n => Sys2Proof.Machine.execLeaveRequestPlace t n s
  | .grantStart t n g => Sys2Proof.Machine.execGrantStart t n g s
  | .grantSpanEnd t n g => Sys2Proof.Machine.execGrantSpanEnd t n g s
  | .slotLaunch t pkt => Sys2Proof.Machine.execSlotLaunch t pkt s
  | .routerRow t pkt => Sys2Proof.Machine.execRouterRow t pkt s
  | .timedRowArrival t pkt => Sys2Proof.Machine.execTimedRowArrival t pkt s
  | .routerPortArrival t pkt => Sys2Proof.Machine.execRouterPortArrival t pkt s
  | .stackRequestAdmit t n => Sys2Proof.Machine.execStackRequestAdmit t n s
  | .queueReturn t q k => Sys2Proof.Machine.execQueueReturn t q k s
  | .writeAcknowledgement t q k => Sys2Proof.Machine.execWriteAcknowledgement t q k s
  | .stackRefresh t n bank => Sys2Proof.Machine.execStackRefresh t n bank s
  | .stackTemperatureRead t n temps => Sys2Proof.Machine.execStackTemperatureRead t n temps s
  | .stackScrub t n row => Sys2Proof.Machine.execStackScrub t n row s
  | .selfRefreshExit t n => Sys2Proof.Machine.execSelfRefreshExit t n s
  | .regionDescriptorWrite t p n imm cfg v => Sys2Proof.Machine.execRegionDescriptorWrite t p n imm cfg v s
  | .regionClear t p n imm => Sys2Proof.Machine.execRegionClear t p n imm s
  | .engineCallAdmit t n e => Sys2Proof.Machine.execEngineCallAdmit t n e s
  | .features t n => Sys2Proof.Machine.execFeatures t n s
  | .encode t n => Sys2Proof.Machine.execEncode t n s
  | .decode t n => Sys2Proof.Machine.execDecode t n s
  | .attend t n => Sys2Proof.Machine.execAttend t n s
  | .scores t n => Sys2Proof.Machine.execScores t n s
  | .sample t n e => Sys2Proof.Machine.execSample t n e s
  | .verify t n e => Sys2Proof.Machine.execVerify t n e s
  | .translate t n => Sys2Proof.Machine.execTranslate t n s
  | .extend t n => Sys2Proof.Machine.execExtend t n s
  | .trim t n => Sys2Proof.Machine.execTrim t n s
  | .gcmDecrypt t n => Sys2Proof.Machine.execGcmDecrypt t n s
  | .gcmEncrypt t n => Sys2Proof.Machine.execGcmEncrypt t n s
  | .sha384 t n => Sys2Proof.Machine.execSha384 t n s
  | .ecdsaVerify t n pub msg sig => Sys2Proof.Machine.execEcdsaVerify t n pub msg sig s
  | .lmsVerify t n pub msg sig => Sys2Proof.Machine.execLmsVerify t n pub msg sig s
  | .normSet t q => Sys2Proof.Machine.execNormSet t q s
  | .normSubmit t q => Sys2Proof.Machine.execNormSubmit t q s
  | .engineCallComplete t n e parity => Sys2Proof.Machine.execEngineCallComplete t n e parity s
  | .weightCodecChunk t n dest unit row coding data => Sys2Proof.Machine.execWeightCodecChunk t n dest unit row coding data s
  | .connectionRequest t ep c => Sys2Proof.Machine.execConnectionRequest t ep c s
  | .connectionFail t ep => Sys2Proof.Machine.execConnectionFail t ep s
  | .submissionDoorbell t ep key a => Sys2Proof.Machine.execSubmissionDoorbell t ep key a s
  | .completionHead t ep key v => Sys2Proof.Machine.execCompletionHead t ep key v s
  | .creditSlotWrite t ep key slot v => Sys2Proof.Machine.execCreditSlotWrite t ep key slot v s
  | .descriptorFetch t ep d => Sys2Proof.Machine.execDescriptorFetch t ep d s
  | .accept t ep => Sys2Proof.Machine.execAccept t ep s
  | .reject t ep => Sys2Proof.Machine.execReject t ep s
  | .carriedAccept t ep => Sys2Proof.Machine.execCarriedAccept t ep s
  | .openStream t ep profile => Sys2Proof.Machine.execOpenStream t ep profile s
  | .appendInput t ep data => Sys2Proof.Machine.execAppendInput t ep data s
  | .generate t ep => Sys2Proof.Machine.execGenerate t ep s
  | .verifyDraft t ep data => Sys2Proof.Machine.execVerifyDraft t ep data s
  | .close t ep => Sys2Proof.Machine.execClose t ep s
  | .adaptStep t ep data => Sys2Proof.Machine.execAdaptStep t ep data s
  | .loadModel t ep pkg => Sys2Proof.Machine.execLoadModel t ep pkg s
  | .unloadModel t ep => Sys2Proof.Machine.execUnloadModel t ep s
  | .query t ep bufferOk => Sys2Proof.Machine.execQuery t ep bufferOk s
  | .fence t ep => Sys2Proof.Machine.execFence t ep s
  | .setupRead t ep bufferOk => Sys2Proof.Machine.execSetupRead t ep bufferOk s
  | .setupWrite t ep => Sys2Proof.Machine.execSetupWrite t ep s
  | .replayDone t a => Sys2Proof.Machine.execReplayDone t a s
  | .rebuild t q g => Sys2Proof.Machine.execRebuild t q g s
  | .copyRetire t handle => Sys2Proof.Machine.execCopyRetire t handle s
  | .linkTraining t link r => Sys2Proof.Machine.execLinkTraining t link r s
  | .skeltinDataFrame t link frame => Sys2Proof.Machine.execSkeltinDataFrame t link frame s
  | .nak t link seq => Sys2Proof.Machine.execNak t link seq s
  | .ackTimeout t port => Sys2Proof.Machine.execAckTimeout t port s
  | .stepMarkerArmed t m => Sys2Proof.Machine.execStepMarkerArmed t m s
  | .stepMarkerJoin t m => Sys2Proof.Machine.execStepMarkerJoin t m s
  | .stepMarkerDrained t m => Sys2Proof.Machine.execStepMarkerDrained t m s
  | .windowAnnounce t owner id gen rows => Sys2Proof.Machine.execWindowAnnounce t owner id gen rows s
  | .windowRequest t h row => Sys2Proof.Machine.execWindowRequest t h row s
  | .refusal t tag cause => Sys2Proof.Machine.execRefusal t tag cause s
  | .windowClose t id => Sys2Proof.Machine.execWindowClose t id s
  | .inputMonitor t hvDv hvDa auxDv auxDa => Sys2Proof.Machine.execInputMonitor t hvDv hvDa auxDv auxDa s
  | .overdrawCheck t q milliamps => Sys2Proof.Machine.execOverdrawCheck t q milliamps s
  | .clusterOn t q => Sys2Proof.Machine.execClusterOn t q s
  | .reservoirConnect t q mv => Sys2Proof.Machine.execReservoirConnect t q mv s
  | .droop t q mv => Sys2Proof.Machine.execDroop t q mv s
  | .droopRelease t d => Sys2Proof.Machine.execDroopRelease t d s
  | .vminRearm t p q mv => Sys2Proof.Machine.execVminRearm t p q mv s
  | .currentSample t domain tenMilliamps => Sys2Proof.Machine.execCurrentSample t domain tenMilliamps s
  | .supplyWarn t dv segs => Sys2Proof.Machine.execSupplyWarn t dv segs s
  | .supplyOk t dv segs => Sys2Proof.Machine.execSupplyOk t dv segs s
  | .supplyQuiesce t => Sys2Proof.Machine.execSupplyQuiesce t s
  | .supplyResume t => Sys2Proof.Machine.execSupplyResume t s
  | .inputLoss t dv => Sys2Proof.Machine.execInputLoss t dv s
  | .inputOvervoltage t dv => Sys2Proof.Machine.execInputOvervoltage t dv s
  | .inputReversed t => Sys2Proof.Machine.execInputReversed t s
  | .inputPrecharge t dv => Sys2Proof.Machine.execInputPrecharge t dv s
  | .sliceFail t q imm => Sys2Proof.Machine.execSliceFail t q imm s
  | .phaseFail t n imm => Sys2Proof.Machine.execPhaseFail t n imm s
  | .senseOpen t n ao => Sys2Proof.Machine.execSenseOpen t n ao s
  | .segmentFail t src bus => Sys2Proof.Machine.execSegmentFail t src bus s
  | .pwrEnAssert t => Sys2Proof.Machine.execPwrEnAssert t s
  | .coolantCheckEnd t inlet outlet sensorsOk => Sys2Proof.Machine.execCoolantCheckEnd t inlet outlet sensorsOk s
  | .pwrEnDeassert t => Sys2Proof.Machine.execPwrEnDeassert t s
  | .trayReport t flow inlet => Sys2Proof.Machine.execTrayReport t flow inlet s
  | .traySilent t => Sys2Proof.Machine.execTraySilent t s
  | .sensorRead t k reading => Sys2Proof.Machine.execSensorRead t k reading s
  | .allowanceUpdate t => Sys2Proof.Machine.execAllowanceUpdate t s
  | .holdExit t => Sys2Proof.Machine.execHoldExit t s
  | .hotLevelStep t q => Sys2Proof.Machine.execHotLevelStep t q s
  | .hotOffMark t q => Sys2Proof.Machine.execHotOffMark t q s
  | .regionHotOff t q => Sys2Proof.Machine.execRegionHotOff t q s
  | .hotReturn t q => Sys2Proof.Machine.execHotReturn t q s
  | .flowLossN t level => Sys2Proof.Machine.execFlowLossN t level s
  | .stopClear t p => Sys2Proof.Machine.execStopClear t p s
  | .slewGovernor t => Sys2Proof.Machine.execSlewGovernor t s
  | .heartbeat t tile => Sys2Proof.Machine.execHeartbeat t tile s
  | .clusterFail t q cause core => Sys2Proof.Machine.execClusterFail t q cause core s
  | .heartbeatLost t router unit reporter => Sys2Proof.Machine.execHeartbeatLost t router unit reporter s
  | .routesDone t routes => Sys2Proof.Machine.execRoutesDone t routes s
  | .stackFail t n => Sys2Proof.Machine.execStackFail t n s
  | .spareTestEnd t q pass => Sys2Proof.Machine.execSpareTestEnd t q pass s
  | .replaceDone t f => Sys2Proof.Machine.execReplaceDone t f s
  | .recordStreamSend t log => Sys2Proof.Machine.execRecordStreamSend t log s
  | .boot t found => Sys2Proof.Machine.execBoot t found s
  | .installSigner t p slot => Sys2Proof.Machine.execInstallSigner t p slot s
  | .eraseSigner t p slot => Sys2Proof.Machine.execEraseSigner t p slot s
  | .installSetupKey t p slot => Sys2Proof.Machine.execInstallSetupKey t p slot s
  | .exportKeys t p => Sys2Proof.Machine.execExportKeys t p s
  | .attest t p => Sys2Proof.Machine.execAttest t p s
  | .commitSvn t p => Sys2Proof.Machine.execCommitSvn t p s
  | .attestTreeBuild t => Sys2Proof.Machine.execAttestTreeBuild t s
  | .seal t p => Sys2Proof.Machine.execSeal t p s
  | .requestUpdate t => Sys2Proof.Machine.execRequestUpdate t s
  | .verifyComplete t img => Sys2Proof.Machine.execVerifyComplete t img s
  | .applyComplete t => Sys2Proof.Machine.execApplyComplete t s
  | .setdasa t addr => Sys2Proof.Machine.execSetdasa t addr s
  | .cold t p => Sys2Proof.Machine.execCold t p s
  | .warm t p => Sys2Proof.Machine.execWarm t p s
  | .lea t p n => Sys2Proof.Machine.execLea t p n s
  | .cluster t p q => Sys2Proof.Machine.execCluster t p q s
  | .fold t p f => Sys2Proof.Machine.execFold t p f s
  | .link t p l => Sys2Proof.Machine.execLink t p l s
  | .stopN t => Sys2Proof.Machine.execStopN t s
  | .chiefWatchdog t => Sys2Proof.Machine.execChiefWatchdog t s
  | .stewardWatchdog t n => Sys2Proof.Machine.execStewardWatchdog t n s
  | .standby t p => Sys2Proof.Machine.execStandby t p s
  | .active t p => Sys2Proof.Machine.execActive t p s
  | .regionOff t p n k => Sys2Proof.Machine.execRegionOff t p n k s
  | .registerWrite t p addr width v => Sys2Proof.Machine.execRegisterWrite t p addr width v s
  | .auxiliaryInputPresent t dv => Sys2Proof.Machine.execAuxiliaryInputPresent t dv s
  | .auxiliaryInputLoss t => Sys2Proof.Machine.execAuxiliaryInputLoss t s
  | .stopNRelease t => Sys2Proof.Machine.execStopNRelease t s
  | .modelRevalidated t handle => Sys2Proof.Machine.execModelRevalidated t handle s
  | .idlenessSwitchOff t q => Sys2Proof.Machine.execIdlenessSwitchOff t q s

end Sys2Proof.Machine
end

