-- ==== Sys2Proof/WellFormed.lean ====
section
/-! DEFINITION. Which commands name units that a W1 has: the numbers of cores, clusters, leas, banks, folds, endpoints,
links and the rest that the manual gives. -/

namespace Sys2Proof

def below (x n : Nat) : Bool := decide (x < n)
/-- R15, R17: 64 leas of 24 clusters. -/
def leaOk (n : Nat) : Bool := below n 64
def clusterOk (q : Nat) : Bool := below q 1536
/-- 00, Addresses: n in bits 16 to 11, k in 10 to 6, j in 5 to 0; 48 cores a cluster. -/
def coreOk (c : Nat) : Bool := below c 131072 && below (c / 64 % 32) 24 && below (c % 64) 48
def CoreOp.coreOk (o : CoreOp) : Bool := Sys2Proof.coreOk o.core
/-- A tile as x + 64·y, 40 by 40. -/
def tileOk (x : Nat) : Bool := below (x % 64) 40 && below (x / 64) 40
/-- R58: 256 folds. -/
def foldOk (f : Nat) : Bool := below f 256
/-- R415: 4,096 endpoints. -/
def endpointOk (e : Nat) : Bool := below e 4096
/-- R22, Table 01-3: 96 links. -/
def linkOk (l : Nat) : Bool := below l 96
/-- Table 09-1: engines 0 to 6 of a hub, and 8, the norm function of a cluster. -/
def engineOk (e : Nat) : Bool := below e 7 || e == 8
/-- The two sampling engines. -/
def samplerOk (e : Nat) : Bool := e == 3 || e == 4
/-- Table 15-1. -/
def sensorOk : Sensor → Bool
  | .cluster q => clusterOk q
  | .hub n i => leaOk n && below i 4
  | .stack n => leaOk n
  | .inlet => true
  | .outlet => true

/-- The command names only units that a W1 has. -/
def Instr.wf : Instr → Bool
  | .nop _ o => o.coreOk
  | .add _ o _ _ => o.coreOk
  | .shl _ o _ _ => o.coreOk
  | .min _ o _ => o.coreOk
  | .mul _ o _ => o.coreOk
  | .li _ o => o.coreOk
  | .lui _ o => o.coreOk
  | .cmp _ o _ => o.coreOk
  | .sysRd _ o => o.coreOk
  | .br _ o => o.coreOk
  | .brP _ o => o.coreOk
  | .loop _ o => o.coreOk
  | .jal _ o => o.coreOk
  | .jr _ o => o.coreOk
  | .vAdd _ o _ _ => o.coreOk
  | .vAnd _ o _ _ => o.coreOk
  | .vMul _ o _ _ => o.coreOk
  | .vCmp _ o _ _ => o.coreOk
  | .vSel _ o _ => o.coreOk
  | .vCvt _ o _ => o.coreOk
  | .vExp2 _ o _ _ => o.coreOk
  | .vRedAdd _ o _ _ => o.coreOk
  | .vShuf _ o _ => o.coreOk
  | .vBcast _ o _ => o.coreOk
  | .vExt _ o _ => o.coreOk
  | .vIns _ o _ => o.coreOk
  | .mma _ o _ _ _ => o.coreOk
  | .mmaStart _ core => coreOk core
  | .mmaEnd _ core => coreOk core
  | .accClr _ o => o.coreOk
  | .accMv _ o => o.coreOk
  | .rowLd _ o _ => o.coreOk
  | .rowSt _ o _ => o.coreOk
  | .qPutRd _ o q => o.coreOk && below q 16
  | .qPutWr _ o q => o.coreOk && below q 16
  | .qGet _ o q _ => o.coreOk && below q 16
  | .qWait _ o q => o.coreOk && below q 16
  | .qWaitWr _ o q => o.coreOk && below q 16
  | .slotSend _ o => o.coreOk
  | .arrIssue _ o g => o.coreOk && below g 4
  | .arrCollect _ o g => o.coreOk && below g 4
  | .leaveReq _ o => o.coreOk
  | .leaveWait _ o => o.coreOk
  | .stile _ o => o.coreOk
  | .swathWait _ o => o.coreOk
  | .engCall _ o => o.coreOk
  | .engWait _ o => o.coreOk
  | .recEmit _ o => o.coreOk
  | .recordSend _ core => coreOk core
  | .bankAccess _ q bank => clusterOk q && below bank 48
  | .scrubRead _ q row => clusterOk q && below row 49152
  | .partitionDescriptorWrite _ _ q i _ _ => clusterOk q && below i 64
  | .partitionClose _ _ q i => clusterOk q && below i 64
  | .bankClosure _ q bank => clusterOk q && below bank 48
  | .partitionOpen _ _ q i => clusterOk q && below i 64
  | .bankFillDone _ q bank => clusterOk q && below bank 48
  | .layerEntryWrite _ _ q e r _ => clusterOk q && below e 256 && below r 3
  | .arrayAccept _ q g => clusterOk q && below g 4
  | .arrayRotationEnd _ q g => clusterOk q && below g 4
  | .arrayPlane _ q g => clusterOk q && below g 4
  | .arrayAccumulation _ q g => clusterOk q && below g 4
  | .arrayResultReady _ q g => clusterOk q && below g 4
  | .sideRowFetched _ q => clusterOk q
  | .sideDelivery _ q => clusterOk q
  | .calibrationDue _ q a _ => clusterOk q && below a 32
  | .calibrationSlice _ q a _ => clusterOk q && below a 32
  | .calibrationFitDone _ q a _ => clusterOk q && below a 32
  | .arrayRowProgram _ q a row _ _ stuck => clusterOk q && below a 32 && below row 1024 && stuck.all (fun k => below k.col 512 && below k.level 8)
  | .ppsEdge _ => true
  | .ptpSync _ _ => true
  | .timeLocked _ => true
  | .holdover _ => true
  | .referenceClockLoss _ => true
  | .foldArm _ _ f _ => foldOk f
  | .foldStop _ _ f => foldOk f
  | .swathOpen _ f => foldOk f
  | .swathRunStart _ f => foldOk f
  | .stileRelease _ f id => foldOk f && below id 16
  | .swathDrainEnd _ f => foldOk f
  | .outputEntry _ f a => foldOk f && endpointOk a.ep
  | .swathGuardStart _ f => foldOk f
  | .stileTimeout _ f => foldOk f
  | .leaveRequestPlace _ n => leaOk n
  | .grantStart _ n _ => leaOk n
  | .grantSpanEnd _ n _ => leaOk n
  | .slotLaunch _ _ => true
  | .routerRow _ _ => true
  | .timedRowArrival _ _ => true
  | .routerPortArrival _ _ => true
  | .stackRequestAdmit _ n => leaOk n
  | .queueReturn _ q k => clusterOk q && below k 16
  | .writeAcknowledgement _ q k => clusterOk q && below k 16
  | .stackRefresh _ n _ => leaOk n
  | .stackTemperatureRead _ n _ => leaOk n
  | .stackScrub _ n _ => leaOk n
  | .selfRefreshExit _ n => leaOk n
  | .regionDescriptorWrite _ _ n i _ _ => leaOk n && below i 64
  | .regionClear _ _ n i => leaOk n && below i 64
  | .engineCallAdmit _ n e => leaOk n && engineOk e
  | .features _ n => leaOk n
  | .encode _ n => leaOk n
  | .decode _ n => leaOk n
  | .attend _ n => leaOk n
  | .scores _ n => leaOk n
  | .sample _ n e => leaOk n && samplerOk e
  | .verify _ n e => leaOk n && samplerOk e
  | .translate _ n => leaOk n
  | .extend _ n => leaOk n
  | .trim _ n => leaOk n
  | .gcmDecrypt _ n => leaOk n
  | .gcmEncrypt _ n => leaOk n
  | .sha384 _ n => leaOk n
  | .ecdsaVerify _ n _ _ _ => leaOk n
  | .lmsVerify _ n _ _ _ => leaOk n
  | .normSet _ q => clusterOk q
  | .normSubmit _ q => clusterOk q
  | .engineCallComplete _ n e _ => leaOk n && engineOk e
  | .weightCodecChunk _ n dest unit _ _ _ => leaOk n && (match dest with
      | .stack => leaOk unit
      | .scratch => clusterOk unit && unit / 24 == n
      | .array a => clusterOk unit && unit / 24 == n && decide (a < 32))
  | .connectionRequest _ ep c => endpointOk ep && linkOk c.link
  | .connectionFail _ ep => endpointOk ep
  | .submissionDoorbell _ ep _ _ => endpointOk ep
  | .completionHead _ ep _ _ => endpointOk ep
  | .creditSlotWrite _ ep _ slot _ => endpointOk ep && below slot 504
  | .descriptorFetch _ ep _ => endpointOk ep
  | .accept _ ep => endpointOk ep
  | .reject _ ep => endpointOk ep
  | .carriedAccept _ ep => endpointOk ep
  | .openStream _ ep _ => endpointOk ep
  | .appendInput _ ep _ => endpointOk ep
  | .generate _ ep => endpointOk ep
  | .verifyDraft _ ep _ => endpointOk ep
  | .close _ ep => endpointOk ep
  | .adaptStep _ ep _ => endpointOk ep
  | .loadModel _ ep _ => endpointOk ep
  | .unloadModel _ ep => endpointOk ep
  | .query _ ep _ => endpointOk ep
  | .fence _ ep => endpointOk ep
  | .setupRead _ ep _ => endpointOk ep
  | .setupWrite _ ep => endpointOk ep
  | .replayDone _ a => endpointOk a.ep
  | .rebuild _ q g => clusterOk q && below g 4
  | .copyRetire _ _ => true
  | .linkTraining _ l _ => linkOk l
  | .skeltinDataFrame _ l _ => linkOk l
  | .nak _ l _ => linkOk l
  | .ackTimeout _ port => below port 96
  | .stepMarkerArmed _ m => below m.port 96
  | .stepMarkerJoin _ m => below m.port 96
  | .stepMarkerDrained _ m => below m.port 96
  | .windowAnnounce _ _ _ _ _ => true
  | .windowRequest _ _ _ => true
  | .refusal _ _ _ => true
  | .windowClose _ _ => true
  | .inputMonitor _ _ _ _ _ => true
  | .overdrawCheck _ q _ => clusterOk q
  | .clusterOn _ q => clusterOk q
  | .reservoirConnect _ q _ => clusterOk q
  | .droop _ q _ => clusterOk q
  | .droopRelease _ d => clusterOk d.q
  | .vminRearm _ _ q _ => clusterOk q
  | .currentSample _ domain _ => below domain 1600
  | .supplyWarn _ _ _ => true
  | .supplyOk _ _ _ => true
  | .supplyQuiesce _ => true
  | .supplyResume _ => true
  | .inputLoss _ _ => true
  | .inputOvervoltage _ _ => true
  | .inputReversed _ => true
  | .inputPrecharge _ _ => true
  | .sliceFail _ q i => clusterOk q && below i 4
  | .phaseFail _ n i => leaOk n && below i 20
  | .senseOpen _ n _ => leaOk n
  | .segmentFail _ s _ => below s 4
  | .pwrEnAssert _ => true
  | .coolantCheckEnd _ _ _ _ => true
  | .pwrEnDeassert _ => true
  | .trayReport _ _ _ => true
  | .traySilent _ => true
  | .sensorRead _ k _ => sensorOk k
  | .allowanceUpdate _ => true
  | .holdExit _ => true
  | .hotLevelStep _ q => clusterOk q
  | .hotOffMark _ q => clusterOk q
  | .regionHotOff _ q => clusterOk q
  | .hotReturn _ q => clusterOk q
  | .flowLossN _ _ => true
  | .stopClear _ _ => true
  | .slewGovernor _ => true
  | .heartbeat _ tile => tileOk tile
  | .clusterFail _ q _ core => clusterOk q && core.all (fun j => below j 48)
  | .heartbeatLost _ router unit reporter => if router then tileOk unit && tileOk reporter else clusterOk unit
  | .routesDone _ routes => routes.all (fun r => tileOk r.1 && tileOk r.2.1 && below r.2.2 5)
  | .stackFail _ n => leaOk n
  | .spareTestEnd _ q _ => clusterOk q
  | .replaceDone _ f => foldOk f
  | .recordStreamSend _ log => below log 65
  | .boot _ _ => true
  | .installSigner _ _ _ => true
  | .eraseSigner _ _ _ => true
  | .installSetupKey _ _ _ => true
  | .exportKeys _ _ => true
  | .attest _ _ => true
  | .commitSvn _ _ => true
  | .attestTreeBuild _ => true
  | .seal _ _ => true
  | .requestUpdate _ => true
  | .verifyComplete _ _ => true
  | .applyComplete _ => true
  | .setdasa _ _ => true
  | .cold _ _ => true
  | .warm _ _ => true
  | .lea _ _ n => leaOk n
  | .cluster _ _ q => clusterOk q
  | .fold _ _ f => foldOk f
  | .link _ _ l => linkOk l
  | .stopN _ => true
  | .chiefWatchdog _ => true
  | .stewardWatchdog _ n => leaOk n
  | .standby _ _ => true
  | .active _ _ => true
  | .regionOff _ _ n k => leaOk n && below k 24
  | .registerWrite _ _ _ _ _ => true
  | .auxiliaryInputPresent _ _ => true
  | .auxiliaryInputLoss _ => true
  | .stopNRelease _ => true
  | .modelRevalidated _ _ => true
  | .idlenessSwitchOff _ q => clusterOk q

/-- The tick on which a command's step takes place. -/
def Instr.tick : Instr → Nat
  | .nop t _ => t
  | .add t _ _ _ => t
  | .shl t _ _ _ => t
  | .min t _ _ => t
  | .mul t _ _ => t
  | .li t _ => t
  | .lui t _ => t
  | .cmp t _ _ => t
  | .sysRd t _ => t
  | .br t _ => t
  | .brP t _ => t
  | .loop t _ => t
  | .jal t _ => t
  | .jr t _ => t
  | .vAdd t _ _ _ => t
  | .vAnd t _ _ _ => t
  | .vMul t _ _ _ => t
  | .vCmp t _ _ _ => t
  | .vSel t _ _ => t
  | .vCvt t _ _ => t
  | .vExp2 t _ _ _ => t
  | .vRedAdd t _ _ _ => t
  | .vShuf t _ _ => t
  | .vBcast t _ _ => t
  | .vExt t _ _ => t
  | .vIns t _ _ => t
  | .mma t _ _ _ _ => t
  | .mmaStart t _ => t
  | .mmaEnd t _ => t
  | .accClr t _ => t
  | .accMv t _ => t
  | .rowLd t _ _ => t
  | .rowSt t _ _ => t
  | .qPutRd t _ _ => t
  | .qPutWr t _ _ => t
  | .qGet t _ _ _ => t
  | .qWait t _ _ => t
  | .qWaitWr t _ _ => t
  | .slotSend t _ => t
  | .arrIssue t _ _ => t
  | .arrCollect t _ _ => t
  | .leaveReq t _ => t
  | .leaveWait t _ => t
  | .stile t _ => t
  | .swathWait t _ => t
  | .engCall t _ => t
  | .engWait t _ => t
  | .recEmit t _ => t
  | .recordSend t _ => t
  | .bankAccess t _ _ => t
  | .scrubRead t _ _ => t
  | .partitionDescriptorWrite t _ _ _ _ _ => t
  | .partitionClose t _ _ _ => t
  | .bankClosure t _ _ => t
  | .partitionOpen t _ _ _ => t
  | .bankFillDone t _ _ => t
  | .layerEntryWrite t _ _ _ _ _ => t
  | .arrayAccept t _ _ => t
  | .arrayRotationEnd t _ _ => t
  | .arrayPlane t _ _ => t
  | .arrayAccumulation t _ _ => t
  | .arrayResultReady t _ _ => t
  | .sideRowFetched t _ => t
  | .sideDelivery t _ => t
  | .calibrationDue t _ _ _ => t
  | .calibrationSlice t _ _ _ => t
  | .calibrationFitDone t _ _ _ => t
  | .arrayRowProgram t _ _ _ _ _ _ => t
  | .ppsEdge t => t
  | .ptpSync t _ => t
  | .timeLocked t => t
  | .holdover t => t
  | .referenceClockLoss t => t
  | .foldArm t _ _ _ => t
  | .foldStop t _ _ => t
  | .swathOpen t _ => t
  | .swathRunStart t _ => t
  | .stileRelease t _ _ => t
  | .swathDrainEnd t _ => t
  | .outputEntry t _ _ => t
  | .swathGuardStart t _ => t
  | .stileTimeout t _ => t
  | .leaveRequestPlace t _ => t
  | .grantStart t _ _ => t
  | .grantSpanEnd t _ _ => t
  | .slotLaunch t _ => t
  | .routerRow t _ => t
  | .timedRowArrival t _ => t
  | .routerPortArrival t _ => t
  | .stackRequestAdmit t _ => t
  | .queueReturn t _ _ => t
  | .writeAcknowledgement t _ _ => t
  | .stackRefresh t _ _ => t
  | .stackTemperatureRead t _ _ => t
  | .stackScrub t _ _ => t
  | .selfRefreshExit t _ => t
  | .regionDescriptorWrite t _ _ _ _ _ => t
  | .regionClear t _ _ _ => t
  | .engineCallAdmit t _ _ => t
  | .features t _ => t
  | .encode t _ => t
  | .decode t _ => t
  | .attend t _ => t
  | .scores t _ => t
  | .sample t _ _ => t
  | .verify t _ _ => t
  | .translate t _ => t
  | .extend t _ => t
  | .trim t _ => t
  | .gcmDecrypt t _ => t
  | .gcmEncrypt t _ => t
  | .sha384 t _ => t
  | .ecdsaVerify t _ _ _ _ => t
  | .lmsVerify t _ _ _ _ => t
  | .normSet t _ => t
  | .normSubmit t _ => t
  | .engineCallComplete t _ _ _ => t
  | .weightCodecChunk t _ _ _ _ _ _ => t
  | .connectionRequest t _ _ => t
  | .connectionFail t _ => t
  | .submissionDoorbell t _ _ _ => t
  | .completionHead t _ _ _ => t
  | .creditSlotWrite t _ _ _ _ => t
  | .descriptorFetch t _ _ => t
  | .accept t _ => t
  | .reject t _ => t
  | .carriedAccept t _ => t
  | .openStream t _ _ => t
  | .appendInput t _ _ => t
  | .generate t _ => t
  | .verifyDraft t _ _ => t
  | .close t _ => t
  | .adaptStep t _ _ => t
  | .loadModel t _ _ => t
  | .unloadModel t _ => t
  | .query t _ _ => t
  | .fence t _ => t
  | .setupRead t _ _ => t
  | .setupWrite t _ => t
  | .replayDone t _ => t
  | .rebuild t _ _ => t
  | .copyRetire t _ => t
  | .linkTraining t _ _ => t
  | .skeltinDataFrame t _ _ => t
  | .nak t _ _ => t
  | .ackTimeout t _ => t
  | .stepMarkerArmed t _ => t
  | .stepMarkerJoin t _ => t
  | .stepMarkerDrained t _ => t
  | .windowAnnounce t _ _ _ _ => t
  | .windowRequest t _ _ => t
  | .refusal t _ _ => t
  | .windowClose t _ => t
  | .inputMonitor t _ _ _ _ => t
  | .overdrawCheck t _ _ => t
  | .clusterOn t _ => t
  | .reservoirConnect t _ _ => t
  | .droop t _ _ => t
  | .droopRelease t _ => t
  | .vminRearm t _ _ _ => t
  | .currentSample t _ _ => t
  | .supplyWarn t _ _ => t
  | .supplyOk t _ _ => t
  | .supplyQuiesce t => t
  | .supplyResume t => t
  | .inputLoss t _ => t
  | .inputOvervoltage t _ => t
  | .inputReversed t => t
  | .inputPrecharge t _ => t
  | .sliceFail t _ _ => t
  | .phaseFail t _ _ => t
  | .senseOpen t _ _ => t
  | .segmentFail t _ _ => t
  | .pwrEnAssert t => t
  | .coolantCheckEnd t _ _ _ => t
  | .pwrEnDeassert t => t
  | .trayReport t _ _ => t
  | .traySilent t => t
  | .sensorRead t _ _ => t
  | .allowanceUpdate t => t
  | .holdExit t => t
  | .hotLevelStep t _ => t
  | .hotOffMark t _ => t
  | .regionHotOff t _ => t
  | .hotReturn t _ => t
  | .flowLossN t _ => t
  | .stopClear t _ => t
  | .slewGovernor t => t
  | .heartbeat t _ => t
  | .clusterFail t _ _ _ => t
  | .heartbeatLost t _ _ _ => t
  | .routesDone t _ => t
  | .stackFail t _ => t
  | .spareTestEnd t _ _ => t
  | .replaceDone t _ => t
  | .recordStreamSend t _ => t
  | .boot t _ => t
  | .installSigner t _ _ => t
  | .eraseSigner t _ _ => t
  | .installSetupKey t _ _ => t
  | .exportKeys t _ => t
  | .attest t _ => t
  | .commitSvn t _ => t
  | .attestTreeBuild t => t
  | .seal t _ => t
  | .requestUpdate t => t
  | .verifyComplete t _ => t
  | .applyComplete t => t
  | .setdasa t _ => t
  | .cold t _ => t
  | .warm t _ => t
  | .lea t _ _ => t
  | .cluster t _ _ => t
  | .fold t _ _ => t
  | .link t _ _ => t
  | .stopN t => t
  | .chiefWatchdog t => t
  | .stewardWatchdog t _ => t
  | .standby t _ => t
  | .active t _ => t
  | .regionOff t _ _ _ => t
  | .registerWrite t _ _ _ _ => t
  | .auxiliaryInputPresent t _ => t
  | .auxiliaryInputLoss t => t
  | .stopNRelease t => t
  | .modelRevalidated t _ => t
  | .idlenessSwitchOff t _ => t

/-- The same command on another tick. -/
def Instr.retime (n : Nat) : Instr → Instr
  | .nop _ x0 => .nop n x0
  | .add _ x0 x1 x2 => .add n x0 x1 x2
  | .shl _ x0 x1 x2 => .shl n x0 x1 x2
  | .min _ x0 x1 => .min n x0 x1
  | .mul _ x0 x1 => .mul n x0 x1
  | .li _ x0 => .li n x0
  | .lui _ x0 => .lui n x0
  | .cmp _ x0 x1 => .cmp n x0 x1
  | .sysRd _ x0 => .sysRd n x0
  | .br _ x0 => .br n x0
  | .brP _ x0 => .brP n x0
  | .loop _ x0 => .loop n x0
  | .jal _ x0 => .jal n x0
  | .jr _ x0 => .jr n x0
  | .vAdd _ x0 x1 x2 => .vAdd n x0 x1 x2
  | .vAnd _ x0 x1 x2 => .vAnd n x0 x1 x2
  | .vMul _ x0 x1 x2 => .vMul n x0 x1 x2
  | .vCmp _ x0 x1 x2 => .vCmp n x0 x1 x2
  | .vSel _ x0 x1 => .vSel n x0 x1
  | .vCvt _ x0 x1 => .vCvt n x0 x1
  | .vExp2 _ x0 x1 x2 => .vExp2 n x0 x1 x2
  | .vRedAdd _ x0 x1 x2 => .vRedAdd n x0 x1 x2
  | .vShuf _ x0 x1 => .vShuf n x0 x1
  | .vBcast _ x0 x1 => .vBcast n x0 x1
  | .vExt _ x0 x1 => .vExt n x0 x1
  | .vIns _ x0 x1 => .vIns n x0 x1
  | .mma _ x0 x1 x2 x3 => .mma n x0 x1 x2 x3
  | .mmaStart _ x0 => .mmaStart n x0
  | .mmaEnd _ x0 => .mmaEnd n x0
  | .accClr _ x0 => .accClr n x0
  | .accMv _ x0 => .accMv n x0
  | .rowLd _ x0 x1 => .rowLd n x0 x1
  | .rowSt _ x0 x1 => .rowSt n x0 x1
  | .qPutRd _ x0 x1 => .qPutRd n x0 x1
  | .qPutWr _ x0 x1 => .qPutWr n x0 x1
  | .qGet _ x0 x1 x2 => .qGet n x0 x1 x2
  | .qWait _ x0 x1 => .qWait n x0 x1
  | .qWaitWr _ x0 x1 => .qWaitWr n x0 x1
  | .slotSend _ x0 => .slotSend n x0
  | .arrIssue _ x0 x1 => .arrIssue n x0 x1
  | .arrCollect _ x0 x1 => .arrCollect n x0 x1
  | .leaveReq _ x0 => .leaveReq n x0
  | .leaveWait _ x0 => .leaveWait n x0
  | .stile _ x0 => .stile n x0
  | .swathWait _ x0 => .swathWait n x0
  | .engCall _ x0 => .engCall n x0
  | .engWait _ x0 => .engWait n x0
  | .recEmit _ x0 => .recEmit n x0
  | .recordSend _ x0 => .recordSend n x0
  | .bankAccess _ x0 x1 => .bankAccess n x0 x1
  | .scrubRead _ x0 x1 => .scrubRead n x0 x1
  | .partitionDescriptorWrite _ x0 x1 x2 x3 x4 => .partitionDescriptorWrite n x0 x1 x2 x3 x4
  | .partitionClose _ x0 x1 x2 => .partitionClose n x0 x1 x2
  | .bankClosure _ x0 x1 => .bankClosure n x0 x1
  | .partitionOpen _ x0 x1 x2 => .partitionOpen n x0 x1 x2
  | .bankFillDone _ x0 x1 => .bankFillDone n x0 x1
  | .layerEntryWrite _ x0 x1 x2 x3 x4 => .layerEntryWrite n x0 x1 x2 x3 x4
  | .arrayAccept _ x0 x1 => .arrayAccept n x0 x1
  | .arrayRotationEnd _ x0 x1 => .arrayRotationEnd n x0 x1
  | .arrayPlane _ x0 x1 => .arrayPlane n x0 x1
  | .arrayAccumulation _ x0 x1 => .arrayAccumulation n x0 x1
  | .arrayResultReady _ x0 x1 => .arrayResultReady n x0 x1
  | .sideRowFetched _ x0 => .sideRowFetched n x0
  | .sideDelivery _ x0 => .sideDelivery n x0
  | .calibrationDue _ x0 x1 x2 => .calibrationDue n x0 x1 x2
  | .calibrationSlice _ x0 x1 x2 => .calibrationSlice n x0 x1 x2
  | .calibrationFitDone _ x0 x1 x2 => .calibrationFitDone n x0 x1 x2
  | .arrayRowProgram _ x0 x1 x2 x3 x4 x5 => .arrayRowProgram n x0 x1 x2 x3 x4 x5
  | .ppsEdge _ => .ppsEdge n
  | .ptpSync _ x0 => .ptpSync n x0
  | .timeLocked _ => .timeLocked n
  | .holdover _ => .holdover n
  | .referenceClockLoss _ => .referenceClockLoss n
  | .foldArm _ x0 x1 x2 => .foldArm n x0 x1 x2
  | .foldStop _ x0 x1 => .foldStop n x0 x1
  | .swathOpen _ x0 => .swathOpen n x0
  | .swathRunStart _ x0 => .swathRunStart n x0
  | .stileRelease _ x0 x1 => .stileRelease n x0 x1
  | .swathDrainEnd _ x0 => .swathDrainEnd n x0
  | .outputEntry _ x0 x1 => .outputEntry n x0 x1
  | .swathGuardStart _ x0 => .swathGuardStart n x0
  | .stileTimeout _ x0 => .stileTimeout n x0
  | .leaveRequestPlace _ x0 => .leaveRequestPlace n x0
  | .grantStart _ x0 x1 => .grantStart n x0 x1
  | .grantSpanEnd _ x0 x1 => .grantSpanEnd n x0 x1
  | .slotLaunch _ x0 => .slotLaunch n x0
  | .routerRow _ x0 => .routerRow n x0
  | .timedRowArrival _ x0 => .timedRowArrival n x0
  | .routerPortArrival _ x0 => .routerPortArrival n x0
  | .stackRequestAdmit _ x0 => .stackRequestAdmit n x0
  | .queueReturn _ x0 x1 => .queueReturn n x0 x1
  | .writeAcknowledgement _ x0 x1 => .writeAcknowledgement n x0 x1
  | .stackRefresh _ x0 x1 => .stackRefresh n x0 x1
  | .stackTemperatureRead _ x0 x1 => .stackTemperatureRead n x0 x1
  | .stackScrub _ x0 x1 => .stackScrub n x0 x1
  | .selfRefreshExit _ x0 => .selfRefreshExit n x0
  | .regionDescriptorWrite _ x0 x1 x2 x3 x4 => .regionDescriptorWrite n x0 x1 x2 x3 x4
  | .regionClear _ x0 x1 x2 => .regionClear n x0 x1 x2
  | .engineCallAdmit _ x0 x1 => .engineCallAdmit n x0 x1
  | .features _ x0 => .features n x0
  | .encode _ x0 => .encode n x0
  | .decode _ x0 => .decode n x0
  | .attend _ x0 => .attend n x0
  | .scores _ x0 => .scores n x0
  | .sample _ x0 x1 => .sample n x0 x1
  | .verify _ x0 x1 => .verify n x0 x1
  | .translate _ x0 => .translate n x0
  | .extend _ x0 => .extend n x0
  | .trim _ x0 => .trim n x0
  | .gcmDecrypt _ x0 => .gcmDecrypt n x0
  | .gcmEncrypt _ x0 => .gcmEncrypt n x0
  | .sha384 _ x0 => .sha384 n x0
  | .ecdsaVerify _ x0 x1 x2 x3 => .ecdsaVerify n x0 x1 x2 x3
  | .lmsVerify _ x0 x1 x2 x3 => .lmsVerify n x0 x1 x2 x3
  | .normSet _ x0 => .normSet n x0
  | .normSubmit _ x0 => .normSubmit n x0
  | .engineCallComplete _ x0 x1 x2 => .engineCallComplete n x0 x1 x2
  | .weightCodecChunk _ x0 x1 x2 x3 x4 x5 => .weightCodecChunk n x0 x1 x2 x3 x4 x5
  | .connectionRequest _ x0 x1 => .connectionRequest n x0 x1
  | .connectionFail _ x0 => .connectionFail n x0
  | .submissionDoorbell _ x0 x1 x2 => .submissionDoorbell n x0 x1 x2
  | .completionHead _ x0 x1 x2 => .completionHead n x0 x1 x2
  | .creditSlotWrite _ x0 x1 x2 x3 => .creditSlotWrite n x0 x1 x2 x3
  | .descriptorFetch _ x0 x1 => .descriptorFetch n x0 x1
  | .accept _ x0 => .accept n x0
  | .reject _ x0 => .reject n x0
  | .carriedAccept _ x0 => .carriedAccept n x0
  | .openStream _ x0 x1 => .openStream n x0 x1
  | .appendInput _ x0 x1 => .appendInput n x0 x1
  | .generate _ x0 => .generate n x0
  | .verifyDraft _ x0 x1 => .verifyDraft n x0 x1
  | .close _ x0 => .close n x0
  | .adaptStep _ x0 x1 => .adaptStep n x0 x1
  | .loadModel _ x0 x1 => .loadModel n x0 x1
  | .unloadModel _ x0 => .unloadModel n x0
  | .query _ x0 x1 => .query n x0 x1
  | .fence _ x0 => .fence n x0
  | .setupRead _ x0 x1 => .setupRead n x0 x1
  | .setupWrite _ x0 => .setupWrite n x0
  | .replayDone _ x0 => .replayDone n x0
  | .rebuild _ x0 x1 => .rebuild n x0 x1
  | .copyRetire _ x0 => .copyRetire n x0
  | .linkTraining _ x0 x1 => .linkTraining n x0 x1
  | .skeltinDataFrame _ x0 x1 => .skeltinDataFrame n x0 x1
  | .nak _ x0 x1 => .nak n x0 x1
  | .ackTimeout _ x0 => .ackTimeout n x0
  | .stepMarkerArmed _ x0 => .stepMarkerArmed n x0
  | .stepMarkerJoin _ x0 => .stepMarkerJoin n x0
  | .stepMarkerDrained _ x0 => .stepMarkerDrained n x0
  | .windowAnnounce _ x0 x1 x2 x3 => .windowAnnounce n x0 x1 x2 x3
  | .windowRequest _ x0 x1 => .windowRequest n x0 x1
  | .refusal _ x0 x1 => .refusal n x0 x1
  | .windowClose _ x0 => .windowClose n x0
  | .inputMonitor _ x0 x1 x2 x3 => .inputMonitor n x0 x1 x2 x3
  | .overdrawCheck _ x0 x1 => .overdrawCheck n x0 x1
  | .clusterOn _ x0 => .clusterOn n x0
  | .reservoirConnect _ x0 x1 => .reservoirConnect n x0 x1
  | .droop _ x0 x1 => .droop n x0 x1
  | .droopRelease _ x0 => .droopRelease n x0
  | .vminRearm _ x0 x1 x2 => .vminRearm n x0 x1 x2
  | .currentSample _ x0 x1 => .currentSample n x0 x1
  | .supplyWarn _ x0 x1 => .supplyWarn n x0 x1
  | .supplyOk _ x0 x1 => .supplyOk n x0 x1
  | .supplyQuiesce _ => .supplyQuiesce n
  | .supplyResume _ => .supplyResume n
  | .inputLoss _ x0 => .inputLoss n x0
  | .inputOvervoltage _ x0 => .inputOvervoltage n x0
  | .inputReversed _ => .inputReversed n
  | .inputPrecharge _ x0 => .inputPrecharge n x0
  | .sliceFail _ x0 x1 => .sliceFail n x0 x1
  | .phaseFail _ x0 x1 => .phaseFail n x0 x1
  | .senseOpen _ x0 x1 => .senseOpen n x0 x1
  | .segmentFail _ x0 x1 => .segmentFail n x0 x1
  | .pwrEnAssert _ => .pwrEnAssert n
  | .coolantCheckEnd _ x0 x1 x2 => .coolantCheckEnd n x0 x1 x2
  | .pwrEnDeassert _ => .pwrEnDeassert n
  | .trayReport _ x0 x1 => .trayReport n x0 x1
  | .traySilent _ => .traySilent n
  | .sensorRead _ x0 x1 => .sensorRead n x0 x1
  | .allowanceUpdate _ => .allowanceUpdate n
  | .holdExit _ => .holdExit n
  | .hotLevelStep _ x0 => .hotLevelStep n x0
  | .hotOffMark _ x0 => .hotOffMark n x0
  | .regionHotOff _ x0 => .regionHotOff n x0
  | .hotReturn _ x0 => .hotReturn n x0
  | .flowLossN _ x0 => .flowLossN n x0
  | .stopClear _ x0 => .stopClear n x0
  | .slewGovernor _ => .slewGovernor n
  | .heartbeat _ x0 => .heartbeat n x0
  | .clusterFail _ x0 x1 x2 => .clusterFail n x0 x1 x2
  | .heartbeatLost _ x0 x1 x2 => .heartbeatLost n x0 x1 x2
  | .routesDone _ x0 => .routesDone n x0
  | .stackFail _ x0 => .stackFail n x0
  | .spareTestEnd _ x0 x1 => .spareTestEnd n x0 x1
  | .replaceDone _ x0 => .replaceDone n x0
  | .recordStreamSend _ x0 => .recordStreamSend n x0
  | .boot _ x0 => .boot n x0
  | .installSigner _ x0 x1 => .installSigner n x0 x1
  | .eraseSigner _ x0 x1 => .eraseSigner n x0 x1
  | .installSetupKey _ x0 x1 => .installSetupKey n x0 x1
  | .exportKeys _ x0 => .exportKeys n x0
  | .attest _ x0 => .attest n x0
  | .commitSvn _ x0 => .commitSvn n x0
  | .attestTreeBuild _ => .attestTreeBuild n
  | .seal _ x0 => .seal n x0
  | .requestUpdate _ => .requestUpdate n
  | .verifyComplete _ x0 => .verifyComplete n x0
  | .applyComplete _ => .applyComplete n
  | .setdasa _ x0 => .setdasa n x0
  | .cold _ x0 => .cold n x0
  | .warm _ x0 => .warm n x0
  | .lea _ x0 x1 => .lea n x0 x1
  | .cluster _ x0 x1 => .cluster n x0 x1
  | .fold _ x0 x1 => .fold n x0 x1
  | .link _ x0 x1 => .link n x0 x1
  | .stopN _ => .stopN n
  | .chiefWatchdog _ => .chiefWatchdog n
  | .stewardWatchdog _ x0 => .stewardWatchdog n x0
  | .standby _ x0 => .standby n x0
  | .active _ x0 => .active n x0
  | .regionOff _ x0 x1 x2 => .regionOff n x0 x1 x2
  | .registerWrite _ x0 x1 x2 x3 => .registerWrite n x0 x1 x2 x3
  | .auxiliaryInputPresent _ x0 => .auxiliaryInputPresent n x0
  | .auxiliaryInputLoss _ => .auxiliaryInputLoss n
  | .stopNRelease _ => .stopNRelease n
  | .modelRevalidated _ x0 => .modelRevalidated n x0
  | .idlenessSwitchOff _ x0 => .idlenessSwitchOff n x0

end Sys2Proof
end

