-- ==== Sys2Proof/Safety.lean ====
section
/-! DEFINITION. What claims about the module are stated with: which parts of the state two states share, when a core issues
a bundle of one instruction, and what its destination and its time become. -/

namespace Sys2Proof.Machine

/-! ### Frames -/

/-- `t` differs from `s` in core `c` alone. -/
def OnlyCore (c : Nat) (s t : State) : Prop :=
  t = { s with cores := t.cores } ∧ ∀ x, x ≠ c → t.core x = s.core x

/-- `t` differs from `s` in cluster `q` alone. -/
def OnlyCluster (q : Nat) (s t : State) : Prop :=
  t = { s with clusters := t.clusters } ∧ ∀ x, x ≠ q → t.cluster x = s.cluster x

/-- `t` differs from `s` in hub `n` alone. -/
def OnlyHub (n : Nat) (s t : State) : Prop :=
  t = { s with hubs := t.hubs } ∧ ∀ x, x ≠ n → t.hub x = s.hub x

/-- `t` differs from `s` in stack `n` alone. -/
def OnlyStack (n : Nat) (s t : State) : Prop :=
  t = { s with drams := t.drams } ∧ ∀ x, x ≠ n → t.dram x = s.dram x

/-- `t` differs from `s` in fold `f` alone. -/
def OnlyFold (f : Nat) (s t : State) : Prop :=
  t = { s with folds := t.folds } ∧ ∀ x, x ≠ f → t.fold x = s.fold x

/-- Endpoint `e` alone differs of all endpoints. -/
def OnlyEndpoint (e : Nat) (s t : State) : Prop := ∀ x, x ≠ e → t.endpoint x = s.endpoint x

/-- A counter has gone up by one, or stands at its highest value (Table 18-6). -/
def CountsUp (f : Fld) (u i : Nat) (s t : State) : Prop := t.fld f u i = Nat.min (s.fld f u i + 1) (2 ^ f.width - 1)

/-- R431: the item of sequence `seq` has ended with a status: its final was written at next_cmp, and it is no item of the
endpoint any more. Entries of other items may follow it. -/
def Ends (ep seq status : Nat) (s t : State) : Prop :=
  (∃ y l, t.out = l ++ Out.entry ep y :: s.out ∧ y.kind = 2 ∧ y.status = status ∧ y.seq = seq ∧
    y.c = (s.endpoint ep).nextCmp) ∧ t.item ep seq = none

/-- No other item bears on when the final of `i` is written: its sequence is its own, no item of its endpoint is decided, and no
OUTPUT entry is owed to the endpoint. -/
def State.endsAlone (s : State) (ep : Nat) (i : Item) : Bool :=
  (s.endpoint ep).items.all (fun j => j.fin.isNone && (j.seq != i.seq || j == i)) &&
  s.folds.all (fun f => f.2.owed.all (fun o => o.1 != ep))

/-- `t` differs from `s` in the register at address `a` alone. -/
def OnlyReg (a : Nat) (s t : State) : Prop :=
  t = { s with regs := t.regs } ∧ ∀ x, x ≠ a → Map.find t.regs x = Map.find s.regs x

/-! ### A bundle of one instruction -/

/-- R77, R81, R82: the bundle at the core's program counter spells this instruction in its slot and NOP in the other, and
is an instruction in both. -/
def State.spellsAlone (s : State) (o : CoreOp) (op : Op) : Bool :=
  (s.bundle o.core).any (fun b => !badWord s.funcs .a (slotWord .a b) && !badWord s.funcs .b (slotWord .b b) &&
    o.spelt op s.funcs (slotWord o.slot b) && slotWord o.slot.other b == 0)

/-- R79, R81, R82, R132, R488: on this tick core `o.core` issues a bundle that holds this instruction alone, and its
encoding is legal. -/
def State.issuesAlone (s : State) (o : CoreOp) (op : Op) : Bool :=
  validCore o.core && !o.pair && (s.core o.core).held.isNone && s.coreFree o.core && s.mayIssue o.core &&
  !s.coreBubble o.core && s.spellsAlone o op && o.accepted op s &&
  (if o.slot = .a then op.inA else op.inB) && op.legal

/-- R85: bit 0 of the instruction's predicate, after pneg. -/
def State.gateOpen (s : State) (o : CoreOp) : Bool := (o.gate (s.files o.core)).getLsbD 0

/-- The core of `o` goes on at bundle `pc`, `idle` ticks after the next one; of the rest of its state only its files and
the ticks at which its registers are ready may differ. -/
def GoesOn (o : CoreOp) (pc idle : Nat) (s t : State) : Prop :=
  OnlyCore o.core s t ∧
  t.core o.core = { s.core o.core with
    files := t.files o.core, ready := (t.core o.core).ready, pc := pc, issueAt := s.now + 1 + idle, held := none }

/-- R79: of the registers of the core, `code` alone changes the tick from which it may be read. -/
def ReadyFrom (o : CoreOp) (code x : Nat) (s t : State) : Prop :=
  ∀ n, Map.get 0 (t.core o.core).ready n = if n = code then x else Map.get 0 (s.core o.core).ready n

/-- The next bundle follows, scalar register `d` holds `v` (s0 stays zero, R83) and may be read `lat` ticks on, and every
other register is as it was. -/
def WritesScalar (o : CoreOp) (d : Nat) (v : Word) (lat : Nat) (s t : State) : Prop :=
  GoesOn o ((s.core o.core).pc + 1) 0 s t ∧ ReadyFrom o (sCode d) (s.now + lat) s t ∧
  t.files o.core = { s.files o.core with sreg := (t.files o.core).sreg } ∧
  ∀ n, (t.files o.core).s n = if n = d ∧ n ≠ 0 then v else (s.files o.core).s n

/-- The same for a predicate register; p0 stays all ones (R83). -/
def WritesPredicate (o : CoreOp) (d : Nat) (v : Word) (lat : Nat) (s t : State) : Prop :=
  GoesOn o ((s.core o.core).pc + 1) 0 s t ∧ ReadyFrom o (pCode d) (s.now + lat) s t ∧
  t.files o.core = { s.files o.core with preg := (t.files o.core).preg } ∧
  ∀ n, (t.files o.core).p n = if n = d ∧ n ≠ 0 then v else (s.files o.core).p n

/-- The same for a vector register, lane by lane: lane `i` of `w` bits holds `new i` where bit w/8·i of the predicate is 1,
and keeps its value where it is 0 (R85). -/
def WritesLanes (o : CoreOp) (w : Nat) (new : Nat → Nat) (lat : Nat) (s t : State) : Prop :=
  GoesOn o ((s.core o.core).pc + 1) 0 s t ∧ ReadyFrom o (vCode o.d) (s.now + lat) s t ∧
  t.files o.core = { s.files o.core with vreg := (t.files o.core).vreg } ∧
  (∀ n, n ≠ o.d → (t.files o.core).v n = (s.files o.core).v n) ∧
  ∀ i, i < 512 / w → lane ((t.files o.core).v o.d) w i =
    if (o.gate (s.files o.core)).getLsbD (w / 8 * i) then new i % 2 ^ w else lane ((s.files o.core).v o.d) w i

/-- A branch: the core goes on at `target` after `idle` ticks and no register changes. -/
def Branches (o : CoreOp) (target idle : Nat) (s t : State) : Prop :=
  GoesOn o target idle s t ∧ (t.core o.core).ready = (s.core o.core).ready ∧ t.files o.core = s.files o.core

/-- The core of `o` goes on with the bundle that follows, a tick on. -/
def NextBundle (o : CoreOp) (s t : State) : Prop :=
  (t.core o.core).pc = (s.core o.core).pc + 1 ∧ (t.core o.core).issueAt = s.now + 1 ∧ (t.core o.core).held = none

/-- No register of core `c` changes. -/
def SameFiles (c : Nat) (s t : State) : Prop := t.files c = s.files c

/-- No row of any scratchpad changes. -/
def SameRows (s t : State) : Prop := ∀ q a, t.row q a = s.row q a

/-- No row of any stack changes. -/
def SameDram (s t : State) : Prop := ∀ n a, Map.get 0 (t.dram n).rows a = Map.get 0 (s.dram n).rows a

/-- Core `c` and cluster `q` alone differ. -/
def OnlyCoreAndCluster (c q : Nat) (s t : State) : Prop :=
  t = { s with cores := t.cores, clusters := t.clusters } ∧ (∀ x, x ≠ c → t.core x = s.core x) ∧
  ∀ x, x ≠ q → t.cluster x = s.cluster x

/-- The fold of a core's cluster, 0 where it has none; a core that issues has one. -/
def State.myFold (s : State) (o : CoreOp) : Nat := (s.foldOf o.q).getD 0

/-- R101, R129: an operation of class BANK_BULK of a core need not wait for leave: it is not heavy, a grant covers it, or the
grant that was asked for it has begun. -/
def State.bulkFree (s : State) (c : Nat) (heavy : Bool) (lo hi : Nat) : Bool :=
  match (s.core c).rowGrant with
  | none => !heavy || s.covered c clsBank lo hi
  | some id => !s.unbegun (clusterOf c / 24) id

/-- The same for a row move that issues now. -/
def State.moveFree (s : State) (o : CoreOp) : Bool :=
  let e := s.moveEdge o.core (s.myFold o)
  s.bulkFree o.core ((s.core o.core).lastEdge == some (e - 3)) e (e + 3)

/-- The same for a send: one to a route set is heavy (R114). -/
def State.sendFree (s : State) (o : CoreOp) (a b : Word) : Bool :=
  s.bulkFree o.core (getBits a 63 1 == 1) (s.sendStart o b) (s.sendStart o b + 32)

/-- Whatever is left unfinished, no register of core `c` and no row changes: beside that core only a request for leave may be new. -/
def AsksLeave (c : Nat) (s t : State) : Prop :=
  t = { s with cores := t.cores, hubs := t.hubs, nextTag := t.nextTag } ∧ (∀ x, x ≠ c → t.core x = s.core x) ∧
  t.files c = s.files c

end Sys2Proof.Machine
end

