-- ==== Sys2Proof/Certificates/Slice0/Obligations.lean ====
section
/-! DEFINITION. The statements of this slice. Every statement about a command is about every state and every operand that
meets its premises. -/

open Sys2Proof Sys2Proof.Machine

/-- The queue of commands is the model's own (log entry 9); with none waiting the module idles (log entry 10). -/
def Obligations.StepRunsFront : Prop :=
  ∀ (c : Instr) (rest : List Instr) (s : State),
    step { s with pending := c :: rest } = exec c { s with pending := rest } ∧ step { s with pending := [] } = .next { s with pending := [] }

/-- The only stop of the model is the fault of log entry 11. -/
def Obligations.WellFormedAnswersNext : Prop :=
  ∀ (i : Instr) (s : State),
    (i.wf = true → ∃ s', exec i s = .next s') ∧ (i.wf = false → exec i s = .fault .noSuchUnit)

/-- No command writes the queue, and time moves by the tick that each command names (log entries 1 and 9). -/
def Obligations.StepKeepsQueueWellFormed : Prop :=
  ∀ s : State, s.pending.all Instr.wf = true →
    ∃ s', step s = .next s' ∧ s'.pending = s.pending.tail ∧ s'.pending.all Instr.wf = true ∧
      s'.now = (match s.pending with
        | [] => s.now
        | c :: _ => Nat.max s.now c.tick)

/-- The reset state of log entry 8, and the Reset columns of Tables 14-9, 15-6, 02-13 and 02-14. -/
def Obligations.ResetQueueWellFormed : Prop :=
  State.reset.pending = [] ∧ State.reset.pending.all Instr.wf = true ∧ step State.reset = .next State.reset ∧
  State.reset.fld Fld.pwrLimitWindowW 0 0 = 27000 ∧ State.reset.fld Fld.pwrLimitSustainedW 0 0 = 24000 ∧
  State.reset.fld Fld.thmCfgTHot 0 0 = 95 ∧ State.reset.fld Fld.thmCfgStackHot 0 0 = 95 ∧
  State.reset.fld Fld.thmCfgTOpen 0 0 = 80 ∧
  (∀ f, State.reset.fld Fld.timFoldCfgPeriod 0 f = 100 ∧ State.reset.fld Fld.timFoldCfgGuard 0 f = 2 ∧
    State.reset.foldExact f = false ∧ State.reset.foldState f = foldIdle) ∧
  State.reset.cores = [] ∧ State.reset.packets = [] ∧ State.reset.entries = [] ∧ State.reset.models = [] ∧
  State.reset.out = [] ∧ State.reset.globalLog.recs = []

/-- NOP and the scalar ALU (Table 03-6, R79, R82, R83, R90). -/
def Obligations.NopScalarCompletes : Prop :=
  ∀ (t : Nat) (o : CoreOp) (s : State), (s.at t).gateOpen o = true →
    ((s.at t).issuesAlone o nopOp = true →
      ∃ s', exec (.nop t o) s = .next s' ∧ Branches o (((s.at t).core o.core).pc + 1) 0 (s.at t) s') ∧
    (∀ k i, (s.at t).issuesAlone o (addOp o k i) = true →
      ∃ s', exec (.add t o k i) s = .next s' ∧
        WritesScalar o o.d (evalAddOp k ((s.at t).files o.core |>.s o.a) (if i then o.i else (s.at t).files o.core |>.s o.b))
          1 (s.at t) s') ∧
    (∀ k i, (s.at t).issuesAlone o (shiftOp o k i) = true →
      ∃ s', exec (.shl t o k i) s = .next s' ∧
        WritesScalar o o.d (evalShiftOp k ((s.at t).files o.core |>.s o.a) (if i then o.i else (s.at t).files o.core |>.s o.b))
          1 (s.at t) s') ∧
    (∀ k, (s.at t).issuesAlone o (minOp o k) = true →
      ∃ s', exec (.min t o k) s = .next s' ∧
        WritesScalar o o.d (evalMinOp k ((s.at t).files o.core |>.s o.a) ((s.at t).files o.core |>.s o.b)) 1 (s.at t) s') ∧
    (∀ k, (s.at t).issuesAlone o (mulOp o k) = true →
      ∃ s', exec (.mul t o k) s = .next s' ∧
        WritesScalar o o.d (evalMulOp k ((s.at t).files o.core |>.s o.a) ((s.at t).files o.core |>.s o.b)) 3 (s.at t) s') ∧
    ((s.at t).issuesAlone o (liOp o) = true →
      ∃ s', exec (.li t o) s = .next s' ∧ WritesScalar o o.d o.i 1 (s.at t) s') ∧
    ((s.at t).issuesAlone o (luiOp o) = true →
      ∃ s', exec (.lui t o) s = .next s' ∧
        WritesScalar o o.d (BitVec.extractLsb' 0 42 ((s.at t).files o.core |>.s o.a) ++ o.imm) 1 (s.at t) s') ∧
    (∀ r, (s.at t).issuesAlone o (cmpOp o r) = true →
      ∃ s', exec (.cmp t o r) s = .next s' ∧
        WritesPredicate o o.d (if relHolds r ((s.at t).files o.core |>.s o.a) ((s.at t).files o.core |>.s o.b) then
          BitVec.allOnes 64 else 0) 1 (s.at t) s') ∧
    ((s.at t).issuesAlone o (sysRdOp o (s.at t)) = true →
      ∃ s', exec (.sysRd t o) s = .next s' ∧
        WritesScalar o o.d (BitVec.ofNat 64 (sysValue (s.at t) o.core o.u)) 1 (s.at t) s')

/-- The branches (R80, Table 03-6). A BR, LOOP, JAL or JR that its predicate gates off is in `GatedOffKeepsTime`. -/
def Obligations.BranchesComplete : Prop :=
  ∀ (t : Nat) (o : CoreOp) (s : State),
    ((s.at t).issuesAlone o (brOp o) = true → (s.at t).gateOpen o = true →
      ∃ s', exec (.br t o) s = .next s' ∧
        Branches o ((((s.at t).core o.core).pc + o.i.toNat) % 4096) 2 (s.at t) s') ∧
    ((s.at t).issuesAlone o (brPOp o) = true →
      ∃ s', exec (.brP t o) s = .next s' ∧
        (if (s.at t).gateOpen o then Branches o ((((s.at t).core o.core).pc + o.i.toNat) % 4096) 2 (s.at t) s'
         else Branches o (((s.at t).core o.core).pc + 1) 0 (s.at t) s')) ∧
    ((s.at t).issuesAlone o (loopOp o) = true → (s.at t).gateOpen o = true →
      ∃ s', exec (.loop t o) s = .next s' ∧
        GoesOn o (if o.a = 0 ∨ ((s.at t).files o.core |>.s o.a) = 1 then ((s.at t).core o.core).pc + 1 else o.u % 4096) 0 (s.at t) s' ∧
        s'.files o.core = { (s.at t).files o.core with sreg := (s'.files o.core).sreg } ∧
        ∀ n, (s'.files o.core).s n =
          if n = o.a ∧ n ≠ 0 then ((s.at t).files o.core |>.s o.a) - 1 else ((s.at t).files o.core).s n) ∧
    ((s.at t).issuesAlone o (jalOp o) = true → (s.at t).gateOpen o = true →
      ∃ s', exec (.jal t o) s = .next s' ∧ GoesOn o (o.u % 4096) 2 (s.at t) s' ∧
        s'.files o.core = { (s.at t).files o.core with sreg := (s'.files o.core).sreg } ∧
        ∀ n, (s'.files o.core).s n =
          if n = o.d ∧ n ≠ 0 then BitVec.ofNat 64 (((s.at t).core o.core).pc + 1) else ((s.at t).files o.core).s n) ∧
    ((s.at t).issuesAlone o (jrOp o) = true → (s.at t).gateOpen o = true →
      ∃ s', exec (.jr t o) s = .next s' ∧ Branches o (((s.at t).files o.core |>.s o.a).toNat % 4096) 2 (s.at t) s')

/-- R85 for the instructions that bit 0 gates whole: an instruction that is gated off writes no register, and beside its core
nothing changes, but that a heavy one may have asked leave. A gated-off STILE joins nothing and waits (log entry 108). -/
def Obligations.GatedOffKeepsTime : Prop :=
  ∀ (t : Nat) (o : CoreOp) (s : State), (s.at t).gateOpen o = false →
    let off := fun (i : Instr) (code lat : Nat) => ∃ s', exec i s = .next s' ∧
      GoesOn o (((s.at t).core o.core).pc + 1) 0 (s.at t) s' ∧ s'.files o.core = (s.at t).files o.core ∧
      ReadyFrom o code (Nat.max (Map.get 0 ((s.at t).core o.core).ready code) ((s.at t).now + lat)) (s.at t) s'
    (∀ k i, (s.at t).issuesAlone o (addOp o k i) = true → off (.add t o k i) (sCode o.d) 1) ∧
    (∀ k i, (s.at t).issuesAlone o (shiftOp o k i) = true → off (.shl t o k i) (sCode o.d) 1) ∧
    (∀ k, (s.at t).issuesAlone o (minOp o k) = true → off (.min t o k) (sCode o.d) 1) ∧
    (∀ k, (s.at t).issuesAlone o (mulOp o k) = true → off (.mul t o k) (sCode o.d) 3) ∧
    ((s.at t).issuesAlone o (liOp o) = true → off (.li t o) (sCode o.d) 1) ∧
    ((s.at t).issuesAlone o (luiOp o) = true → off (.lui t o) (sCode o.d) 1) ∧
    (∀ r, (s.at t).issuesAlone o (cmpOp o r) = true → off (.cmp t o r) (pCode o.d) 1) ∧
    ((s.at t).issuesAlone o (sysRdOp o (s.at t)) = true → off (.sysRd t o) (sCode o.d) 1) ∧
    (∀ ty, (s.at t).issuesAlone o (vExtOp o ty) = true → off (.vExt t o ty) (sCode o.d) 2) ∧
    (let still := fun (i : Instr) => ∃ s', exec i s = .next s' ∧ OnlyCore o.core (s.at t) s' ∧ SameFiles o.core (s.at t) s'
     let asks := fun (i : Instr) (free : Bool) => ∃ s', exec i s = .next s' ∧ AsksLeave o.core (s.at t) s' ∧
       (free = true → OnlyCore o.core (s.at t) s')
     let f := (s.at t).files o.core
     let moves := (moveFault o f (s.at t)).isSome || (s.at t).moveFree o
     (∀ k hiA hiB, (s.at t).issuesAlone o (mmaOp o k hiA hiB (s.at t)) = true → asks (.mma t o k hiA hiB)
       (((s.at t).core o.core).mmaRun.isSome || (s.at t).covered o.core clsMatrix (s.at t).now ((s.at t).now + mmaTicks k))) ∧
     ((s.at t).issuesAlone o (accClrOp o (s.at t)) = true → still (.accClr t o)) ∧
     ((s.at t).issuesAlone o (accMvOp o (s.at t)) = true → still (.accMv t o)) ∧
     (∀ tile, (s.at t).issuesAlone o (rowLdOp o tile (s.at t)) = true → asks (.rowLd t o tile) moves) ∧
     (∀ tile, (s.at t).issuesAlone o (rowStOp o tile) = true → asks (.rowSt t o tile) moves) ∧
     (∀ k, (s.at t).issuesAlone o (qPutRdOp o k) = true → still (.qPutRd t o k)) ∧
     (∀ k, (s.at t).issuesAlone o (qPutWrOp o k) = true → still (.qPutWr t o k)) ∧
     (∀ k d, (s.at t).issuesAlone o (qGetOp o k d (s.at t)) = true → asks (.qGet t o k d) (d != .row || moves)) ∧
     (∀ k, (s.at t).issuesAlone o (qWaitOp o k) = true → still (.qWait t o k)) ∧
     (∀ k, (s.at t).issuesAlone o (qWaitWrOp o k) = true → still (.qWaitWr t o k)) ∧
     ((s.at t).issuesAlone o (slotSendOp o) = true → asks (.slotSend t o)
       ((slotFault o (f.s o.a) (f.s o.b) (s.at t)).isSome || (s.at t).sendFree o (f.s o.a) (f.s o.b))) ∧
     (∀ g, (s.at t).issuesAlone o (arrIssueOp o g (s.at t)) = true → still (.arrIssue t o g)) ∧
     (∀ g, (s.at t).issuesAlone o (arrCollectOp o g) = true → still (.arrCollect t o g)) ∧
     ((s.at t).issuesAlone o (leaveReqOp o (s.at t)) = true → still (.leaveReq t o)) ∧
     ((s.at t).issuesAlone o (leaveWaitOp o) = true → still (.leaveWait t o)) ∧
     ((s.at t).issuesAlone o (stileOp o) = true → ∃ s', exec (.stile t o) s = .next s' ∧ OnlyCore o.core (s.at t) s' ∧
       SameFiles o.core (s.at t) s' ∧ (s'.core o.core).joins = ((s.at t).core o.core).joins ∧
       (o.u ≤ 15 → (s.at t).inStile ((s.at t).myFold o) o.u o.core = true →
         (s'.core o.core).wait = .stileOff o.u (Map.get 0 ((s.at t).core o.core).joins o.u) (s.at t).now ∧
         (s'.core o.core).waitOff = true)) ∧
     ((s.at t).issuesAlone o (swathWaitOp o) = true → still (.swathWait t o)) ∧
     ((s.at t).issuesAlone o (engCallOp o) = true → still (.engCall t o)) ∧
     ((s.at t).issuesAlone o (engWaitOp o) = true → still (.engWait t o)) ∧
     ((s.at t).issuesAlone o (recEmitOp o (s.at t)) = true → still (.recEmit t o))) ∧
    ((s.at t).issuesAlone o (brOp o) = true →
      ∃ s', exec (.br t o) s = .next s' ∧ Branches o (((s.at t).core o.core).pc + 1) 2 (s.at t) s') ∧
    ((s.at t).issuesAlone o (jrOp o) = true →
      ∃ s', exec (.jr t o) s = .next s' ∧ Branches o (((s.at t).core o.core).pc + 1) 2 (s.at t) s') ∧
    ((s.at t).issuesAlone o (jalOp o) = true →
      ∃ s', exec (.jal t o) s = .next s' ∧ Branches o (((s.at t).core o.core).pc + 1) 2 (s.at t) s') ∧
    ((s.at t).issuesAlone o (loopOp o) = true →
      ∃ s', exec (.loop t o) s = .next s' ∧ Branches o (((s.at t).core o.core).pc + 1) 0 (s.at t) s')

/-- The lane-wise instructions of Table 03-8 with their latencies; the lane results are those of `laneOp` and its
companions (R91, R225 to R230, R622 to R624). -/
def Obligations.VectorLanesComplete : Prop :=
  ∀ (t : Nat) (o : CoreOp) (ty : LaneType) (s : State),
    let f := (s.at t).files o.core
    let w := laneWidth ty
    (∀ k, (s.at t).issuesAlone o (vAddOp o k ty) = true → ∃ s', exec (.vAdd t o k ty) s = .next s' ∧
      WritesLanes o w (fun i => evalVAdd k ty (lane (f.v o.a) w i) (lane (f.v o.b) w i)) (if isInt ty then 2 else 4)
        (s.at t) s') ∧
    (∀ k, (s.at t).issuesAlone o (vAndOp o k ty) = true → ∃ s', exec (.vAnd t o k ty) s = .next s' ∧
      WritesLanes o w (fun i => evalVBit k w (lane (f.v o.a) w i) (lane (f.v o.b) w i) o.u) 2 (s.at t) s') ∧
    ((s.at t).issuesAlone o (vMulOp o false ty) = true → ∃ s', exec (.vMul t o false ty) s = .next s' ∧
      WritesLanes o w (fun i => laneOp ty (fun l => l.getD 0 0 * l.getD 1 0) (fun l => (l.getD 0 .nan).mul (l.getD 1 .nan))
        [lane (f.v o.a) w i, lane (f.v o.b) w i]) 4 (s.at t) s') ∧
    ((s.at t).issuesAlone o (vMulOp o true ty) = true → ∃ s', exec (.vMul t o true ty) s = .next s' ∧
      WritesLanes o w (fun i => laneOp ty (fun l => l.getD 0 0 * l.getD 1 0 + l.getD 2 0)
        (fun l => ((l.getD 0 .nan).mul (l.getD 1 .nan)).add (l.getD 2 .nan))
        [lane (f.v o.a) w i, lane (f.v o.b) w i, lane (f.v o.c) w i]) 4 (s.at t) s') ∧
    ((s.at t).issuesAlone o (vShufOp o ty) = true → ∃ s', exec (.vShuf t o ty) s = .next s' ∧
      WritesLanes o w (fun i => lane (f.v o.a) w (lane (f.v o.b) w i % 256 % laneCount ty)) 3 (s.at t) s') ∧
    ((s.at t).issuesAlone o (vBcastOp o ty) = true → ∃ s', exec (.vBcast t o ty) s = .next s' ∧
      WritesLanes o w (fun _ => laneOfS ty (f.s o.a)) 2 (s.at t) s') ∧
    ((s.at t).issuesAlone o (vInsOp o ty) = true → ∃ s', exec (.vIns t o ty) s = .next s' ∧
      WritesLanes o w (fun i => if i = o.u then laneOfS ty (f.s o.a) else lane (f.v o.d) w i) 2 (s.at t) s') ∧
    (∀ m, (s.at t).issuesAlone o (vRedOp o m ty) = true → ∃ s', exec (.vRedAdd t o m ty) s = .next s' ∧
      WritesLanes o w (fun i => if i = 0 then evalVRed m ty ((List.range (laneCount ty)).map (lane (f.v o.a) w)) else 0) 6
        (s.at t) s') ∧
    (∀ src, laneTypeOf (o.u % 8) = some src → (s.at t).issuesAlone o (vCvtOp o ty) = true →
      ∃ s', exec (.vCvt t o ty) s = .next s' ∧
      WritesLanes o w (fun i => match cvtLane (laneCount src) (laneCount ty) (o.u / 8 % 4) i with
        | some j => convertLane src ty (lane (f.v o.a) (laneWidth src) j)
        | none => lane (f.v o.d) w i) 3 (s.at t) s') ∧
    (∀ k g, laneFmt ty = some g → (s.at t).issuesAlone o (vExp2Op o k ty) = true →
      ∃ s', exec (.vExp2 t o k ty) s = .next s' ∧
      WritesLanes o w (fun i => evalVFun k g (lane (f.v o.a) w i)) 8 (s.at t) s')

/-- The vector instructions that R85 gates differently. -/
def Obligations.VectorSpecialComplete : Prop :=
  ∀ (t : Nat) (o : CoreOp) (ty : LaneType) (s : State),
    let f := (s.at t).files o.core
    let w := laneWidth ty
    (∀ r, (s.at t).issuesAlone o (vCmpOp o r ty) = true → ∃ s', exec (.vCmp t o r ty) s = .next s' ∧
      ∃ v, WritesPredicate o o.d v 2 (s.at t) s' ∧ ∀ i, i < 64 →
        v.getLsbD i = if (o.gate f).getLsbD i then
          evalVRel r ty (lane (f.v o.a) w (i / (w / 8))) (lane (f.v o.b) w (i / (w / 8))) else (f.p o.d).getLsbD i) ∧
    ((s.at t).issuesAlone o (vSelOp o ty) = true → ∃ s', exec (.vSel t o ty) s = .next s' ∧
      GoesOn o (((s.at t).core o.core).pc + 1) 0 (s.at t) s' ∧ ReadyFrom o (vCode o.d) ((s.at t).now + 2) (s.at t) s' ∧
      s'.files o.core = { f with vreg := (s'.files o.core).vreg } ∧
      (∀ n, n ≠ o.d → (s'.files o.core).v n = f.v n) ∧
      ∀ i, i < 512 / w → lane ((s'.files o.core).v o.d) w i =
        if (o.gate f).getLsbD (w / 8 * i) then lane (f.v o.a) w i else lane (f.v o.b) w i) ∧
    ((s.at t).issuesAlone o (vExtOp o ty) = true → (s.at t).gateOpen o = true → ∃ s', exec (.vExt t o ty) s = .next s' ∧
      WritesScalar o o.d (if isInt ty then BitVec.ofInt 64 (toSigned w (lane (f.v o.a) w o.u))
        else BitVec.ofNat 64 (lane (f.v o.a) w o.u)) 2 (s.at t) s')

/-- The matrix engine (R92 to R94, R129, R229, Table 03-9). -/
def Obligations.MatrixCompletes : Prop :=
  (∀ (t : Nat) (o : CoreOp) (k : MmaKind) (hiA hiB : Bool) (s : State),
    (s.at t).issuesAlone o (mmaOp o k hiA hiB (s.at t)) = true → (s.at t).gateOpen o = true →
    (((s.at t).files o.core).tag o.d = .none ∨ ((s.at t).files o.core).tag o.d = mmaTag k) →
    ∃ s', exec (.mma t o k hiA hiB) s = .next s' ∧ NextBundle o (s.at t) s' ∧ SameRows (s.at t) s' ∧
      (s'.files o.core) = { (s.at t).files o.core with tags := (s'.files o.core).tags } ∧
      (∀ a, (s'.files o.core).tag a = if a = o.d then mmaTag k else ((s.at t).files o.core).tag a) ∧
      (if ((s.at t).core o.core).mmaRun.isSome then
        (s'.core o.core).mmaRun = ((s.at t).core o.core).mmaRun ∧
        (s'.core o.core).mmaWait = some ⟨k, o.d, o.a, hiA, o.b, hiB, 0, none, false⟩
      else if (s.at t).covered o.core clsMatrix (s.at t).now ((s.at t).now + mmaTicks k) then
        (s'.core o.core).mmaRun = some ⟨k, o.d, o.a, hiA, o.b, hiB, (s.at t).now + mmaTicks k, none, false⟩ ∧
        (s'.core o.core).mmaWait = none
      else (s'.core o.core).mmaRun = none ∧ (s'.core o.core).mmaWait.isSome = true)) ∧
  (∀ (t c : Nat) (m : Mma) (s : State), validCore c = true → ((s.at t).core c).mmaRun = none →
    ((s.at t).core c).mmaWait = some m →
    let ends := (s.at t).now + mmaTicks m.kind
    ((match m.grant with
      | none => (s.at t).covered c clsMatrix (s.at t).now ends = true
      | some id => (s.at t).unbegun (clusterOf c / 24) id = false) →
      ∃ s', exec (.mmaStart t c) s = .next s' ∧ OnlyCore c (s.at t) s' ∧
        s'.core c = { (s.at t).core c with mmaWait := none, mmaRun := some { m with ends := ends } }) ∧
    ((s.at t).covered c clsMatrix (s.at t).now ends = false → m.grant = none →
      (s.at t).held (clusterOf c) < 16 →
      ∃ s', exec (.mmaStart t c) s = .next s' ∧ SameRows (s.at t) s' ∧
        s'.core c = { (s.at t).core c with
          mmaWait := some { m with grant := some (s.at t).nextTag }
          leaves := if m.off then ((s.at t).core c).leaves else ((s.at t).core c).leaves ++ [(clsMatrix, (s.at t).nextTag)] } ∧
        (s'.hub (clusterOf c / 24)).arb.waiting = ((s.at t).hub (clusterOf c / 24)).arb.waiting ++
          [⟨(s.at t).nextTag, clsMatrix, clusterOf c, 2 ^ coreIndex c, (s.at t).classDefault (clusterOf c) clsMatrix,
            0, 0, (s.at t).now, none, some ⟨mmaTicks m.kind, 0, 1, 0⟩⟩])) ∧
  (∀ (t c : Nat) (m : Mma) (s : State), validCore c = true → ((s.at t).core c).mmaRun = some m →
    m.ends ≤ (s.at t).now →
    ∃ s', exec (.mmaEnd t c) s = .next s' ∧ OnlyCore c (s.at t) s' ∧ (s'.core c).mmaRun = none ∧
      s'.core c = { (s.at t).core c with mmaRun := none, files := s'.files c } ∧
      (m.off = true → s'.files c = (s.at t).files c) ∧
      (m.off = false → s'.files c = { (s.at t).files c with acc := (s'.files c).acc } ∧
        (∀ a, (s'.files c).a a = if a = m.acc then mmaResult m ((s.at t).files c) else ((s.at t).files c).a a) ∧
        (mmaTag m.kind = .int32 → ∀ i, i < 1024 → accElem ((s'.files c).a m.acc) i =
          ofSigned 32 (saturate 32 (toSigned 32 (accElem (((s.at t).files c).a m.acc) i) +
            (((List.range (mmaDepth m.kind)).map (fun x =>
              intElem m.kind (((s.at t).files c).t m.tA) m.hiA (i / 32) x *
              intElem m.kind (((s.at t).files c).t m.tB) m.hiB (i % 32) x)).foldl (· + ·) 0)))))) ∧
  (∀ (t : Nat) (o : CoreOp) (s : State), (s.at t).gateOpen o = true →
    ((s.at t).issuesAlone o (accClrOp o (s.at t)) = true →
      ∃ s', exec (.accClr t o) s = .next s' ∧ GoesOn o (((s.at t).core o.core).pc + 1) 0 (s.at t) s' ∧
        ReadyFrom o (aCode o.d) ((s.at t).now + 2) (s.at t) s' ∧
        s'.files o.core = { (s.at t).files o.core with acc := (s'.files o.core).acc, tags := (s'.files o.core).tags } ∧
        (∀ a, (s'.files o.core).a a = if a = o.d then 0 else ((s.at t).files o.core).a a) ∧
        ∀ a, (s'.files o.core).tag a = if a = o.d then .none else ((s.at t).files o.core).tag a) ∧
    ((s.at t).issuesAlone o (accMvOp o (s.at t)) = true →
      ∃ s', exec (.accMv t o) s = .next s' ∧ GoesOn o (((s.at t).core o.core).pc + 1) 0 (s.at t) s' ∧
        s'.files o.core = { (s.at t).files o.core with vreg := (s'.files o.core).vreg } ∧
        (∀ i, i < 8 → (s'.files o.core).v (o.d + i) = Row.part (Tile.slice (((s.at t).files o.core).a o.a) o.u) i ∧
          Map.get 0 (s'.core o.core).ready (vCode (o.d + i)) = (s.at t).now + 4) ∧
        ∀ n, (n < o.d ∨ o.d + 8 ≤ n) → (s'.files o.core).v n = ((s.at t).files o.core).v n))

/-- ROW.LD and ROW.ST (R99, R100, R150). -/
def Obligations.RowMovesComplete : Prop :=
  ∀ (t : Nat) (o : CoreOp) (tile : Bool) (s : State), (s.at t).gateOpen o = true →
    let u := s.at t
    let a := ((u.files o.core).s o.a).toNat
    let e := u.moveEdge o.core (u.myFold o)
    let acc := fun op => (⟨.core (coreIndex o.core), a, e, op, u.myFold o, o.core, false⟩ : Access)
    a < 49152 → u.reaches (u.myFold o) o.q a = true → u.moveFree o = true →
    (u.issuesAlone o (rowLdOp o tile u) = true →
      ∃ s', exec (.rowLd t o tile) s = .next s' ∧ OnlyCoreAndCluster o.core o.q u s' ∧ NextBundle o u s' ∧
        SameFiles o.core u s' ∧ (s'.core o.core).lastEdge = some e ∧
        (s'.core o.core).await = (if tile then [tCode o.d] else vCodes o.d) ++ (u.core o.core).await ∧
        s'.cluster o.q = { u.cluster o.q with
          access := (u.cluster o.q).access ++ [acc (if tile then .toTile o.d o.u else .toVec o.d)] }) ∧
    (u.issuesAlone o (rowStOp o tile) = true →
      ∃ s', exec (.rowSt t o tile) s = .next s' ∧ OnlyCoreAndCluster o.core o.q u s' ∧ NextBundle o u s' ∧
        SameFiles o.core u s' ∧ (s'.core o.core).lastEdge = some e ∧ (s'.core o.core).await = (u.core o.core).await ∧
        s'.cluster o.q = { u.cluster o.q with access := (u.cluster o.q).access ++
          [acc (.write (coreIndex o.core)
            (if tile then Tile.slice ((u.files o.core).t o.d) o.u else (u.files o.core).rowOfV o.d))] })

/-- Queue pairs as cores use them (R102 to R107). -/
def Obligations.QueueInstructionsComplete : Prop :=
  ∀ (t : Nat) (o : CoreOp) (k : Nat) (s : State), (s.at t).gateOpen o = true → k < 16 →
    let u := s.at t
    let f := u.files o.core
    let n := putCount (f.s o.b)
    u.queueOwner o.q k = some o.core →
    (∀ row, remoteOf (f.s o.a) = .stack (o.q / 24) row → 1 ≤ n → n ≤ 64 →
      (u.issuesAlone o (qPutRdOp o k) = true → n ≤ (u.queue o.q k).inRoom →
        ∃ s', exec (.qPutRd t o k) s = .next s' ∧ NextBundle o u s' ∧ SameFiles o.core u s' ∧ SameRows u s' ∧
          (s'.queue o.q k).owed = (u.queue o.q k).owed + n ∧ (s'.queue o.q k).inb = (u.queue o.q k).inb ∧
          ((∀ r ∈ (u.queue o.q k).reqs, ownStack o.q r = true ∨ (u.queue o.q k).mayGo r = false) →
            OnlyCoreAndCluster o.core o.q { u with nextTag := u.nextTag + 1 } s' ∧
            s'.queue o.q k = { u.queue o.q k with
              owed := (u.queue o.q k).owed + n
              reqs := (u.queue o.q k).reqs ++ [⟨u.nextTag, false, f.s o.a, n, [], o.core, 0, u.beat % 2 ^ 32, 0, 0⟩] })) ∧
      (u.issuesAlone o (qPutWrOp o k) = true → n ≤ (u.queue o.q k).outRoom →
        let src := getBits (f.s o.b) 0 16
        src + n ≤ 49152 → u.reachesAll (u.myFold o) o.q src n = true →
        ∃ s', exec (.qPutWr t o k) s = .next s' ∧ OnlyCoreAndCluster o.core o.q { u with nextTag := u.nextTag + 1 } s' ∧
          NextBundle o u s' ∧ SameFiles o.core u s' ∧ SameRows u s' ∧
          s'.queue o.q k = { u.queue o.q k with outb := (u.queue o.q k).outb + n } ∧
          Map.find (s'.cluster o.q).port u.nextTag = some ⟨.put o.core k (f.s o.a), n, n, []⟩ ∧
          (s'.cluster o.q).access = (u.cluster o.q).access ++ (List.range n).map (fun i =>
            ⟨.routerElastic, src + i, u.portEdge o.q u.now, .port u.nextTag i none, u.myFold o, o.core, false⟩))) ∧
    (∀ d row, remoteOf (f.s o.a) = .cluster d row → 1 ≤ n → n ≤ 64 → 8 ≤ k → row + n ≤ 49152 →
      u.hedgeAdmits (u.myFold o) d row n = true → u.issuesAlone o (qPutRdOp o k) = true → n ≤ (u.queue o.q k).inRoom →
      (u.queue o.q k).reqs = [] →
      ∃ s', exec (.qPutRd t o k) s = .next s' ∧ NextBundle o u s' ∧ SameFiles o.core u s' ∧ SameRows u s' ∧
        s'.queue o.q k = { u.queue o.q k with
          owed := (u.queue o.q k).owed + n
          flight := (u.queue o.q k).flight ++ [⟨u.nextTag, false, f.s o.a, n, [], o.core, 0, u.beat % 2 ^ 32, 0, 0⟩] } ∧
        Map.find s'.packets (u.nextTag + 1) = some { meshPacket .queueRead o.core k (u.myFold o) (tileOf o.q) (tileOf d)
          u.nextTag u.now with first := row, count := n }) ∧
    (∀ r rest, (u.queue o.q k).inb = ⟨some r⟩ :: rest →
      (u.issuesAlone o (qGetOp o k .tile u) = true →
        ∃ s', exec (.qGet t o k .tile) s = .next s' ∧ OnlyCoreAndCluster o.core o.q u s' ∧ NextBundle o u s' ∧
          SameRows u s' ∧ s'.queue o.q k = { u.queue o.q k with inb := rest } ∧
          s'.files o.core = { f with treg := (s'.files o.core).treg } ∧
          (∀ x, (s'.files o.core).t x = if x = o.d then Tile.setSlice (f.t o.d) o.u r else f.t x) ∧
          Map.get 0 (s'.core o.core).ready (tCode o.d) = u.now + 3) ∧
      (u.issuesAlone o (qGetOp o k .vec u) = true →
        ∃ s', exec (.qGet t o k .vec) s = .next s' ∧ OnlyCoreAndCluster o.core o.q u s' ∧ NextBundle o u s' ∧
          SameRows u s' ∧ s'.queue o.q k = { u.queue o.q k with inb := rest } ∧
          s'.files o.core = { f with vreg := (s'.files o.core).vreg } ∧
          (∀ i, i < 8 → (s'.files o.core).v (o.d + i) = Row.part r i ∧
            Map.get 0 (s'.core o.core).ready (vCode (o.d + i)) = u.now + 3) ∧
          ∀ x, (x < o.d ∨ o.d + 8 ≤ x) → (s'.files o.core).v x = f.v x)) ∧
    (u.issuesAlone o (qWaitOp o k) = true → 1 ≤ o.u → o.u ≤ 64 →
      let have_ := (u.queue o.q k).inb.length
      (o.u ≤ have_ →
        ∃ s', exec (.qWait t o k) s = .next s' ∧ OnlyCore o.core u s' ∧ NextBundle o u s' ∧
          (∀ x, (s'.files o.core).s x = if x = o.d ∧ x ≠ 0 then BitVec.ofNat 64 have_ else f.s x) ∧
          (s'.core o.core).wait = (u.core o.core).wait) ∧
      (have_ < o.u → u.nothingToCome o.q k = false →
        ∃ s', exec (.qWait t o k) s = .next s' ∧ OnlyCore o.core u s' ∧ NextBundle o u s' ∧ SameFiles o.core u s' ∧
          (s'.core o.core).wait = .rows k o.u o.d)) ∧
    (u.issuesAlone o (qWaitWrOp o k) = true →
      (u.hasWrites o.q k o.core = false →
        ∃ s', exec (.qWaitWr t o k) s = .next s' ∧ WritesScalar o o.d 0 1 u s') ∧
      (u.hasWrites o.q k o.core = true →
        ∃ s', exec (.qWaitWr t o k) s = .next s' ∧ OnlyCore o.core u s' ∧ NextBundle o u s' ∧ SameFiles o.core u s' ∧
          (s'.core o.core).wait = .acks k o.d))

/-- SLOT.SEND, ARR.ISSUE and ARR.COLLECT (R110, R115, R121, Table 03-12). -/
def Obligations.SendsAndArraysComplete : Prop :=
  ∀ (t : Nat) (o : CoreOp) (s : State), (s.at t).gateOpen o = true →
    let u := s.at t
    let f := u.files o.core
    let a := f.s o.a
    let b := f.s o.b
    (u.issuesAlone o (slotSendOp o) = true → slotLegal b = true →
      let n := getBits b 16 3 + 1
      let timed := u.slotTimed o b
      let start := u.sendStart o b
      u.reachesAll (u.myFold o) o.q (getBits b 0 16) n = true →
      (getBits a 63 1 = 1 ∨ (getBits a 6 11 % 32 < 24 ∧
        u.hedgeAdmits (u.myFold o) (clusterOf (getBits a 6 11 * 64)) (getBits a 32 16) n = true)) →
      u.sendFree o a b = true →
      ∃ s', exec (.slotSend t o) s = .next s' ∧ NextBundle o u s' ∧ SameFiles o.core u s' ∧ SameRows u s' ∧
        (s'.core o.core).sends = (u.core o.core).sends + n ∧ s'.nextTag = u.nextTag + n ∧
        (∀ p, (p < u.nextTag ∨ u.nextTag + n ≤ p) → Map.find s'.packets p = Map.find u.packets p) ∧
        (∀ i, i < n → Map.find s'.packets (u.nextTag + i) = some (slotPacket u o (u.myFold o) a b timed start i n)) ∧
        (s'.cluster o.q).access = (u.cluster o.q).access ++ (List.range n).map (fun i =>
          ⟨if timed then .routerTimed else .routerElastic, getBits b 0 16 + i,
            if timed then u.bankEdge (u.myFold o) (start - 36) + 3 * i else u.portEdge o.q u.now,
            .toSend (u.nextTag + i), u.myFold o, o.core, false⟩)) ∧
    (∀ g, g < 4 → u.issuesAlone o (arrIssueOp o g u) = true →
      u.fld Fld.timFoldCfgDigitalExact 0 (u.myFold o) ≠ 1 →
      u.reachesAll (u.myFold o) o.q (getBits a 0 16) (4 * u.depth o.q (getBits b 0 8)) = true →
      ∃ s', exec (.arrIssue t o g) s = .next s' ∧ OnlyCoreAndCluster o.core o.q u s' ∧ NextBundle o u s' ∧
        SameFiles o.core u s' ∧ SameRows u s' ∧
        (s'.cluster o.q).group g = { (u.cluster o.q).group g with
          vecs := ((u.cluster o.q).group g).vecs ++
            [ArrVec.fresh (getBits b 0 8) o.core (u.myFold o) (getBits a 0 16) u.now] }) ∧
    (∀ g v rest, g < 4 → u.issuesAlone o (arrCollectOp o g) = true →
      ((u.cluster o.q).group g).vecs = v :: rest → v.stage = .ready → v.rows = [] →
      u.reachesAll (u.myFold o) o.q (getBits a 0 16) 0 = true →
      ∃ s', exec (.arrCollect t o g) s = .next s' ∧ OnlyCoreAndCluster o.core o.q u s' ∧ NextBundle o u s' ∧
        SameRows u s' ∧ (s'.cluster o.q).group g = { (u.cluster o.q).group g with vecs := rest } ∧
        ∀ x, (s'.files o.core).s x = if x = o.d ∧ x ≠ 0 then v.status else f.s x) ∧
    (∀ g v rest, g < 4 → u.issuesAlone o (arrCollectOp o g) = true →
      ((u.cluster o.q).group g).vecs = v :: rest → v.stage = .ready → 0 < v.rows.length →
      u.reachesAll (u.myFold o) o.q (getBits a 0 16) v.rows.length = true →
      ∃ s', exec (.arrCollect t o g) s = .next s' ∧ OnlyCoreAndCluster o.core o.q u s' ∧ NextBundle o u s' ∧
        SameRows u s' ∧ ((s'.cluster o.q).group g).vecs = rest ∧
        (∀ x, (s'.files o.core).s x = if x = o.d ∧ x ≠ 0 then v.status else f.s x) ∧
        (s'.core o.core).await = sCode o.d :: (u.core o.core).await ∧
        (s'.cluster o.q).access = (u.cluster o.q).access ++ v.rows.zipIdx.map (fun r =>
          (⟨.accumulator g, getBits a 0 16 + r.2, u.bankEdge (u.myFold o) u.now + 3 * r.2,
            .result (sCode o.d) (coreIndex o.core) r.1, u.myFold o, o.core, false⟩ : Access)) ∧
        ((s'.cluster o.q).group g).writing = ((u.cluster o.q).group g).writing ++ [(o.core, sCode o.d, v.rows.length)])

/-- The waits and requests of slot A (R123, R127, R130, R131). -/
def Obligations.SyncInstructionsComplete : Prop :=
  ∀ (t : Nat) (o : CoreOp) (s : State), (s.at t).gateOpen o = true →
    let u := s.at t
    let f := u.files o.core
    (u.issuesAlone o (leaveReqOp o u) = true → leaveLegal (f.s o.a) (f.s o.b) = true →
      ∃ s', exec (.leaveReq t o) s = .next s' ∧ NextBundle o u s' ∧ SameRows u s' ∧ s'.nextTag = u.nextTag + 1 ∧
        (s'.hub (o.q / 24)).arb.waiting = (u.hub (o.q / 24)).arb.waiting ++
          [⟨u.nextTag, (leaveDesc (f.s o.b)).cls, o.q,
            if getBits (f.s o.a) 0 48 = 0 then 2 ^ coreIndex o.core else getBits (f.s o.a) 0 48,
            (leaveDesc (f.s o.b)).units, (leaveDesc (f.s o.b)).span, (leaveDesc (f.s o.b)).offset, u.now, none, none⟩]) ∧
    (∀ id, u.issuesAlone o (leaveWaitOp o) = true → u.oldestLeave o.core o.u = some id →
      (u.stillAsked (o.q / 24) id = true →
        ∃ s', exec (.leaveWait t o) s = .next s' ∧ OnlyCore o.core u s' ∧ NextBundle o u s' ∧ SameFiles o.core u s' ∧
          (s'.core o.core).wait = .leave o.u) ∧
      (u.stillAsked (o.q / 24) id = false → (∀ x, u.grantStart? (o.q / 24) id = some x → x ≤ u.now) →
        ∃ s', exec (.leaveWait t o) s = .next s' ∧ OnlyCore o.core u s' ∧ NextBundle o u s' ∧ SameFiles o.core u s' ∧
          (s'.core o.core).wait = (u.core o.core).wait ∧
          (s'.core o.core).leaves = (u.core o.core).leaves.filter (fun e => e.2 != id))) ∧
    (u.issuesAlone o (stileOp o) = true → o.u ≤ 15 → u.inStile (u.myFold o) o.u o.core = true →
      ∃ s', exec (.stile t o) s = .next s' ∧ NextBundle o u s' ∧ SameFiles o.core u s' ∧ SameRows u s' ∧
        (s'.core o.core).wait = .stile o.u (Map.get 0 (u.core o.core).joins o.u) ∧
        Map.get 0 (s'.core o.core).joins o.u = Map.get 0 (u.core o.core).joins o.u + 1) ∧
    (u.issuesAlone o (swathWaitOp o) = true →
      ∃ s', exec (.swathWait t o) s = .next s' ∧ OnlyCore o.core u s' ∧ NextBundle o u s' ∧ SameFiles o.core u s' ∧
        (s'.core o.core).wait = .swath o.d)

/-- Engine calls and records (R133 to R137). The first call number is a free value (log entry 20). -/
def Obligations.CallsAndRecordsComplete : Prop :=
  (∀ (t : Nat) (o : CoreOp) (s : State), (s.at t).gateOpen o = true →
    let u := s.at t
    let f := u.files o.core
    let a := f.s o.a
    (u.issuesAlone o (engCallOp o) = true → getBits a 23 41 = 0 → getBits a 22 1 = 1 → getBits a 16 6 = 0 →
      engineFn (getBits a 0 8) (getBits a 8 8) = true → u.reaches (u.myFold o) o.q (getBits (f.s o.b) 0 16) = true →
      (u.core o.core).openCalls < 4 →
      ∃ s', exec (.engCall t o) s = .next s' ∧ NextBundle o u s' ∧ SameRows u s' ∧
        (s'.hub (o.q / 24)).arriving = (u.hub (o.q / 24)).arriving ++
          [{ core := o.core, number := (u.core o.core).nextCall, engine := getBits a 0 8, fn := getBits a 8 8,
             at0 := getBits (f.s o.b) 0 16, fold := u.myFold o, block := 0, admitted := 0, reply := none,
             server := getBits a 0 8, steward := false, early := false, hub := o.q / 24, asked := [] }] ∧
        (s'.core o.core).nextCall = (u.core o.core).nextCall + 1 ∧
        Map.find (s'.core o.core).calls (u.core o.core).nextCall = some ⟨o.q / 24, getBits a 0 8, none⟩ ∧
        ∀ x, (s'.files o.core).s x = if x = o.d ∧ x ≠ 0 then
          Config.callBase + BitVec.ofNat 64 (u.core o.core).nextCall else f.s x) ∧
    (∀ c, u.issuesAlone o (engWaitOp o) = true →
      Map.find (u.core o.core).calls (f.s o.a - Config.callBase).toNat = some c →
      (∀ st, c.status = some st →
        ∃ s', exec (.engWait t o) s = .next s' ∧ WritesScalar o o.d (BitVec.ofNat 64 st) 1 u s') ∧
      (c.status = none →
        ∃ s', exec (.engWait t o) s = .next s' ∧ OnlyCore o.core u s' ∧ NextBundle o u s' ∧ SameFiles o.core u s' ∧
          (s'.core o.core).wait = .engine (f.s o.a - Config.callBase).toNat o.d)) ∧
    (u.issuesAlone o (recEmitOp o u) = true →
      ∃ s', exec (.recEmit t o) s = .next s' ∧ OnlyCore o.core u s' ∧ NextBundle o u s' ∧ SameFiles o.core u s' ∧
        (s'.core o.core).records = (u.core o.core).records ++
          [⟨0x7F00 + o.u % 256, 0, o.core, u.foldOf o.q, u.swathOf (u.foldOf o.q), false, u.ns, (f.s o.a).toNat,
            (f.s o.b).toNat % 2 ^ 48⟩])) ∧
  (∀ (t c : Nat) (r : Rec) (rest : List Rec) (s : State), validCore c = true → ((s.at t).core c).records = r :: rest →
    (∀ x, ((s.at t).core c).sentAt = some x → x + 64 ≤ (s.at t).now) →
    ∃ s', exec (.recordSend t c) s = .next s' ∧ SameRows (s.at t) s' ∧
      s'.core c = { (s.at t).core c with records := rest, sentAt := some (s.at t).now } ∧
      (goesHub 0 r.code = true → (s'.hub (c / 2048)).log = ((s.at t).hub (c / 2048)).log.push 4096 r) ∧
      (goesGlobal r.kind r.code = true → s'.globalLog = (s.at t).globalLog.push 16384 r))

/-- BANK_ACCESS and SCRUB_READ (R99, R104, R143 to R145, R156, R159, R171). Both act on a bank edge whose cycle the bank has not
given. -/
def Obligations.BankAccessCompletes : Prop :=
  ∀ (t q b : Nat) (s : State), validCluster q = true → b < 48 →
    let u := s.at t
    let late := fun (row : Nat) => u.lateRow q ⟨.scrubber, row, u.now, .toTile 0 0, 0, 0, false⟩
    (∃ s', exec (.bankAccess t q b) s = .next s' ∧ (∀ x a, (x ≠ q ∨ a / 1024 ≠ b) → s'.row x a = u.row x a) ∧
      ((u.onBankEdge q = false ∨ u.cycleUsed q b = true) → s' = u)) ∧
    (∀ row, row / 1024 = b →
      ∃ s', exec (.scrubRead t q row) s = .next s' ∧ (∀ x a, (x ≠ q ∨ a ≠ row) → s'.row x a = u.row x a) ∧
        ((u.onBankEdge q = false ∨ (late row = false ∧ (u.cycleUsed q b = true ∨ u.bankPowered q b = false))) → s' = u) ∧
        (u.onBankEdge q = true → late row = true → SameRows u s' ∧ CountsUp Fld.cluFabContractLateRowCount q 0 u s' ∧
          s' = { u with regs := s'.regs })) ∧
    (u.onBankEdge q = true → u.cycleUsed q b = false →
      (u.cluster q).closing.any (fun k => k / 64 == b) = false →
      (∀ (a : Access), a ∈ (u.cluster q).access → a.row / 1024 = b → a.edge ≤ u.now →
        u.rowRefused q a.row = false → u.lateRow q a = false →
        (∀ c ∈ (u.cluster q).access, c ≠ a → c.row / 1024 = b → c.edge ≤ u.now → u.rowRefused q c.row = false →
          u.lateRow q c = false → a.agent.rank < c.agent.rank) →
        ∃ s', exec (.bankAccess t q b) s = .next s' ∧ s'.cycleUsed q b = true ∧ s'.now = u.now ∧
          (∀ w r, (a.op = .write w r ∨ (∃ code, a.op = .result code w r) ∨ ∃ id i, a.op = .port id i (some (w, r))) →
            s'.row q a.row = r ∧ s'.rowHealth q a.row = .good) ∧
          (a.op.isRead = true → s'.row q a.row = u.row q a.row) ∧
          ∀ x y, (x ≠ q ∨ y ≠ a.row) → s'.row x y = u.row x y) ∧
      (∀ (j w : Nat) (r : Row) (a : Access), (u.cluster q).access = [a] → a.row / 1024 = b → a.edge ≤ u.now →
        u.rowRefused q a.row = false → u.lateRow q a = false →
        (a.agent = .core j → a.op = .write w r →
          ∃ s', exec (.bankAccess t q b) s = .next s' ∧ (s'.cluster q).access = [] ∧ s'.row q a.row = r ∧
            Map.find (s'.cluster q).err a.row = none ∧
            Map.find (s'.cluster q).tags a.row = some ⟨w, (u.cluster q).count⟩ ∧
            ∀ x y, (x ≠ q ∨ y ≠ a.row) → s'.row x y = u.row x y) ∧
        (∀ tt sl, a.agent = .core j → a.op = .toTile tt sl → u.rowHealth q a.row = .good →
          ∃ s', exec (.bankAccess t q b) s = .next s' ∧ (s'.cluster q).access = [] ∧ SameRows u s' ∧
            (s'.files a.core) = { u.files a.core with treg := (s'.files a.core).treg } ∧
            (∀ n, (s'.files a.core).t n =
              if n = tt then Tile.setSlice ((u.files a.core).t tt) sl (u.row q a.row) else (u.files a.core).t n) ∧
            (s'.core a.core).await = (u.core a.core).await.erase (tCode tt) ∧
            Map.get 0 (s'.core a.core).ready (tCode tt) =
              Nat.max (Map.get 0 (u.core a.core).ready (tCode tt)) (u.now + 3 * u.latency q a)) ∧
        (∀ d, a.agent = .core j → a.op = .toVec d → u.rowHealth q a.row = .good →
          ∃ s', exec (.bankAccess t q b) s = .next s' ∧ (s'.cluster q).access = [] ∧ SameRows u s' ∧
            (∀ i, i < 8 → (s'.files a.core).v (d + i) = Row.part (u.row q a.row) i) ∧
            ∀ n, (n < d ∨ d + 8 ≤ n) → (s'.files a.core).v n = (u.files a.core).v n) ∧
        (∀ id c k addr n, a.agent = .routerElastic → a.op = .port id 0 none → u.rowHealth q a.row = .good →
          (u.cluster q).port = [(id, ⟨.put c k addr, 1, 1, []⟩)] → clusterOf c = q → remoteOf addr = .stack (q / 24) n →
          (∀ r ∈ (u.queue q k).reqs, ownStack q r = true ∨ (u.queue q k).mayGo r = false) →
          ∃ s', exec (.bankAccess t q b) s = .next s' ∧ (s'.cluster q).access = [] ∧ (s'.cluster q).port = [] ∧
            SameRows u s' ∧ s'.queue q k = { u.queue q k with reqs := (u.queue q k).reqs ++
              [⟨id, true, addr, 1, [u.row q a.row], c, 0, u.beat % 2 ^ 32, 0, 0⟩] })) ∧
      (∀ (id c m g x : Nat) (r : Row) (a : Access), (u.cluster q).access = [a] → a.row / 1024 = b → a.edge ≤ u.now →
        u.rowRefused q a.row = false → u.lateRow q a = false → a.op = .port id 0 (some (49, r)) →
        (u.cluster q).port = [(id, ⟨.result c m g (some (x, r)), 1, 1, []⟩)] →
        ∃ s', exec (.bankAccess t q b) s = .next s' ∧ s'.row q a.row = r ∧ (s'.cluster q).port = [] ∧
          ∀ d, (u.core c).wait = .engine m d → (u.core c).waitOff = false →
            (s'.core c).wait = .none ∧ (s'.core c).issueAt = u.now + 1 ∧
            (d ≠ 0 → (s'.files c).s d = BitVec.ofNat 64 (callStatus r))) ∧
      (∀ (j w : Nat) (r : Row) (a c : Access), (u.cluster q).access = [a, c] → a.row / 1024 = b → c.row / 1024 = b →
        a.edge ≤ u.now → c.edge ≤ u.now → u.rowRefused q a.row = false → u.rowRefused q c.row = false →
        u.lateRow q a = false → u.lateRow q c = false → a.agent = .core j → a.op = .write w r →
        a.agent.rank < c.agent.rank →
        ∃ s', exec (.bankAccess t q b) s = .next s' ∧ s'.row q a.row = r ∧
          (s'.cluster q).access = [{ c with edge := u.now + 3 }] ∧
          s'.fld Fld.cluSpContractConflictCount q 0 =
            (if c.agent.rank < 60 then Nat.min (u.fld Fld.cluSpContractConflictCount q 0 + 1) 65535
             else u.fld Fld.cluSpContractConflictCount q 0) ∧
          ∀ x y, (x ≠ q ∨ y ≠ a.row) → s'.row x y = u.row x y) ∧
      (∀ row, row / 1024 = b → u.bankPowered q b = true → late row = false →
        (u.cluster q).access.any (fun x => x.row / 1024 == b && decide (x.edge ≤ u.now)) = false →
        (u.rowHealth q row = .good →
          ∃ s', exec (.scrubRead t q row) s = .next s' ∧ SameRows u s' ∧ s'.cycleUsed q b = true ∧
            (s'.cluster q).scrubbed = row ∧ (s'.cluster q).err = (u.cluster q).err ∧ s'.regs = u.regs) ∧
        (u.rowHealth q row = .fixed →
          ∃ s', exec (.scrubRead t q row) s = .next s' ∧ SameRows u s' ∧ Map.find (s'.cluster q).err row = none ∧
            (s'.cluster q).scrubbed = row ∧
            s'.fld Fld.cluSpEccCorrectedCount q 0 =
              Nat.min (u.fld Fld.cluSpEccCorrectedCount q 0 + 1) 4294967295)))

/-- The commands on partitions (R7, R148, R149, R160 to R164). -/
def Obligations.PartitionsComplete : Prop :=
  ∀ (t q i : Nat) (p : Path) (s : State), validCluster q = true → i < 64 →
    let u := s.at t
    let at_ := fun (cfg : Bool) => (if cfg then Reg.cluPartCfg else .cluPartBanks).addr q i
    (∀ cfg v, (u.exposed q = false ∨ u.partRefused q i cfg v = true) →
      exec (.partitionDescriptorWrite t p q i cfg v) s = .next (u.completes p (at_ cfg) false)) ∧
    (∀ cfg v, u.exposed q = true → u.partRefused q i cfg v = false →
      ∃ s', exec (.partitionDescriptorWrite t p q i cfg v) s = .next s' ∧ s'.out = .access p (at_ cfg) true :: u.out ∧
        s'.reg .cluPartBanks q i = (partWords u q i cfg v).1 ∧ s'.reg .cluPartCfg q i = (partWords u q i cfg v).2 ∧
        ∀ x a, (x ≠ q ∨ u.partMask q i / 2 ^ (a / 1024) % 2 = 0) → s'.row x a = u.row x a) ∧
    (u.exposed q = true → u.partValid q i = true → u.partOpen q i = true →
      ∃ s', exec (.partitionClose t p q i) s = .next s' ∧ s'.partOpen q i = false ∧ SameRows u s' ∧
        s'.out = .access p (at_ true) true :: u.out ∧
        ∀ b, b ∈ u.banksOf q i → (s'.cluster q).closing.contains (closingKey b i) = true ∧
          s'.bit Fld.cluBankPendingPending q 0 b = true) ∧
    (u.exposed q = true → u.partValid q i = true → u.partOpen q i = false →
      ∃ s', exec (.partitionOpen t p q i) s = .next s' ∧ s'.partOpen q i = true ∧ SameRows u s' ∧
        Map.find (s'.cluster q).opens i = some (u.bankEdge ((u.foldOf q).getD 0) (u.now + 1)) ∧
        s'.out = .access p (at_ true) true :: u.out ∧
        ∀ b, b ∈ u.banksOf q i → u.bankPowered q b = false → Map.find (u.cluster q).filling b = none →
          ∃ r ∈ (s'.hub (q / 24)).arb.waiting, r.cls = clsPowerOn ∧ r.q = q ∧ r.units = 2 ∧ r.bank = some b ∧
            r.asked = u.now) ∧
    (∀ b, b < 48 → u.onBankEdge q = false → exec (.bankClosure t q b) s = .next u) ∧
    (∀ b, b < 48 → u.onBankEdge q = true → (u.cluster q).closing.any (fun k => k / 64 == b) = true → u.inFlight q b = 0 →
      ∃ s', exec (.bankClosure t q b) s = .next s' ∧ (s'.cluster q).closing.any (fun k => k / 64 == b) = false ∧
        (u.bankPowered q b = true → u.bankWanted q b = false →
          s'.bankPowered q b = false ∧ ∀ a, a / 1024 = b → s'.row q a = 0) ∧
        (u.bankWanted q b = true → SameRows u s') ∧
        ∀ x a, (x ≠ q ∨ a / 1024 ≠ b) → s'.row x a = u.row x a) ∧
    (∀ b id x, b < 48 → Map.find (u.cluster q).filling b = some id → u.grantStart? (q / 24) id = some x →
      x + 10272 ≤ u.now →
      ∃ s', exec (.bankFillDone t q b) s = .next s' ∧ Map.find (s'.cluster q).filling b = none ∧
        (∀ a, a / 1024 = b → s'.row q a = 0) ∧
        (u.bankWanted q b = true → s'.bankPowered q b = true) ∧
        ∀ y a, (y ≠ q ∨ a / 1024 ≠ b) → s'.row y a = u.row y a)

/-- ARRAY_ACCEPT. -/
def Obligations.ArrayVectorAccepted : Prop :=
  ∀ (t q g : Nat) (v : ArrVec) (s : State), validCluster q = true → g < 4 → v.fold < 256 → v.entry < 256 →
    validCore v.core = true → clusterOf v.core = q →
    let u := s.at t
    let T := u.planeTicks
    (u.vecs q g).find? (fun x => x.stage == .issued) = some v → onBoundary u v.fold = true → v.issued + 36 ≤ u.now →
    ((u.cluster q).group g).next ≤ u.now →
    ((match v.grant with
      | none => u.covered v.core clsArray u.now (u.now + u.vecBusy v q) = true
      | some id => u.unbegun (q / 24) id = false) →
      ∃ s', exec (.arrayAccept t q g) s = .next s' ∧
        s'.vecs q g = setFirst (fun x => x.stage == .issued) { v with
          id := u.nextTag, accepted := u.now, notReady := u.groupNotReady q g v
          left := if u.groupNotReady q g v then 0 else 4 * u.depth q v.entry
          stage := if u.groupNotReady q g v then .accumulating else .rotating
          ready := u.now + (2 + u.window q v) * T } (u.now + Nat.max 4 (u.window q v) * T) (u.vecs q g) ∧
        ((s'.cluster q).group g).next =
          Nat.max ((u.cluster q).group g).next (u.now + Nat.max 4 (u.window q v) * T) ∧
        (s'.cluster q).access = (u.cluster q).access ++
          (List.range (if u.groupNotReady q g v then 0 else 4 * u.depth q v.entry)).map (fun i =>
            ⟨.rotation g, v.row0 + i, u.bankEdge v.fold u.now + 3 * i, .toGroup i, v.fold, v.core, false⟩) ∧
        (s'.fold v.fold).batch = (if u.groupNotReady q g v then markAt 0x10 (u.itemsOf v.fold v.core) 0 (u.fold v.fold).batch
          else (u.fold v.fold).batch) ∧
        SameRows u s') ∧
    (v.grant = none → u.covered v.core clsArray u.now (u.now + u.vecBusy v q) = false → u.held q < 16 →
      ∃ s', exec (.arrayAccept t q g) s = .next s' ∧
        s'.vecs q g = modFirst (fun x => x.stage == .issued)
          (fun x => { x with grant := some u.nextTag, asks := false }) (u.vecs q g) ∧
        (∃ r ∈ (s'.hub (q / 24)).arb.waiting, r.id = u.nextTag ∧ r.cls = clsArray ∧ r.q = q ∧
          r.mask = 2 ^ coreIndex v.core ∧ r.units = u.classDefault q clsArray ∧ r.asked = u.now ∧
          r.op = some ⟨u.vecBusy v q, (u.fold v.fold).tick0, T, 0⟩) ∧
        (s'.cluster q).access = (u.cluster q).access ∧ SameRows u s') ∧
    (v.grant = none → u.covered v.core clsArray u.now (u.now + u.vecBusy v q) = false → 16 ≤ u.held q →
      ∃ s', exec (.arrayAccept t q g) s = .next s' ∧ OnlyCluster q u s' ∧ SameRows u s' ∧
        s'.vecs q g = modFirst (fun x => x.stage == .issued) (fun x => { x with asks := true }) (u.vecs q g) ∧
        ∀ (t' : Nat) (w : ArrVec), u.now < t' →
          (s'.vecs q g).find? (fun x => x.stage == .issued) = some w → w.asks = true → (s'.at t').held q < 16 →
          onBoundary (s'.at t') w.fold = false →
          ∃ s'', exec (.arrayAccept t' q g) s' = .next s'' ∧ SameRows u s'' ∧
            s''.vecs q g = modFirst (fun x => x.stage == .issued)
              (fun x => { x with grant := some u.nextTag, asks := false }) (s'.vecs q g))

/-- ARRAY_ROTATION_END. That the next vector moves back with this one is the model's choice (log entry 112). -/
def Obligations.ArrayVectorRotated : Prop :=
  ∀ (t q g : Nat) (v : ArrVec) (s : State), validCluster q = true → g < 4 → v.fold < 256 → v.entry < 256 →
    validCore v.core = true →
    let u := s.at t
    let T := u.planeTicks
    let d := u.depth q v.entry
    let r := rotate (u.reg .cluArrLayerSeed q v.entry) d (rowByte (u.numRow q v.entry) 265) (u.statics q v.entry)
      (v.elements d)
    let many := (List.range d).any (fun p => 16 < r.strays.countP (fun i => i / 1024 == p))
    let redo := many && u.fld Fld.cluArrLayerNumStrayPolicy q v.entry == 1
    let late := (v.lastRead + 12 - (v.accepted + T) + (T - 1)) / T
    let driven := drivenOf (u.statics q v.entry) r.served r.q
    let planes := u.planesOf q v driven
    let rpi := rowsPerInput d
    let shadows := fun i => ∃ m row, remoteOf (BitVec.ofNat 64 (rowBytes (u.numRow q v.entry) 256 8)) = .stack m row ∧
      row + rpi * (i + 1) ≤ 2 ^ 28
    (u.vecs q g).find? (fun x => x.stage == .rotating) = some v → v.accepted + T ≤ u.now → v.left = 0 →
    ∃ s' v', exec (.arrayRotationEnd t q g) s = .next s' ∧
      s'.vecs q g = setFirst (fun x => x.stage == .rotating) v' (u.nextAccept q v') (u.vecs q g) ∧
      v'.id = v.id ∧ v'.accepted = v.accepted ∧ v'.ready = v.accepted + (2 + u.window q v') * T ∧ SameRows u s' ∧
      (if v.badRow = true ∨ r.nonfinite = true ∨ redo = true then
        v'.stage = .accumulating ∧ v'.driven = [] ∧ v'.subs = [] ∧
        v'.nonfinite = (if v.badRow = true then v.nonfinite else if r.nonfinite = true then true else v.nonfinite) ∧
        (v.badRow = false → r.nonfinite = true →
          (s'.fold v.fold).batch = markAt 0x14 (u.itemsOf v.fold v.core) 0 (u.fold v.fold).batch)
      else
        v'.e = r.e ∧ v'.driven = driven ∧ v'.subs = planes.flatMap Prod.fst ∧ v'.strays = r.strays.length ∧
        v'.clipped = many ∧ v'.extra = (planes.map Prod.snd).foldl (· + ·) 0 + late ∧
        v'.planeT = v.accepted + T + late * T ∧
        v'.stage = (if v'.subs.isEmpty then .accumulating else .planes) ∧
        v'.splits = planes.countP (fun p => p.2 != 0) ∧
        s'.fld Fld.cluArrStatSplitCount q g = Nat.min (u.fld Fld.cluArrStatSplitCount q g + v'.splits)
          (2 ^ Fld.cluArrStatSplitCount.width - 1) ∧
        ((∀ i ∈ r.served, shadows i) → (s'.fold v.fold).batch = (if many then markAt 0x02 (u.itemsOf v.fold v.core) 0 (u.fold v.fold).batch
          else (u.fold v.fold).batch)))

/-- ARRAY_PLANE. That the next vector moves back with this one is the model's choice (log entry 112). -/
def Obligations.ArrayPlaneConverts : Prop :=
  ∀ (t q g : Nat) (v : ArrVec) (p : SubPlane) (rest : List SubPlane) (s : State), validCluster q = true → g < 4 →
    v.fold < 256 → v.entry < 256 → validCore v.core = true →
    let u := s.at t
    let T := u.planeTicks
    let codes := (List.range 8).map (u.codes q g v p)
    let stageOf := fun (l : List SubPlane) => if l.isEmpty then Stage.accumulating else Stage.planes
    (u.vecs q g).find? (fun v => v.stage == .planes && decide (v.planeT + u.planeTicks ≤ u.now)) = some v →
    v.subs = p :: rest →
    ∃ s' v', exec (.arrayPlane t q g) s = .next s' ∧ SameRows u s' ∧
      s'.vecs q g = setFirst (fun x => x.id == v.id) v' (u.nextAccept q v') (u.vecs q g) ∧
      v'.planeT = v.planeT + T ∧ v'.stage = stageOf v'.subs ∧ v'.ready = v.accepted + (2 + u.window q v') * T ∧
      v'.driven = v.driven ∧ v'.e = v.e ∧
      (if p.drive = false then v'.subs = rest ∧ v'.raw = v.raw ∧ v'.extra = v.extra ∧ s'.fresh = u.fresh
       else s'.fresh = u.fresh + 1 ∧
        match firstSaturated codes, p.half with
        | some _, false => v'.subs = p.halves ++ rest ∧ v'.raw = v.raw ∧ v'.extra = v.extra + 2 ∧
            v'.reruns = v.reruns + 1
        | some _, true => v'.subs = rest ∧ v'.raw = u.addCodes q g v p codes ∧ v'.extra = v.extra ∧
            (s'.fold v.fold).batch = markAt 0x02 (u.itemsOf v.fold v.core) 0 (u.fold v.fold).batch
        | none, _ => v'.subs = rest ∧ v'.raw = u.addCodes q g v p codes ∧ v'.extra = v.extra)

/-- ARRAY_ACCUMULATION and ARRAY_RESULT_READY. -/
def Obligations.ArrayResultForms : Prop :=
  ∀ (t q g : Nat) (v : ArrVec) (s : State), validCluster q = true → g < 4 → v.fold < 256 → v.entry < 256 →
    validCore v.core = true →
    let u := s.at t
    let zero := List.replicate (512 * (8 / u.depth q v.entry)) 0
    let out := if v.nonfinite = true ∨ v.badRow = true ∨ v.redo = true then zero else u.outputs q g v
    let m := u.normSlot q v.entry
    let hit := (m.judge (normOf out)).1
    ((u.vecs q g).find? (fun v => v.stage == .accumulating && v.out.isEmpty && !v.notReady &&
        decide (v.accepted + (1 + u.window q v) * u.planeTicks ≤ u.now)) = some v →
      ∃ s' v', exec (.arrayAccumulation t q g) s = .next s' ∧ SameRows u s' ∧
        s'.vecs q g = modFirst (fun x => x.id == v.id) (fun _ => v') (u.vecs q g) ∧
        (if v.unwatched = true ∨ m.state = 0 then v' = { v with out := out } ∧ s'.normSlot q v.entry = m
         else s'.normSlot q v.entry = (m.judge (normOf out)).2 ∧
          if hit = false then v' = { v with out := out, normN := normOf out }
          else if m.policy = 2 then
            v' = { v with out := out.map (fun _ => 0), normN := normOf out, normFlag := true, normRedo := true }
          else if m.policy = 3 then
            v' = { v with out := out, normN := normOf out, normFlag := true, normFail := true } ∧
            (s'.fold v.fold).batch = markAt 0x14 (u.itemsOf v.fold v.core) 0 (u.fold v.fold).batch
          else v' = { v with out := out, normN := normOf out, normFlag := true })) ∧
    ((u.vecs q g).find? (fun v => v.stage == .accumulating && (v.notReady || !v.out.isEmpty) &&
        decide (v.ready ≤ u.now)) = some v →
      ∃ s', exec (.arrayResultReady t q g) s = .next s' ∧ OnlyCluster q u s' ∧ SameRows u s' ∧
        s'.vecs q g = (if (u.core v.core).faulted = true then
            (u.vecs q g).filter (fun y => y.id != v.id || y.stage == .issued)
          else modFirst (fun x => x.id == v.id) (fun x => { x with stage := .ready }) (u.vecs q g)))

/-- SIDE_ROW_FETCHED and SIDE_DELIVERY. -/
def Obligations.SidePathDelivers : Prop :=
  ∀ (t q : Nat) (j : SideJob) (s : State), validCluster q = true → j.fold < 256 → j.entry < 256 → validCore j.core = true →
    let u := s.at t
    (∀ (tag i : Nat) (a : Answer) (w : InRow) (more : List InRow) (others : List Answer),
      ((u.cluster q).jobs.flatMap (fun j => j.left.map (fun t => (j, t)))).find?
        (fun w => (u.queue q w.1.queue).back.any (fun a => a.tag == w.2.1)) = some (j, tag, i) →
      takeFirst (fun (a : Answer) => a.tag == tag) (u.queue q j.queue).back = some (a, others) → a.rows = w :: more →
      let got := (((u.queue q j.queue).flight.find? (fun r => r.tag == tag)).map QReq.got).getD 0
      let left := rowsPerInput (u.depth q j.entry) - 1 - got
      ∃ s', exec (.sideRowFetched t q) s = .next s' ∧ SameRows u s' ∧
        (s'.queue q j.queue).back = (if more.isEmpty then others else { a with rows := more } :: others) ∧
        (s'.queue q j.queue).flight = (if left = 0 then (u.queue q j.queue).flight.filter (fun r => r.tag != tag)
          else (u.queue q j.queue).flight.map (fun r => if r.tag = tag then { r with got := got + 1 } else r)) ∧
        (s'.cluster q).jobs = (u.cluster q).jobs.map (fun x => if x.id == j.id then { x with
          left := if left = 0 then x.left.filter (fun t => t.1 != tag) else x.left
          rows := (match w.row with
            | some r => Map.put x.rows (4 * i + got) r
            | none => x.rows)
          fault := x.fault || w.row.isNone } else x) ∧
        s'.fld Fld.cluSideStatSideRows q 0 =
          Nat.min (u.fld Fld.cluSideStatSideRows q 0 + 1) (2 ^ Fld.cluSideStatSideRows.width - 1) ∧
        (s'.fold j.fold).batch = (if w.row.isNone then markAt 0x10 (u.itemsOf j.fold j.core) 0 (u.fold j.fold).batch
          else (u.fold j.fold).batch)) ∧
    (∀ before rest, (u.cluster q).jobs = before ++ j :: rest → (∀ i ∈ before, u.mayDeliver q i = false) →
      j.started = true → j.left = [] → j.decided = true →
      (u.queue q j.queue).oldestRead.any (fun r => r.tag == j.id) = true →
      deliveryRows (u.depth q j.entry) ≤ (u.queue q j.queue).inRoom →
      (u.foldExact j.fold = true → j.accepted + rowBytes (u.numRow q j.entry) 266 2 * u.planeTicks ≤ u.now) →
      ∃ s', exec (.sideDelivery t q) s = .next s' ∧ SameRows u s' ∧ (s'.cluster q).jobs = before ++ rest ∧
        (s'.queue q j.queue).flight = (u.queue q j.queue).flight.filter (fun r => r.tag != j.id) ∧
        (s'.queue q j.queue).inb = (if (u.core j.core).faulted = true then (u.queue q j.queue).inb
          else (u.queue q j.queue).inb ++ ⟨some (withFault j.fault j.head)⟩ ::
            (List.range (4 * (8 / u.depth q j.entry))).map (fun r => ⟨some (termRow j r)⟩)))

/-- LAYER_ENTRY_WRITE. -/
def Obligations.LayerEntryWrites : Prop :=
  ∀ (t q e r : Nat) (p : Path) (v : Word) (s : State), validCluster q = true → e < 256 → r < 3 →
    let u := s.at t
    let own := u.fld Fld.cluArrLayerCfgFold q e
    let w := Reg.cluArrLayerCfg.keep v
    let f := getBits w Fld.cluArrLayerCfgFold.lo 8
    let new := u.setReg .cluArrLayerCfg q e w
    let ends := fun (x : State) (ok : Bool) => x.completes p ((layerReg r).addr q e) ok
    (u.exposed q = false ∨ u.layerLocked (p == .steward) own = true →
      exec (.layerEntryWrite t p q e r v) s = .next (ends u false)) ∧
    (r = 1 → u.exposed q = true → u.layerLocked (p == .steward) own = false →
      (p ≠ .steward ∨ u.fld Fld.cluArrLayerCfgValid q e = 0) →
      ∃ s', exec (.layerEntryWrite t p q e r v) s = .next (ends s' true) ∧ OnlyReg (Reg.cluArrLayerSeed.addr q e) u s' ∧
        s'.reg .cluArrLayerSeed q e = Reg.cluArrLayerSeed.keep v) ∧
    (∀ (n : Row) (scale : List Row), r = 0 → u.exposed q = true → u.foldState own = 0 → u.foldState f = 0 →
      getBits w Fld.cluArrLayerCfgValid.lo 1 = 1 →
      outOfRange (u.reg .cluArrLayerCfg q e) w Fld.cluArrLayerCfgRangeCap 0 7 = false →
      outOfRange (u.reg .cluArrLayerCfg q e) w Fld.cluArrLayerCfgSplitBudget 0 44 = false →
      u.entryRows q f (u.fld Fld.cluArrLayerNumOutlierRow q e) 1 = (some [n], u) →
      u.entryRows q f (u.fld Fld.cluArrLayerNumColscaleRow q e) (2 * (8 / new.depth q e)) = (some scale, u) →
      ∃ s', exec (.layerEntryWrite t p q e r v) s = .next s' ∧ SameRows u s' ∧
        (if numericOk n (new.depth q e) (u.fld Fld.cluArrLayerNumOutlierCount q e) = false then s' = ends u false
         else s'.out = .access p ((layerReg r).addr q e) true :: u.out ∧ s'.reg .cluArrLayerCfg q e = w ∧
          s'.layerCopy q e = ⟨n, scale.flatMap (fun r => rowHalves r 0 256)⟩ ∧
          (s'.normSlot q e).policy = rowByte n 268 ∧ (s'.normSlot q e).warmup = rowByte n 269 ∧
          (s'.normSlot q e).hi = rowBytes n 270 2 ∧ (s'.normSlot q e).lo = rowBytes n 272 2 ∧
          (s'.normSlot q e).state = (if rowByte n 268 = 0 then 0 else 1)))

/-- CALIBRATION_DUE, CALIBRATION_SLICE and CALIBRATION_FIT_DONE. -/
def Obligations.CalibrationRuns : Prop :=
  ∀ (t q a : Nat) (s : State), validCluster q = true → a < 32 →
    let u := s.at t
    (∀ c, u.calibrates q a c = true → (u.arr q a).due = none →
      ∃ s', exec (.calibrationDue t q a c) s = .next s' ∧ OnlyCluster q u s' ∧ SameRows u s' ∧
        s'.arr q a = { u.arr q a with due := some c, driven := 0, driveBeat := none } ∧
        ∀ b, b ≠ a → s'.arr q b = u.arr q b) ∧
    (∀ c n, (u.arr q a).due = some c → (u.arr q a).driven < 2816 → u.arrState q a ≠ 5 → u.sliceAllowed q a n = true →
      ∃ s', exec (.calibrationSlice t q a n) s = .next s' ∧ OnlyCluster q u s' ∧ SameRows u s' ∧
        s'.arr q a = { u.arr q a with
          driven := Nat.min 2816 ((u.arr q a).driven + n)
          driveBeat := some (u.beat, (u.arr q a).drivenIn u.beat + n), driveEnd := u.now } ∧
        ((∃ f, u.foldOf q = some f ∧ u.foldBusy f = true) → (s'.arr q a).drivenIn u.beat ≤ 25)) ∧
    (∀ c fit, (u.arr q a).due = some c → (u.arr q a).driven = 2816 → u.arrState q a ≠ 5 →
      (u.arr q a).driveEnd + 188736 * u.beatTicks / 100 ≤ u.now →
      ∃ s', exec (.calibrationFitDone t q a fit) s = .next s' ∧ SameRows u s' ∧
        s'.arr q a = { u.arr q a with
          staged := some (calWords fit), due := none, driven := 0, driveBeat := none, lastCal := u.now, fresh := false } ∧
        s'.fld Fld.cluArrStateCanaryErr q a = Nat.min 65535 (u.canaryMetric q a fit.y) ∧
        (if (u.arr q a).fresh = true then
          s'.fld Fld.cluArrStateCanaryBase q a = Nat.min 65535 (u.canaryMetric q a fit.y) ∧
          s'.arrState q a = (if u.arrState q a = 1 then 2 else u.arrState q a)
         else
          s'.fld Fld.cluArrStateCanaryBase q a = u.fld Fld.cluArrStateCanaryBase q a ∧
          s'.arrState q a = (if u.arrState q a = 2 ∧
            u.fld Fld.cluArrStateCanaryBase q a + u.fld Fld.cluArrCalCtlDriftMargin q 0 < (u.canaryMetric q a fit.y) then 3
            else u.arrState q a)))

/-- ARRAY_ROW_PROGRAM (R177, R178, R214 to R219). What the write-verify loop meets is the command's operand: whether a pair has
drifted out of its window, and which cells are stuck. -/
def Obligations.ArrayRowProgrammed : Prop :=
  ∀ (t q a row : Nat) (w : BitVec 2048) (pulses : Bool) (s : State), validCluster q = true → a < 32 → row < 1024 →
    let u := s.at t
    let ws := rowWeights w
    let pulsed := u.takesPulses q a row w pulses
    u.mayProgram q a = true →
    ((pulsed = false ∨ u.codecLeave q = true) → ws.any (fun x => x == -8) = true →
      ∃ s', exec (.arrayRowProgram t q a row w pulses []) s = .next s' ∧ SameRows u s' ∧ s'.arr q a = u.arr q a ∧
        s'.arrState q a = u.arrState q a) ∧
    ((pulsed = false ∨ u.codecLeave q = true) → ws.any (fun x => x == -8) = false →
      (∃ s', exec (.arrayRowProgram t q a row w pulses []) s = .next s' ∧ SameRows u s' ∧
        (∀ c, c < 512 → cellWeight (s'.arr q a).cells row c = ws.getD c 0) ∧
        (∀ n, (n < 1024 * row ∨ 1024 * row + 1024 ≤ n) →
          Map.get 0 (s'.arr q a).cells n = Map.get 0 (u.arr q a).cells n) ∧
        (s'.arr q a).fresh = true ∧ (s'.arr q a).due = none ∧ s'.arrState q a = 1 ∧
        s'.fld Fld.cluArrWearRowRem q a = (if pulsed = true then
          (if u.fld Fld.cluArrWearRowRem q a = 1023 then 0 else u.fld Fld.cluArrWearRowRem q a + 1)
          else u.fld Fld.cluArrWearRowRem q a) ∧
        s'.fld Fld.cluArrWearWearCount q a = u.fld Fld.cluArrWearWearCount q a +
          (if pulsed = true ∧ u.fld Fld.cluArrWearRowRem q a = 1023 then 1 else 0)) ∧
      (∀ k : StuckCell, k.col < 512 → k.level < 8 → pulsed = true →
        let other : Int := if k.plus then k.level - ws.getD k.col 0 else k.level + ws.getD k.col 0
        ∃ s', exec (.arrayRowProgram t q a row w pulses [k]) s = .next s' ∧ SameRows u s' ∧
          (∀ c, c < 512 → c ≠ k.col → cellWeight (s'.arr q a).cells row c = ws.getD c 0) ∧
          (if 0 ≤ other ∧ other ≤ 7 then
            s'.arrState q a = 1 ∧ cellWeight (s'.arr q a).cells row k.col = ws.getD k.col 0 ∧
            s'.fld Fld.cluArrStateStuckPairs q a = Nat.min (u.fld Fld.cluArrStateStuckPairs q a + 1)
              (2 ^ Fld.cluArrStateStuckPairs.width - 1)
           else s'.arrState q a = 5))) ∧
    (pulsed = true → u.codecLeave q = false → u.codecAsked q = false →
      ∃ s', exec (.arrayRowProgram t q a row w pulses []) s = .next s' ∧ SameRows u s' ∧ s'.arr q a = u.arr q a ∧
        ∃ r ∈ (s'.hub (q / 24)).arb.waiting, r.q = q ∧ r.cls = clsArray ∧ r.units = u.classDefault q clsArray ∧
          r.span = 16896 * u.beatTicks / 12 ∧ r.asked = u.now)

/-- The commands of external time. -/
def Obligations.TimeFollowsItsSource : Prop :=
  ∀ (t : Nat) (s : State),
    let u := s.at t
    let judged := fun (o : Int) (s' : State) =>
      s' = { u with regs := s'.regs, time := s'.time } ∧
      s'.fld Fld.timStatusOffsetNs 0 0 = ofSigned 32 (max (-2147483648) (min 2147483647 o)) ∧
      s'.time.goodSince = (if o.natAbs ≤ 100 then some (u.time.goodSince.getD u.now) else none) ∧
      s'.lock = (if 1000 < o.natAbs ∧ (u.lock = lockLocked ∨ u.time.mayStep = false) then lockHoldover
        else if u.lock = lockFree then lockAcquiring else u.lock)
    (u.timeSrc = 0 →
      let tai := if u.time.fresh then u.reg .timPpsTai 0 0 else u.reg .timPpsTai 0 0 + 1
      ∃ s', exec (.ppsEdge t) s = .next s' ∧ judged ((u.ns : Int) - (tai.toNat * 1000000000 : Nat)) s' ∧
        s'.reg .timPpsTai 0 0 = tai ∧ s'.time.fresh = false ∧ s'.time.lastEdge = some u.now ∧
        (if u.time.mayStep then s'.ns = tai.toNat * 1000000000 else s'.ns = u.ns)) ∧
    (u.timeSrc = 1 → u.ethernetUp (u.fld Fld.timSrcCtlPtpLink 0 0) = false → ∀ o, exec (.ptpSync t o) s = .next u) ∧
    (u.timeSrc = 1 → u.ethernetUp (u.fld Fld.timSrcCtlPtpLink 0 0) = true → ∀ o,
      ∃ s', exec (.ptpSync t o) s = .next s' ∧ judged o s' ∧ s'.time.lastSync = some u.now ∧
        s'.ns = (if u.time.mayStep then ((u.ns : Int) - o).toNat else u.ns)) ∧
    (∀ x, u.timeSrc ≠ 2 → u.lock ≠ lockLocked → u.sourceMissing = false → u.time.goodSince = some x →
      x + 8 * u.second ≤ u.now →
      ∃ s', exec (.timeLocked t) s = .next s' ∧ OnlyReg (Reg.timStatus.addr 0 0) u s' ∧ s'.lock = lockLocked) ∧
    (u.sourceMissing = true → u.lock ≠ lockFree →
      ∃ s', exec (.holdover t) s = .next s' ∧ s'.lock = lockHoldover ∧ s'.time = { u.time with goodSince := none } ∧
        s' = { u with regs := s'.regs, time := s'.time }) ∧
    (u.timeSrc = 0 → u.time.onBoard = false →
      ∃ s', exec (.referenceClockLoss t) s = .next s' ∧ s'.lock = lockHoldover ∧
        s'.time = { u.time with goodSince := none, onBoard := true } ∧ s' = { u with regs := s'.regs, time := s'.time })

/-- FOLD_ARM and FOLD_STOP. -/
def Obligations.FoldArmsAndStops : Prop :=
  ∀ (t f : Nat) (p : Path) (img : Option Image) (im : Image) (s : State), f < 256 →
    let u := s.at t
    let x := (u.configured f im true).2.takeEarly f
    let cfg := Reg.timFoldCfg.addr 0 f
    ((u.foldState f ≠ foldIdle ∨ u.armImage f img = none) →
      exec (.foldArm t p f img) s = .next (u.completes p cfg false)) ∧
    (u.foldState f = foldIdle → u.armImage f img = some im →
      ((u.configured f im true).1 = false ∨ u.shapeOk im = false ∨ x.exactOk f im = false ∨ x.blockOk f im = false) →
      exec (.foldArm t p f img) s = .next (u.completes p cfg false)) ∧
    (∀ partner, u.foldState f = foldIdle → u.armImage f img = some im → (u.configured f im true).1 = true →
      u.shapeOk im = true → x.exactOk f im = true → x.blockOk f im = true → x.multi f = true → x.mismatch f = some partner →
      exec (.foldArm t p f img) s =
        .next (((u.foldMismatch f partner).sendMarkerOn (x.blockPorts f) (x.blockTag f) f 2 0 0).completes p cfg false)) ∧
    (u.foldState f = foldIdle → u.armImage f img = some im → (u.configured f im true).1 = true → u.shapeOk im = true →
      x.exactOk f im = true → x.blockOk f im = true → (x.multi f = true → x.mismatch f = none) →
      ∃ s', exec (.foldArm t p f img) s = .next s' ∧ .access p cfg true ∈ s'.out ∧ s'.foldState f = foldArmed ∧ (s'.fold f).image = some im ∧
        (s'.fold f).phase = .idle ∧ s'.fld Fld.timFoldCfgEnable 0 f = 1 ∧ s'.time.mayStep = false ∧
        ∀ q j, q ∈ im.clusters → j < 48 → (s'.core (coreAddr q j)).pc = 0 ∧ (s'.core (coreAddr q j)).wait = .none ∧
          (s'.core (coreAddr q j)).faulted = false ∧ (s'.core (coreAddr q j)).issueAt = 0) ∧
    ((u.foldState f = foldArmed ∨ (u.foldState f = foldRunning ∧ (u.fold f).drained = true)) →
      ∃ s', exec (.foldStop t p f) s = .next s' ∧ s'.foldState f = foldIdle ∧ (s'.fold f).phase = .idle ∧
        ∀ c, clusterOf c ∈ u.foldClusters f → (s'.core c).wait = .none ∧ (s'.core c).mmaRun = none) ∧
    (u.foldState f = foldRunning → (u.fold f).drained = false →
      ∃ s' : State, exec (.foldStop t p f) s = .next (s'.completes p cfg true) ∧ s' = { u with regs := s'.regs } ∧
        s'.foldState f = foldStopping ∧
        s'.fld Fld.timFoldCfgEnable 0 f = 0)

/-- SWATH_OPEN, SWATH_RUN_START, STILE_RELEASE and SWATH_GUARD_START (R62, R69, R70, R158, R467, R470). How long a gated-off STILE
waits is the model's choice (log entry 108). -/
def Obligations.SwathOpensAndRuns : Prop :=
  ∀ (t f : Nat) (s : State), f < 256 →
    let u := s.at t
    let shaped := (u.foldClusters f).Nodup ∧ (u.foldClusters f).all validCluster = true
    (∀ im nb, (u.fold f).image = some im → (u.fold f).replacing = none → u.openBeat f = some nb →
      u.foldState f ≠ foldStopped → u.mayOpen f = true → u.frameUp (u.edgeTick nb) ≤ u.now →
      ∃ s', exec (.swathOpen t f) s = .next s' ∧ (s'.fold f).phase = .opened ∧
        (shaped → u.rebuilds.all (fun r => r.phys.all (fun g => decide (g < 4))) = true →
        (s'.fold f).swath = u.swathNumber f ((u.fold f).lateFor.getD nb) ∧ (s'.fold f).tick0 = u.frameUp (u.edgeTick nb) ∧
        (s'.fold f).drained = false ∧ (s'.fold f).gens = [] ∧ s'.foldState f = foldRunning ∧
        ∀ q, q ∈ im.clusters → (s'.cluster q).count = 0 ∧ (s'.cluster q).tags = [] ∧
          (s'.cluster q).tSwath = (u.cluster q).sensor / 8 ∧
          ∀ a, a < 32 → Map.wf Arr.reset (u.cluster q).arrays = true →
            (s'.arr q a).words = (u.arr q a).staged.getD (u.arr q a).words ∧ (s'.arr q a).staged = none)) ∧
    ((u.fold f).phase = .opened → (u.fold f).tick0 + 12 ≤ u.now →
      ∃ s', exec (.swathRunStart t f) s = .next s' ∧ (s'.fold f).phase = .run ∧
        (s'.fold f).release = (u.fold f).tick0 + 12 ∧ SameRows u s' ∧
        (shaped → ∀ q j, q ∈ u.foldClusters f → j < 48 → s'.core (coreAddr q j) =
          (u.core (coreAddr q j)).startSwath ((u.fold f).tick0 + 12) (u.fold f).swath ((u.fold f).guardEnd != 0))) ∧
    (∀ id x, id < 16 → (u.fold f).phase = .run → u.stileJoined f id = true → u.releaseTick f id = some x → x ≤ u.now →
      ∃ s', exec (.stileRelease t f id) s = .next s' ∧ SameRows u s' ∧
        (s'.fold f).phase = (if id = 0 then .drain else .run) ∧ (s'.fold f).release = x ∧
        Map.get 0 (s'.fold f).gens id = Map.get 0 (u.fold f).gens id + 1 ∧
        (shaped → (∀ c, s'.core c = if c ∈ u.stileSet f id ∧ (u.core c).faulted = false then
          { u.core c with wait := .none, issueAt := x } else u.core c) ∧
        ∀ q, (s'.cluster q).count = if q ∈ (u.stileSet f id).map clusterOf then
          Nat.min 65535 ((u.cluster q).count + 1) else (u.cluster q).count)) ∧
    (∀ id, id < 16 → (u.fold f).phase = .run → u.stileJoined f id = true →
      (u.releaseTick f id = none ∨ ∃ x, u.releaseTick f id = some x ∧ u.now < x) →
      exec (.stileRelease t f id) s = .next (u.tellJoin f id)) ∧
    (∀ id x, id < 16 → (u.fold f).phase = .run → u.stileJoined f id = false →
      u.releaseAfter f id (((u.offWaits f id).map Prod.snd).foldl Nat.max (Map.get 0 (u.fold f).lastJoin id)) = some x →
      x ≤ u.now →
      ∃ s', exec (.stileRelease t f id) s = .next s' ∧ s' = { u with cores := s'.cores } ∧
        ∀ c, s'.core c = if c ∈ (u.offWaits f id).map Prod.fst then
          { u.core c with wait := .none, waitOff := false, issueAt := x } else u.core c) ∧
    (u.foldState f = foldRunning → (u.fold f).phase = .drain → (u.fold f).drained = true →
      Nat.max (u.fold f).drainAt (u.nominalGuard f) ≤ u.now →
      let v := u.modFold f (fun x => { x with
        phase := .guard, guardEnd := Nat.max x.drainAt (u.nominalGuard f) + u.guardBeats f * u.beatTicks })
      ∃ s', exec (.swathGuardStart t f) s = .next s' ∧ s'.cores = u.cores ∧ (s'.fold f).phase = .guard ∧
        (s'.fold f).guardEnd = Nat.max (u.fold f).drainAt (u.nominalGuard f) + u.guardBeats f * u.beatTicks ∧
        ((∀ q, (u.cluster q).spoiled = []) → s' = v) ∧
        (∀ q a, (u.cluster q).spoiled.contains a = false → s'.row q a = u.row q a) ∧
        (shaped → ∀ c p a i w r, u.foldCopies f = [c] → c.tensors = [p] → p.scratch = some a → i < p.data.length →
          (u.cluster p.cluster).spoiled.contains (a + i) = true → u.rowWclass p.cluster (a + i) = true →
          u.rowRefused p.cluster (a + i) = false → (v.stackCopy p).1[i]? = some (some w) →
          (c.scratchRows p ((v.stackCopy p).1.map (·.getD 0)))[i]? = some r →
          s'.row p.cluster (a + i) = r ∧ (s'.cluster p.cluster).spoiled.contains (a + i) = false))

/-- SWATH_DRAIN_END, OUTPUT_ENTRY and STILE_TIMEOUT (R64 to R67, R385, R471, R472); of the first and the last, the case that the
module is in its active low-power state, in which no entry to Standby waits for them. -/
def Obligations.SwathEnds : Prop :=
  ∀ (t f : Nat) (s : State), f < 256 →
    let u := s.at t
    let active := (u.foldClusters f).all validCluster = true ∧ u.lpState = lpActive
    (∀ ms, u.mayDrain f = true → u.foldState f = foldRunning → u.multi f = true →
      u.markersOf f 1 (fun m => m.swath == (u.fold f).swath) = some ms →
      ∃ s', exec (.swathDrainEnd t f) s = .next s' ∧ (active → (s'.fold f).phase = .drain ∧
        (s'.fold f).drained = true ∧
        (s'.fold f).swath = (u.fold f).swath ∧ s'.fld Fld.timFoldStatLastSwath 0 f = (u.fold f).swath % 2 ^ 32)) ∧
    (u.mayDrain f = true → u.foldState f = foldRunning → u.multi f = true →
      u.markersOf f 1 (fun m => m.swath == (u.fold f).swath) = none →
      (u.fold f).relayed.contains (u.ownCoord, 1, (u.fold f).swath, 0, 0) = false →
      ∃ s', exec (.swathDrainEnd t f) s = .next s' ∧ (active → (s'.fold f).drained = false ∧ (s'.fold f).drainAt = u.now ∧
        s'.cores = u.cores ∧ SameRows u s' ∧ .marker f 1 0 0 (u.fold f).swath u.ns ∈ s'.out ∧
        (s'.fold f).relayed.contains (u.ownCoord, 1, (u.fold f).swath, 0, 0) = true)) ∧
    (u.multi f = false → u.mayDrain f = true → u.foldState f = foldRunning →
      ∃ s', exec (.swathDrainEnd t f) s = .next s' ∧ (active → (s'.fold f).phase = .drain ∧ (s'.fold f).drained = true ∧
        (s'.fold f).drainAt = u.now ∧ (s'.fold f).swath = (u.fold f).swath ∧
        s'.fld Fld.timFoldStatLastSwath 0 f = (u.fold f).swath % 2 ^ 32 ∧
        s'.fld Fld.timFoldStatLastDrainTick 0 f = Nat.min (u.now - (u.fold f).tick0) (2 ^ 27 - 1) ∧
        (if u.nominalGuard f < u.now then
          let nb := u.boundaryFrom f (u.beatFrom (u.now + u.guardBeats f * u.beatTicks))
          (s'.fold f).nextBeat = nb ∧
          (s'.fold f).late = (u.fld Fld.timFoldCfgLagPolicy 0 f == 0) ∧
          (s'.fold f).failed = (u.fld Fld.timFoldCfgLagPolicy 0 f == 1) ∧
          s'.fld Fld.timFoldCntOverrunCount 0 f = Nat.min (u.fld Fld.timFoldCntOverrunCount 0 f + 1) (2 ^ 32 - 1) ∧
          s'.fld Fld.timFoldCntSkippedCount 0 f = Nat.min (u.fld Fld.timFoldCntSkippedCount 0 f +
            ((nb - (u.fold f).edgeBeat) / u.period f - 1)) (2 ^ 32 - 1)
         else (s'.fold f).nextBeat = (u.fold f).edgeBeat + u.period f ∧ (s'.fold f).late = (u.fold f).late))) ∧
    (∀ ep streams swath late bad, ep < 4096 → (u.fold f).owed.find? (fun o => o.1 == ep) = some (ep, streams, swath, late) →
      (u.endpoint ep).attached = true →
      ∃ s' x, exec (.outputEntry t f ⟨ep, bad⟩) s = .next s' ∧ .entry ep x ∈ s'.out ∧ x.kind = 4 ∧
        x.status = (if late then stLate else stOk) ∧ x.swath = swath ∧
        x.value = streams - (bad.filter (fun g => (u.entry g).fold == f)).length ∧
        (bad = [] → x.c = (u.endpoint ep).nextCmp) ∧
        (s'.fold f).owed = (u.fold f).owed.filter (fun o => !(o.1 == ep && o.2.2.1 == swath))) ∧
    (u.isTimedOut f = true →
      ∃ s', exec (.stileTimeout t f) s = .next s' ∧ (active → s'.foldState f = foldStopped ∧ (s'.fold f).phase = .idle ∧
        (s'.fold f).batch = [] ∧
        ((0x5012, 2, hubAddr (u.rootLea f)) ∈ (s'.fold f).recorded) ∧
        ∀ b i, (u.fold f).batch = [b] → b.status = none → (u.entry b.entry).state = eRunning → (u.entry b.entry).gen = b.gen →
          u.draftOf b.entry = none → u.item b.ep b.seq = some i → (u.endpoint b.ep).attached = true →
          (u.endpoint b.ep).mayFinish i = true →
          u.behindOutput b.ep { i with fin := some (stFault, (u.fold f).swath, i.handle) } = false →
          ∃ x, .entry b.ep x ∈ s'.out ∧ x.kind = 2 ∧ x.status = stFault ∧ x.seq = i.seq))

/-- LEAVE_REQUEST_PLACE, GRANT_START and GRANT_SPAN_END. -/
def Obligations.LeaveIsPlaced : Prop :=
  ∀ (t n : Nat) (s : State), n < 64 →
    let u := s.at t
    ((∀ r ∈ (u.hub n).arb.waiting, u.placeAt n r = none) → exec (.leaveRequestPlace t n) s = .next u) ∧
    (∀ a b, (u.hub n).arb.waiting = [a, b] →
      let first := if b.before a then b else a
      let last := if b.before a then a else b
      u.nextPlace n = match u.placeAt n first with
        | some x => some (first, x)
        | none => (u.placeAt n last).map (fun x => (last, x))) ∧
    (∀ r x, u.nextPlace n = some (r, x) → r ∈ (u.hub n).arb.waiting ∧ u.placeAt n r = some x ∧
      ∃ s', exec (.leaveRequestPlace t n) s = .next s' ∧
        (s'.hub n).arb.waiting = (u.hub n).arb.waiting.filter (fun w => w.id != r.id) ∧
        (s'.hub n).arb.placed = (u.hub n).arb.placed ++ [r.grant (u.capUnits r) x] ∧
        (∀ m, m ≠ n → (s'.hub m).arb = (u.hub m).arb) ∧ SameRows u s' ∧ s'.cores = u.cores) ∧
    (∀ g x, (u.grants n).find? (fun x => x.id == g) = some x → x.start ≤ u.now → x.begun = false →
      x.q / 24 = n → validCluster x.q = true →
      ∃ s', exec (.grantStart t n g) s = .next s' ∧ SameRows u s' ∧
        (s'.hub n).arb.placed = (u.hub n).arb.placed.map (fun h => if h.id == x.id then { h with begun := true } else h) ∧
        (∀ c, c ∈ maskCores x.q x.mask → (u.core c).wait = .leave x.cls → u.oldestLeave c x.cls = some x.id →
          (s'.core c).wait = .none ∧ (s'.core c).issueAt = u.now) ∧
        (∀ c, ¬ c ∈ maskCores x.q x.mask → s'.core c = u.core c) ∧
        (x.cls = clsPowerOn → x.bank = none → s'.domain x.q = domRamping) ∧
        s'.fld Fld.cluPwrStateThrottle x.q 0 = s'.throttleLevel x.q) ∧
    (∀ g x, (u.grants n).find? (fun x => x.id == g) = some x → x.cls ≠ clsPowerOn → x.ends ≤ u.now →
      x.q / 24 = n → validCluster x.q = true →
      ∃ s', exec (.grantSpanEnd t n g) s = .next s' ∧ SameRows u s' ∧ s'.cores = u.cores ∧
        (s'.hub n).arb.placed = (u.hub n).arb.placed.filter
          (fun h => h.id == x.id || !h.isOver (u.now - u.sampleTicks)) ∧
        (x.cls ≠ clsLinkWake → s'.fld Fld.cluPwrStateThrottle x.q 0 = s'.throttleLevel x.q) ∧
        ∀ l, x.cls = clsLinkWake → x.bank = some l → (s'.linkOf l).idled = false)

/-- SLOT_LAUNCH and ROUTER_ROW. That a held row takes cells of the fold whose frame the router counts, and what becomes of a row
that the hold buffer has no room for, are the model's choices (log entries 130 and 131). -/
def Obligations.RowsCrossTheMesh : Prop :=
  ∀ (t pkt : Nat) (p : Packet) (s : State),
    let u := s.at t
    Map.find u.packets pkt = some p →
    (∀ x, p.timed = true → p.row.isSome = true → p.launch = some x → x ≤ u.now →
      ∃ s', exec (.slotLaunch t pkt) s = .next s' ∧ s' = { u with packets := s'.packets } ∧
        Map.find s'.packets pkt = some { p with entered := x, launch := none } ∧
        ∀ i, i ≠ pkt → Map.find s'.packets i = Map.find u.packets i) ∧
    let kept := fun (o : Nat) => (neighbour p.tile o).any (fun y => o != 4 && !u.roomAt y o p)
    (p.atPort = false → p.entered ≤ u.now → p.launch = none → (p.row.isSome = true ∨ p.kind ≠ .slot) →
      ((p.route = none ∨ p.out.isSome = true ∨ p.via ≠ []) →
        (∀ o, u.way p = .port o → u.mayLeave pkt p o = true →
          ∃ s', exec (.routerRow t pkt) s = .next s' ∧ SameRows u s' ∧
            Map.get 0 (s'.router p.tile).cells (rsvIndex o p.plane) = u.now + 8 ∧
            (u.timedAt p = false → Map.get 4 (s'.router p.tile).served (turnKey o p.plane p.kind.vc) = p.inPort) ∧
            (u.timedAt p = true → (s'.router p.tile).served = (u.router p.tile).served) ∧
            (neighbour p.tile o = none →
              Map.find s'.packets pkt = some { p with entered := u.now, atPort := true, held := false }) ∧
            ∀ y, neighbour p.tile o = some y → ∃ p', Map.find s'.packets pkt = some p' ∧ p'.tile = y ∧
              p'.hops = p.hops + 1 ∧ p'.entered = u.now + 8 ∧ p'.via = p.via.drop 1 ∧ p'.row = p.row ∧
              p'.atPort = false) ∧
        (∀ o, u.way p = .port o → u.mayLeave pkt p o = false →
          (u.timedAt p = false ∨ p.held = true ∨ (u.losesCell pkt o p = false ∧ kept o = false) ∨
            u.holdRoom p.tile p.plane = false) → exec (.routerRow t pkt) s = .next u) ∧
        (∀ o, u.way p = .port o → u.mayLeave pkt p o = false → u.timedAt p = true → p.held = false →
          (u.losesCell pkt o p = true ∨ kept o = true) → u.holdRoom p.tile p.plane = true →
          ∃ s', exec (.routerRow t pkt) s = .next s' ∧ SameRows u s' ∧
            Map.find s'.packets pkt = some { p with held := true } ∧ (s'.router p.tile).hold = (u.router p.tile).hold ++ [pkt]) ∧
        (∀ l, u.way p = .around l →
          ∃ s' p', exec (.routerRow t pkt) s = .next s' ∧ s' = { u with packets := s'.packets } ∧
            Map.find s'.packets pkt = some p' ∧ p'.timed = false ∧ p'.via = l ∧ p'.tile = p.tile ∧ p'.row = p.row ∧
            p'.detour = (p.detour || p.timed)) ∧
        (u.way p = .none → pkt < u.nextTag → p.fold ≠ noFold →
          ∃ s', exec (.routerRow t pkt) s = .next s' ∧ SameRows u s' ∧ Map.find s'.packets pkt = none ∧
            (s'.fold p.fold).batch = markAt stFault (u.itemsOf p.fold p.srcCore) 0 (u.fold p.fold).batch)) ∧
      (∀ e, p.route = some e → p.out = none → p.via = [] → u.onTree p e = false →
        ∃ s', exec (.routerRow t pkt) s = .next s' ∧ SameRows u s' ∧ Map.find s'.packets pkt = none ∧
          (s'.fold p.fold).batch = markAt stFault (u.itemsOf p.fold p.srcCore) 0 (u.fold p.fold).batch))

/-- TIMED_ROW_ARRIVAL and ROUTER_PORT_ARRIVAL (R144, R151, R266, R276, R284, R303). -/
def Obligations.RowsArrive : Prop :=
  ∀ (t pkt q : Nat) (p : Packet) (s : State),
    let u := s.at t
    let row := p.first + p.index
    let atPort := fun (id i x : Nat) (data : Option (Nat × Row)) =>
      (⟨.routerElastic, x, u.portEdge q u.now, .port id i data, p.fold, p.srcCore, false⟩ : Access)
    let turnedAway := fun (i : Instr) => ∃ s', exec i s = .next s' ∧ SameRows u s' ∧ Map.find s'.packets pkt = none ∧
      (s'.cluster q).access = (u.cluster q).access ∧
      (s'.fold p.fold).batch = markAt stFault (u.itemsOf p.fold p.srcCore) 0 (u.fold p.fold).batch
    Map.find u.packets pkt = some p → p.atPort = true → validTile p.tile = true → pkt < u.nextTag →
    (u.portFirst pkt p = false → exec (.timedRowArrival t pkt) s = .next u ∧ exec (.routerPortArrival t pkt) s = .next u) ∧
    (u.portFirst pkt p = true →
    (∀ r, p.timed = true → p.kind = .slot → clusterOfTile p.tile = some q → p.row = some r →
      (u.judgeArrival p.fold q p.first p.count = .admitted →
        ∃ s', exec (.timedRowArrival t pkt) s = .next s' ∧ SameRows u s' ∧ Map.find s'.packets pkt = none ∧
          (s'.cluster q).access = (u.cluster q).access ++ [⟨.routerTimed, row, u.arrivalEdge p, .write 48 r,
            p.fold, p.srcCore, false⟩]) ∧
      (u.judgeArrival p.fold q p.first p.count ≠ .admitted → p.index = 0 → turnedAway (.timedRowArrival t pkt))) ∧
    (p.timed = false → clusterOfTile p.tile = some q →
      (∀ r, p.kind = .slot → p.row = some r → u.judgeArrival p.fold q p.first p.count = .admitted →
        ∃ s', exec (.routerPortArrival t pkt) s = .next s' ∧ SameRows u s' ∧ Map.find s'.packets pkt = none ∧
          (s'.cluster q).access = (u.cluster q).access ++ [atPort pkt 0 row (some (48, r))] ∧
          Map.find (s'.cluster q).port pkt = some ⟨.slot p.srcCore (if p.detour then some row else none), 1, 1, []⟩) ∧
      (∀ r, p.kind = .queueWrite → p.row = some r → p.index = 0 → u.judgeArrival p.fold q p.first p.count = .admitted →
        ∃ s', exec (.routerPortArrival t pkt) s = .next s' ∧ SameRows u s' ∧ Map.find s'.packets pkt = none ∧
          (s'.cluster q).access = (u.cluster q).access ++ [atPort p.tag 0 row (some (48, r))] ∧
          Map.find (s'.cluster q).port p.tag = some ⟨.write p.srcCore p.srcK p.fold, p.count, p.count, []⟩) ∧
      (∀ r, p.kind = .queueWrite → p.row = some r → p.index ≠ 0 → (Map.find (u.cluster q).port p.tag).isSome = true →
        ∃ s', exec (.routerPortArrival t pkt) s = .next s' ∧ SameRows u s' ∧ Map.find s'.packets pkt = none ∧
          (s'.cluster q).access = (u.cluster q).access ++ [atPort p.tag p.index row (some (48, r))] ∧
          (s'.cluster q).port = (u.cluster q).port) ∧
      (p.kind = .queueRead → u.judgeArrival p.fold q p.first p.count = .admitted →
        ∃ s', exec (.routerPortArrival t pkt) s = .next s' ∧ SameRows u s' ∧ Map.find s'.packets pkt = none ∧
          (s'.cluster q).access = (u.cluster q).access ++
            (List.range p.count).map (fun i => atPort p.tag i (p.first + i) none) ∧
          Map.find (s'.cluster q).port p.tag = some ⟨.read p.srcCore p.srcK p.fold, p.count, p.count, []⟩) ∧
      ((p.kind = .slot ∨ p.kind = .queueWrite ∨ p.kind = .queueRead) → p.index = 0 →
        u.judgeArrival p.fold q p.first p.count ≠ .admitted → turnedAway (.routerPortArrival t pkt)) ∧
      (∀ r, p.kind = .result false → p.row = some r → u.judgeArrival p.fold q p.first p.count = .admitted →
        ∃ s', exec (.routerPortArrival t pkt) s = .next s' ∧ SameRows u s' ∧ Map.find s'.packets pkt = none ∧
          (s'.cluster q).access = (u.cluster q).access ++ [atPort u.nextTag 0 row (some (49, r))] ∧
          Map.find (s'.cluster q).port u.nextTag = some ⟨.result p.srcCore p.tag p.fold none, 1, 1, []⟩) ∧
      (let back := (u.queue (clusterOf p.srcCore) p.srcK).back
       (u.requestOf p).isSome = true →
        (p.kind = .back →
          ∃ s', exec (.routerPortArrival t pkt) s = .next s' ∧ SameRows u s' ∧ Map.find s'.packets pkt = none ∧
            (s'.queue (clusterOf p.srcCore) p.srcK).back = addAnswer ⟨p.tag, [⟨p.row⟩], none⟩ back) ∧
        (p.kind = .ack →
          ∃ s', exec (.routerPortArrival t pkt) s = .next s' ∧ SameRows u s' ∧ Map.find s'.packets pkt = none ∧
            (s'.queue (clusterOf p.srcCore) p.srcK).back = addAnswer ⟨p.tag, [], none⟩ back))) ∧
    (∀ a, p.timed = false → clusterOfTile p.tile = none → p.kind = .operand a →
      (u.hub (leaOfTile p.tile)).arriving.any
        (fun c => c.core == p.srcCore && c.number == p.tag && c.asked.contains a) = true →
      ∃ s', exec (.routerPortArrival t pkt) s = .next s' ∧ Map.find s'.packets pkt = none ∧ SameRows u s' ∧
        s'.hub (leaOfTile p.tile) = { u.hub (leaOfTile p.tile) with
          fetched := (u.hub (leaOfTile p.tile)).fetched ++ [⟨p.srcCore, p.tag, a, p.row⟩] }) ∧
    (∀ r, p.timed = false → clusterOfTile p.tile = none → u.requestOf p = some r →
      (∀ id off, remoteOf r.addr ≠ .window id off) →
      (p.kind = .queueRead ∨ (p.kind = .queueWrite ∧ p.index + 1 = p.count)) →
      ∃ s', exec (.routerPortArrival t pkt) s = .next s' ∧ Map.find s'.packets pkt = none ∧ SameRows u s' ∧
        (s'.dram (leaOfTile p.tile)).remote =
          (u.dram (leaOfTile p.tile)).remote ++ [⟨.queue (clusterOf p.srcCore) p.srcK, r⟩] ∧
        ∀ n, n ≠ leaOfTile p.tile → s'.dram n = u.dram n))

/-- QUEUE_RETURN and WRITE_ACKNOWLEDGEMENT. -/
def Obligations.QueueAnswersLand : Prop :=
  ∀ (t q k : Nat) (r : QReq) (s : State), validCluster q = true → k < 16 →
    let u := s.at t
    (∀ a w more others, (u.queue q k).oldestRead = some r → r.role ≠ 2 →
      takeFirst (fun (a : Answer) => a.tag == r.tag) (u.queue q k).back = some (a, others) → a.rows = w :: more →
      ∃ s', exec (.queueReturn t q k) s = .next s' ∧ SameRows u s' ∧
        (s'.queue q k).inb = (if (u.core r.core).faulted = true then (u.queue q k).inb else (u.queue q k).inb ++ [w]) ∧
        (s'.queue q k).owed = (u.queue q k).owed - 1 ∧ (s'.queue q k).reqs = (u.queue q k).reqs ∧
        (s'.queue q k).back = (if more.isEmpty then others else { a with rows := more } :: others) ∧
        (s'.queue q k).flight = (if r.n ≤ r.got + 1 then (u.queue q k).flight.erase r
          else (u.queue q k).flight.map (fun x => if x == r then { r with got := r.got + 1 } else x)) ∧
        ∀ c n d, u.queueOwner q k = some c → (u.core c).wait = .rows k n d → (u.core c).waitOff = false →
          (u.core r.core).faulted = false →
          (if n ≤ (u.queue q k).inb.length + 1 then (s'.core c).wait = .none ∧ (s'.core c).issueAt = u.now + 1 ∧
            (d ≠ 0 → (s'.files c).s d = BitVec.ofNat 64 ((u.queue q k).inb.length + 1)) else s'.core c = u.core c)) ∧
    (∀ rest, takeFirst (fun (r : QReq) => r.write && (u.queue q k).back.any (fun a => a.tag == r.tag)) (u.queue q k).flight =
        some (r, rest) →
      (∀ x w row, (u.queue q k).reqs = [w] → w.write = true → remoteOf w.addr = .cluster x row →
        rest.all (fun y => !y.write) = true →
        ∃ s', exec (.writeAcknowledgement t q k) s = .next s' ∧ SameRows u s' ∧ (s'.queue q k).reqs = [] ∧
          (s'.queue q k).flight = rest ++ [w]) ∧
      ((u.queue q k).reqs.all (ownStack q) = true → ∃ s', exec (.writeAcknowledgement t q k) s = .next s' ∧ SameRows u s' ∧ (s'.queue q k).flight = rest ∧
        (s'.queue q k).outb = (u.queue q k).outb - r.n ∧ (s'.queue q k).inb = (u.queue q k).inb ∧
        (s'.queue q k).back = (u.queue q k).back.filter (fun a => a.tag != r.tag) ∧
        ∀ d, (u.core r.core).wait = .acks k d → (u.core r.core).waitOff = false →
          (if s'.hasWrites q k r.core = true then s'.core r.core = u.core r.core
           else (s'.core r.core).wait = .none ∧ (s'.core r.core).issueAt = u.now + 1 ∧
            (d ≠ 0 → (s'.files r.core).s d = 0))))

/-- STACK_REQUEST_ADMIT (R108, R300, R303, R304, R316), for the requests of queue pairs, of links and of the engines of other
leas. -/
def Obligations.StackServesRequests : Prop :=
  ∀ (t n : Nat) (x : StackReq) (v : State) (s : State), n < 64 →
    let u := s.at t
    let a := getBits x.req.addr 9 28
    let f := u.requestFold x
    let sent := fun (s' : State) (i : Nat) (p : Packet) => Map.find s'.packets (u.nextTag + i) = some p
    let failed := fun (s' : State) => ∀ g, f = some g →
      (s'.fold g).batch = markAt stFault (u.itemsOf g x.serves) 0 (u.fold g).batch
    let row := fun (i : Nat) => some (Map.get 0 (u.dram n).rows (a + i))
    ((u.dram n).left ≠ 0 ∨ (u.dram n).turn = 0) → u.takeFrom n (u.dram n).turn = some (x, v) →
    ¬ (u.stackState n = stackSelfRefresh ∧ (u.dram n).exitAt.isSome = true) →
    ∃ s', exec (.stackRequestAdmit t n) s = .next s' ∧ SameRows u s' ∧
      (s'.dram n).turn = (if 1 < (u.dram n).left then (u.dram n).turn else ((u.dram n).turn + 1) % 26) ∧
      (∀ m, m ≠ n → s'.dram m = u.dram m) ∧
      ((u.stackState n ≠ stackActive ∨ u.stackAdmits n x = false) → failed s' ∧ SameDram u s') ∧
      (u.stackState n = stackActive → u.stackAdmits n x = true → x.req.write = true →
        ∀ b, Map.get 0 (s'.dram n).rows b = if a ≤ b ∧ b < a + x.req.data.length then x.req.data.getD (b - a) 0
          else Map.get 0 (u.dram n).rows b) ∧
      (u.stackState n = stackActive → u.stackAdmits n x = true → x.req.write = false → SameDram u s') ∧
      (∀ q k, x.source = .queue q k →
        let answer := fun (kind : PacketKind) =>
          meshPacket kind (agentAddr q) k (f.getD 0) (hubTile n) (tileOf (clusterOf (agentAddr q))) x.req.tag u.now
        u.stackAdmits n x = u.reachesRows n f x.req.write a x.req.n ∧
        ((u.stackState n ≠ stackActive ∨ u.stackAdmits n x = false) → sent s' 0 (answer (.refusal 0))) ∧
        (u.stackState n = stackActive → u.stackAdmits n x = true → x.req.write = true → sent s' 0 (answer .ack)) ∧
        (u.stackState n = stackActive → u.stackAdmits n x = true → x.req.write = false →
          (u.dram n).err = [] → (u.dram n).failedDies = [] →
          ∀ i, i < x.req.n → sent s' i { answer .back with index := i, count := x.req.n, row := row i })) ∧
      (∀ tag tr, x.source = .link tag → u.transit tag = some tr →
        let answer := fun (kind : PacketKind) => linkPacket kind tag tr (hubTile n) (hubTile tr.lea) u.now
        u.stackAdmits n x = u.reachesRows n f x.req.write a x.req.n ∧
        ((u.stackState n ≠ stackActive ∨ u.stackAdmits n x = false) → sent s' 0 (answer (.linkRefusal 0))) ∧
        (u.stackState n = stackActive → u.stackAdmits n x = true → x.req.write = true → sent s' 0 (answer .linkAck)) ∧
        (u.stackState n = stackActive → u.stackAdmits n x = true → x.req.write = false →
          (u.dram n).err = [] → (u.dram n).failedDies = [] →
          ∀ i, i < x.req.n → sent s' i { answer .linkBack with index := i, count := x.req.n, row := row i })) ∧
      (∀ m core number g, x.source = .engine m core number g → m ≠ n → u.stackState n = stackActive →
        u.stackAdmits n x = true → x.req.write = false → 0 < x.req.n → (u.dram n).err = [] → (u.dram n).failedDies = [] →
        sent s' 0 { meshPacket (.operand x.req.addr) core 0 g (hubTile n) (hubTile m) number u.now with row := row 0 })

/-- STACK_REFRESH, STACK_TEMPERATURE_READ, STACK_SCRUB and SELF_REFRESH_EXIT. The places of the symbols of a weight-class codeword
are the model's (log entry 134). -/
def Obligations.StackKeepsItsRows : Prop :=
  ∀ (t n : Nat) (s : State), n < 64 →
    let u := s.at t
    (∀ bank, u.stackState n = stackActive →
      ∃ s', exec (.stackRefresh t n bank) s = .next s' ∧ OnlyStack n u s' ∧ SameDram u s' ∧
        Map.find (s'.dram n).busy bank = some (u.now + u.beatTicks / 5)) ∧
    (∀ temps, ∃ s', exec (.stackTemperatureRead t n temps) s = .next s' ∧ SameDram u s' ∧ (s'.dram n).temps = temps ∧
      s' = { u with regs := s'.regs, drams := s'.drams } ∧
      s'.fld Fld.hubStkStatusTemp n 0 = maxOf temps % 2 ^ Fld.hubStkStatusTemp.width ∧
      s'.fld Fld.hubStkStatusHotRefresh n 0 = (if 85 ≤ maxOf temps then 1
        else if maxOf temps < 82 ∧ (u.dram n).sensorDead = false then 0 else u.fld Fld.hubStkStatusHotRefresh n 0)) ∧
    (∀ row i, u.stackState n = stackActive → u.regionOf n row = some i →
      let k := u.coded n row
      (k.bad = [] → k.beyond = [] → k.fixed ≠ [] →
        ∃ s', exec (.stackScrub t n row) s = .next s' ∧ SameDram u s' ∧ Map.find (s'.dram n).err row = none ∧
          (s'.dram n).scrubbed = row ∧ s'.fld Fld.hubStkEccCorrectedCount n 0 =
            Nat.min (u.fld Fld.hubStkEccCorrectedCount n 0 + 1) (2 ^ Fld.hubStkEccCorrectedCount.width - 1)) ∧
      (k.bad ≠ [] →
        ∃ s', exec (.stackScrub t n row) s = .next s' ∧ SameDram u s' ∧
          s'.fld Fld.hubStkLastErrRow n 0 = row % 2 ^ Fld.hubStkLastErrRow.width ∧
          s'.fld Fld.hubStkEccUncorrectedCount n 0 =
            Nat.min (u.fld Fld.hubStkEccUncorrectedCount n 0 + 1) (2 ^ Fld.hubStkEccUncorrectedCount.width - 1)) ∧
      (k = ⟨[], [], []⟩ →
        ∃ s', exec (.stackScrub t n row) s = .next s' ∧ OnlyStack n u s' ∧ s'.dram n = { u.dram n with scrubbed := row })) ∧
    (∀ row, (u.stackState n ≠ stackActive ∨ u.regionOf n row = none) → exec (.stackScrub t n row) s = .next u) ∧
    (∀ x, u.stackState n = stackSelfRefresh → (u.dram n).exitAt = some x → x + 10 * u.beatTicks ≤ u.now →
      ∃ s', exec (.selfRefreshExit t n) s = .next s' ∧ SameDram u s' ∧ s'.stackState n = stackActive ∧
        (s'.dram n).exitAt = none ∧ s' = { u with regs := s'.regs, drams := s'.drams })

/-- REGION_DESCRIPTOR_WRITE and REGION_CLEAR. -/
def Obligations.RegionDescriptorsKeepTheirRules : Prop :=
  ∀ (t n i : Nat) (p : Path) (v : Word) (s : State), n < 64 → i < 64 →
    let u := s.at t
    let w := regionKeep true v
    let cleared := setBits (u.reg .hubStkRegionCfg n i) Fld.hubStkRegionCfgValid.lo 1 0
    let span := Reg.hubStkRegion.addr n i
    let cfg := Reg.hubStkRegionCfg.addr n i
    (u.regionValid n i = false →
      ∃ s' : State, exec (.regionDescriptorWrite t p n i false v) s = .next (s'.completes p span true) ∧ OnlyReg (Reg.hubStkRegion.addr n i) u s' ∧
        s'.reg .hubStkRegion n i = regionKeep false v) ∧
    (u.regionValid n i = false →
      (getBits w Fld.hubStkRegionCfgValid.lo 1 = 0 ∨ u.regionFits n i (u.reg .hubStkRegion n i) w = true) →
      ∃ s' : State, exec (.regionDescriptorWrite t p n i true v) s = .next (s'.completes p cfg true) ∧ OnlyReg (Reg.hubStkRegionCfg.addr n i) u s' ∧
        s'.reg .hubStkRegionCfg n i = w) ∧
    (u.regionValid n i = false → getBits w Fld.hubStkRegionCfgValid.lo 1 ≠ 0 →
      u.regionFits n i (u.reg .hubStkRegion n i) w = false →
      exec (.regionDescriptorWrite t p n i true v) s = .next (u.completes p cfg false)) ∧
    (u.regionValid n i = true → exec (.regionDescriptorWrite t p n i false v) s = .next (u.completes p span false)) ∧
    (u.regionValid n i = true → w ≠ cleared →
      exec (.regionDescriptorWrite t p n i true v) s = .next (u.completes p cfg false)) ∧
    (u.regionValid n i = true → u.regionClears p n i = false →
      exec (.regionClear t p n i) s = .next (u.completes p cfg false)) ∧
    (u.regionValid n i = true → u.regionClears p n i = true → regionKeep true cleared = cleared →
      ∃ s' : State, exec (.regionClear t p n i) s = .next (s'.completes p cfg true) ∧ OnlyReg (Reg.hubStkRegionCfg.addr n i) u s' ∧
        s'.regionValid n i = false)

/-- ENGINE_CALL_ADMIT and ENGINE_CALL_COMPLETE (R266, R280, R319 to R324): the engine asks for the block row of a call, admits
the call once that row is there, and sends the rows of its answer to its cluster, the block row last. How an engine asks is the
model's choice (log entry 133). -/
def Obligations.EngineCallsEnterAndEnd : Prop :=
  ∀ (t n e : Nat) (c : EngCall) (s : State), n < 64 → engineOk e = true → validCore c.core = true → c.at0 < 65536 →
    let u := s.at t
    let h := u.hub n
    let a := clusterWord c.q c.at0
    let came := h.fetched.find? (fun x => x.core == c.core && x.number == c.number && x.addr == a)
    let row := fun (last : Bool) (first i k : Nat) (r : Row) =>
      { meshPacket (.result last) c.core 1 c.fold (hubTile n) (tileOf c.q) c.number u.now with
        first := first, index := i, count := k, row := some r }
    (h.arriving.find? (fun c => c.engine == e) = some c →
      (came = none → c.asked.contains a = false → c.hub = n → u.judgeArrival c.fold c.q c.at0 1 = .admitted →
        ∃ s', exec (.engineCallAdmit t n e) s = .next s' ∧ SameRows u s' ∧
          (s'.hub n).arriving = h.arriving.map (fun x => if x == c then { x with asked := [a] } else x) ∧
          (s'.hub n).engines = h.engines ∧
          (s'.cluster c.q).access = (u.cluster c.q).access ++ [⟨.routerElastic, c.at0, u.portEdge c.q u.now,
            .port u.nextTag 0 none, c.fold, c.core, false⟩] ∧
          Map.find (s'.cluster c.q).port u.nextTag =
            some ⟨.operand n c.core c.number c.fold a (c.engine == 8), 1, 1, []⟩) ∧
      (came = none → c.asked.contains a = true → exec (.engineCallAdmit t n e) s = .next u) ∧
      (∀ x, came = some x →
        let c' := { c with block := x.row.getD (u.row c.q c.at0), admitted := u.now, server := c.engine, asked := [] }
        ∃ s', exec (.engineCallAdmit t n e) s = .next s' ∧ SameRows u s' ∧ (s'.hub n).arriving = h.arriving.erase c ∧
          (if (queueLimit c.engine).any (fun k => decide (k ≤ (u.calls n (queueKey c.engine)).length)) = true then
            s'.calls n (queueKey c.engine) = u.calls n (queueKey c.engine) ∧
            (c.steward = false → u.knowsCall c = true →
              Map.find s'.packets u.nextTag = some (row true c.at0 0 1 (c'.closed (emptyReply egBusy) u.now)))
           else
            let st := if h.stopped = true ∧ c.engine ≠ 5 ∧ c.engine ≠ 8 then some egFault
              else if x.row = none then some egMemory else u.blockStatus n c'
            s'.calls n (queueKey c.engine) = u.calls n (queueKey c.engine) ++
              [{ c' with reply := st.map emptyReply, early := st.isSome }]))) ∧
    (∀ r parity, u.repliedCall n e = some (c, r) → c.steward = false → u.knowsCall c = false →
      ∃ s', exec (.engineCallComplete t n e parity) s = .next s' ∧ SameRows u s' ∧ s'.packets = u.packets ∧
        s'.calls n (queueKey e) = (u.calls n (queueKey e)).filter (fun x => !sameCall x c)) ∧
    (∀ r parity, u.repliedCall n e = some (c, r) → c.steward = false → u.knowsCall c = true →
      let r' := if parity then emptyReply egFault else r
      let k := r'.result.length
      let j := r'.state.length
      ∃ s', exec (.engineCallComplete t n e parity) s = .next s' ∧ SameRows u s' ∧
        s'.calls n (queueKey e) = (u.calls n (queueKey e)).filter (fun x => !sameCall x c) ∧
        (c.engine ≠ 8 →
          (∀ i, i < k → Map.find s'.packets (u.nextTag + i) = some (row false r'.at0 i k (r'.result.getD i 0))) ∧
          (∀ i, i < j → Map.find s'.packets (u.nextTag + k + i) = some (row false r'.stateAt i j (r'.state.getD i 0))) ∧
          Map.find s'.packets (u.nextTag + k + j) = some (row true c.at0 0 1 (c.closed r' u.now))) ∧
        (c.engine = 8 → r'.result = [] → r'.state = [] →
          (u.cluster c.q).port.any (fun e => e.2.results c.core c.number false || e.2.results c.core c.number true) = false →
          (s'.cluster c.q).access = (u.cluster c.q).access ++ [⟨.routerElastic, c.at0, u.portEdge c.q u.now,
            .port u.nextTag 0 (some (49, c.closed r' u.now)), c.fold, c.core, false⟩]) ∧
        (s'.fold c.fold).batch = (match egItems r'.status with
          | some st => markAt st (u.itemsOf c.fold c.core) 0 (u.fold c.fold).batch
          | none => (u.fold c.fold).batch))

/-- FEATURES, ENCODE and DECODE, for calls whose rows can be read. -/
def Obligations.TextEnginesReply : Prop :=
  ∀ (t n e : Nat) (c : EngCall) (ins st : List Row) (s : State), n < 64 →
    let u := s.at t
    let replied := fun (key : Nat) (r : EngReply) (s' : State) => s'.calls n key =
      (u.calls n key).map (fun x => if sameCall x c then { x with reply := some r, server := e } else x)
    u.nextCall n e = some c → (u.hub n).wants = [] →
    (e = 0 → c.fn = 0 → c.audioLegal = false →
      ∃ s', exec (.features t n) s = .next s' ∧ replied 0 (emptyReply egBadBlock) s' ∧ SameRows u s') ∧
    (e = 0 → c.fn = 0 → c.audioLegal = true → c.audio.flags % 2 = 0 → u.callRows c c.input c.inputs = (some ins, u) →
      u.callRows c c.stateRow 9 = (some st, u) →
      let ops := BitVec.ofNat 4096 (rowBytes c.block 16 480) :: (ins ++ st)
      let f := (framing c.audio.window c.audio.hop (rowBytes (st.getD 0 0) 10 2)
        (rowBytes (st.getD 0 0) 8 2 + outSamples c.audio ops)).1
      ∃ s' r, exec (.features t n) s = .next s' ∧ replied 0 r s' ∧ SameRows u s' ∧
        (if Nat.min c.limit 256 < rowsFor (f * c.audio.bands * 2) then r = emptyReply egSpace
         else r.status = egOk ∧ r.units = f ∧ r.at0 = c.result ∧ r.stateAt = c.stateRow ∧
          r.result = packRows 0 (rowsFor (f * c.audio.bands * 2)) ((List.range (f * c.audio.bands)).flatMap (fun i =>
            toBytes 2 (c.audio.feature [] (i % c.audio.bands) (bandEnergy ops i)))))) ∧
    (e = 1 → (c.fn = 0 ∨ c.fn = 1) → (4 ≤ c.param 0 1 ∨ u.tokAdmits n (c.param 0 1) c.fold = false) →
      ∃ s', exec (if c.fn = 0 then .encode t n else .decode t n) s = .next s' ∧ replied 1 (emptyReply egNoTable) s') ∧
    (e = 1 → c.fn = 0 → c.param 0 1 < 4 → u.tokAdmits n (c.param 0 1) c.fold = true → c.inputs ≤ 128 →
      c.param 4 4 ≤ 512 * c.inputs → u.callRows c c.input c.inputs = (some ins, u) →
      let toks := (u.tokTable n (c.param 0 1)).encode ((rowsBytes ins).take (c.param 4 4))
      let fit := toks.take (128 * c.limit)
      ∃ s' r rest, exec (.encode t n) s = .next s' ∧ replied 1 r s' ∧ SameRows u s' ∧
        r.status = (if fit.length < toks.length then egTruncated else egOk) ∧ r.units = fit.length ∧ r.at0 = c.result ∧
        r.result = packRows rest (rowsFor (fit.flatMap (toBytes 4)).length) (fit.flatMap (toBytes 4))) ∧
    (let a := clusterWord c.q c.input
     e = 1 → c.fn = 0 → c.param 0 1 < 4 → u.tokAdmits n (c.param 0 1) c.fold = true → c.inputs = 1 →
      c.param 4 4 ≤ 512 → c.hub = n → validCore c.core = true →
      (u.hub n).fetched.any (fun x => x.core == c.core && x.number == c.number && x.addr == a) = false →
      ∃ s', exec (.encode t n) s = .next s' ∧ SameRows u s' ∧
        s'.calls n 1 = (u.calls n 1).map (fun x => if sameCall x c then
          { x with asked := x.asked ++ (if c.asked.contains a then [] else [a]) } else x) ∧
        (c.asked.contains a = false → u.judgeArrival c.fold c.q c.input 1 = .admitted →
          (s'.cluster c.q).access = (u.cluster c.q).access ++ [⟨.routerElastic, c.input, u.portEdge c.q u.now,
            .port u.nextTag 0 none, c.fold, c.core, false⟩])) ∧
    (e = 1 → c.fn = 1 → c.param 0 1 < 4 → u.tokAdmits n (c.param 0 1) c.fold = true → c.param 4 4 ≤ 16384 →
      c.param 4 4 ≤ 128 * c.inputs → c.stateRow ≠ 0xFFFF → u.callRows c c.input c.inputs = (some ins, u) →
      u.callRows c c.stateRow 1 = (some st, u) →
      let table := u.tokTable n (c.param 0 1)
      let toks := (List.range (c.param 4 4)).map (fun i => rowBytes (ins.getD (i / 128) 0) (4 * (i % 128)) 4)
      let carry := (toBytes 3 (rowBytes (st.getD 0 0) 1 3)).take (rowByte (st.getD 0 0) 0 % 4)
      let k := fitTokens table carry toks (512 * c.limit) (c.param 4 4)
      let out := table.decode carry (toks.take k)
      toks.all (fun x => decide (x < table.tokens.length)) = true →
      ∃ s' r rest, exec (.decode t n) s = .next s' ∧ replied 1 r s' ∧ SameRows u s' ∧
        r.status = (if k < c.param 4 4 then egTruncated else egOk) ∧ r.units = out.1.length ∧ r.at0 = c.result ∧
        r.result = packRows rest (rowsFor out.1.length) out.1 ∧ r.stateAt = c.stateRow ∧
        r.state = [decodeState out.2 (if k < c.param 4 4 then k else 0)])

/-- ATTEND and SCORES. -/
def Obligations.AttentionUnitReplies : Prop :=
  ∀ (t n : Nat) (c : EngCall) (ins : List Row) (kv : List KvRead) (v : State) (s : State), n < 64 →
    let u := s.at t
    let a := c.attention
    let q := a.queries ins
    let pairs := kv.map KvRead.pair
    let first := c.param 272 4
    let count := c.param 276 2
    let replied := fun (r : EngReply) (s' : State) => s'.calls n 2 =
      (u.calls n 2).map (fun x => if sameCall x c then { x with reply := some r, server := 2 } else x)
    u.nextCall n 2 = some c → (u.hub n).wants = [] →
    (u.attentionLegal c = false → (c.fn = 0 ∨ c.fn = 1) →
      ∃ s', exec (if c.fn = 0 then .attend t n else .scores t n) s = .next s' ∧ replied (emptyReply egBadBlock) s') ∧
    (c.fn = 0 → u.attentionLegal c = true → rowsFor (2 * a.dh * a.rows) + 1 ≤ c.limit →
      u.callRows c c.input c.inputs = (some ins, u) → u.readKvs n c 0 a.seen = (kv, v) → (v.hub n).wants = [] →
      ∃ s' r, exec (.attend t n) s = .next s' ∧ replied r s' ∧
        match kvStatus q kv with
        | some st => r = emptyReply st
        | none =>
          let res := (List.range a.rows).map (fun i =>
            (attendRow a (q.getD i []) (pairs.take (Nat.min a.visible (a.pos.getD i 0 + 1))),
              Nat.min a.visible (a.pos.getD i 0 + 1) == 0))
          let out := res.flatMap (fun r => r.1.write r.2)
          r.status = egOk ∧ r.units = a.seen ∧ r.at0 = c.result ∧
          ∃ x y, r.result = packRows x (rowsFor out.length) out ++ packRows y 1 (res.flatMap (fun r => r.1.stats r.2))) ∧
    (c.fn = 1 → u.attentionLegal c = true → count ≠ 0 → count ≤ 1024 → a.rows * rowsFor (4 * count) ≤ c.limit →
      u.callRows c c.input c.inputs = (some ins, u) → u.readKvs n c first (Nat.min count (a.seen - first)) = (kv, v) →
      (v.hub n).wants = [] →
      ∃ s' r, exec (.scores t n) s = .next s' ∧ replied r s' ∧
        match kvStatus q kv with
        | some st => r = emptyReply st
        | none => r.status = egOk ∧ r.units = count ∧ r.at0 = c.result ∧
          ∃ rest : Nat → Row, r.result = (List.range a.rows).flatMap (fun i => packRows (rest i) (rowsFor (4 * count))
            ((List.range count).flatMap (fun j => toBytes 4 (if first + j ≤ a.pos.getD i 0 then
              (match kv[j]? with
                | some x => score a.scale (q.getD i []) x.pair.1
                | none => f32NegInf) else f32NegInf)))))

/-- SAMPLE, VERIFY, TRANSLATE, EXTEND and TRIM. -/
def Obligations.SamplersAndWalkerReply : Prop :=
  ∀ (t n e : Nat) (c : EngCall) (ins : List Row) (s : State), n < 64 →
    let u := s.at t
    let g := c.entry
    let vocab := c.param 0 4
    let page := fun (i : Nat) => (u.entry g).tableRow (c.param 0 4 + i)
    let need := (c.param 68 2 + 1) * rowsFor (2 * vocab)
    let replied := fun (key : Nat) (r : EngReply) (s' : State) => s'.calls n key =
      (u.calls n key).map (fun x => if sameCall x c then { x with reply := some r, server := e } else x)
    u.nextCall n e = some c → (u.hub n).wants = [] →
    ((e = 3 ∨ e = 4) → c.fn = 0 → vocab ≠ 0 → vocab ≤ 262144 → rowsFor (2 * vocab) ≤ c.inputs → c.param 8 1 ≤ 63 →
      1 ≤ c.limit → u.callRows c c.input (rowsFor (2 * vocab)) = (some ins, u) →
      let raw := logitsAt ins vocab 0
      ∃ s' r, exec (.sample t n e) s = .next s' ∧ replied 3 r s' ∧ SameRows u s' ∧
        if raw.all finite16 = false then r = emptyReply egNonfinite ∧ s'.entries = u.entries
        else ∃ (rest : Row) (ev : Nat),
          let x := (u.profileOf g).draw (u.penalised g raw) (u.entry g).seed (c.param 4 4) (c.param 8 1)
          r.status = egOk ∧ r.units = 1 ∧ r.at0 = c.result ∧
          r.result = packRows rest 1 (toBytes 4 x.token ++ toBytes 4 x.logp ++ toBytes 4 x.u ++ toBytes 4 ev) ∧
          s'.entries = (u.countDrawn g x.token (c.param 4 4)).entries) ∧
    (∀ a y w, (e = 3 ∨ e = 4) → c.fn = 1 → vocab ≠ 0 → vocab ≤ 262144 → c.param 68 2 ≠ 0 → c.param 68 2 ≤ 16 →
      need ≤ c.inputs → 1 ≤ c.limit → u.callRows c c.input need = (some ins, u) →
      u.verifyFrom c ins vocab (c.param 72 4) (c.param 68 2) 0 (c.param 68 2 + 1) = (a, y, w) →
      ∃ s' r, exec (.verify t n e) s = .next s' ∧ replied 3 r s' ∧ SameRows u s' ∧
        if (List.range (c.param 68 2 + 1)).all (fun i => (logitsAt ins vocab i).all finite16) = false then
          r = emptyReply egNonfinite ∧ s'.entries = u.entries
        else r.status = egOk ∧ r.units = a + 1 ∧ a ≤ c.param 68 2 ∧ s'.entries = w.entries ∧
          ∃ rest, r.result = packRows rest 1 (toBytes 4 a ++ toBytes 4 y)) ∧
    (∀ table : Nat → Row, e = 5 → c.fn = 0 → c.param 4 2 ≠ 0 → c.param 4 2 ≤ 64 →
      c.param 0 4 + c.param 4 2 ≤ (u.entry g).ptCap → 1 ≤ c.limit → c.hub = n → (u.hub n).walker = [] →
      (∀ i, i < c.param 4 2 → ∃ x, x.row = some (table (page i).2) ∧ (u.hub n).fetched.find? (fun x =>
        x.core == c.core && x.number == c.number && x.addr == stackWord (page i).1 (page i).2) = some x) →
      ∃ s' r rest, exec (.translate t n) s = .next s' ∧ replied 5 r s' ∧ SameRows u s' ∧ s'.entries = u.entries ∧
        r.status = egOk ∧ r.units = c.param 4 2 ∧ r.at0 = c.result ∧
        r.result = packRows rest (rowsFor (8 * c.param 4 2)) ((List.range (c.param 4 2)).flatMap (fun i =>
          toBytes 8 (rowBytes (table (page i).2) (8 * ((c.param 0 4 + i) % 64)) 8)))) ∧
    (e = 5 → c.fn = 1 → u.extendTo g (c.param 0 4) = none →
      ∃ s', exec (.extend t n) s = .next s' ∧ replied 5 (emptyReply egPageFault) s' ∧ s'.entries = u.entries ∧
        SameRows u s') ∧
    (∀ w, e = 5 → c.fn = 1 → u.extendTo g (c.param 0 4) = some w →
      ∃ s', exec (.extend t n) s = .next s' ∧ s'.entries = w.entries ∧
        s'.calls n 5 = (w.calls n 5).map (fun x => if sameCall x c then
          { x with reply := some { emptyReply egOk with units := c.param 0 4 }, server := 5 } else x)) ∧
    (e = 5 → c.fn = 2 →
      ∃ s', exec (.trim t n) s = .next s' ∧ replied 5 (emptyReply egOk) s' ∧ SameRows u s' ∧
        s'.entries = (u.trimTo g (c.param 0 4)).entries)

/-- GCM decryption and encryption, SHA384 and the two signature checks. -/
def Obligations.CryptoEngineReplies : Prop :=
  ∀ (t n : Nat) (c : EngCall) (ins : List Row) (key : List (BitVec 8)) (s : State), n < 64 →
    let u := s.at t
    let len := c.param 272 4
    let data := (rowsBytes ins).take len
    let ranges := c.param 1 1 = 0 ∧ c.param 2 2 ≤ 256 ∧ len ≠ 0 ∧ len ≤ 65536 ∧ c.inputs ≤ 128 ∧ len ≤ 512 * c.inputs ∧
      c.inputs ≤ c.limit
    let replied := fun (r : EngReply) (s' : State) => s'.calls n 6 =
      (u.calls n 6).map (fun x => if sameCall x c then { x with reply := some r, server := 6 } else x)
    (u.nextCall n 6 = some c → (u.hub n).wants = [] → ranges → (c.fn = 0 ∨ c.fn = 1) → u.keyOf n (c.param 0 1) (some c.fold) = none →
      ∃ s', exec (if c.fn = 0 then .gcmDecrypt t n else .gcmEncrypt t n) s = .next s' ∧
        replied (emptyReply egNoTable) s' ∧ SameRows u s') ∧
    (u.nextCall n 6 = some c → (u.hub n).wants = [] → ranges → c.fn = 0 → u.keyOf n (c.param 0 1) (some c.fold) = some key → key.length = 32 →
      u.callRows c c.input c.inputs = (some ins, u) →
      ∃ s' r, exec (.gcmDecrypt t n) s = .next s' ∧ replied r s' ∧ SameRows u s' ∧
        if gcmTag key c.iv c.aad data = toBytes 16 (rowBytes c.block 480 16) then
          r.status = egOk ∧ r.at0 = c.result ∧ r.tagBytes = none ∧
          ∃ rest, r.result = packRows rest c.inputs (gcmCrypt key c.iv data)
        else r = emptyReply egAuth) ∧
    (u.nextCall n 6 = some c → (u.hub n).wants = [] → ranges → c.fn = 1 → u.keyOf n (c.param 0 1) (some c.fold) = some key → key.length = 32 →
      u.callRows c c.input c.inputs = (some ins, u) →
      ∃ s' r rest, exec (.gcmEncrypt t n) s = .next s' ∧ replied r s' ∧ SameRows u s' ∧ r.status = egOk ∧
        r.at0 = c.result ∧ r.result = packRows rest c.inputs (gcmCrypt key c.iv data) ∧
        r.tagBytes = some (ofBytes (gcmTag key c.iv c.aad (gcmCrypt key c.iv data)))) ∧
    (u.nextCall n 6 = some c → (u.hub n).wants = [] → c.fn = 2 → c.param 0 1 = 1 → c.param 4 4 ≤ 512 * c.inputs → c.stateRow ≠ 0xFFFF →
      1 ≤ c.limit → u.callRows c c.input c.inputs = (some ins, u) → u.callRows c c.stateRow 1 = (some [0], u) →
      ∃ s' r rest, exec (.sha384 t n) s = .next s' ∧ replied r s' ∧ SameRows u s' ∧ r.status = egOk ∧
        r.units = c.param 4 4 ∧ r.at0 = c.result ∧ r.state = [0] ∧ r.stateAt = c.stateRow ∧
        r.result = packRows rest (rowsFor (sha384 ((rowsBytes ins).take (c.param 4 4))).length)
          (sha384 ((rowsBytes ins).take (c.param 4 4)))) ∧
    (∀ pub msg sig, (u.calls n 6).length < 64 →
      (∃ s' x, exec (.ecdsaVerify t n pub msg sig) s = .next s' ∧ s'.calls n 6 = u.calls n 6 ++ [x] ∧ x.fn = 3 ∧
        x.steward = true ∧ x.reply = some (emptyReply (if ecdsaOk pub msg sig then egOk else egAuth)) ∧ SameRows u s') ∧
      (∃ s' x, exec (.lmsVerify t n pub msg sig) s = .next s' ∧ s'.calls n 6 = u.calls n 6 ++ [x] ∧ x.fn = 4 ∧
        x.steward = true ∧ x.reply = some (emptyReply (if lmsOk pub msg sig then egOk else egAuth)) ∧ SameRows u s')) ∧
    (∀ pub msg sig, 64 ≤ (u.calls n 6).length →
      exec (.ecdsaVerify t n pub msg sig) s = .next (u.countCall n 6 (hubAddr n) egBusy) ∧
      exec (.lmsVerify t n pub msg sig) s = .next (u.countCall n 6 (hubAddr n) egBusy))

/-- NORM_SET, NORM_SUBMIT and WEIGHT_CODEC_CHUNK. That a submission to a slot of a layer entry ends with BAD_BLOCK, and how many
rows a chunk's last group holds, are the model's choices (log entries 135 and 136). -/
def Obligations.NormCallsAndCodecWrite : Prop :=
  ∀ (t q n : Nat) (c : EngCall) (s : State), validCluster q = true → n < 64 →
    let u := s.at t
    let slot := c.param 0 2
    let m := u.normSlot q slot
    let replied := fun (r : EngReply) (s' : State) => s'.calls (q / 24) 8 =
      (u.calls (q / 24) 8).map (fun x => if sameCall x c then { x with reply := some r } else x)
    ((u.calls (q / 24) 8).find? (fun c => c.reply.isNone && c.q == q) = some c →
      (c.fn = 0 →
        ∃ s', exec (.normSet t q) s = .next s' ∧ SameRows u s' ∧
          if slot < 256 ∨ 271 < slot ∨ (c.param 2 1 ≠ 1 ∧ c.param 2 1 ≠ 3) ∨ c.param 3 1 = 0 then
            replied (emptyReply egBadBlock) s' ∧ s'.normSlot q slot = m
          else replied (emptyReply egOk) s' ∧ s'.normSlot q slot = { m with
            policy := c.param 2 1, warmup := c.param 3 1, hi := c.param 4 2, lo := c.param 6 2, left := c.param 3 1,
            state := 1 }) ∧
      (c.fn = 1 →
        ∃ s', exec (.normSubmit t q) s = .next s' ∧ SameRows u s' ∧
          if slot < 256 ∨ 271 < slot ∨ m.policy = 2 then replied (emptyReply egBadBlock) s' ∧ s'.normSlot q slot = m
          else if (f32 (c.param 4 4)).isFin = false then replied (emptyReply egNonfinite) s' ∧ s'.normSlot q slot = m
          else s'.normSlot q slot = (m.judge (c.param 4 4)).2 ∧
            replied (emptyReply (if (m.judge (c.param 4 4)).1 = false then egOk
              else if m.policy = 1 then egNormTrigger else if m.policy = 3 then egNormFail else egOk)) s')) ∧
    (∀ unit row coding data rows, expand coding (chunkRows coding data data.length) data = some rows →
      (unit < 64 →
        let busy := (List.range rows.length).any (fun i => (u.regionOf unit (row + i)).any (fun r =>
          u.foldBusy (u.regionFold unit r) && !u.inGuard (u.regionFold unit r)))
        (busy = true → exec (.weightCodecChunk t n .stack unit row coding data) s = .next u) ∧
        (busy = false →
          ∃ s', exec (.weightCodecChunk t n .stack unit row coding data) s = .next s' ∧
            OnlyStack unit { u with nextTag := u.nextTag + 1 } s' ∧
            s'.dram unit = { u.dram unit with agents := (u.dram unit).agents ++
              [⟨.codec, agentReq u.nextTag unit row rows.length 0 true rows⟩] })) ∧
      (validCluster unit = true → unit / 24 = n → row + rows.length ≤ 49152 →
        ((List.range rows.length).all (fun i => !u.rowRefused unit (row + i) && (u.partOf unit (row + i)).any (fun i =>
          u.foldState (u.partFold unit i) == foldIdle || u.inGuard (u.partFold unit i)))) = true →
        ∃ s', exec (.weightCodecChunk t n .scratch unit row coding data) s = .next s' ∧ SameDram u s' ∧
          ∀ x a, s'.row x a = if x = unit ∧ row ≤ a ∧ a < row + rows.length then rows.getD (a - row) 0 else u.row x a) ∧
      (∀ i, validCluster unit = true → unit / 24 = n → i < rows.length →
        (49152 ≤ row + i ∨ u.partOf unit (row + i) = none) →
        exec (.weightCodecChunk t n .scratch unit row coding data) s = .next (u.overrun unit row 1 (hubAddr (unit / 24)))) ∧
      (∀ a, validCluster unit = true → a < 32 → unit / 24 = n → u.mayProgram unit a = true →
        let ws := programmingRows rows
        row + ws.length ≤ 1024 →
        (ws.any badRow = true →
          ∃ s', exec (.weightCodecChunk t n (.array a) unit row coding data) s = .next s' ∧ SameRows u s' ∧
            s'.arr unit a = u.arr unit a ∧ s'.arrState unit a = u.arrState unit a) ∧
        (ws.any badRow = false → u.codecLeave unit = true → ws ≠ [] →
          ∃ s', exec (.weightCodecChunk t n (.array a) unit row coding data) s = .next s' ∧ SameRows u s' ∧
            (s'.arrState unit a = 1 ∨ s'.arrState unit a = 5) ∧
            (s'.arrState unit a = 1 → ∀ i c, i < ws.length → c < 512 →
              cellWeight (s'.arr unit a).cells (row + i) c = (rowWeights (ws.getD i 0)).getD c 0))))

/-- CONNECTION_REQUEST, CONNECTION_FAIL, SUBMISSION_DOORBELL, CREDIT_SLOT_WRITE and DESCRIPTOR_FETCH. That what is not carried
out leaves the connection, and is told with its queue pair, is the model's choice (log entry 140). -/
def Obligations.ConnectionsAndDoorbells : Prop :=
  ∀ (t ep : Nat) (key : BitVec 32) (v : Word) (s : State), ep < 4096 →
    let u := s.at t
    let e := u.endpoint ep
    let live := 2 ≤ e.state ∧ u.fld Fld.cliDbKeyDbKey 0 0 = key.toNat
    let fetch := Out.fetch ep ((e.subVa.toNat + 64 * (e.nextSub % e.subSize)) % 2 ^ 64) (getBits e.keys 32 32) 64
    let accessError := { u with out := Out.report outAccess (toBytes 4 (0x400000 + ep)) :: u.out }
    let ignored := fun (s' : State) => CountsUp Fld.cliStatBadDoorbells 0 0 u s' ∧ OnlyEndpoint ep u s' ∧
      s'.endpoint ep = { e with badPeriod := some (u.beat / 100) } ∧ s'.entries = u.entries ∧ s'.out = u.out ∧
      s'.globalLog.recs.length = (if e.badPeriod = some (u.beat / 100) then u.globalLog.recs.length
        else Nat.min 16384 (u.globalLog.recs.length + 1))
    (∀ link reliable mtu, link < 96 →
      if u.mayConnect ep link = true ∧ reliable = true ∧ mtu ∈ [1024, 2048, 4096] then
        ∃ s', exec (.connectionRequest t ep ⟨link, reliable, mtu⟩) s = .next s' ∧ OnlyEndpoint ep u s' ∧
          s'.endpoint ep = { e with state := 2, link := link, headSeen := false, due := none } ∧
          s'.out = Out.report outConnect (toBytes 4 (0x400000 + ep) ++ toBytes 4 (u.fld Fld.cliDbKeyDbKey 0 0)) :: u.out ∧
          s' = { u with endpoints := s'.endpoints, out := s'.out }
      else exec (.connectionRequest t ep ⟨link, reliable, mtu⟩) s = .next u) ∧
    (2 ≤ e.state → ∃ s', exec (.connectionFail t ep) s = .next s' ∧
      (u.folds.all (fun f => f.2.owed.all (fun o => o.1 != ep)) = true → OnlyEndpoint ep u s' ∧
        s'.endpoint ep = { e with state := 1, due := none, headSeen := false, resumeClass := 0 } ∧
        s' = { u with endpoints := s'.endpoints })) ∧
    (live →
      let n := seqSub (getBits v 0 32) e.nextSub
      ∃ s', exec (.submissionDoorbell t ep key ⟨.write, 0, 8, v⟩) s = .next s' ∧
        (if e.attached = false then s' = u
         else if e.subSize < n then ignored s'
         else if n ≤ seqSub e.tail e.nextSub then s' = u
         else OnlyEndpoint ep u s' ∧ s' = { u with endpoints := s'.endpoints } ∧
          s'.endpoint ep = { e with tail := getBits v 0 32 })) ∧
    (∀ slot, slot < 504 → live →
      ∃ s', exec (.creditSlotWrite t ep key slot v) s = .next s' ∧
        exec (.submissionDoorbell t ep key ⟨.write, 64 + 8 * slot, 8, v⟩) s = .next s' ∧
        (match u.creditOf ep slot with
         | none => s' = u
         | some g =>
          if (u.entry g).produced < v.toNat ∨ v.toNat < (u.entry g).consumed then ignored s'
          else s' = { u with entries := s'.entries } ∧ s'.entry g = { u.entry g with consumed := v.toNat } ∧
            ∀ h, h ≠ g → s'.entry h = u.entry h)) ∧
    (exec (.submissionDoorbell t ep key ⟨.write, 8, 8, v⟩) s = exec (.completionHead t ep key v) s ∧
      ∀ k, k < 6 → live → exec (.submissionDoorbell t ep key ⟨.write, 16 + 8 * k, 8, v⟩) s = .next u) ∧
    (∀ d, u.mayFetch ep = true →
      ∃ s', exec (.descriptorFetch t ep d) s = .next s' ∧ OnlyEndpoint ep u s' ∧
        s'.endpoint ep = { e with due := some (d, u.checkDesc ep d) } ∧
        s' = { u with endpoints := s'.endpoints, out := fetch :: u.out }) ∧
    (∀ verb off len, 2 ≤ e.state →
      (u.fld Fld.cliDbKeyDbKey 0 0 ≠ key.toNat ∨ verb ≠ Verb.write ∨ len ≠ 8 ∨ off % 8 ≠ 0 ∨ 4096 ≤ off) →
      exec (.submissionDoorbell t ep key ⟨verb, off, len, v⟩) s = .next accessError) ∧
    (2 ≤ e.state → u.fld Fld.cliDbKeyDbKey 0 0 ≠ key.toNat → exec (.completionHead t ep key v) s = .next accessError ∧
      ∀ slot, slot < 504 → exec (.creditSlotWrite t ep key slot v) s = .next accessError) ∧
    (e.state < 2 → exec (.completionHead t ep key v) s = .next u ∧
      (∀ verb off len, exec (.submissionDoorbell t ep key ⟨verb, off, len, v⟩) s = .next u) ∧
      ∀ slot, slot < 504 → exec (.creditSlotWrite t ep key slot v) s = .next u)

/-- ACCEPT, REJECT and CARRIED_ACCEPT. -/
def Obligations.LedgerTakesEntries : Prop :=
  ∀ (t ep : Nat) (s : State), ep < 4096 →
    let u := s.at t
    let e := u.endpoint ep
    let c := e.nextCmp
    let placed := fun (x : CEntry) (e : Endpoint) =>
      { x with c := c, floor := e.floorAt c, phase := seqSub c e.first / e.cmpSize % 2 == 1 }
    (∀ d, e.due = some (d, 0) → e.attached = true → e.unresolved + 3 ≤ e.room →
      e.items.all (fun j => j.seq != descSeq d) = true →
      let i := makeItem d u.now c
      let e' := { e with items := e.items ++ [i], due := none, nextSub := seqAdd e.nextSub 1 }
      let x := placed (entryOf 1 0 (descOp d) (descSeq d) (shownHandle d) (u.itemSwath i) 0) e'
      let g := descHandle d % 65536
      let quiet := e.items.all (fun j => j.fin.isNone) = true ∧
        u.folds.all (fun f => f.2.owed.all (fun o => o.1 != ep)) = true
      let ended := fun (st : Nat) (s' : State) => ∃ y, s'.out = Out.entry ep y :: Out.entry ep x :: u.out ∧ y.kind = 2 ∧
        y.status = st ∧ y.seq = descSeq d ∧ y.c = seqAdd c 1 ∧ (s'.endpoint ep).items = e.items
      ∃ s', exec (.accept t ep) s = .next s' ∧
        (namesStream (descOp d) = false → descOp d ≠ opLoad →
          s' = { u with endpoints := s'.endpoints, out := Out.entry ep x :: u.out } ∧ OnlyEndpoint ep u s' ∧
          s'.endpoint ep = { e' with ring := Map.put e.ring (c % e.cmpSize) x, nextCmp := seqAdd c 1 }) ∧
        (namesStream (descOp d) = true → (u.entry g).ep = ep → (u.entry g).gen = descHandle d / 65536 →
          u.streamItems g = [] →
          ((u.entry g).state = eDone → quiet →
            ended (if (u.entry g).lost = false then stDescriptor else if descOp d = opClose then stOk else stStateLost) s') ∧
          ((u.entry g).state = eOpen ∨ (u.entry g).state = eFailed →
            ((u.entry g).lost = false ∨ descOp d = opClose →
              s'.out = Out.entry ep x :: u.out ∧ (s'.endpoint ep).items = e.items ++ [i] ∧
              s'.entry g = { u.entry g with state := if descOp d = opClose then eDraining else eQueued }) ∧
            ((u.entry g).lost = true → descOp d ≠ opClose → u.isPlaced g i = false → quiet →
              ended stStateLost s' ∧ s'.entry g = { u.entry g with state := eFailed })))) ∧
    (∀ d st, e.due = some (d, st) → st ≠ 0 → e.attached = true → e.unresolved + 2 ≤ e.room →
      let y := placed (entryOf 3 st (descOp d) e.nextSub (shownHandle d) 0 0) e
      ∃ s', exec (.reject t ep) s = .next s' ∧ CountsUp Fld.cliStatRejected 0 0 u s' ∧ OnlyEndpoint ep u s' ∧
        s' = { u with regs := s'.regs, endpoints := s'.endpoints, out := Out.entry ep y :: u.out } ∧
        s'.endpoint ep = { e with due := none, nextSub := seqAdd e.nextSub 1
                                  ring := Map.put e.ring (c % e.cmpSize) y, nextCmp := seqAdd c 1 }) ∧
    (∀ i x, e.oldest = some i → e.attached = true → e.room < e.unresolved + 3 → seqLt i.cseq e.head = true →
      e.unresolved + 1 ≤ e.room → Map.find e.ring (i.cseq % e.cmpSize) = some x →
      let e' := { e with items := e.items.map (fun j => if j.seq = i.seq then { j with cseq := c } else j) }
      let y := placed { x with carried := true } e'
      ∃ s', exec (.carriedAccept t ep) s = .next s' ∧ CountsUp Fld.cliStatCarries 0 0 u s' ∧ OnlyEndpoint ep u s' ∧
        s' = { u with regs := s'.regs, endpoints := s'.endpoints, out := Out.entry ep y :: u.out } ∧
        s'.endpoint ep = { e' with ring := Map.put e.ring (c % e.cmpSize) y, nextCmp := seqAdd c 1 })

/-- COMPLETION_HEAD and REPLAY_DONE. -/
def Obligations.HeadsAndReplay : Prop :=
  ∀ (t ep : Nat) (key : BitVec 32) (v : Word) (s : State), ep < 4096 →
    let u := s.at t
    let e := u.endpoint ep
    let head := getBits v 0 32
    let live := 2 ≤ e.state ∧ u.fld Fld.cliDbKeyDbKey 0 0 = key.toNat
    let ignored := fun (s' : State) => CountsUp Fld.cliStatBadDoorbells 0 0 u s' ∧ OnlyEndpoint ep u s' ∧
      s'.endpoint ep = { e with badPeriod := some (u.beat / 100) } ∧ s'.entries = u.entries ∧ s'.out = u.out
    (live → (e.state ≠ 2 ∨ e.headSeen = true) →
      ∃ s', exec (.completionHead t ep key v) s = .next s' ∧
        (if seqLt head e.head = true ∨ seqLt e.nextCmp head = true then ignored s'
         else s' = { u with endpoints := s'.endpoints, entries := s'.entries, mirrors := s'.mirrors } ∧
          OnlyEndpoint ep u s' ∧ s'.endpoint ep = { e with head := head } ∧
          ∀ g x, (g, x) ∈ u.entries → x.ep = ep → x.state = eDone → x.draft = false →
            x.closed.any (fun c => seqLt c head) = true → (s'.entry g).state = eFree)) ∧
    (live → e.state = 2 → e.headSeen = false →
      ∃ s', exec (.completionHead t ep key v) s = .next s' ∧
        (match e.ledgerStart head with
         | none => ignored s'
         | some start =>
          let e' := { e with head := head, nextCmp := e.ledgerEnd e.cmpSize start, nextSub := e.ledgerSub, tail := e.ledgerSub }
          let c := e'.nextCmp
          let resume : CEntry := { entryOf 5 0 0 0 0xFFFFFFFF 0 e.resumeClass with
            replayed := true, c := c, floor := e'.floorAt c, phase := seqSub c e.first / e.cmpSize % 2 == 1 }
          if seqLt head e.head = true then ignored s'
          else if e'.room < e'.unresolved + 1 then
            s' = { u with endpoints := s'.endpoints } ∧ OnlyEndpoint ep u s' ∧ s'.endpoint ep = e'
          else (s'.endpoint ep).headSeen = true ∧
            (e.items = [] → s'.out = Out.entry ep resume :: u.out ∧
              s'.endpoint ep = { e' with headSeen := true, ring := Map.put e.ring (c % e.cmpSize) resume, nextCmp := seqAdd c 1 }) ∧
            ∀ i, e.items = [i] → namesStream i.opcode = false →
              (i.fin.isSome = true ∨ (i.opcode = opLoad ∧ i.begun = true)) →
              ∃ y, s'.out = Out.entry ep y :: Out.entry ep resume :: u.out ∧ y.kind = 2 ∧ y.seq = i.seq ∧
                y.status = (match i.fin with
                  | some (st, _, _) => st
                  | none => stReset) ∧
                y.replayed = true ∧ y.c = seqAdd c 1 ∧ (s'.endpoint ep).items = [])) ∧
    (∀ bad, e.state = 2 → e.headSeen = true →
      ∃ s', exec (.replayDone t ⟨ep, bad⟩) s = .next s' ∧ (s'.endpoint ep).state = 3 ∧ (s'.endpoint ep).resumeClass = 0 ∧
        CountsUp Fld.cliStatReplays 0 0 u s' ∧
        (bad = [] → u.mirrors.all (fun m => m.2.told || m.2.entry.ep != ep) = true →
          e.items.all (fun i => i.fin.isNone && !(i.opcode == opLoad && i.begun)) = true →
          s' = { u with regs := s'.regs, endpoints := s'.endpoints } ∧
          s'.endpoint ep = { e with state := 3, resumeClass := 0 }) ∧
        ∀ g m i st sw h, bad = [g] → Map.find u.mirrors g = some m → m.entry.ep = ep → m.data ≠ [] → m.told = true →
          e.items = [i] → i.seq = m.byItem → i.entry = g → i.fin = some (st, sw, h) →
          ∃ y, s'.out = Out.entry ep y :: u.out ∧ y.kind = 2 ∧ y.status = worse st stFault ∧ y.seq = i.seq ∧
            y.replayed = true ∧ y.c = e.nextCmp ∧ (s'.endpoint ep).items = [])

/-- OPEN_STREAM, for the oldest item that waits. -/
def Obligations.StreamsOpen : Prop :=
  ∀ (t ep : Nat) (profile : Option (BitVec 256)) (i : Item) (s : State), ep < 4096 →
    let u := s.at t
    let e := u.endpoint ep
    e.dueItem opOpen = some i → u.mayServe ep opOpen = true →
    ∃ s', exec (.openStream t ep profile) s = .next s' ∧ (u.endsAlone ep i = true →
      (u.openStatus i.desc ≠ 0 → Ends ep i.seq (u.openStatus i.desc) u s') ∧
      ∀ m im n, u.openStatus i.desc = 0 → Map.find u.models (descModel i.desc) = some m →
        (u.fold m.cur.fold).image = some im → u.emptiest m.cur.fold = some n →
        (u.bufferFits ep i im = false → Ends ep i.seq stDescriptor u s') ∧
        (u.bufferFits ep i im = true →
          (i.flags % 2 = 1 → profile = none → Ends ep i.seq stFault u s') ∧
          (∀ w, i.flags % 2 = 1 → profile = some w → profileOk w = false → Ends ep i.seq stDescriptor u s') ∧
          (i.flags % 2 = 0 ∨ profile.any profileOk = true →
            let v := if i.flags % 2 = 0 then u else u.writeProfile n (descBytes i.desc 50 2) (profileBits (profile.getD 0))
            (u.freeLocals n = [] → Ends ep i.seq stBusy u s') ∧
            (∀ a, u.freeLocals n = [a] → (u.draftModel m).isSome = true → Ends ep i.seq stBusy u s') ∧
            ∀ a rest, u.freeLocals n = a :: rest → ((u.draftModel m).isSome = true → rest ≠ []) →
              let g := 512 * n + a
              let d := (u.draftModel m).bind (fun _ => rest.head?.map (fun b => 512 * n + b))
              let pool := (poolsOf im (descModel i.desc)).getD 0 0
              (v.takeFrame n pool = none → Ends ep i.seq stBusy u s') ∧
              ∀ w x, v.takeFrame n pool = some (w, x) →
                s'.hubs = x.hubs ∧ s'.item ep i.seq = none ∧
                s'.entry g = { openEntry (u.entry g) g ep i m.cur.fold (descModel i.desc) d false with countPage := w.toNat } ∧
                (∀ dm b, u.draftModel m = some dm → d = some b →
                  s'.entry b = openEntry (u.entry b) b ep i m.cur.fold dm (some g) true) ∧
                (∀ h, h ≠ g → d ≠ some h → s'.entry h = u.entry h) ∧
                ∃ y, s'.out = Out.entry ep y :: u.out ∧ y.kind = 2 ∧ y.status = stOk ∧ y.seq = i.seq ∧
                  y.handle = (u.entry g).gen * 65536 + g)))

/-- The items of streams. -/
def Obligations.StreamItemsStart : Prop :=
  ∀ (t ep : Nat) (i : Item) (s : State), ep < 4096 →
    let u := s.at t
    let e := u.endpoint ep
    let due := fun (op : Nat) => e.dueItem op = some i ∧ u.mayServe ep op = true
    let ended := fun (st : Nat) (s' : State) =>
      if e.inTurn i = false then s' = u else u.endsAlone ep i = true → Ends ep i.seq st u s'
    let started := fun (n : Nat) (data : List (BitVec 32)) (s' : State) => (u.entry i.entry).lost = false →
      s' = { u with endpoints := s'.endpoints, entries := s'.entries } ∧ OnlyEndpoint ep u s' ∧
      s'.endpoint ep = { e with
        items := e.items.map (fun x => if x.seq = i.seq then { x with begun := true, left := n, data := data } else x) }
    let taken := fun (k : Nat) (data : Option (List (BitVec 32))) (s' : State) =>
      if i.bufLen < 4 * k * i.count then ended stDescriptor s'
      else match data with
        | none => ended stFault s'
        | some l => if l.length < k * i.count then ended stFault s' else started i.count (l.take (k * i.count)) s'
    (∀ data, due opAppend →
      let need := inputBytes (descBytes i.desc 40 1) i.count i.bufLen
      let table := u.tokTable (entryHub i.entry) (descBytes i.desc 41 1)
      ∃ s', exec (.appendInput t ep data) s = .next s' ∧
        (if i.bufLen < need then ended stDescriptor s'
         else match data with
          | none => ended stFault s'
          | some b =>
            if b.length < need then ended stFault s'
            else if descBytes i.desc 40 1 = 1 then
              (if u.tokAdmits (entryHub i.entry) (descBytes i.desc 41 1) (u.entry i.entry).fold = false then
                ended stNoModel s'
               else started (table.encode (b.take need)).length ((table.encode (b.take need)).map (BitVec.ofNat 32)) s')
            else started i.count (words32 (b.take need)) s')) ∧
    (due opGenerate → ∃ s', exec (.generate t ep) s = .next s' ∧ started i.count [] s') ∧
    (∀ data, due opVerify → ∃ s', exec (.verifyDraft t ep data) s = .next s' ∧ taken 1 data s') ∧
    (∀ data, due opAdapt → ∃ s', exec (.adaptStep t ep data) s = .next s' ∧
      (if (u.entry i.entry).adapter = 0 then ended stNoModel s' else taken 2 data s')) ∧
    (u.dueClose ep = some i → u.mayServe ep opClose = true →
      let released := fun (g : Nat) (s' : State) => (s'.entry g).state = eDone ∧ (s'.entry g).pages = [] ∧
        (s'.entry g).tent = 0 ∧ (s'.entry g).countPage = 0
      ∃ s', exec (.close t ep) s = .next s' ∧ (e.inTurn i = true → u.endsAlone ep i = true → Ends ep i.seq stOk u s') ∧
        released i.entry s' ∧
        ∀ d, u.draftOf i.entry = some d → released d s') ∧
    (∀ data, u.mayServe ep opAppend = false → exec (.appendInput t ep data) s = .next u ∧ exec (.generate t ep) s = .next u ∧
      exec (.close t ep) s = .next u)

/-- QUERY, FENCE, SETUP_READ and SETUP_WRITE. -/
def Obligations.QueriesAndSetupItems : Prop :=
  ∀ (t ep : Nat) (i : Item) (s : State), ep < 4096 →
    let u := s.at t
    let e := u.endpoint ep
    let due := fun (op : Nat) => e.dueItem op = some i ∧ u.mayServe ep op = true
    let ended := fun (st : Nat) (s' : State) => u.endsAlone ep i = true → Ends ep i.seq st u s'
    let answered := fun (b : List (BitVec 8)) (s' : State) => u.endsAlone ep i = true →
      ∃ y, s'.out = Out.entry ep y :: Out.write ep i.bufVa i.bufKey b :: u.out ∧ y.kind = 2 ∧ y.status = stOk ∧ y.seq = i.seq ∧
        y.value = b.length ∧ y.c = e.nextCmp ∧ s'.item ep i.seq = none ∧ OnlyEndpoint ep u s' ∧ s'.regs = u.regs
    (∀ ok, due opQuery →
      ∃ s', exec (.query t ep ok) s = .next s' ∧
        (match u.queryBlock ep i.desc with
         | none => ended stDescriptor s'
         | some b => b.length = (if descBytes i.desc 32 1 = 0 then 24 else if descBytes i.desc 32 1 = 1 then 32
            else if descBytes i.desc 32 1 = 2 then 64 else 16) ∧
          (if i.bufLen < b.length then ended stDescriptor s'
           else if ok = false then ended stFault s'
           else answered b s'))) ∧
    (due opFence → ∃ s', exec (.fence t ep) s = .next s' ∧
      (if e.items.all (fun j => !seqLt j.seq i.seq) = true then ended stOk s' else s' = u)) ∧
    (∀ ok, due opSetupRead →
      ∃ s', exec (.setupRead t ep ok) s = .next s' ∧
        (match u.reach (descBytes i.desc 32 8) 64 with
         | none => ended stDescriptor s'
         | some (r, x, k) =>
          if i.bufLen < 8 then ended stDescriptor s'
          else if ok = false then ended stFault s'
          else answered (toBytes 8 (u.readWord r x k).toNat) s')) ∧
    (due opSetupWrite →
      let w := u.writeSetup .rdma (descBytes i.desc 32 8) 64 (BitVec.ofNat 64 (descBytes i.desc 40 8))
      ∃ s', exec (.setupWrite t ep) s = .next s' ∧
        (u.reach (descBytes i.desc 32 8) 64 = none → w.2 = u ∧ ended stDescriptor s') ∧
        ((w.2.endpoint ep).attached = true → (w.2.item ep i.seq).isSome = true → w.2.endsAlone ep i = true →
          Ends ep i.seq w.1.status w.2 s' ∧ s'.regs = w.2.regs))

/-- LOAD_MODEL, UNLOAD_MODEL, REBUILD, COPY_RETIRE and MODEL_REVALIDATED. The leave of programming is that of log entry 115. -/
def Obligations.ModelsLoadAndLeave : Prop :=
  ∀ (t ep : Nat) (i : Item) (s : State), ep < 4096 →
    let u := s.at t
    let e := u.endpoint ep
    (∀ pkg, e.dueLoad = some i → i.begun = false → u.mayServe ep opLoad = true → u.mayWake = true →
      let a := loadAsk i.desc
      let v := u.startLoad ep i
      ∃ s', exec (.loadModel t ep pkg) s = .next s' ∧
        (u.models.all (fun x => x.2.loading != some (ep, i.seq)) = true → u.endsAlone ep i = true →
         match Map.find u.models a.handle with
         | some m =>
          (a.replace = false → Ends ep i.seq stDescriptor u s' ∧ s'.models = u.models) ∧
          (a.replace = true → (m.state ≠ 2 ∨ m.loading.isSome = true ∨ m.next.isSome = true) →
            Ends ep i.seq stBusy u s' ∧ s'.models = u.models)
         | none =>
          v.models = Map.put u.models a.handle (loadingModel a.fold (ep, i.seq)) ∧
          (match pkg with
           | none => Ends ep i.seq stFault u s' ∧ s'.models = u.models
           | some p =>
            let qs := v.loadPrograms a p
            match v.runLoad a p with
            | .error x =>
              if x.left.isSome = true ∧ v.codecReady qs = false then s' = v.askCodecs qs
              else Ends ep i.seq x.status u s' ∧ s'.models = u.models ∧ CountsUp Fld.wgtStatLoadsFailed 0 0 u s'
            | .ok (c, x) =>
              if v.codecReady qs = false then s' = v.askCodecs qs
              else if v.foldState c.fold ≠ foldIdle ∧ v.inGuard c.fold = false then s' = v
              else ∀ m, Map.find x.models a.handle = some m →
                Map.find s'.models a.handle = some (m.ready p.bytes ((x.baseOf p.bytes).map Prod.fst |>.getD 0) c)))) ∧
    (e.dueItem opUnload = some i → u.mayServe ep opUnload = true →
      let h := descModel i.desc
      ∃ s', exec (.unloadModel t ep) s = .next s' ∧
        (match Map.find u.models h with
         | none => u.endsAlone ep i = true → Ends ep i.seq stNoModel u s' ∧ s'.models = u.models
         | some m => m.loading = none → m.next = none → m.old = [] → i.flags / 2 % 2 = 0 →
          let m' := { m with state := 3, unload := m.unload ++ [(ep, i.seq)] }
          let v := { u with models := Map.put u.models h m' }
          if v.modelEmpty h m' = true ∧ v.keptByAdapter h = false then Map.find s'.models h = none
          else s' = { v with endpoints := s'.endpoints } ∧ OnlyEndpoint ep u s' ∧ s'.endpoint ep = { e with
            items := e.items.map (fun x => if x.seq = i.seq then { x with begun := true } else x) })) ∧
    (∀ h, ∃ s', exec (.copyRetire t h) s = .next s' ∧
      (match Map.find u.models h with
       | none => s' = u
       | some m => match m.old.find? (fun c => u.foldEmpty c.fold && !u.keptIn h c.fold) with
        | some c => Map.find s'.models h = some { m with old := m.old.erase c }
        | none => if m.state = 3 ∧ m.old = [] ∧ u.modelEmpty h m = true ∧ u.keptByAdapter h = false then
            Map.find s'.models h = none
          else s' = u)) ∧
    (∀ q g, q < 1536 → g < 4 → ∃ s', exec (.rebuild t q g) s = .next s' ∧
      (match u.holder q g with
       | none => s' = u
       | some (_, c) =>
        let drifted := (List.range 8).any (fun k => u.arrState q (u.arrayOf q g k) == 3)
        let others := u.rebuilds.filter (fun r => !(r.q == q && r.named == g))
        let now := u.rebuilds.find? (fun r => r.q == q && r.named == g)
        (drifted = false → s' = u) ∧
        (drifted = true → now = none → u.freeGroup q (State.groupMask c q g) = none →
          s'.rebuilds = ⟨q, g, none⟩ :: others ∧ CountsUp Fld.wgtStatRebuildWaits 0 0 u s') ∧
        (∀ phys, drifted = true → now.all (fun r => r.phys.isNone) = true → u.freeGroup q (State.groupMask c q g) = some phys →
          let (c', x) := u.shadowed c
          let v := x.programGroup c' q g phys
          let fails := (bitsIn (State.groupMask c q g) 8).any (fun k => v.arrState q (8 * phys + k) != 2)
          (u.codecLeave q = false → s' = u.askCodec q) ∧
          (u.codecLeave q = true → fails = true →
            s'.rebuilds = u.rebuilds ∧ ∀ a, a ∈ groupArrays phys → s'.arrState q a ≠ 1 ∧ s'.arrState q a ≠ 2 ∧
            s'.arrState q a ≠ 3 ∧ (v.arrState q a = arrFailed → s'.arrState q a = arrFailed)) ∧
          (u.codecLeave q = true → fails = false → (v.foldOf q).any v.foldBusy = true →
            s'.rebuilds = ⟨q, g, some phys⟩ :: others ∧
            ∀ k, k ∈ bitsIn (State.groupMask c q g) 8 → s'.arrState q (8 * phys + k) = 2)))) ∧
    (∀ h m, Map.find u.models h = some m → m.state = 4 → u.mayReset = true →
      m.copies.all (fun c => u.stewardMay c.fold) = true →
      let v := m.copies.foldl (fun (x : State) c => c.groups.foldl (fun (x : State) g => x.fetchGroup c g)
        (c.tensors.foldl (fun (x : State) p => x.fetchRows p) x)) u
      (v.layersHold m = true →
        ∃ s', exec (.modelRevalidated t h) s = .next s' ∧ Map.find s'.models h = some { m with state := 2 }) ∧
      (v.layersHold m = false → exec (.modelRevalidated t h) s = .next v))

/-- LINK_TRAINING, SKELTIN_DATA_FRAME, NAK and ACK_TIMEOUT. -/
def Obligations.LinksCarryFrames : Prop :=
  ∀ (t l : Nat) (s : State), l < 96 →
    let u := s.at t
    let p := (u.linkOf l).port
    let x := u.port p
    let resent := fun (p : Nat) (kept : List Frame) (s' : State) => ∀ n f, kept[n]? = some f →
      ∃ k back, s'.out[kept.length - 1 - n]? =
        some (Out.frame p k (frameBytes f.tx.kind f.tx.vc f.seq (u.port p).rxSeq back f.tx.payload))
    (∀ r, p < 96 → u.lnkState l = lnkTraining →
      let late := (u.linkOf l).trainAt + u.trainTicks < u.now
      ∃ s', exec (.linkTraining t l r) s = .next s' ∧
        (if r.failed.isSome = true ∨ late ∨ u.miscabled l r = true then
          s'.lnkState l = lnkFailed ∧ (∃ c, s'.globalLog.recs.head? = some c ∧
            c.code = if r.failed.isSome = true ∨ late then 0x6001 else 0x6002)
         else u.folds.all (fun f => !f.2.rearm) = true → s'.lnkState l = lnkUp ∧
          s'.fld Fld.lnkStatusPartnerX l 0 = r.coord.1 % 32 ∧ s'.fld Fld.lnkStatusPartnerY l 0 = r.coord.2.1 % 32 ∧
          s'.fld Fld.lnkStatusPartnerZ l 0 = r.coord.2.2 % 32 ∧ s'.fld Fld.lnkStatusInverted l 0 = r.inverted % 16 ∧
          s'.fld Fld.lnkPortState 0 p = 1 ∧ (s'.linkOf l).kReset = none)) ∧
    (∀ frame, u.skeltinUp l = true →
      let b := frameIn frame
      let v := ofBytes (b.take 8)
      let seq := bytesAt v 2 2
      let gap := (seq + 65536 - (x.rxSeq + 1)) % 65536
      let vc := bytesAt (ofBytes (b.take 2)) 1 1 % 4
      let all := Map.get [] x.parts vc ++ (b.drop 8).take 244
      let h := headerOf (all.take 32)
      let need := if headerRow h then 544 else 32
      ∃ s', exec (.skeltinDataFrame t l frame) s = .next s' ∧
        (ofBytes (b.drop 252) ≠ crc32 (b.take 252) →
          CountsUp Fld.lnkFecCrcFail l 0 u s' ∧ CountsUp Fld.lnkCntRetryCount l 0 u s' ∧ (s'.port p).dropping = true ∧
          (s'.port p).ahead = [] ∧ (s'.port p).rxSeq = x.rxSeq ∧ s'.inbox = u.inbox ∧
          s'.out = Out.frame p l (frameBytes 3 0 x.rxSeq x.rxSeq x.creditReturn []) :: u.out) ∧
        (ofBytes (b.drop 252) = crc32 (b.take 252) → bytesAt v 0 1 = 1 →
          (gap ≠ 0 → (s'.port p).rxSeq = x.rxSeq ∧ (s'.port p).parts = x.parts ∧ s'.inbox = u.inbox ∧
            (s'.port p).ahead = (if x.dropping = true ∨ 8192 ≤ gap then x.ahead else Map.put x.ahead seq (l, b))) ∧
          (gap = 0 → x.ahead = [] → (h.kind = 1 ∨ h.kind = 2) → need ≤ all.length →
            (all.drop need = [] ∨ (headerOf ((all.drop need).take 32)).kind = 0) →
            (s'.port p).rxSeq = (x.rxSeq + 1) % 65536 ∧ (s'.port p).dropping = false ∧ Map.get [] (s'.port p).parts vc = [] ∧
            (match u.windowElsewhere h.window with
             | none => s'.relays = u.relays ∧
                s'.inbox = u.inbox ++ [⟨p, linkLea l, h, BitVec.ofNat 4096 (ofBytes ((all.take need).drop 32))⟩]
             | some owner => ∀ out, u.portToward owner = some out →
                s'.inbox = u.inbox ∧ (h.index = 0 → s'.relays = u.relays ++ [⟨p, out, h.src, h.tag⟩]) ∧
                (∃ tr, Map.find s'.transits u.nextTag = some tr ∧ tr.relay = true ∧ tr.port = out ∧ tr.header = h) ∧
                ∃ y, Map.find s'.packets u.nextTag = some y ∧ y.kind = .relay 0 ∧ y.tile = hubTile (linkLea l))))) ∧
    (∀ seq, u.skeltinUp l = true →
      let kept := (x.acked (seq % 65536)).replay
      ∃ s', exec (.nak t l seq) s = .next s' ∧ (s'.port p).replay.map Frame.seq = kept.map Frame.seq ∧
        s'.out.length = u.out.length + kept.length ∧ resent p kept s' ∧
        s' = { u with ports := s'.ports, out := s'.out } ∧ ∀ y, y ≠ p → s'.port y = u.port y) ∧
    (∀ port f, port < 96 → u.timedOut port = some f → ∃ s', exec (.ackTimeout t port) s = .next s' ∧
      (f.link ∉ u.portLinks port → s' = { u with ports := s'.ports, out := s'.out } ∧
        (s'.port port).replay.map Frame.seq = (u.port port).replay.map Frame.seq ∧
        (u.portLinks port ≠ [] → resent port (u.port port).replay s')) ∧
      ∀ k, k ≠ f.link → k ∈ u.portLinks port → f.link ∈ u.portLinks port →
        u.endpoints.all (fun e => e.2.link != f.link || decide (e.2.state < 2)) = true →
        s'.lnkState f.link = (if (s'.linkOf f.link).kReset.isSome = true then lnkTraining else lnkDown) ∧
        (s'.linkOf f.link).trainAt = u.now ∧ (s'.port port).replay.map Frame.seq = (u.port port).replay.map Frame.seq ∧
        resent port (u.port port).replay s')

/-- STEP_MARKER_ARMED, STEP_MARKER_JOIN, STEP_MARKER_DRAINED, WINDOW_ANNOUNCE, WINDOW_REQUEST, REFUSAL and WINDOW_CLOSE, and the
arrival of what serves a request of another module. That a marker of an unknown block is held, and which plane the packets take,
are the model's choices (log entries 132 and 142). -/
def Obligations.MarkersAndWindows : Prop :=
  ∀ (t : Nat) (s : State),
    let u := s.at t
    (∀ m kind, m.port < 96 → (u.portLinks m.port).isEmpty = false → (u.port m.port).ahead = [] → kind < 3 →
      let x := u.port m.port
      let key := (m.src, kind, m.swath, m.stile, if kind = 2 then m.stamp else m.gen)
      let came := fun (s' : State) => (∀ y, y ≠ m.port → s'.port y = u.port y) ∧
        s'.port m.port = { x with rxSeq := (x.rxSeq + 1) % 65536, dropping := false }
      let held := fun (s' : State) => came s' ∧ s' = { u with ports := s'.ports, early := s'.early } ∧
        s'.early = (if u.early.any (fun e => e.2.2.tag == m.tag && markerKey e.1 e.2.2 == key) = true then u.early
          else u.early ++ [(kind, u.now, m)])
      ∃ s', exec (if kind = 2 then .stepMarkerArmed t m else if kind = 0 then .stepMarkerJoin t m else .stepMarkerDrained t m) s =
          .next s' ∧
        (match u.foldOfTag m.tag with
         | none => held s'
         | some f =>
          let seen := m.src = u.ownCoord ∨ (u.fold f).relayed.contains key = true
          let other := kind = 2 ∧ u.foldState f = foldArmed ∧ m.settings ≠ u.settings f
          let earlier := u.swathRuns f = true ∧ seqLt m.swath (u.fold f).swath = true
          (seen → came s' ∧ s' = { u with ports := s'.ports }) ∧
          (¬ seen → (u.fold f).image = none → held s') ∧
          (¬ seen → (u.fold f).image.isSome = true →
            (¬ other → ¬ earlier → (u.fold f).rearm = false →
              (kind = 1 → (u.fold f).relayed.contains (u.ownCoord, 1, (u.fold f).swath, 0, 0) = false) →
              s'.fold f = { u.fold f with
                markers := (u.fold f).markers.filter (fun y => !(kind == 2 && y.1 == 2 && y.2.2.src == m.src)) ++ [(kind, u.now, m)]
                relayed := key :: (u.fold f).relayed } ∧
              ∀ y, y ∈ u.blockPorts f → y ≠ m.port → u.portLinks y ≠ [] → (u.port y).waiting = [] →
                (u.port y).replay.length < 8192 →
                (s'.port y).replay.map Frame.tx = (u.port y).replay.map Frame.tx ++
                  [⟨2, 0, markerBytes m.tag m.swath kind m.stile m.gen m.stamp⟩]) ∧
            (other → f < 256 → s'.foldState f = foldIdle ∧ s'.fld Fld.timFoldCfgEnable 0 f = 0) ∧
            (earlier → f < 256 → s'.foldState f = foldStopped)))) ∧
    (∀ owner id gen rows, ∃ s', exec (.windowAnnounce t owner id gen rows) s = .next s' ∧
      s' = (if (Map.find u.remotes (id % 65536)).isSome = true ∨ u.remotes.length < 1024 then
        { u with remotes := Map.put u.remotes (id % 65536) ⟨owner, gen % 65536, rows % 2 ^ 32⟩ } else u)) ∧
    (∀ h row x v, u.takeInbox (fun x => (h.kind == 1 || h.kind == 2) && x.header == h && x.row == row) = some (x, v) →
      ∃ s', exec (.windowRequest t h row) s = .next s' ∧ s'.inbox = v.inbox ∧ s'.windows = u.windows ∧ SameRows u s' ∧
        SameDram u s' ∧
        (h.kind = 1 → h.index ≠ 0 →
          match u.transitOf x.port h with
          | none => s' = v
          | some (tag, tr) =>
            if tr.come = 0 then s' = v
            else s'.transits = Map.put u.transits tag { tr with come := tr.come - 1 } ∧
              ∃ y, s'.packets = Map.put u.packets u.nextTag y ∧ y.kind = .linkRow ∧ y.tag = tag ∧ y.index = h.index ∧
                y.row = some row ∧ y.tile = hubTile tr.lea ∧ y.dst = tr.tile ∧ y.first = u.transitRow tr h.index) ∧
        ((h.kind = 2 ∨ h.index = 0) →
          let refused := fun (c : Nat) => s'.transits = u.transits ∧
            (x.port ≠ noPort → s'.packets = u.packets) ∧
            (∀ k, x.port = noPort → u.queueOfTag h.src h.tag = some k →
              ∃ y, s'.packets = Map.put u.packets u.nextTag y ∧ y.kind = .windowRefusal c ∧ y.tag = h.tag ∧
                y.dst = tileOf (clusterOf h.src))
          match u.judgeWindow h with
          | some 2 => CountsUp Fld.lnkWinStatRangeRefusals 0 0 u s' ∧ refused 2
          | some c => CountsUp Fld.lnkWinStatClosedRefusals 0 0 u s' ∧ refused c
          | none => ∀ w, Map.find u.windows h.window = some w →
            let tr : Transit := { port := x.port, lea := x.lea, header := h, fold := w.fold, target := some w.target
                                  come := if h.kind = 1 then h.rows - 1 else 0, left := h.rows, rows := [], relay := false }
            s'.transits = Map.put u.transits u.nextTag tr ∧
            ∃ y, s'.packets = Map.put u.packets (u.nextTag + 1) y ∧ y.kind = (if h.kind = 2 then .linkRead else .linkRow) ∧
              y.tag = u.nextTag ∧ y.index = 0 ∧ y.count = h.rows ∧ y.row = (if h.kind = 1 then some row else none) ∧
              y.tile = hubTile x.lea ∧ y.dst = (if w.target.stack = true then hubTile w.target.unit else tileOf w.target.unit))) ∧
    (∀ pkt y tr, Map.find u.packets pkt = some y → y.atPort = true → y.timed = false → u.portFirst pkt y = true →
      u.transit y.tag = some tr →
      ∃ s', exec (.routerPortArrival t pkt) s = .next s' ∧
        (clusterOfTile y.tile = none →
          let n := leaOfTile y.tile
          ((y.kind = .linkRow ∧ y.index + 1 = y.count) ∨ y.kind = .linkRead → ∃ z, (s'.dram n).remote = (u.dram n).remote ++ [z] ∧
            z.source = .link y.tag ∧ z.req.n = tr.header.rows ∧ z.req.write = (tr.header.kind == 1) ∧
            z.req.data = tr.rows ++ y.row.toList ∧ z.req.addr = stackWord n (u.transitRow tr 0)) ∧
          (y.kind = .linkAck ∨ y.kind = .linkBack ∧ tr.left ≤ 1 ∨ y.kind = .relay 0 →
            Map.find s'.transits y.tag = none ∧ (tr.port ≠ noPort → s' = { u with
              packets := s'.packets, routers := s'.routers, transits := s'.transits, ports := s'.ports, out := s'.out }))) ∧
        (∀ q, clusterOfTile y.tile = some q → y.kind = .linkRow → y.index = 0 →
          match u.judgeLink q tr with
          | .admitted => (s'.cluster q).access.length = (u.cluster q).access.length + 1
          | .hedge _ => (s'.cluster q).access = (u.cluster q).access ∧ CountsUp Fld.cluFabRefusedHedgeRefusedCount q 0 u s' ∧
              ∃ z, Map.find s'.packets u.nextTag = some z ∧ z.kind = .linkRefusal 3 ∧ z.dst = hubTile tr.lea
          | .overrun => (s'.cluster q).access = (u.cluster q).access ∧
              ∃ z, Map.find s'.packets u.nextTag = some z ∧ z.kind = .linkRefusal 0 ∧ z.dst = hubTile tr.lea)) ∧
    (∀ tag cause x v k r,
      u.takeInbox (fun x => x.header.kind == 5 && x.header.tag == tag && x.header.cause == cause) = some (x, v) →
      let h := x.header
      u.queueOfTag h.src tag = some k → (u.queue (clusterOf h.src) k).flight.find? (fun r => r.tag == tag) = some r →
      (u.queue (clusterOf h.src) k).back.all (fun a => a.tag != tag) = true →
      let q := clusterOf h.src
      ∃ s', exec (.refusal t tag cause) s = .next s' ∧ s'.inbox = v.inbox ∧ SameRows u s' ∧
        (s'.queue q k).back = (u.queue q k).back ++ [⟨tag, if r.write then [] else emptyRows (r.n - r.got), some cause⟩] ∧
        ∀ f, u.foldOf q = some f → (s'.fold f).batch = markAt stFault (u.itemsOf f h.src) 0 (u.fold f).batch) ∧
    (∀ id, ∃ s', exec (.windowClose t id) s = .next s' ∧
      (match Map.find u.windows id with
       | some w =>
        if w.closing = true ∧ u.windowBusy id = false then
          (u.foldState w.fold ≠ foldArmed → u.foldState w.fold ≠ foldRunning →
            s' = { u with windows := Map.put u.windows id { w with isOpen := false, closing := false } }) ∧
          (u.foldState w.fold = foldArmed ∨ u.foldState w.fold = foldRunning → ∀ im d, (u.fold w.fold).image = some im →
            im.windows = [d] → d.id = id → w.opened ≠ u.beat →
            Map.find s'.windows id = some { w with
              isOpen := true, gen := (w.gen + 1) % 65536, rows := d.rows, target := d, closing := false, opened := u.beat })
        else s' = u
       | none => s' = u))

/-- INPUT_MONITOR, OVERDRAW_CHECK, RESERVOIR_CONNECT, DROOP, DROOP_RELEASE, VMIN_REARM, CURRENT_SAMPLE and CLUSTER_ON. That the current
of a ballast load is added to what a command is given is the model's choice (log entry 145). -/
def Obligations.PowerIsWatched : Prop :=
  ∀ (t : Nat) (s : State),
    let u := s.at t
    let noted := fun (q mv : Nat) (s' : State) =>
      let low := u.fld Fld.cluPwrVminVminMv q 0
      if mv < low ∨ (u.fld Fld.cluPwrVminValid q 0 = 0 ∧ low = 0) then
        s'.fld Fld.cluPwrVminVminMv q 0 = mv % 1024 ∧ s'.fld Fld.cluPwrVminValid q 0 = 1 ∧
        s'.fld Fld.cluPwrVminTsVminTs q 0 = u.ns % 2 ^ 64
      else s'.fld Fld.cluPwrVminVminMv q 0 = low ∧ s'.fld Fld.cluPwrVminValid q 0 = u.fld Fld.cluPwrVminValid q 0
    let throttled := fun (q : Nat) (s' : State) => s'.fld Fld.cluPwrStateThrottle q 0 = s'.throttleLevel q
    (∀ hvDv hvDa auxDv auxDa,
      let w := hvDv * hvDa + auxDv * auxDa
      let beats := (w :: u.power.beats).take 1000000
      let sum := fun (n : Nat) => (beats.take n).foldl (· + ·) 0
      let v := Nat.max (excessLevel (sum 2000) 2000 u.limitW) (excessLevel (sum 1000000) 1000000 u.limitS)
      ∃ s', exec (.inputMonitor t hvDv hvDa auxDv auxDa) s = .next s' ∧
        (if u.supply = supOff then s' = u
         else s'.power.beats = beats ∧ s'.fld Fld.pwrStatusThrottle 0 0 = v ∧ s'.fld Fld.pwrStatusInputDv 0 0 = hvDv % 65536 ∧
          s'.fld Fld.pwrInputPBeatW 0 0 = Nat.min 65535 (w / 100) ∧
          s'.fld Fld.pwrInputP2msW 0 0 = Nat.min 65535 (sum 2000 / 200000) ∧
          s'.fld Fld.pwrInputP1sW 0 0 = Nat.min 65535 (sum 1000000 / 100000000) ∧
          (if 0 < v then CountsUp Fld.pwrEvtCntThrottleBeats 0 0 u s'
           else s'.fld Fld.pwrEvtCntThrottleBeats 0 0 = u.fld Fld.pwrEvtCntThrottleBeats 0 0))) ∧
    (∀ q apart, q < 1536 → u.domainOn q = true →
      let ma := apart + u.ballastMa q (10 * u.beatTicks)
      let allowed := u.allowedMa q
      let lvl := (u.cluster q).overdraw
      ∃ s', exec (.overdrawCheck t q apart) s = .next s' ∧ throttled q s' ∧
        (s'.cluster q).overdraw = (if 5 * allowed < 4 * ma then
            (if lvl = 0 then Nat.min 32 (ceilDiv (64 * (ma - allowed)) ma) else Nat.min 32 (lvl + 1))
          else if 0 < lvl ∧ (u.cluster q).overAt + 100 * u.beatTicks ≤ u.now then lvl - 1 else lvl)) ∧
    (∀ q mv, q < 1536 → u.domainOn q = true →
      ∃ s', exec (.reservoirConnect t q mv) s = .next s' ∧ noted q mv s' ∧ s' = { u with regs := s'.regs } ∧
        (if mv + 25 ≤ setPoint q then CountsUp Fld.cluPwrCntReservoirCount q 0 u s'
         else s'.fld Fld.cluPwrCntReservoirCount q 0 = u.fld Fld.cluPwrCntReservoirCount q 0)) ∧
    (∀ q mv, q < 1536 → u.domainOn q = true → 500 ≤ mv →
      ∃ s', exec (.droop t q mv) s = .next s' ∧ noted q mv s' ∧
        (if mv + 80 ≤ setPoint q then (s'.cluster q).droopAt = some u.now ∧ s'.fld Fld.cluPwrStateThrottle q 0 = 32 ∧
            CountsUp Fld.cluPwrCntDroopCount q 0 u s'
         else s' = { u with regs := s'.regs } ∧ s'.fld Fld.cluPwrStateThrottle q 0 = u.fld Fld.cluPwrStateThrottle q 0)) ∧
    (∀ q x since, q < 1536 → (u.cluster q).droopAt = some x → x ≤ since → since + u.beatTicks ≤ u.now →
      ∃ s', exec (.droopRelease t ⟨q, since⟩) s = .next s' ∧ (s'.cluster q).droopAt = none ∧ throttled q s') ∧
    (∀ p q mv, q < 1536 → u.exposed q = true →
      ∃ s', exec (.vminRearm t p q mv) s = .next s' ∧ s'.fld Fld.cluPwrVminValid q 0 = 0 ∧
        s'.fld Fld.cluPwrVminVminMv q 0 = mv % 1024 ∧ s'.fld Fld.cluPwrVminTsVminTs q 0 = u.ns % 2 ^ 64 ∧
        s' = { u with regs := s'.regs }.completes p (Reg.cluPwrVmin.addr q 0) true) ∧
    (∀ p q mv, q < 1536 → u.exposed q = false →
      exec (.vminRearm t p q mv) s = .next (u.completes p (Reg.cluPwrVmin.addr q 0) false)) ∧
    (∀ d ma, d < 1600 →
      let ballast := if d < 1536 then u.ballastMa d u.sampleTicks / 10 else 0
      let v := if u.sampled d = true then Nat.min (ma + ballast) 0xFFFE else 0xFFFF
      ∃ s', exec (.currentSample t d ma) s = .next s' ∧
        Map.get [] s'.power.samples d = (v :: Map.get [] u.power.samples d).take 4096 ∧
        (∀ x, x ≠ d → Map.get [] s'.power.samples x = Map.get [] u.power.samples x) ∧
        s'.fld Fld.pwrIlogHeadHeadTs 0 0 = u.ns / 1000000 * 1000000 % 2 ^ 64) ∧
    (∀ q, q < 1536 → u.domain q = domRamping → u.ramped q = true →
      ∃ s', exec (.clusterOn t q) s = .next s' ∧
        (u.lpState = lpActive → u.folds.all (fun f => !f.2.rearm) = true → s'.domain q = domOn ∧
          s'.fld Fld.cluPwrStateCapUnits q 0 = (if u.fld Fld.cluPwrStateSlicesOk q 0 = 15 then 72 else 54) ∧
          (s'.cluster q).regionOff = false))

/-- SUPPLY_WARN, SUPPLY_OK, SUPPLY_QUIESCE, SUPPLY_RESUME, INPUT_LOSS, INPUT_OVERVOLTAGE, INPUT_REVERSED, INPUT_PRECHARGE,
AUXILIARY_INPUT_PRESENT, AUXILIARY_INPUT_LOSS, PWR_EN_ASSERT, PWR_EN_DEASSERT and COOLANT_CHECK_END. -/
def Obligations.SuppliesComeAndGo : Prop :=
  ∀ (t dv : Nat) (segs : List Nat) (s : State),
    let u := s.at t
    let gone := fun (s' : State) => s'.supply = (if s'.auxPresent = true then supStandby else supOff) ∧ s'.hvPresent = false ∧
      s'.fld Fld.pwrStatusInputDv 0 0 = dv % 65536 ∧ s'.power.chargeAt = none ∧ s'.thermal.heating = none ∧
      s'.thermal.governor = false
    let checked := fun (s' : State) => match u.checkFails with
      | some _ => s'.thm = thmCheckFailed ∧ s'.thermal.heating = none
      | none => s'.thm = u.thm ∧ s'.thermal.heating = some u.now
    (u.supply = supOn → 3000 ≤ dv → (dv < 3400 ∨ u.segsBelow segs 3800 ≠ 0) →
      ∃ s', exec (.supplyWarn t dv segs) s = .next s' ∧ s'.supply = supFrozen ∧
        s'.power = { u.power with frozenAt := some u.now } ∧ CountsUp Fld.pwrEvtCntWarnCount 0 0 u s' ∧
        s' = { u with regs := s'.regs, power := s'.power, globalLog := s'.globalLog }) ∧
    (u.supply = supFrozen → 3450 ≤ dv → u.segsBelow segs 3850 = 0 → 10 ≤ u.beatsSince u.power.frozenAt →
      ∃ s', exec (.supplyOk t dv segs) s = .next s' ∧ s'.supply = supOn ∧ s'.power.frozenAt = none ∧
        ∀ n, n < 64 → (s'.hub n).arb = { (u.hub n).arb with notBefore := u.now + 7296 }) ∧
    (u.supply = supFrozen → 20000 ≤ u.beatsSince u.power.frozenAt →
      ∃ s', exec (.supplyQuiesce t) s = .next s' ∧ s'.supply = supQuiesced ∧ s'.power.quietAt = some u.now ∧
        s'.power.goodAt = none ∧ (u.lpState = lpActive → (∀ f ∈ Map.keys u.folds, f < 256) →
          ∀ q, q < 1536 → s'.domainOn q = false)) ∧
    (u.supply = supQuiesced → 100000 ≤ u.beatsSince u.power.goodAt →
      ∃ s', exec (.supplyResume t) s = .next s' ∧ s'.power.quietAt = none ∧ s'.power.frozenAt = none ∧
        ((∀ f ∈ Map.keys u.folds, f < 256) → s'.supply = supOn)) ∧
    (dv < 3000 → ∃ s', exec (.inputLoss t dv) s = .next s' ∧ gone s') ∧
    (4250 < dv → ∃ s', exec (.inputOvervoltage t dv) s = .next s' ∧ gone s') ∧
    (u.auxPresent = true → u.hvPresent = false →
      ∃ s', exec (.inputReversed t) s = .next s' ∧ s'.fld Fld.pwrStatusReversedSeen 0 0 = 1 ∧
        s' = { u with regs := s'.regs, globalLog := s'.globalLog }) ∧
    (u.hvPresent = false → u.supply ≤ supStandby →
      ∃ s', exec (.inputPrecharge t dv) s = .next s' ∧ s'.fld Fld.pwrStatusInputDv 0 0 = dv % 65536 ∧
        (inRange400 dv = false → s'.supply = u.supply ∧ s'.hvPresent = false ∧ s' = { u with regs := s'.regs }) ∧
        (inRange400 dv = true → s'.supply = supStandby ∧ s'.hvPresent = true ∧ s'.power.chargeAt = some u.now ∧
          (if u.fld Fld.pwrStatusPwrEn 0 0 = 1 ∧ u.thermal.heating = none then checked s'
           else s'.thm = u.thm ∧ s'.thermal = u.thermal))) ∧
    (u.fld Fld.pwrStatusPwrEn 0 0 = 0 →
      ∃ s', exec (.pwrEnAssert t) s = .next s' ∧ s'.fld Fld.pwrStatusPwrEn 0 0 = 1 ∧ s'.supply = u.supply ∧
        (if u.supply = supStandby ∧ u.hvPresent = true ∧ u.thermal.heating = none then checked s'
         else s'.thm = u.thm ∧ s'.thermal = u.thermal)) ∧
    (u.fld Fld.pwrStatusPwrEn 0 0 = 1 →
      ∃ s', exec (.pwrEnDeassert t) s = .next s' ∧
        (if supOn ≤ u.supply then s'.supply = supStandby ∧ s'.restore.inReset = true ∧ s'.power.frozenAt = none ∧
            s'.power.quietAt = none
         else s'.supply = u.supply ∧ s'.fld Fld.pwrStatusPwrEn 0 0 = 0 ∧ s'.thermal.heating = none ∧
          s'.thermal.governor = false)) ∧
    (0 < dv → u.auxPresent = false →
      ∃ s', exec (.auxiliaryInputPresent t dv) s = .next s' ∧ s'.auxPresent = true ∧
        s'.supply = (if u.supply = supOff then supStandby else u.supply) ∧ s' = { u with regs := s'.regs }) ∧
    (u.auxPresent = true →
      ∃ s', exec (.auxiliaryInputLoss t) s = .next s' ∧
        (if u.supply ≤ supStandby ∧ u.hvPresent = false then s'.supply = supOff
         else s'.supply = u.supply ∧ s'.auxPresent = false ∧ s' = { u with regs := s'.regs })) ∧
    (∀ inlet outlet ok, u.checkOver = true →
      let v := u.modThermal (fun x => { x with inletS := inlet, outletS := outlet
                                               inletDead := x.inletDead || !ok, outletDead := x.outletDead || !ok })
      let flow : Int := u.fld Fld.thmCoolantFlowDl 0 0
      ∃ s', exec (.coolantCheckEnd t inlet outlet ok) s = .next s' ∧
        (match v.checkFails with
         | some _ => s'.thm = thmCheckFailed ∧ s'.thermal.heating = none ∧ s'.supply = supStandby
         | none =>
          if 2500 ≤ (outlet - inlet) * flow then
            s'.supply = supOn ∧ s'.fld Fld.pwrStatusSegUp 0 0 = 15 ∧ s'.thermal.governor = true ∧ s'.restore.inReset = true ∧
            s'.fld Fld.thmStatusSwapped 0 0 = 0
          else s'.thm = thmCheckFailed ∧ s'.thermal.heating = none ∧ s'.supply = supStandby ∧
            s'.fld Fld.thmStatusSwapped 0 0 = (if 2500 ≤ (inlet - outlet) * flow then 1 else 0)))

/-- SLICE_FAIL, PHASE_FAIL, SENSE_OPEN and SEGMENT_FAIL. -/
def Obligations.RegulatorsFail : Prop :=
  ∀ (t : Nat) (s : State),
    let u := s.at t
    (∀ q i, q < 1536 → i < 4 → u.bit Fld.cluPwrStateSlicesOk q 0 i = true → u.domain q ≠ domFailed → u.position q ≠ posFailed →
      let left := u.fld Fld.cluPwrStateSlicesOk q 0 - 2 ^ i
      ∃ s', exec (.sliceFail t q i) s = .next s' ∧
        (if sliceCount left < 3 then s'.position q = posFailed
         else s'.position q = u.position q ∧ s'.fld Fld.cluPwrStateSlicesOk q 0 = left ∧
          (u.domainOn q = true → s'.fld Fld.cluPwrStateCapUnits q 0 = 54 ∧
            s'.fld Fld.cluPwrStateThrottle q 0 = s'.throttleLevel q) ∧
          s'.grants (q / 24) = (u.grants (q / 24)).map (fun g =>
            if g.q == q && g.mask != 0 && hasBallast g.cls then { g with units := Nat.min g.units 54 } else g))) ∧
    (∀ n i, n < 64 → i < 20 → (u.hub n).phasesOut.contains i = false → (u.hub n).dead = false →
      let h : Hub := { u.hub n with phasesOut := i :: (u.hub n).phasesOut }
      ∃ s', exec (.phaseFail t n i) s = .next s' ∧
        (if i < 16 then (s'.hub n).phasesOut = h.phasesOut ∧ s'.fld Fld.hubPwrRailLeaPhasesOk n 0 = h.leaLeft ∧
            s'.fld Fld.hubPwrBudgetBudget n 0 = Nat.min (u.fld Fld.hubPwrBudgetBudget n 0) (100 * Nat.min 15 h.leaLeft)
         else if h.aoLeft < 2 then (if n = 0 then s'.restore.inReset = true else (s'.hub n).dead = true)
         else (s'.hub n).phasesOut = h.phasesOut ∧ s'.fld Fld.hubPwrRailAoPhasesOk n 0 = h.aoLeft ∧
          (h.aoLeft = 2 → (s'.hub n).stopped = true))) ∧
    (∀ n ao, n < 64 → (u.hub n).dead = false →
      u.fld (if ao = true then Fld.hubPwrRailAoSenseOpen else Fld.hubPwrRailLeaSenseOpen) n 0 = 0 →
      ∃ s', exec (.senseOpen t n ao) s = .next s' ∧
        s'.fld (if ao = true then Fld.hubPwrRailAoSenseOpen else Fld.hubPwrRailLeaSenseOpen) n 0 = 1 ∧
        s'.fld Fld.hubPwrBudgetBudget n 0 =
          (if u.fld Fld.hubPwrRailLeaSenseOpen n 0 = 0 ∧ u.fld Fld.hubPwrRailAoSenseOpen n 0 = 0 then
            u.fld Fld.hubPwrBudgetBudget n 0 * 9 / 10 else u.fld Fld.hubPwrBudgetBudget n 0) ∧
        s' = { u with regs := s'.regs, hubs := s'.hubs, globalLog := s'.globalLog }) ∧
    (∀ g bus, g < 4 → u.fld Fld.pwrSegState 0 g = segUp →
      ∃ s', exec (.segmentFail t g bus) s = .next s' ∧
        (if g = 0 then s'.restore.inReset = true ∧ s'.fld Fld.pwrSegState 0 0 = segIsolated ∧
            s'.restore.bootCause = 4
         else ∀ i, i < 16 → (s'.hub (16 * g + i)).dead = true))

/-- TRAY_REPORT, TRAY_SILENT, SENSOR_READ, ALLOWANCE_UPDATE, HOLD_EXIT, FLOW_LOSS_N, STOP_CLEAR and SLEW_GOVERNOR. -/
def Obligations.CoolantIsJudged : Prop :=
  ∀ (t : Nat) (s : State),
    let u := s.at t
    let small := ∀ f ∈ Map.keys u.folds, f < 256
    let off := fun (s' : State) => u.lpState = lpActive → small → ∀ q, q < 1536 → s'.domainOn q = false
    let stopped := fun (cause : Nat) (causes : List Sensor) (s' : State) =>
      s'.fld Fld.thmStatusStopCause 0 0 = cause ∧ s'.thermal.stopAt = some u.now ∧ s'.thermal.causes = causes ∧
      s'.fld Fld.thmSlewBallastW 0 0 = 0 ∧ off s' ∧ (u.lpState = lpActive → small → s'.thm = thmStopped)
    (∀ flow inlet, u.supply ≠ supOff →
      ∃ s', exec (.trayReport t flow inlet) s = .next s' ∧ s'.flowDl = flow % 65536 ∧
        (-32768 ≤ inlet → inlet < 32768 → s'.trayInlet = inlet) ∧ s'.fld Fld.thmStatusTraySilent 0 0 = 0 ∧
        s'.thermal = { u.thermal with trayAt := some u.now } ∧ s' = { u with regs := s'.regs, thermal := s'.thermal }) ∧
    (u.supply ≠ supOff → u.fld Fld.thmStatusTraySilent 0 0 = 0 →
      u.thermal.trayAt.getD u.restore.bootAt + 1000000 * u.beatTicks ≤ u.now →
      ∃ s', exec (.traySilent t) s = .next s' ∧ s'.fld Fld.thmStatusTraySilent 0 0 = 1 ∧
        s' = { u with regs := s'.regs, globalLog := s'.globalLog } ∧
        s'.globalLog.recs.head?.map Rec.code = some 0x2001) ∧
    (∀ k v r, k.valid = true → u.supply ≠ supOff → (r = some v ∨ (r = none ∧ u.substitute k = some v)) →
      ∃ s', exec (.sensorRead t k r) s = .next s' ∧
        (u.thm ≠ thmStopped → (v < k.limit ∨ k.cause = 0 ∨ u.supply < supOn) →
          s'.reading k = v ∧ s'.sensorDead k = r.isNone) ∧
        (u.thm ≠ thmStopped → supOn ≤ u.supply → k.cause ≠ 0 → k.limit ≤ v → stopped k.cause [k] s') ∧
        (∀ x, u.thm = thmStopped → k.trip = some x → x ≤ v → s'.restore.inReset = true ∧ s'.restore.bootCause = 5)) ∧
    (supOn ≤ u.supply →
      ∃ s', exec (.allowanceUpdate t) s = .next s' ∧
        (if u.thm ≤ thmDerated ∧ u.coolantBad = true then s'.thermal.stopAt = some u.now ∧ off s' ∧ (small → s'.thm = thmHold)
         else s'.thm = (if u.thm ≤ thmDerated then (if u.derated = true then thmDerated else thmNormal) else u.thm) ∧
          s'.fld Fld.thmMeasPAllowW 0 0 = Nat.min 65535 (u.allowance.num / Nat.max 1 u.allowance.den) ∧
          s'.fld Fld.thmStatusTCool 0 0 = u.coolLevel ∧
          s'.thermal.holdGood = (if u.thm = thmHold ∧ u.coolantGood = true then some (u.thermal.holdGood.getD u.now) else none))) ∧
    (∀ x, u.thm = thmHold → u.thermal.holdGood = some x → x + 10000000 * u.beatTicks ≤ u.now →
      ∃ s', exec (.holdExit t) s = .next s' ∧ s'.thermal.stopAt = none ∧ s'.thermal.holdGood = none ∧
        (small → s'.thm = if u.derated = true then thmDerated else thmNormal)) ∧
    (∀ level, u.supply ≠ supOff →
      ∃ s', exec (.flowLossN t level) s = .next s' ∧
        (if level = false ∧ u.mayStop = true then stopped 1 [] s'
         else s'.fld Fld.thmStatusFlowLossN 0 0 = (if level = true then 1 else 0) ∧ s' = { u with regs := s'.regs })) ∧
    (∀ p, let told := fun ok => Out.access p (Reg.thmStopClr.addr 0 0) ok
      ∃ s', exec (.stopClear t p) s = .next s' ∧
        (if p = .mgmt ∧ u.mayClear = true then s'.out.head? = some (told true) ∧
          (if u.thm = thmStopped then s'.thermal.stopAt = none ∧ s'.thermal.causes = [] ∧
            (small → s'.thm = if u.derated = true then thmDerated else thmNormal)
           else s' = u.send (told true))
         else s' = u.send (told false))) ∧
    (u.thermal.governor = true → u.supply = supOn → u.thm ≠ thmHold → u.thm ≠ thmStopped →
      let p := u.meanWatts 1000
      let old := u.fld Fld.thmSlewRefW 0 0
      let g := u.fld Fld.thmSlewGrantFactor 0 0
      let r := Nat.max (old - 4) (Nat.min p (old + 4))
      ∃ s', exec (.slewGovernor t) s = .next s' ∧ s'.fld Fld.thmSlewRefW 0 0 = r % 65536 ∧
        s'.fld Fld.thmSlewGrantFactor 0 0 =
          (if r + 500 < p then g - 1 else if p < r + 250 then Nat.min 64 (g + 1) else g) ∧
        s' = { u with regs := s'.regs, globalLog := s'.globalLog })

/-- HOT_LEVEL_STEP, HOT_OFF_MARK, REGION_HOT_OFF and HOT_RETURN. -/
def Obligations.HotRegionsGoDark : Prop :=
  ∀ (t q : Nat) (s : State), q < 1536 →
    let u := s.at t
    let lvl := u.fld Fld.cluThmHotLevel q 0
    let since := (u.cluster q).hotAt
    (supOn ≤ u.supply →
      let up := u.hot q = true ∧ lvl < 32 ∧ since + 100 * u.beatTicks ≤ u.now
      let down := u.hot q = false ∧ 0 < lvl ∧ u.coolBy 3 q = true ∧ since + 1000 * u.beatTicks ≤ u.now
      ∃ s', exec (.hotLevelStep t q) s = .next s' ∧
        s'.fld Fld.cluThmHotLevel q 0 = (if up then lvl + 1 else if down then lvl - 1 else lvl) ∧
        (s'.cluster q).hotAt = (if up ∨ down then u.now else since) ∧
        (u.domainOn q = true → s'.fld Fld.cluPwrStateThrottle q 0 = s'.throttleLevel q)) ∧
    (u.mayMark q = true →
      ∃ s', exec (.hotOffMark t q) s = .next s' ∧ OnlyCluster q u s' ∧ s'.cluster q = { u.cluster q with marked := true }) ∧
    (u.mayHotOff q = true →
      ∃ s', exec (.regionHotOff t q) s = .next s' ∧ (u.lpState = lpActive → s'.domain q = domDark ∧
        s'.fld Fld.cluThmState q 0 = 2 ∧
        CountsUp Fld.thmCntHotOffCount 0 0 u s' ∧ (s'.cluster q).regionOff = true ∧ (s'.cluster q).marked = false ∧
        (s'.cluster q).arrays = (u.cluster q).arrays ∧
        ∀ f, u.foldOf q = some f → ∃ r, (s'.fold f).replacing = some r ∧ r.cause = 0x2011 ∧ q ∈ r.lost)) ∧
    (∀ x, u.fld Fld.cluThmState q 0 = 2 → (u.fld Fld.cluThmSensorFail q 0 = 0 ∨ (u.substitute (.cluster q)).isSome = true) →
      (u.cluster q).coolSince = some x → x + 1000000 * u.beatTicks ≤ u.now →
      ∃ s', exec (.hotReturn t q) s = .next s' ∧ s'.fld Fld.cluThmState q 0 = 0 ∧ (s'.cluster q).coolSince = none ∧
        (u.domain q = domDark → u.bit Fld.glbLpOffMask 0 (q / 24) (q % 24) = false → u.mayWake = true →
          (u.hub (q / 24)).dead = false → s'.powerAsked q = true))

/-- HEARTBEAT, CLUSTER_FAIL, HEARTBEAT_LOST, ROUTES_DONE, STACK_FAIL, SPARE_TEST_END, REPLACE_DONE and RECORD_STREAM_SEND. The leave of
programming is that of log entry 115. -/
def Obligations.LossesAreHandled : Prop :=
  ∀ (t : Nat) (s : State),
    let u := s.at t
    (∀ x, validTile x = true →
      ∃ s', exec (.heartbeat t x) s = .next s' ∧
        (if (u.router x).dead = true then s' = u
         else s'.router x = { u.router x with beatAt := u.now } ∧ (∀ y, y ≠ x → s'.router y = u.router y) ∧
          (match clusterOfTile x with
           | some q => s'.out = Out.heartbeat x 1 (u.heartState q) :: u.out ∧ (s'.cluster q).beatAt = u.now
           | none => s'.out = Out.heartbeat x 1 0 :: u.out ∧ s'.clusters = u.clusters))) ∧
    (∀ q cause core, q < 1536 → u.position q ≠ posFailed → u.domain q ≠ domFailed → 1 ≤ cause → cause ≤ 4 →
      core.all (fun j => decide (j < 48)) = true →
      ∃ s', exec (.clusterFail t q cause core) s = .next s' ∧
        (match core with
         | none => s'.position q = posFailed
         | some j =>
          if tooManyFailed ((u.cluster q).coreFail ++ [j]) = true ∨ Config.aligns u.fresh (64 + q) = false then
            s'.position q = posFailed
          else (s'.cluster q).coreFail = (u.cluster q).coreFail ++ [j] ∧ s'.position q = u.position q)) ∧
    (∀ q y, q < 1536 → u.clusterSilent q = true →
      ∃ s', exec (.heartbeatLost t false q y) s = .next s' ∧ s'.position q = posFailed) ∧
    (∀ x y, validTile x = true → validTile y = true → u.routerSilent x y = true →
      ∃ s', exec (.heartbeatLost t true x y) s = .next s' ∧
        ((clusterOfTile x).isSome = true ∨ leaOfTile x ≠ 0 → (s'.router x).dead = true) ∧
        ∀ q, clusterOfTile x = some q → s'.position q = posFailed) ∧
    (∀ routes, routes.all (fun r => validTile r.1 && validTile r.2.1 && decide (r.2.2 < 5)) = true →
      u.routers.any (fun r => r.2.dead) = true →
      ∃ s', exec (.routesDone t routes) s = .next s' ∧
        s' = { u with regs := s'.regs, routers := s'.routers, globalLog := s'.globalLog } ∧
        s'.globalLog.recs.head?.map Rec.code = some 0x9014 ∧
        (∀ x, (∀ r ∈ routes, r.1 ≠ x) → s'.router x = u.router x) ∧
        ∀ x d p, routes = [(x, d, p)] →
          let rest := (u.router x).overrides.filter (fun e => e.1 != d)
          s'.router x = if rest.length < 16 then { u.router x with overrides := rest ++ [(d, p)] } else u.router x) ∧
    (∀ n, n < 64 → u.stackState n ≠ stackFailed → (u.hub n).dead = false →
      ∃ s', exec (.stackFail t n) s = .next s' ∧
        (u.lpState = lpActive → (∀ f ∈ Map.keys u.folds, f < 256) → s'.stackState n = stackFailed)) ∧
    (∀ q f pass, q < 1536 → u.pickedBy q = some f → u.domainOn q = true → (u.cluster q).testedOn = false →
      (u.hub (q / 24)).dead = false →
      ∃ s', exec (.spareTestEnd t q pass) s = .next s' ∧
        (if pass = true then (s'.cluster q).testedOn = true ∧ s'.folds = u.folds ∧
            s'.position q = (if u.position q = posSpare then posExposed else u.position q) ∧
            (u.position q = posSpare → u.countPos posExposed < u.gradeCount → ∀ x, x ≠ q → s'.position x = u.position x)
         else s'.position q = posFailed)) ∧
    (∀ f r im, f < 256 → (u.fold f).replacing = some r → (u.fold f).image = some im → u.foldState f = foldStopped →
      u.picksReady r = true → u.mayWake = true →
      ∃ s', exec (.replaceDone t f) s = .next s' ∧
        if u.codecReady (u.replacePrograms f r) = false then s' = u.askCodecs (u.replacePrograms f r)
        else ((s'.fold f).replacing = none ∨ (s'.fold f).replacing = some { r with picks := [], waits := true })) ∧
    (∀ l, l ≤ 64 → u.mayStream = true →
      let x := takeStreamed (u.streams (l == 64)) (if u.fld Fld.fltStreamCfgTarget 0 0 = 1 then 32 else 8)
        ((u.logAt l).recs.take (u.logAt l).unsent).reverse
      ∃ s', exec (.recordStreamSend t l) s = .next s' ∧ (s'.logAt l).recs = (u.logAt l).recs ∧
        (s'.logAt l).unsent = (u.logAt l).unsent - x.2 ∧
        (if x.1 = [] then s'.out = u.out ∧ s'.streamed = u.streamed
         else s'.out = Out.records l u.streamed x.1 :: u.out ∧ s'.streamed = (u.streamed + x.1.length) % 2 ^ 32 ∧
          s'.fld Fld.fltStreamStatSent 0 0 =
            Nat.min (u.fld Fld.fltStreamStatSent 0 0 + x.1.length) (2 ^ Fld.fltStreamStatSent.width - 1)))

/-- BOOT, REQUEST_UPDATE, VERIFY_COMPLETE, APPLY_COMPLETE, SETDASA, INSTALL_SIGNER, ERASE_SIGNER, INSTALL_SETUP_KEY,
EXPORT_KEYS, ATTEST, COMMIT_SVN, ATTEST_TREE_BUILD and SEAL. -/
def Obligations.BootAndKeys : Prop :=
  ∀ (t slot : Nat) (p : Path) (s : State),
    let u := s.at t
    let result := fun (s' : State) => s'.fld Fld.secStatusResult 0 0
    let open_ := p = .mgmt ∧ u.inReset = false
    let stopped := fun (s' : State) => result s' = resRefused ∧ s'.sec = u.sec ∧ s'.globalLog.recs.head?.map Rec.code = some 0x8001
    let told := Out.access p (Reg.secCmd.addr 0 0) (p == .mgmt)
    (∀ found, u.mayBoot = true →
      ∃ s', exec (.boot t found) s = .next s' ∧
        (match u.chosen with
         | some (b, _) =>
          if identityFound found = true ∧ found.unaligned.contains 0 = true then
            s'.inReset = true ∧ s'.fld Fld.glbBootStatusStep 0 0 = 5
          else if identityFound found = true then
            s'.inReset = false ∧ s'.fld Fld.glbBootStatusStep 0 0 = 9 ∧ s'.sec.identity = true ∧ s'.sec.attempts b = 0 ∧
            s'.sec.attempts (!b) = u.sec.attempts (!b) ∧ ∃ n, s'.reg .cliDbKey 0 0 = BitVec.ofNat 64 (Config.dbKey n).toNat
          else s'.fld Fld.glbBootStatusStep 0 0 = 2 ∧ s'.supply = supStandby ∧ s'.sec.halted = true ∧
            s'.sec.attempts b = u.sec.attempts b + 1
         | none => s'.fld Fld.glbBootStatusStep 0 0 = 2 ∧ s'.supply = supStandby ∧ s'.sec = { u.sec with halted := true })) ∧
    (u.mayUpdate = true →
      ∃ s', exec (.requestUpdate t) s = .next s' ∧ s'.sec.update = 1 ∧ s'.sec.transfer = some u.otherSlot ∧
        s'.sec.slot u.otherSlot = none ∧ s'.sec.slot (!u.otherSlot) = u.sec.slot (!u.otherSlot) ∧
        s'.fld Fld.secFwStagedIncomplete 0 0 = 1 ∧ s' = { u with regs := s'.regs, sec := s'.sec }) ∧
    (∀ img b, u.sec.transfer = some b → u.sec.update = 1 → u.supply ≠ supOff →
      ∃ s', exec (.verifyComplete t img) s = .next s' ∧
        (if supOn ≤ u.supply ∧ (u.imageFault img).isSome = true then s'.sec = { u.sec with update := 0 }
         else s'.sec = { u.sec.setSlot b (some img) with update := 2 } ∧ s'.fld Fld.secFwStagedIncomplete 0 0 = 0)) ∧
    (∀ b, u.sec.transfer = some b → u.sec.update = 2 → u.supply ≠ supOff →
      ∃ s', exec (.applyComplete t) s = .next s' ∧
        s'.sec = { u.sec with stagedB := some b, transfer := none, update := 0 } ∧ s'.fld Fld.secFwStagedStaged 0 0 = 1 ∧
        s'.globalLog.recs.head?.map Rec.code = some 0x8103) ∧
    (∀ addr, u.supply ≠ supOff → addr < 128 →
      ∃ s', exec (.setdasa t addr) s = .next s' ∧ s' = { u with sec := { u.sec with i3c := some addr } }) ∧
    (p ≠ .mgmt → exec (.installSigner t p slot) s = .next (u.send told) ∧ exec (.eraseSigner t p slot) s = .next (u.send told) ∧
      exec (.installSetupKey t p slot) s = .next (u.send told) ∧ exec (.exportKeys t p) s = .next (u.send told) ∧
      exec (.attest t p) s = .next (u.send told) ∧ exec (.commitSvn t p) s = .next (u.send told) ∧
      exec (.seal t p) s = .next (u.completes p (Reg.glbSeal.addr 0 0) false)) ∧
    (open_ → let k := u.keybuf.take 160
      ∃ s', exec (.installSigner t p slot) s = .next s' ∧
        (if u.sealed = true then stopped s'
         else if slot < 16 ∧ (sec1 (k.take 97)).isSome = true ∧ hssKeyOk (k.drop 100) = true then
          result s' = resDone ∧ s'.sec = { u.sec with signers := Map.put u.sec.signers slot k } ∧
          s'.bit Fld.secStatusSignerMap 0 0 slot = true
         else result s' = resRefused ∧ s' = { u with regs := s'.regs, out := told :: u.out })) ∧
    (open_ → ∃ s', exec (.eraseSigner t p slot) s = .next s' ∧
      (if u.sealed = true then stopped s'
       else if slot < 16 then result s' = resDone ∧ s'.sec = { u.sec with signers := Map.del u.sec.signers slot } ∧
        s'.bit Fld.secStatusSignerMap 0 0 slot = false
       else result s' = resRefused ∧ s' = { u with regs := s'.regs, out := told :: u.out })) ∧
    (open_ → slot < 256 → ∃ s', exec (.installSetupKey t p slot) s = .next s' ∧
      (match unwrapSetup (u.keybuf.take 160) with
       | none => result s' = resRefused ∧ s' = { u with regs := s'.regs, out := told :: u.out }
       | some key => result s' = resDone ∧ CountsUp Fld.secStatusSetupInstalls 0 0 u s' ∧
          s'.sec = { u.sec with setupKeys := Map.put u.sec.setupKeys slot (key, s'.fld Fld.secStatusSetupInstalls 0 0) } ∧
          ∀ n, n < 64 → (u.hub n).dead = false → Map.find (s'.hub n).keys slot = some ⟨none, key⟩)) ∧
    (open_ → ∃ s', exec (.exportKeys t p) s = .next s' ∧ result s' = resDone ∧
      s'.keybuf = toBytes 512 (Config.identityStatement u.fresh).toNat ∧ s'.sec = u.sec) ∧
    (open_ → let nonce := u.keybuf.take 32
      ∃ s', exec (.attest t p) s = .next s' ∧
        (if u.sec.attesting.isSome = true ∨ u.indicesSpent = true then result s' = resRefused ∧ s' = { u with regs := s'.regs, out := told :: u.out }
         else if u.needsTree = true ∧ u.treeReady = false then
          result s' = resBusy ∧ s'.sec = { u.sec with attesting := some nonce } ∧ s'.out = told :: u.out
         else result s' = resDone ∧ s'.nextIndex = (u.nextIndex + 1) % 2 ^ 40 ∧ u.nextIndex < s'.sec.reserved ∧
          s'.sec.attesting = none ∧ ∃ b, s'.out = told :: Out.report outAttest b :: u.out)) ∧
    (open_ → ∃ s', exec (.commitSvn t p) s = .next s' ∧
      (if u.sealed = true then stopped s'
       else result s' = resDone ∧ s'.fld Fld.secFwMinSvn 0 0 = u.fld Fld.secFwSvn 0 0 ∧
        s' = { u with regs := s'.regs, store := s'.store, out := told :: u.out } ∧
        s'.store = { u.store with seq := (u.store.seq + 1) % 2 ^ 64 })) ∧
    (u.mayBuildTree = true →
      ∃ s', exec (.attestTreeBuild t) s = .next s' ∧ s'.sec.attesting = none ∧
        (if u.sec.attesting = none then s'.treeReady = true ∧ s' = { u with regs := s'.regs }
         else s'.nextIndex = (u.nextIndex + 1) % 2 ^ 40 ∧ ∃ b, s'.out = Out.report outAttest b :: u.out)) ∧
    (p = .mgmt → ∃ s', exec (.seal t p) s = .next s' ∧ s'.sealed = true ∧
      s' = { u with regs := s'.regs, globalLog := s'.globalLog }.completes p (Reg.glbSeal.addr 0 0) true)

/-- COLD, WARM, LEA, CLUSTER, FOLD, LINK, CHIEF_WATCHDOG, STEWARD_WATCHDOG, STOP_N, STOP_N_RELEASE, STANDBY, ACTIVE, REGION_OFF
and IDLENESS_SWITCH_OFF. -/
def Obligations.ResetsAndLowPower : Prop :=
  ∀ (t n : Nat) (p : Path) (s : State),
    let u := s.at t
    let small := ∀ f ∈ Map.keys u.folds, f < 256
    let shows := fun (cls cause : Nat) (s' : State) =>
      s'.fld Fld.glbResetCauseClass 0 0 = cls ∧ s'.fld Fld.glbResetCauseCause 0 0 = cause
    let whole := fun (cls cause : Nat) (s' : State) => shows cls cause s' ∧ s'.inReset = true ∧ s'.restore.bootClass = cls ∧
      s'.restore.bootCause = cause ∧ s'.cores = [] ∧ s'.packets = [] ∧ s'.windows = [] ∧ s'.inbox = [] ∧
      s'.transits = [] ∧ s'.relays = [] ∧ s'.early = []
    let leaEnds := fun (cause : Nat) (s' : State) =>
      if Config.aligns u.fresh n = true then shows clsL cause s' ∧ s'.bit Fld.timAlignStatusAligned 0 0 n = true
      else if n = 0 then shows clsP 4 s' ∧ s'.inReset = true
      else shows clsL cause s' ∧ (s'.hub n).dead = true ∧ s'.bit Fld.timAlignStatusAligned 0 0 n = false
    let ctl := Reg.glbResetCtl.addr 0 0
    (if p = .mgmt ∧ u.mayCold = true then ∃ s' : State, exec (.cold t p) s = .next (s'.completes p ctl true) ∧ whole clsP 7 s'
     else exec (.cold t p) s = .next (u.completes p ctl false)) ∧
    (if p = .mgmt ∧ u.mayReset = true then ∃ s' : State, exec (.warm t p) s = .next (s'.completes p ctl true) ∧ whole clsW 16 s'
     else exec (.warm t p) s = .next (u.completes p ctl false)) ∧
    (∃ s', exec (.chiefWatchdog t) s = .next s' ∧ (if u.mayReset = true then whole clsW 17 s' else s' = u)) ∧
    (n < 64 → if u.mayResetLea n = true then
        ∃ s' : State, exec (.lea t p n) s = .next (s'.completes p ctl true) ∧ (small → leaEnds 32 s')
      else exec (.lea t p n) s = .next (u.completes p ctl false)) ∧
    (n < 64 → ∃ s', exec (.stewardWatchdog t n) s = .next s' ∧
      (if u.mayResetLea n = true then small → leaEnds 33 s' else s' = u)) ∧
    (n < 1536 → if u.mayResetCluster n = true then
        ∃ s' : State, exec (.cluster t p n) s = .next (s'.completes p ctl true) ∧ (small → shows clsC 48 s' ∧
          (Config.aligns u.fresh (64 + n) = false → s'.position n = posFailed))
      else exec (.cluster t p n) s = .next (u.completes p ctl false)) ∧
    (n < 256 → if u.mayReset = true then
        ∃ s' : State, exec (.fold t p n) s = .next (s'.completes p ctl true) ∧
          (small → (Map.keys u.regs).Pairwise (· < ·) → shows clsF 64 s')
      else exec (.fold t p n) s = .next (u.completes p ctl false)) ∧
    (n < 96 → if u.mayResetLink n = true then
        ∃ s' : State, exec (.link t p n) s = .next (s'.completes p ctl true) ∧ (small → shows 6 80 s' ∧ (s'.linkOf n).trainAt = u.now ∧
          s'.lnkState n = (if (s'.linkOf n).kReset.isSome = true then lnkTraining else lnkDown))
      else exec (.link t p n) s = .next (u.completes p ctl false)) ∧
    (∃ s', exec (.stopN t) s = .next s' ∧
      (if u.supply ≠ supOff ∧ u.power.stopHeld = false then s'.power.stopHeld = true ∧ (u.railsUp = true → shows clsP 6 s' ∧
          s'.inReset = true ∧ s'.cores = [])
       else s' = u)) ∧
    (∃ s', exec (.stopNRelease t) s = .next s' ∧
      (if u.power.stopHeld = true then s' = { u with
          power := { u.power with stopHeld := false }, restore := { u.restore with bootAt := u.now } }
       else s' = u)) ∧
    let lp := Reg.glbLpCtl.addr 0 0
    let multi := (List.range 256).any (fun f => u.foldState f == foldRunning && u.multi f)
    (u.inReset = true → exec (.standby t p) s = .next (u.completes p lp false) ∧
      exec (.active t p) s = .next (u.completes p lp false)) ∧
    (u.inReset = false → multi = true → exec (.standby t p) s = .next (u.completes p lp false)) ∧
    (u.inReset = false → multi = false →
      ∃ s' : State, exec (.standby t p) s = .next (s'.completes p lp true) ∧ (small → s'.fld Fld.glbLpCtlState 0 0 = 1) ∧
        (u.folds = [] → u.lpState = lpActive → s'.lpState = lpStandby ∧
          CountsUp Fld.glbLpStatusStandbyCount 0 0 u s' ∧ ∀ q, q < 1536 → s'.domainOn q = false)) ∧
    (u.inReset = false →
      ∃ s' : State, exec (.active t p) s = .next (s'.completes p lp true) ∧
        (small → (∀ f ∈ u.restore.standbyFolds, f < 256) → s'.fld Fld.glbLpCtlState 0 0 = 0 ∧
          (u.lpState = lpStandby → s'.lpState = lpLeaving ∨ s'.lpState = lpActive))) ∧
    (∀ k, n < 64 → k < 24 →
      let v := u.reg .glbLpOff 0 n ||| BitVec.ofNat 64 (2 ^ k)
      let busy := (maskClusters n v).any (fun q => (u.foldOf q).any u.foldBusy)
      if busy = true then exec (.regionOff t p n k) s = .next (u.completes p (Reg.glbLpOff.addr 0 n) false)
      else ∃ s' : State, exec (.regionOff t p n k) s = .next (s'.completes p (Reg.glbLpOff.addr 0 n) true) ∧
        (u.lpState = lpActive → s'.bit Fld.glbLpOffMask 0 n k = true ∧ s'.domainOn (24 * n + k) = false)) ∧
    (n < 1536 → u.mayIdleOff n = true →
      ∃ s', exec (.idlenessSwitchOff t n) s = .next s' ∧ s'.domain n = domDark ∧ (s'.cluster n).regionOff = true ∧
        ∀ m, m ≠ n → m < 1536 → s'.domain m = u.domain m)

/-- REGISTER_WRITE, for the registers whose write starts nothing. -/
def Obligations.SetupWritesAreJudged : Prop :=
  ∀ (t addr width : Nat) (p : Path) (v : Word) (s : State),
    let u := s.at t
    let own : List Reg := [.timFoldCfg, .glbLpCtl, .glbLpOff, .glbSeal, .secCmd, .glbResetCtl, .thmStopClr, .thmCoolant, .cluPwrVmin,
      .fltReserve, .lnkCfg, .cluPartBanks, .cluPartCfg, .cluArrLayerCfg, .cluArrLayerSeed, .cluArrLayerNum, .hubStkRegion,
      .hubStkRegionCfg, .cliEpCfg, .cliEpSubVa, .cliEpCmpVa, .cliEpKeys, .timSrcCtl, .hubPwrBudget, .timPpsTai]
    (u.reach addr width = none → exec (.registerWrite t p addr width v) s = .next (u.completes p addr false)) ∧
    ((width ≠ 64 ∨ addr % 8 ≠ 0) → exec (.registerWrite t p addr width v) s = .next (u.completes p addr false)) ∧
    (∀ r x i, u.reach addr width = some (r, x, i) →
      ∃ (s' : State) (ok : Bool), exec (.registerWrite t p addr width v) s = .next (s'.completes p addr ok) ∧
        (p ≠ .mgmt → (r = .glbSeal ∨ r = .secCmd ∨ r = .thmStopClr) → s' = u ∧ ok = false) ∧
        (own.contains r = false →
          if u.sealed = true ∧ r.changesLocked (u.reg r x i) v = true then
            ok = false ∧ s' = { u with regs := s'.regs, globalLog := s'.globalLog } ∧
            s'.globalLog.recs.head?.map Rec.code = some 0x8001 ∧ s'.globalLog.recs.head?.map Rec.p0 = some (r.addr x i % 2 ^ 64)
          else if r.ranges.any (outsideRange (u.readWord r x i) v) = true ∨ u.conditionBad r x i v = true then s' = u ∧ ok = false
          else OnlyReg (r.addr x i) u s' ∧ s'.reg r x i = r.written (u.reg r x i) v ∧ ok = true) ∧
        (r = .glbSeal → p = .mgmt → v.getLsbD 0 = true → s'.sealed = true) ∧
        (r = .thmCoolant → s'.thermal.trayAt = some u.now) ∧
        (r = .cluPwrVmin → v.getLsbD 63 = true → s'.fld Fld.cluPwrVminValid x 0 = 0) ∧
        (r = .hubPwrBudget → u.sealed = false → u.conditionBad r x i v = false →
          r.ranges.any (outsideRange (u.readWord r x i) v) = false →
          s'.fld Fld.hubPwrBudgetBudget x 0 = u.clampB x (getBits v 0 11)) ∧
        (r = .cliEpSubVa → u.sealed = false → u.epBusy = false →
          (s'.endpoint u.selEp).subVa = v ∧ ∀ y, y ≠ u.selEp → s'.endpoint y = u.endpoint y))
end

