-- ==== Sys2Proof/Laws/Maps.lean ====
section
/-! SUPPORT. What each operation on a sparse store does: what is read afterwards, and that the canonical form is kept. -/

namespace Sys2Proof

/-! ### What is read afterwards -/

@[simp] theorem Map.find_put {α : Type} (m : Map α) (k : Nat) (v : α) (j : Nat) :
    Map.find (Map.put m k v) j = if j = k then some v else Map.find m j := by
  induction m with
  | nil => simp [Map.put, Map.find]
  | cons e r ih =>
    obtain ⟨a, x⟩ := e
    simp only [Map.put]
    split
    · simp [Map.find]
    · split
      · rename_i h; subst h; simp only [Map.find]; split <;> simp_all
      · simp only [Map.find, ih]; split <;> split <;> simp_all

@[simp] theorem Map.find_del {α : Type} (m : Map α) (k j : Nat) :
    Map.find (Map.del m k) j = if j = k then none else Map.find m j := by
  induction m with
  | nil => simp [Map.del, Map.find]
  | cons e r ih =>
    obtain ⟨a, x⟩ := e
    simp only [Map.del]
    split
    · rename_i h; subst h; simp only [ih, Map.find]; split <;> simp_all
    · simp only [Map.find, ih]; split <;> split <;> simp_all

/-- Reading after writing. -/
@[simp] theorem Map.get_set {α : Type} [DecidableEq α] (d : α) (m : Map α) (k : Nat) (v : α) (j : Nat) :
    Map.get d (Map.set d m k v) j = if j = k then v else Map.get d m j := by
  unfold Map.get Map.set
  by_cases hv : v = d <;> by_cases hj : j = k <;> simp [hv, hj]

theorem Map.find_set_ne {α : Type} [DecidableEq α] (d : α) (m : Map α) (k : Nat) (v : α) (j : Nat) (h : j ≠ k) :
    Map.find (Map.set d m k v) j = Map.find m j := by
  unfold Map.set; split <;> simp [h]

@[simp] theorem Map.find_nil {α : Type} (k : Nat) : Map.find ([] : Map α) k = none := rfl
@[simp] theorem Map.get_nil {α : Type} (d : α) (k : Nat) : Map.get d ([] : Map α) k = d := rfl

@[simp] theorem Map.find_drop {α : Type} (m : Map α) (p : Nat → Bool) (j : Nat) :
    Map.find (Map.drop m p) j = if p j then none else Map.find m j := by
  induction m with
  | nil => simp [Map.drop, Map.find]
  | cons e r ih =>
    obtain ⟨a, x⟩ := e
    simp only [Map.drop] at ih
    by_cases hp : p a
    · simp only [Map.drop, List.filter, hp, Bool.not_true, ih, Map.find]
      by_cases hj : j = a <;> simp_all
    · simp only [Map.drop, List.filter, hp, Bool.not_false, Map.find, ih]
      split <;> split <;> simp_all

/-! ### The canonical form -/

/-- A store whose keys lie above `lo` still is canonical above a lower bound. -/
theorem Map.wfFrom_lower {α : Type} [DecidableEq α] {d : α} {m : Map α} {lo lo' : Option Nat}
    (hl : ∀ x, lo' = some x → ∃ y, lo = some y ∧ x ≤ y) (h : Map.wfFrom d lo m = true) : Map.wfFrom d lo' m = true := by
  cases m with
  | nil => rfl
  | cons e r =>
    obtain ⟨a, x⟩ := e
    simp only [Map.wfFrom, Bool.and_eq_true] at h ⊢
    refine ⟨⟨?_, h.1.2⟩, h.2⟩
    cases lo' with
    | none => rfl
    | some z =>
      obtain ⟨y, rfl, hzy⟩ := hl z rfl
      have h1 := h.1.1
      simp only [Option.all_some, decide_eq_true_eq] at h1 ⊢
      omega

theorem Map.wfFrom_put {α : Type} [DecidableEq α] {d : α} {m : Map α} {lo : Option Nat} {k : Nat} {v : α}
    (hk : lo.all (fun l => decide (l < k)) = true) (hv : v ≠ d) (h : Map.wfFrom d lo m = true) :
    Map.wfFrom d lo (Map.put m k v) = true := by
  induction m generalizing lo with
  | nil => simp [Map.put, Map.wfFrom, hk, hv]
  | cons e r ih =>
    obtain ⟨a, x⟩ := e
    simp only [Map.wfFrom, Bool.and_eq_true, decide_eq_true_eq] at h
    simp only [Map.put]
    split
    · rename_i hka
      simp [Map.wfFrom, hk, hv, hka, h.1.2, h.2]
    · split
      · rename_i hka; subst hka
        simp [Map.wfFrom, hk, hv, h.2]
      · have hak : a < k := by omega
        simp only [Map.wfFrom, Bool.and_eq_true, decide_eq_true_eq]
        exact ⟨h.1, ih (by simpa using hak) h.2⟩

theorem Map.wfFrom_del {α : Type} [DecidableEq α] {d : α} {m : Map α} {lo : Option Nat} {k : Nat}
    (h : Map.wfFrom d lo m = true) : Map.wfFrom d lo (Map.del m k) = true := by
  induction m generalizing lo with
  | nil => rfl
  | cons e r ih =>
    obtain ⟨a, x⟩ := e
    simp only [Map.wfFrom, Bool.and_eq_true, decide_eq_true_eq] at h
    simp only [Map.del]
    split
    · refine ih (Map.wfFrom_lower ?_ h.2)
      rintro z rfl
      have h1 := h.1.1
      simp only [Option.all_some, decide_eq_true_eq] at h1
      exact ⟨a, rfl, by omega⟩
    · simp only [Map.wfFrom, Bool.and_eq_true, decide_eq_true_eq]
      exact ⟨h.1, ih h.2⟩

theorem Map.wfFrom_drop {α : Type} [DecidableEq α] {d : α} {m : Map α} {lo : Option Nat} {p : Nat → Bool}
    (h : Map.wfFrom d lo m = true) : Map.wfFrom d lo (Map.drop m p) = true := by
  induction m generalizing lo with
  | nil => rfl
  | cons e r ih =>
    obtain ⟨a, x⟩ := e
    simp only [Map.wfFrom, Bool.and_eq_true, decide_eq_true_eq] at h
    simp only [Map.drop] at ih ⊢
    by_cases hp : p a
    · simp only [List.filter, hp, Bool.not_true]
      refine ih (Map.wfFrom_lower ?_ h.2)
      rintro z rfl
      have h1 := h.1.1
      simp only [Option.all_some, decide_eq_true_eq] at h1
      exact ⟨a, rfl, by omega⟩
    · simp only [List.filter, hp, Bool.not_false, Map.wfFrom, Bool.and_eq_true, decide_eq_true_eq]
      exact ⟨h.1, ih h.2⟩

/-- Writing keeps the canonical form. -/
theorem Map.wf_set {α : Type} [DecidableEq α] {d : α} {m : Map α} {k : Nat} {v : α} (h : Map.wf d m = true) :
    Map.wf d (Map.set d m k v) = true := by
  unfold Map.set; split
  · exact Map.wfFrom_del h
  · rename_i hv; exact Map.wfFrom_put rfl hv h

theorem Map.wf_del {α : Type} [DecidableEq α] {d : α} {m : Map α} {k : Nat} (h : Map.wf d m = true) :
    Map.wf d (Map.del m k) = true := Map.wfFrom_del h

theorem Map.wf_drop {α : Type} [DecidableEq α] {d : α} {m : Map α} {p : Nat → Bool} (h : Map.wf d m = true) :
    Map.wf d (Map.drop m p) = true := Map.wfFrom_drop h

theorem Map.wf_nil {α : Type} [DecidableEq α] {d : α} : Map.wf d ([] : Map α) = true := rfl

theorem Map.wf_setList {α : Type} [DecidableEq α] {d : α} {m : Map α} {k : Nat} {vs : List α} (h : Map.wf d m = true) :
    Map.wf d (Map.setList d m k vs) = true := by
  induction vs generalizing m k with
  | nil => exact h
  | cons v r ih => exact ih (Map.wf_set h)

theorem Map.wf_mapOn {α : Type} [DecidableEq α] {d : α} {m : Map α} {p : Nat → Bool} {f : α → α} (h : Map.wf d m = true) :
    Map.wf d (Map.mapOn d m p f) = true := by
  have key : ∀ (l : List (Nat × α)) (acc : Map α), Map.wf d acc = true →
      Map.wf d (l.foldl (fun acc e => if p e.1 then Map.set d acc e.1 (f e.2) else acc) acc) = true := by
    intro l
    induction l with
    | nil => intro acc ha; exact ha
    | cons e r ih =>
      intro acc ha
      refine ih _ ?_
      by_cases hp : p e.1 <;> simp only [hp, if_true] <;> first | exact Map.wf_set ha | exact ha
  exact key m m h

end Sys2Proof
end

