-- ==== Sys2Proof/Laws/State.lean ====
section
/-! SUPPORT. What each update of the state leaves: for every update and every field of the state, and for every part that
an accessor reads, one lemma. -/

namespace Sys2Proof.Machine

/-! ### `State.at` -/

@[simp] theorem State.at_pending (s : State) (t : Nat) : (s.at t).pending = s.pending := rfl
@[simp] theorem State.at_funcs (s : State) (t : Nat) : (s.at t).funcs = s.funcs := rfl
@[simp] theorem State.at_now (s : State) (t : Nat) : (s.at t).now = Nat.max s.now t := rfl
@[simp] theorem State.at_fresh (s : State) (t : Nat) : (s.at t).fresh = s.fresh := rfl
@[simp] theorem State.at_nextTag (s : State) (t : Nat) : (s.at t).nextTag = s.nextTag := rfl
@[simp] theorem State.at_regs (s : State) (t : Nat) : (s.at t).regs = s.regs := rfl
@[simp] theorem State.at_positions (s : State) (t : Nat) : (s.at t).positions = s.positions := rfl
@[simp] theorem State.at_time (s : State) (t : Nat) : (s.at t).time = s.time := rfl
@[simp] theorem State.at_cores (s : State) (t : Nat) : (s.at t).cores = s.cores := rfl
@[simp] theorem State.at_clusters (s : State) (t : Nat) : (s.at t).clusters = s.clusters := rfl
@[simp] theorem State.at_routers (s : State) (t : Nat) : (s.at t).routers = s.routers := rfl
@[simp] theorem State.at_packets (s : State) (t : Nat) : (s.at t).packets = s.packets := rfl
@[simp] theorem State.at_hubs (s : State) (t : Nat) : (s.at t).hubs = s.hubs := rfl
@[simp] theorem State.at_drams (s : State) (t : Nat) : (s.at t).drams = s.drams := rfl
@[simp] theorem State.at_folds (s : State) (t : Nat) : (s.at t).folds = s.folds := rfl
@[simp] theorem State.at_entries (s : State) (t : Nat) : (s.at t).entries = s.entries := rfl
@[simp] theorem State.at_mirrors (s : State) (t : Nat) : (s.at t).mirrors = s.mirrors := rfl
@[simp] theorem State.at_shown (s : State) (t : Nat) : (s.at t).shown = s.shown := rfl
@[simp] theorem State.at_blanked (s : State) (t : Nat) : (s.at t).blanked = s.blanked := rfl
@[simp] theorem State.at_endpoints (s : State) (t : Nat) : (s.at t).endpoints = s.endpoints := rfl
@[simp] theorem State.at_models (s : State) (t : Nat) : (s.at t).models = s.models := rfl
@[simp] theorem State.at_rebuilds (s : State) (t : Nat) : (s.at t).rebuilds = s.rebuilds := rfl
@[simp] theorem State.at_links (s : State) (t : Nat) : (s.at t).links = s.links := rfl
@[simp] theorem State.at_ports (s : State) (t : Nat) : (s.at t).ports = s.ports := rfl
@[simp] theorem State.at_windows (s : State) (t : Nat) : (s.at t).windows = s.windows := rfl
@[simp] theorem State.at_remotes (s : State) (t : Nat) : (s.at t).remotes = s.remotes := rfl
@[simp] theorem State.at_inbox (s : State) (t : Nat) : (s.at t).inbox = s.inbox := rfl
@[simp] theorem State.at_transits (s : State) (t : Nat) : (s.at t).transits = s.transits := rfl
@[simp] theorem State.at_relays (s : State) (t : Nat) : (s.at t).relays = s.relays := rfl
@[simp] theorem State.at_early (s : State) (t : Nat) : (s.at t).early = s.early := rfl
@[simp] theorem State.at_power (s : State) (t : Nat) : (s.at t).power = s.power := rfl
@[simp] theorem State.at_thermal (s : State) (t : Nat) : (s.at t).thermal = s.thermal := rfl
@[simp] theorem State.at_sec (s : State) (t : Nat) : (s.at t).sec = s.sec := rfl
@[simp] theorem State.at_store (s : State) (t : Nat) : (s.at t).store = s.store := rfl
@[simp] theorem State.at_restore (s : State) (t : Nat) : (s.at t).restore = s.restore := rfl
@[simp] theorem State.at_globalLog (s : State) (t : Nat) : (s.at t).globalLog = s.globalLog := rfl
@[simp] theorem State.at_streamed (s : State) (t : Nat) : (s.at t).streamed = s.streamed := rfl
@[simp] theorem State.at_out (s : State) (t : Nat) : (s.at t).out = s.out := rfl

/-! ### `State.setCore` -/

@[simp] theorem State.setCore_pending (s : State) (c : Nat) (x : Core) : (s.setCore c x).pending = s.pending := rfl
@[simp] theorem State.setCore_funcs (s : State) (c : Nat) (x : Core) : (s.setCore c x).funcs = s.funcs := rfl
@[simp] theorem State.setCore_now (s : State) (c : Nat) (x : Core) : (s.setCore c x).now = s.now := rfl
@[simp] theorem State.setCore_fresh (s : State) (c : Nat) (x : Core) : (s.setCore c x).fresh = s.fresh := rfl
@[simp] theorem State.setCore_nextTag (s : State) (c : Nat) (x : Core) : (s.setCore c x).nextTag = s.nextTag := rfl
@[simp] theorem State.setCore_regs (s : State) (c : Nat) (x : Core) : (s.setCore c x).regs = s.regs := rfl
@[simp] theorem State.setCore_positions (s : State) (c : Nat) (x : Core) : (s.setCore c x).positions = s.positions := rfl
@[simp] theorem State.setCore_time (s : State) (c : Nat) (x : Core) : (s.setCore c x).time = s.time := rfl
@[simp] theorem State.setCore_cores (s : State) (c : Nat) (x : Core) : (s.setCore c x).cores = Map.set Core.reset s.cores c x := rfl
@[simp] theorem State.setCore_clusters (s : State) (c : Nat) (x : Core) : (s.setCore c x).clusters = s.clusters := rfl
@[simp] theorem State.setCore_routers (s : State) (c : Nat) (x : Core) : (s.setCore c x).routers = s.routers := rfl
@[simp] theorem State.setCore_packets (s : State) (c : Nat) (x : Core) : (s.setCore c x).packets = s.packets := rfl
@[simp] theorem State.setCore_hubs (s : State) (c : Nat) (x : Core) : (s.setCore c x).hubs = s.hubs := rfl
@[simp] theorem State.setCore_drams (s : State) (c : Nat) (x : Core) : (s.setCore c x).drams = s.drams := rfl
@[simp] theorem State.setCore_folds (s : State) (c : Nat) (x : Core) : (s.setCore c x).folds = s.folds := rfl
@[simp] theorem State.setCore_entries (s : State) (c : Nat) (x : Core) : (s.setCore c x).entries = s.entries := rfl
@[simp] theorem State.setCore_mirrors (s : State) (c : Nat) (x : Core) : (s.setCore c x).mirrors = s.mirrors := rfl
@[simp] theorem State.setCore_shown (s : State) (c : Nat) (x : Core) : (s.setCore c x).shown = s.shown := rfl
@[simp] theorem State.setCore_blanked (s : State) (c : Nat) (x : Core) : (s.setCore c x).blanked = s.blanked := rfl
@[simp] theorem State.setCore_endpoints (s : State) (c : Nat) (x : Core) : (s.setCore c x).endpoints = s.endpoints := rfl
@[simp] theorem State.setCore_models (s : State) (c : Nat) (x : Core) : (s.setCore c x).models = s.models := rfl
@[simp] theorem State.setCore_rebuilds (s : State) (c : Nat) (x : Core) : (s.setCore c x).rebuilds = s.rebuilds := rfl
@[simp] theorem State.setCore_links (s : State) (c : Nat) (x : Core) : (s.setCore c x).links = s.links := rfl
@[simp] theorem State.setCore_ports (s : State) (c : Nat) (x : Core) : (s.setCore c x).ports = s.ports := rfl
@[simp] theorem State.setCore_windows (s : State) (c : Nat) (x : Core) : (s.setCore c x).windows = s.windows := rfl
@[simp] theorem State.setCore_remotes (s : State) (c : Nat) (x : Core) : (s.setCore c x).remotes = s.remotes := rfl
@[simp] theorem State.setCore_inbox (s : State) (c : Nat) (x : Core) : (s.setCore c x).inbox = s.inbox := rfl
@[simp] theorem State.setCore_transits (s : State) (c : Nat) (x : Core) : (s.setCore c x).transits = s.transits := rfl
@[simp] theorem State.setCore_relays (s : State) (c : Nat) (x : Core) : (s.setCore c x).relays = s.relays := rfl
@[simp] theorem State.setCore_early (s : State) (c : Nat) (x : Core) : (s.setCore c x).early = s.early := rfl
@[simp] theorem State.setCore_power (s : State) (c : Nat) (x : Core) : (s.setCore c x).power = s.power := rfl
@[simp] theorem State.setCore_thermal (s : State) (c : Nat) (x : Core) : (s.setCore c x).thermal = s.thermal := rfl
@[simp] theorem State.setCore_sec (s : State) (c : Nat) (x : Core) : (s.setCore c x).sec = s.sec := rfl
@[simp] theorem State.setCore_store (s : State) (c : Nat) (x : Core) : (s.setCore c x).store = s.store := rfl
@[simp] theorem State.setCore_restore (s : State) (c : Nat) (x : Core) : (s.setCore c x).restore = s.restore := rfl
@[simp] theorem State.setCore_globalLog (s : State) (c : Nat) (x : Core) : (s.setCore c x).globalLog = s.globalLog := rfl
@[simp] theorem State.setCore_streamed (s : State) (c : Nat) (x : Core) : (s.setCore c x).streamed = s.streamed := rfl
@[simp] theorem State.setCore_out (s : State) (c : Nat) (x : Core) : (s.setCore c x).out = s.out := rfl

/-! ### `State.modCore` -/

@[simp] theorem State.modCore_pending (s : State) (c : Nat) (f : Core → Core) : (s.modCore c f).pending = s.pending := rfl
@[simp] theorem State.modCore_funcs (s : State) (c : Nat) (f : Core → Core) : (s.modCore c f).funcs = s.funcs := rfl
@[simp] theorem State.modCore_now (s : State) (c : Nat) (f : Core → Core) : (s.modCore c f).now = s.now := rfl
@[simp] theorem State.modCore_fresh (s : State) (c : Nat) (f : Core → Core) : (s.modCore c f).fresh = s.fresh := rfl
@[simp] theorem State.modCore_nextTag (s : State) (c : Nat) (f : Core → Core) : (s.modCore c f).nextTag = s.nextTag := rfl
@[simp] theorem State.modCore_regs (s : State) (c : Nat) (f : Core → Core) : (s.modCore c f).regs = s.regs := rfl
@[simp] theorem State.modCore_positions (s : State) (c : Nat) (f : Core → Core) : (s.modCore c f).positions = s.positions := rfl
@[simp] theorem State.modCore_time (s : State) (c : Nat) (f : Core → Core) : (s.modCore c f).time = s.time := rfl
@[simp] theorem State.modCore_cores (s : State) (c : Nat) (f : Core → Core) : (s.modCore c f).cores = Map.set Core.reset s.cores c (f (s.core c)) := rfl
@[simp] theorem State.modCore_clusters (s : State) (c : Nat) (f : Core → Core) : (s.modCore c f).clusters = s.clusters := rfl
@[simp] theorem State.modCore_routers (s : State) (c : Nat) (f : Core → Core) : (s.modCore c f).routers = s.routers := rfl
@[simp] theorem State.modCore_packets (s : State) (c : Nat) (f : Core → Core) : (s.modCore c f).packets = s.packets := rfl
@[simp] theorem State.modCore_hubs (s : State) (c : Nat) (f : Core → Core) : (s.modCore c f).hubs = s.hubs := rfl
@[simp] theorem State.modCore_drams (s : State) (c : Nat) (f : Core → Core) : (s.modCore c f).drams = s.drams := rfl
@[simp] theorem State.modCore_folds (s : State) (c : Nat) (f : Core → Core) : (s.modCore c f).folds = s.folds := rfl
@[simp] theorem State.modCore_entries (s : State) (c : Nat) (f : Core → Core) : (s.modCore c f).entries = s.entries := rfl
@[simp] theorem State.modCore_mirrors (s : State) (c : Nat) (f : Core → Core) : (s.modCore c f).mirrors = s.mirrors := rfl
@[simp] theorem State.modCore_shown (s : State) (c : Nat) (f : Core → Core) : (s.modCore c f).shown = s.shown := rfl
@[simp] theorem State.modCore_blanked (s : State) (c : Nat) (f : Core → Core) : (s.modCore c f).blanked = s.blanked := rfl
@[simp] theorem State.modCore_endpoints (s : State) (c : Nat) (f : Core → Core) : (s.modCore c f).endpoints = s.endpoints := rfl
@[simp] theorem State.modCore_models (s : State) (c : Nat) (f : Core → Core) : (s.modCore c f).models = s.models := rfl
@[simp] theorem State.modCore_rebuilds (s : State) (c : Nat) (f : Core → Core) : (s.modCore c f).rebuilds = s.rebuilds := rfl
@[simp] theorem State.modCore_links (s : State) (c : Nat) (f : Core → Core) : (s.modCore c f).links = s.links := rfl
@[simp] theorem State.modCore_ports (s : State) (c : Nat) (f : Core → Core) : (s.modCore c f).ports = s.ports := rfl
@[simp] theorem State.modCore_windows (s : State) (c : Nat) (f : Core → Core) : (s.modCore c f).windows = s.windows := rfl
@[simp] theorem State.modCore_remotes (s : State) (c : Nat) (f : Core → Core) : (s.modCore c f).remotes = s.remotes := rfl
@[simp] theorem State.modCore_inbox (s : State) (c : Nat) (f : Core → Core) : (s.modCore c f).inbox = s.inbox := rfl
@[simp] theorem State.modCore_transits (s : State) (c : Nat) (f : Core → Core) : (s.modCore c f).transits = s.transits := rfl
@[simp] theorem State.modCore_relays (s : State) (c : Nat) (f : Core → Core) : (s.modCore c f).relays = s.relays := rfl
@[simp] theorem State.modCore_early (s : State) (c : Nat) (f : Core → Core) : (s.modCore c f).early = s.early := rfl
@[simp] theorem State.modCore_power (s : State) (c : Nat) (f : Core → Core) : (s.modCore c f).power = s.power := rfl
@[simp] theorem State.modCore_thermal (s : State) (c : Nat) (f : Core → Core) : (s.modCore c f).thermal = s.thermal := rfl
@[simp] theorem State.modCore_sec (s : State) (c : Nat) (f : Core → Core) : (s.modCore c f).sec = s.sec := rfl
@[simp] theorem State.modCore_store (s : State) (c : Nat) (f : Core → Core) : (s.modCore c f).store = s.store := rfl
@[simp] theorem State.modCore_restore (s : State) (c : Nat) (f : Core → Core) : (s.modCore c f).restore = s.restore := rfl
@[simp] theorem State.modCore_globalLog (s : State) (c : Nat) (f : Core → Core) : (s.modCore c f).globalLog = s.globalLog := rfl
@[simp] theorem State.modCore_streamed (s : State) (c : Nat) (f : Core → Core) : (s.modCore c f).streamed = s.streamed := rfl
@[simp] theorem State.modCore_out (s : State) (c : Nat) (f : Core → Core) : (s.modCore c f).out = s.out := rfl

/-! ### `State.setCluster` -/

@[simp] theorem State.setCluster_pending (s : State) (q : Nat) (x : Cluster) : (s.setCluster q x).pending = s.pending := rfl
@[simp] theorem State.setCluster_funcs (s : State) (q : Nat) (x : Cluster) : (s.setCluster q x).funcs = s.funcs := rfl
@[simp] theorem State.setCluster_now (s : State) (q : Nat) (x : Cluster) : (s.setCluster q x).now = s.now := rfl
@[simp] theorem State.setCluster_fresh (s : State) (q : Nat) (x : Cluster) : (s.setCluster q x).fresh = s.fresh := rfl
@[simp] theorem State.setCluster_nextTag (s : State) (q : Nat) (x : Cluster) : (s.setCluster q x).nextTag = s.nextTag := rfl
@[simp] theorem State.setCluster_regs (s : State) (q : Nat) (x : Cluster) : (s.setCluster q x).regs = s.regs := rfl
@[simp] theorem State.setCluster_positions (s : State) (q : Nat) (x : Cluster) : (s.setCluster q x).positions = s.positions := rfl
@[simp] theorem State.setCluster_time (s : State) (q : Nat) (x : Cluster) : (s.setCluster q x).time = s.time := rfl
@[simp] theorem State.setCluster_cores (s : State) (q : Nat) (x : Cluster) : (s.setCluster q x).cores = s.cores := rfl
@[simp] theorem State.setCluster_clusters (s : State) (q : Nat) (x : Cluster) : (s.setCluster q x).clusters = Map.set Cluster.reset s.clusters q x := rfl
@[simp] theorem State.setCluster_routers (s : State) (q : Nat) (x : Cluster) : (s.setCluster q x).routers = s.routers := rfl
@[simp] theorem State.setCluster_packets (s : State) (q : Nat) (x : Cluster) : (s.setCluster q x).packets = s.packets := rfl
@[simp] theorem State.setCluster_hubs (s : State) (q : Nat) (x : Cluster) : (s.setCluster q x).hubs = s.hubs := rfl
@[simp] theorem State.setCluster_drams (s : State) (q : Nat) (x : Cluster) : (s.setCluster q x).drams = s.drams := rfl
@[simp] theorem State.setCluster_folds (s : State) (q : Nat) (x : Cluster) : (s.setCluster q x).folds = s.folds := rfl
@[simp] theorem State.setCluster_entries (s : State) (q : Nat) (x : Cluster) : (s.setCluster q x).entries = s.entries := rfl
@[simp] theorem State.setCluster_mirrors (s : State) (q : Nat) (x : Cluster) : (s.setCluster q x).mirrors = s.mirrors := rfl
@[simp] theorem State.setCluster_shown (s : State) (q : Nat) (x : Cluster) : (s.setCluster q x).shown = s.shown := rfl
@[simp] theorem State.setCluster_blanked (s : State) (q : Nat) (x : Cluster) : (s.setCluster q x).blanked = s.blanked := rfl
@[simp] theorem State.setCluster_endpoints (s : State) (q : Nat) (x : Cluster) : (s.setCluster q x).endpoints = s.endpoints := rfl
@[simp] theorem State.setCluster_models (s : State) (q : Nat) (x : Cluster) : (s.setCluster q x).models = s.models := rfl
@[simp] theorem State.setCluster_rebuilds (s : State) (q : Nat) (x : Cluster) : (s.setCluster q x).rebuilds = s.rebuilds := rfl
@[simp] theorem State.setCluster_links (s : State) (q : Nat) (x : Cluster) : (s.setCluster q x).links = s.links := rfl
@[simp] theorem State.setCluster_ports (s : State) (q : Nat) (x : Cluster) : (s.setCluster q x).ports = s.ports := rfl
@[simp] theorem State.setCluster_windows (s : State) (q : Nat) (x : Cluster) : (s.setCluster q x).windows = s.windows := rfl
@[simp] theorem State.setCluster_remotes (s : State) (q : Nat) (x : Cluster) : (s.setCluster q x).remotes = s.remotes := rfl
@[simp] theorem State.setCluster_inbox (s : State) (q : Nat) (x : Cluster) : (s.setCluster q x).inbox = s.inbox := rfl
@[simp] theorem State.setCluster_transits (s : State) (q : Nat) (x : Cluster) : (s.setCluster q x).transits = s.transits := rfl
@[simp] theorem State.setCluster_relays (s : State) (q : Nat) (x : Cluster) : (s.setCluster q x).relays = s.relays := rfl
@[simp] theorem State.setCluster_early (s : State) (q : Nat) (x : Cluster) : (s.setCluster q x).early = s.early := rfl
@[simp] theorem State.setCluster_power (s : State) (q : Nat) (x : Cluster) : (s.setCluster q x).power = s.power := rfl
@[simp] theorem State.setCluster_thermal (s : State) (q : Nat) (x : Cluster) : (s.setCluster q x).thermal = s.thermal := rfl
@[simp] theorem State.setCluster_sec (s : State) (q : Nat) (x : Cluster) : (s.setCluster q x).sec = s.sec := rfl
@[simp] theorem State.setCluster_store (s : State) (q : Nat) (x : Cluster) : (s.setCluster q x).store = s.store := rfl
@[simp] theorem State.setCluster_restore (s : State) (q : Nat) (x : Cluster) : (s.setCluster q x).restore = s.restore := rfl
@[simp] theorem State.setCluster_globalLog (s : State) (q : Nat) (x : Cluster) : (s.setCluster q x).globalLog = s.globalLog := rfl
@[simp] theorem State.setCluster_streamed (s : State) (q : Nat) (x : Cluster) : (s.setCluster q x).streamed = s.streamed := rfl
@[simp] theorem State.setCluster_out (s : State) (q : Nat) (x : Cluster) : (s.setCluster q x).out = s.out := rfl

/-! ### `State.modCluster` -/

@[simp] theorem State.modCluster_pending (s : State) (q : Nat) (f : Cluster → Cluster) : (s.modCluster q f).pending = s.pending := rfl
@[simp] theorem State.modCluster_funcs (s : State) (q : Nat) (f : Cluster → Cluster) : (s.modCluster q f).funcs = s.funcs := rfl
@[simp] theorem State.modCluster_now (s : State) (q : Nat) (f : Cluster → Cluster) : (s.modCluster q f).now = s.now := rfl
@[simp] theorem State.modCluster_fresh (s : State) (q : Nat) (f : Cluster → Cluster) : (s.modCluster q f).fresh = s.fresh := rfl
@[simp] theorem State.modCluster_nextTag (s : State) (q : Nat) (f : Cluster → Cluster) : (s.modCluster q f).nextTag = s.nextTag := rfl
@[simp] theorem State.modCluster_regs (s : State) (q : Nat) (f : Cluster → Cluster) : (s.modCluster q f).regs = s.regs := rfl
@[simp] theorem State.modCluster_positions (s : State) (q : Nat) (f : Cluster → Cluster) : (s.modCluster q f).positions = s.positions := rfl
@[simp] theorem State.modCluster_time (s : State) (q : Nat) (f : Cluster → Cluster) : (s.modCluster q f).time = s.time := rfl
@[simp] theorem State.modCluster_cores (s : State) (q : Nat) (f : Cluster → Cluster) : (s.modCluster q f).cores = s.cores := rfl
@[simp] theorem State.modCluster_clusters (s : State) (q : Nat) (f : Cluster → Cluster) : (s.modCluster q f).clusters = Map.set Cluster.reset s.clusters q (f (s.cluster q)) := rfl
@[simp] theorem State.modCluster_routers (s : State) (q : Nat) (f : Cluster → Cluster) : (s.modCluster q f).routers = s.routers := rfl
@[simp] theorem State.modCluster_packets (s : State) (q : Nat) (f : Cluster → Cluster) : (s.modCluster q f).packets = s.packets := rfl
@[simp] theorem State.modCluster_hubs (s : State) (q : Nat) (f : Cluster → Cluster) : (s.modCluster q f).hubs = s.hubs := rfl
@[simp] theorem State.modCluster_drams (s : State) (q : Nat) (f : Cluster → Cluster) : (s.modCluster q f).drams = s.drams := rfl
@[simp] theorem State.modCluster_folds (s : State) (q : Nat) (f : Cluster → Cluster) : (s.modCluster q f).folds = s.folds := rfl
@[simp] theorem State.modCluster_entries (s : State) (q : Nat) (f : Cluster → Cluster) : (s.modCluster q f).entries = s.entries := rfl
@[simp] theorem State.modCluster_mirrors (s : State) (q : Nat) (f : Cluster → Cluster) : (s.modCluster q f).mirrors = s.mirrors := rfl
@[simp] theorem State.modCluster_shown (s : State) (q : Nat) (f : Cluster → Cluster) : (s.modCluster q f).shown = s.shown := rfl
@[simp] theorem State.modCluster_blanked (s : State) (q : Nat) (f : Cluster → Cluster) : (s.modCluster q f).blanked = s.blanked := rfl
@[simp] theorem State.modCluster_endpoints (s : State) (q : Nat) (f : Cluster → Cluster) : (s.modCluster q f).endpoints = s.endpoints := rfl
@[simp] theorem State.modCluster_models (s : State) (q : Nat) (f : Cluster → Cluster) : (s.modCluster q f).models = s.models := rfl
@[simp] theorem State.modCluster_rebuilds (s : State) (q : Nat) (f : Cluster → Cluster) : (s.modCluster q f).rebuilds = s.rebuilds := rfl
@[simp] theorem State.modCluster_links (s : State) (q : Nat) (f : Cluster → Cluster) : (s.modCluster q f).links = s.links := rfl
@[simp] theorem State.modCluster_ports (s : State) (q : Nat) (f : Cluster → Cluster) : (s.modCluster q f).ports = s.ports := rfl
@[simp] theorem State.modCluster_windows (s : State) (q : Nat) (f : Cluster → Cluster) : (s.modCluster q f).windows = s.windows := rfl
@[simp] theorem State.modCluster_remotes (s : State) (q : Nat) (f : Cluster → Cluster) : (s.modCluster q f).remotes = s.remotes := rfl
@[simp] theorem State.modCluster_inbox (s : State) (q : Nat) (f : Cluster → Cluster) : (s.modCluster q f).inbox = s.inbox := rfl
@[simp] theorem State.modCluster_transits (s : State) (q : Nat) (f : Cluster → Cluster) : (s.modCluster q f).transits = s.transits := rfl
@[simp] theorem State.modCluster_relays (s : State) (q : Nat) (f : Cluster → Cluster) : (s.modCluster q f).relays = s.relays := rfl
@[simp] theorem State.modCluster_early (s : State) (q : Nat) (f : Cluster → Cluster) : (s.modCluster q f).early = s.early := rfl
@[simp] theorem State.modCluster_power (s : State) (q : Nat) (f : Cluster → Cluster) : (s.modCluster q f).power = s.power := rfl
@[simp] theorem State.modCluster_thermal (s : State) (q : Nat) (f : Cluster → Cluster) : (s.modCluster q f).thermal = s.thermal := rfl
@[simp] theorem State.modCluster_sec (s : State) (q : Nat) (f : Cluster → Cluster) : (s.modCluster q f).sec = s.sec := rfl
@[simp] theorem State.modCluster_store (s : State) (q : Nat) (f : Cluster → Cluster) : (s.modCluster q f).store = s.store := rfl
@[simp] theorem State.modCluster_restore (s : State) (q : Nat) (f : Cluster → Cluster) : (s.modCluster q f).restore = s.restore := rfl
@[simp] theorem State.modCluster_globalLog (s : State) (q : Nat) (f : Cluster → Cluster) : (s.modCluster q f).globalLog = s.globalLog := rfl
@[simp] theorem State.modCluster_streamed (s : State) (q : Nat) (f : Cluster → Cluster) : (s.modCluster q f).streamed = s.streamed := rfl
@[simp] theorem State.modCluster_out (s : State) (q : Nat) (f : Cluster → Cluster) : (s.modCluster q f).out = s.out := rfl

/-! ### `State.modRouter` -/

@[simp] theorem State.modRouter_pending (s : State) (x : Nat) (f : Router → Router) : (s.modRouter x f).pending = s.pending := rfl
@[simp] theorem State.modRouter_funcs (s : State) (x : Nat) (f : Router → Router) : (s.modRouter x f).funcs = s.funcs := rfl
@[simp] theorem State.modRouter_now (s : State) (x : Nat) (f : Router → Router) : (s.modRouter x f).now = s.now := rfl
@[simp] theorem State.modRouter_fresh (s : State) (x : Nat) (f : Router → Router) : (s.modRouter x f).fresh = s.fresh := rfl
@[simp] theorem State.modRouter_nextTag (s : State) (x : Nat) (f : Router → Router) : (s.modRouter x f).nextTag = s.nextTag := rfl
@[simp] theorem State.modRouter_regs (s : State) (x : Nat) (f : Router → Router) : (s.modRouter x f).regs = s.regs := rfl
@[simp] theorem State.modRouter_positions (s : State) (x : Nat) (f : Router → Router) : (s.modRouter x f).positions = s.positions := rfl
@[simp] theorem State.modRouter_time (s : State) (x : Nat) (f : Router → Router) : (s.modRouter x f).time = s.time := rfl
@[simp] theorem State.modRouter_cores (s : State) (x : Nat) (f : Router → Router) : (s.modRouter x f).cores = s.cores := rfl
@[simp] theorem State.modRouter_clusters (s : State) (x : Nat) (f : Router → Router) : (s.modRouter x f).clusters = s.clusters := rfl
@[simp] theorem State.modRouter_routers (s : State) (x : Nat) (f : Router → Router) : (s.modRouter x f).routers = Map.set Router.reset s.routers x (f (s.router x)) := rfl
@[simp] theorem State.modRouter_packets (s : State) (x : Nat) (f : Router → Router) : (s.modRouter x f).packets = s.packets := rfl
@[simp] theorem State.modRouter_hubs (s : State) (x : Nat) (f : Router → Router) : (s.modRouter x f).hubs = s.hubs := rfl
@[simp] theorem State.modRouter_drams (s : State) (x : Nat) (f : Router → Router) : (s.modRouter x f).drams = s.drams := rfl
@[simp] theorem State.modRouter_folds (s : State) (x : Nat) (f : Router → Router) : (s.modRouter x f).folds = s.folds := rfl
@[simp] theorem State.modRouter_entries (s : State) (x : Nat) (f : Router → Router) : (s.modRouter x f).entries = s.entries := rfl
@[simp] theorem State.modRouter_mirrors (s : State) (x : Nat) (f : Router → Router) : (s.modRouter x f).mirrors = s.mirrors := rfl
@[simp] theorem State.modRouter_shown (s : State) (x : Nat) (f : Router → Router) : (s.modRouter x f).shown = s.shown := rfl
@[simp] theorem State.modRouter_blanked (s : State) (x : Nat) (f : Router → Router) : (s.modRouter x f).blanked = s.blanked := rfl
@[simp] theorem State.modRouter_endpoints (s : State) (x : Nat) (f : Router → Router) : (s.modRouter x f).endpoints = s.endpoints := rfl
@[simp] theorem State.modRouter_models (s : State) (x : Nat) (f : Router → Router) : (s.modRouter x f).models = s.models := rfl
@[simp] theorem State.modRouter_rebuilds (s : State) (x : Nat) (f : Router → Router) : (s.modRouter x f).rebuilds = s.rebuilds := rfl
@[simp] theorem State.modRouter_links (s : State) (x : Nat) (f : Router → Router) : (s.modRouter x f).links = s.links := rfl
@[simp] theorem State.modRouter_ports (s : State) (x : Nat) (f : Router → Router) : (s.modRouter x f).ports = s.ports := rfl
@[simp] theorem State.modRouter_windows (s : State) (x : Nat) (f : Router → Router) : (s.modRouter x f).windows = s.windows := rfl
@[simp] theorem State.modRouter_remotes (s : State) (x : Nat) (f : Router → Router) : (s.modRouter x f).remotes = s.remotes := rfl
@[simp] theorem State.modRouter_inbox (s : State) (x : Nat) (f : Router → Router) : (s.modRouter x f).inbox = s.inbox := rfl
@[simp] theorem State.modRouter_transits (s : State) (x : Nat) (f : Router → Router) : (s.modRouter x f).transits = s.transits := rfl
@[simp] theorem State.modRouter_relays (s : State) (x : Nat) (f : Router → Router) : (s.modRouter x f).relays = s.relays := rfl
@[simp] theorem State.modRouter_early (s : State) (x : Nat) (f : Router → Router) : (s.modRouter x f).early = s.early := rfl
@[simp] theorem State.modRouter_power (s : State) (x : Nat) (f : Router → Router) : (s.modRouter x f).power = s.power := rfl
@[simp] theorem State.modRouter_thermal (s : State) (x : Nat) (f : Router → Router) : (s.modRouter x f).thermal = s.thermal := rfl
@[simp] theorem State.modRouter_sec (s : State) (x : Nat) (f : Router → Router) : (s.modRouter x f).sec = s.sec := rfl
@[simp] theorem State.modRouter_store (s : State) (x : Nat) (f : Router → Router) : (s.modRouter x f).store = s.store := rfl
@[simp] theorem State.modRouter_restore (s : State) (x : Nat) (f : Router → Router) : (s.modRouter x f).restore = s.restore := rfl
@[simp] theorem State.modRouter_globalLog (s : State) (x : Nat) (f : Router → Router) : (s.modRouter x f).globalLog = s.globalLog := rfl
@[simp] theorem State.modRouter_streamed (s : State) (x : Nat) (f : Router → Router) : (s.modRouter x f).streamed = s.streamed := rfl
@[simp] theorem State.modRouter_out (s : State) (x : Nat) (f : Router → Router) : (s.modRouter x f).out = s.out := rfl

/-! ### `State.modHub` -/

@[simp] theorem State.modHub_pending (s : State) (n : Nat) (f : Hub → Hub) : (s.modHub n f).pending = s.pending := rfl
@[simp] theorem State.modHub_funcs (s : State) (n : Nat) (f : Hub → Hub) : (s.modHub n f).funcs = s.funcs := rfl
@[simp] theorem State.modHub_now (s : State) (n : Nat) (f : Hub → Hub) : (s.modHub n f).now = s.now := rfl
@[simp] theorem State.modHub_fresh (s : State) (n : Nat) (f : Hub → Hub) : (s.modHub n f).fresh = s.fresh := rfl
@[simp] theorem State.modHub_nextTag (s : State) (n : Nat) (f : Hub → Hub) : (s.modHub n f).nextTag = s.nextTag := rfl
@[simp] theorem State.modHub_regs (s : State) (n : Nat) (f : Hub → Hub) : (s.modHub n f).regs = s.regs := rfl
@[simp] theorem State.modHub_positions (s : State) (n : Nat) (f : Hub → Hub) : (s.modHub n f).positions = s.positions := rfl
@[simp] theorem State.modHub_time (s : State) (n : Nat) (f : Hub → Hub) : (s.modHub n f).time = s.time := rfl
@[simp] theorem State.modHub_cores (s : State) (n : Nat) (f : Hub → Hub) : (s.modHub n f).cores = s.cores := rfl
@[simp] theorem State.modHub_clusters (s : State) (n : Nat) (f : Hub → Hub) : (s.modHub n f).clusters = s.clusters := rfl
@[simp] theorem State.modHub_routers (s : State) (n : Nat) (f : Hub → Hub) : (s.modHub n f).routers = s.routers := rfl
@[simp] theorem State.modHub_packets (s : State) (n : Nat) (f : Hub → Hub) : (s.modHub n f).packets = s.packets := rfl
@[simp] theorem State.modHub_hubs (s : State) (n : Nat) (f : Hub → Hub) : (s.modHub n f).hubs = Map.set Hub.reset s.hubs n (f (s.hub n)) := rfl
@[simp] theorem State.modHub_drams (s : State) (n : Nat) (f : Hub → Hub) : (s.modHub n f).drams = s.drams := rfl
@[simp] theorem State.modHub_folds (s : State) (n : Nat) (f : Hub → Hub) : (s.modHub n f).folds = s.folds := rfl
@[simp] theorem State.modHub_entries (s : State) (n : Nat) (f : Hub → Hub) : (s.modHub n f).entries = s.entries := rfl
@[simp] theorem State.modHub_mirrors (s : State) (n : Nat) (f : Hub → Hub) : (s.modHub n f).mirrors = s.mirrors := rfl
@[simp] theorem State.modHub_shown (s : State) (n : Nat) (f : Hub → Hub) : (s.modHub n f).shown = s.shown := rfl
@[simp] theorem State.modHub_blanked (s : State) (n : Nat) (f : Hub → Hub) : (s.modHub n f).blanked = s.blanked := rfl
@[simp] theorem State.modHub_endpoints (s : State) (n : Nat) (f : Hub → Hub) : (s.modHub n f).endpoints = s.endpoints := rfl
@[simp] theorem State.modHub_models (s : State) (n : Nat) (f : Hub → Hub) : (s.modHub n f).models = s.models := rfl
@[simp] theorem State.modHub_rebuilds (s : State) (n : Nat) (f : Hub → Hub) : (s.modHub n f).rebuilds = s.rebuilds := rfl
@[simp] theorem State.modHub_links (s : State) (n : Nat) (f : Hub → Hub) : (s.modHub n f).links = s.links := rfl
@[simp] theorem State.modHub_ports (s : State) (n : Nat) (f : Hub → Hub) : (s.modHub n f).ports = s.ports := rfl
@[simp] theorem State.modHub_windows (s : State) (n : Nat) (f : Hub → Hub) : (s.modHub n f).windows = s.windows := rfl
@[simp] theorem State.modHub_remotes (s : State) (n : Nat) (f : Hub → Hub) : (s.modHub n f).remotes = s.remotes := rfl
@[simp] theorem State.modHub_inbox (s : State) (n : Nat) (f : Hub → Hub) : (s.modHub n f).inbox = s.inbox := rfl
@[simp] theorem State.modHub_transits (s : State) (n : Nat) (f : Hub → Hub) : (s.modHub n f).transits = s.transits := rfl
@[simp] theorem State.modHub_relays (s : State) (n : Nat) (f : Hub → Hub) : (s.modHub n f).relays = s.relays := rfl
@[simp] theorem State.modHub_early (s : State) (n : Nat) (f : Hub → Hub) : (s.modHub n f).early = s.early := rfl
@[simp] theorem State.modHub_power (s : State) (n : Nat) (f : Hub → Hub) : (s.modHub n f).power = s.power := rfl
@[simp] theorem State.modHub_thermal (s : State) (n : Nat) (f : Hub → Hub) : (s.modHub n f).thermal = s.thermal := rfl
@[simp] theorem State.modHub_sec (s : State) (n : Nat) (f : Hub → Hub) : (s.modHub n f).sec = s.sec := rfl
@[simp] theorem State.modHub_store (s : State) (n : Nat) (f : Hub → Hub) : (s.modHub n f).store = s.store := rfl
@[simp] theorem State.modHub_restore (s : State) (n : Nat) (f : Hub → Hub) : (s.modHub n f).restore = s.restore := rfl
@[simp] theorem State.modHub_globalLog (s : State) (n : Nat) (f : Hub → Hub) : (s.modHub n f).globalLog = s.globalLog := rfl
@[simp] theorem State.modHub_streamed (s : State) (n : Nat) (f : Hub → Hub) : (s.modHub n f).streamed = s.streamed := rfl
@[simp] theorem State.modHub_out (s : State) (n : Nat) (f : Hub → Hub) : (s.modHub n f).out = s.out := rfl

/-! ### `State.modDram` -/

@[simp] theorem State.modDram_pending (s : State) (n : Nat) (f : Stack → Stack) : (s.modDram n f).pending = s.pending := rfl
@[simp] theorem State.modDram_funcs (s : State) (n : Nat) (f : Stack → Stack) : (s.modDram n f).funcs = s.funcs := rfl
@[simp] theorem State.modDram_now (s : State) (n : Nat) (f : Stack → Stack) : (s.modDram n f).now = s.now := rfl
@[simp] theorem State.modDram_fresh (s : State) (n : Nat) (f : Stack → Stack) : (s.modDram n f).fresh = s.fresh := rfl
@[simp] theorem State.modDram_nextTag (s : State) (n : Nat) (f : Stack → Stack) : (s.modDram n f).nextTag = s.nextTag := rfl
@[simp] theorem State.modDram_regs (s : State) (n : Nat) (f : Stack → Stack) : (s.modDram n f).regs = s.regs := rfl
@[simp] theorem State.modDram_positions (s : State) (n : Nat) (f : Stack → Stack) : (s.modDram n f).positions = s.positions := rfl
@[simp] theorem State.modDram_time (s : State) (n : Nat) (f : Stack → Stack) : (s.modDram n f).time = s.time := rfl
@[simp] theorem State.modDram_cores (s : State) (n : Nat) (f : Stack → Stack) : (s.modDram n f).cores = s.cores := rfl
@[simp] theorem State.modDram_clusters (s : State) (n : Nat) (f : Stack → Stack) : (s.modDram n f).clusters = s.clusters := rfl
@[simp] theorem State.modDram_routers (s : State) (n : Nat) (f : Stack → Stack) : (s.modDram n f).routers = s.routers := rfl
@[simp] theorem State.modDram_packets (s : State) (n : Nat) (f : Stack → Stack) : (s.modDram n f).packets = s.packets := rfl
@[simp] theorem State.modDram_hubs (s : State) (n : Nat) (f : Stack → Stack) : (s.modDram n f).hubs = s.hubs := rfl
@[simp] theorem State.modDram_drams (s : State) (n : Nat) (f : Stack → Stack) : (s.modDram n f).drams = Map.set Stack.reset s.drams n (f (s.dram n)) := rfl
@[simp] theorem State.modDram_folds (s : State) (n : Nat) (f : Stack → Stack) : (s.modDram n f).folds = s.folds := rfl
@[simp] theorem State.modDram_entries (s : State) (n : Nat) (f : Stack → Stack) : (s.modDram n f).entries = s.entries := rfl
@[simp] theorem State.modDram_mirrors (s : State) (n : Nat) (f : Stack → Stack) : (s.modDram n f).mirrors = s.mirrors := rfl
@[simp] theorem State.modDram_shown (s : State) (n : Nat) (f : Stack → Stack) : (s.modDram n f).shown = s.shown := rfl
@[simp] theorem State.modDram_blanked (s : State) (n : Nat) (f : Stack → Stack) : (s.modDram n f).blanked = s.blanked := rfl
@[simp] theorem State.modDram_endpoints (s : State) (n : Nat) (f : Stack → Stack) : (s.modDram n f).endpoints = s.endpoints := rfl
@[simp] theorem State.modDram_models (s : State) (n : Nat) (f : Stack → Stack) : (s.modDram n f).models = s.models := rfl
@[simp] theorem State.modDram_rebuilds (s : State) (n : Nat) (f : Stack → Stack) : (s.modDram n f).rebuilds = s.rebuilds := rfl
@[simp] theorem State.modDram_links (s : State) (n : Nat) (f : Stack → Stack) : (s.modDram n f).links = s.links := rfl
@[simp] theorem State.modDram_ports (s : State) (n : Nat) (f : Stack → Stack) : (s.modDram n f).ports = s.ports := rfl
@[simp] theorem State.modDram_windows (s : State) (n : Nat) (f : Stack → Stack) : (s.modDram n f).windows = s.windows := rfl
@[simp] theorem State.modDram_remotes (s : State) (n : Nat) (f : Stack → Stack) : (s.modDram n f).remotes = s.remotes := rfl
@[simp] theorem State.modDram_inbox (s : State) (n : Nat) (f : Stack → Stack) : (s.modDram n f).inbox = s.inbox := rfl
@[simp] theorem State.modDram_transits (s : State) (n : Nat) (f : Stack → Stack) : (s.modDram n f).transits = s.transits := rfl
@[simp] theorem State.modDram_relays (s : State) (n : Nat) (f : Stack → Stack) : (s.modDram n f).relays = s.relays := rfl
@[simp] theorem State.modDram_early (s : State) (n : Nat) (f : Stack → Stack) : (s.modDram n f).early = s.early := rfl
@[simp] theorem State.modDram_power (s : State) (n : Nat) (f : Stack → Stack) : (s.modDram n f).power = s.power := rfl
@[simp] theorem State.modDram_thermal (s : State) (n : Nat) (f : Stack → Stack) : (s.modDram n f).thermal = s.thermal := rfl
@[simp] theorem State.modDram_sec (s : State) (n : Nat) (f : Stack → Stack) : (s.modDram n f).sec = s.sec := rfl
@[simp] theorem State.modDram_store (s : State) (n : Nat) (f : Stack → Stack) : (s.modDram n f).store = s.store := rfl
@[simp] theorem State.modDram_restore (s : State) (n : Nat) (f : Stack → Stack) : (s.modDram n f).restore = s.restore := rfl
@[simp] theorem State.modDram_globalLog (s : State) (n : Nat) (f : Stack → Stack) : (s.modDram n f).globalLog = s.globalLog := rfl
@[simp] theorem State.modDram_streamed (s : State) (n : Nat) (f : Stack → Stack) : (s.modDram n f).streamed = s.streamed := rfl
@[simp] theorem State.modDram_out (s : State) (n : Nat) (f : Stack → Stack) : (s.modDram n f).out = s.out := rfl

/-! ### `State.setFold` -/

@[simp] theorem State.setFold_pending (s : State) (n : Nat) (x : Fold) : (s.setFold n x).pending = s.pending := rfl
@[simp] theorem State.setFold_funcs (s : State) (n : Nat) (x : Fold) : (s.setFold n x).funcs = s.funcs := rfl
@[simp] theorem State.setFold_now (s : State) (n : Nat) (x : Fold) : (s.setFold n x).now = s.now := rfl
@[simp] theorem State.setFold_fresh (s : State) (n : Nat) (x : Fold) : (s.setFold n x).fresh = s.fresh := rfl
@[simp] theorem State.setFold_nextTag (s : State) (n : Nat) (x : Fold) : (s.setFold n x).nextTag = s.nextTag := rfl
@[simp] theorem State.setFold_regs (s : State) (n : Nat) (x : Fold) : (s.setFold n x).regs = s.regs := rfl
@[simp] theorem State.setFold_positions (s : State) (n : Nat) (x : Fold) : (s.setFold n x).positions = s.positions := rfl
@[simp] theorem State.setFold_time (s : State) (n : Nat) (x : Fold) : (s.setFold n x).time = s.time := rfl
@[simp] theorem State.setFold_cores (s : State) (n : Nat) (x : Fold) : (s.setFold n x).cores = s.cores := rfl
@[simp] theorem State.setFold_clusters (s : State) (n : Nat) (x : Fold) : (s.setFold n x).clusters = s.clusters := rfl
@[simp] theorem State.setFold_routers (s : State) (n : Nat) (x : Fold) : (s.setFold n x).routers = s.routers := rfl
@[simp] theorem State.setFold_packets (s : State) (n : Nat) (x : Fold) : (s.setFold n x).packets = s.packets := rfl
@[simp] theorem State.setFold_hubs (s : State) (n : Nat) (x : Fold) : (s.setFold n x).hubs = s.hubs := rfl
@[simp] theorem State.setFold_drams (s : State) (n : Nat) (x : Fold) : (s.setFold n x).drams = s.drams := rfl
@[simp] theorem State.setFold_folds (s : State) (n : Nat) (x : Fold) : (s.setFold n x).folds = Map.set Fold.reset s.folds n x := rfl
@[simp] theorem State.setFold_entries (s : State) (n : Nat) (x : Fold) : (s.setFold n x).entries = s.entries := rfl
@[simp] theorem State.setFold_mirrors (s : State) (n : Nat) (x : Fold) : (s.setFold n x).mirrors = s.mirrors := rfl
@[simp] theorem State.setFold_shown (s : State) (n : Nat) (x : Fold) : (s.setFold n x).shown = s.shown := rfl
@[simp] theorem State.setFold_blanked (s : State) (n : Nat) (x : Fold) : (s.setFold n x).blanked = s.blanked := rfl
@[simp] theorem State.setFold_endpoints (s : State) (n : Nat) (x : Fold) : (s.setFold n x).endpoints = s.endpoints := rfl
@[simp] theorem State.setFold_models (s : State) (n : Nat) (x : Fold) : (s.setFold n x).models = s.models := rfl
@[simp] theorem State.setFold_rebuilds (s : State) (n : Nat) (x : Fold) : (s.setFold n x).rebuilds = s.rebuilds := rfl
@[simp] theorem State.setFold_links (s : State) (n : Nat) (x : Fold) : (s.setFold n x).links = s.links := rfl
@[simp] theorem State.setFold_ports (s : State) (n : Nat) (x : Fold) : (s.setFold n x).ports = s.ports := rfl
@[simp] theorem State.setFold_windows (s : State) (n : Nat) (x : Fold) : (s.setFold n x).windows = s.windows := rfl
@[simp] theorem State.setFold_remotes (s : State) (n : Nat) (x : Fold) : (s.setFold n x).remotes = s.remotes := rfl
@[simp] theorem State.setFold_inbox (s : State) (n : Nat) (x : Fold) : (s.setFold n x).inbox = s.inbox := rfl
@[simp] theorem State.setFold_transits (s : State) (n : Nat) (x : Fold) : (s.setFold n x).transits = s.transits := rfl
@[simp] theorem State.setFold_relays (s : State) (n : Nat) (x : Fold) : (s.setFold n x).relays = s.relays := rfl
@[simp] theorem State.setFold_early (s : State) (n : Nat) (x : Fold) : (s.setFold n x).early = s.early := rfl
@[simp] theorem State.setFold_power (s : State) (n : Nat) (x : Fold) : (s.setFold n x).power = s.power := rfl
@[simp] theorem State.setFold_thermal (s : State) (n : Nat) (x : Fold) : (s.setFold n x).thermal = s.thermal := rfl
@[simp] theorem State.setFold_sec (s : State) (n : Nat) (x : Fold) : (s.setFold n x).sec = s.sec := rfl
@[simp] theorem State.setFold_store (s : State) (n : Nat) (x : Fold) : (s.setFold n x).store = s.store := rfl
@[simp] theorem State.setFold_restore (s : State) (n : Nat) (x : Fold) : (s.setFold n x).restore = s.restore := rfl
@[simp] theorem State.setFold_globalLog (s : State) (n : Nat) (x : Fold) : (s.setFold n x).globalLog = s.globalLog := rfl
@[simp] theorem State.setFold_streamed (s : State) (n : Nat) (x : Fold) : (s.setFold n x).streamed = s.streamed := rfl
@[simp] theorem State.setFold_out (s : State) (n : Nat) (x : Fold) : (s.setFold n x).out = s.out := rfl

/-! ### `State.modFold` -/

@[simp] theorem State.modFold_pending (s : State) (n : Nat) (f : Fold → Fold) : (s.modFold n f).pending = s.pending := rfl
@[simp] theorem State.modFold_funcs (s : State) (n : Nat) (f : Fold → Fold) : (s.modFold n f).funcs = s.funcs := rfl
@[simp] theorem State.modFold_now (s : State) (n : Nat) (f : Fold → Fold) : (s.modFold n f).now = s.now := rfl
@[simp] theorem State.modFold_fresh (s : State) (n : Nat) (f : Fold → Fold) : (s.modFold n f).fresh = s.fresh := rfl
@[simp] theorem State.modFold_nextTag (s : State) (n : Nat) (f : Fold → Fold) : (s.modFold n f).nextTag = s.nextTag := rfl
@[simp] theorem State.modFold_regs (s : State) (n : Nat) (f : Fold → Fold) : (s.modFold n f).regs = s.regs := rfl
@[simp] theorem State.modFold_positions (s : State) (n : Nat) (f : Fold → Fold) : (s.modFold n f).positions = s.positions := rfl
@[simp] theorem State.modFold_time (s : State) (n : Nat) (f : Fold → Fold) : (s.modFold n f).time = s.time := rfl
@[simp] theorem State.modFold_cores (s : State) (n : Nat) (f : Fold → Fold) : (s.modFold n f).cores = s.cores := rfl
@[simp] theorem State.modFold_clusters (s : State) (n : Nat) (f : Fold → Fold) : (s.modFold n f).clusters = s.clusters := rfl
@[simp] theorem State.modFold_routers (s : State) (n : Nat) (f : Fold → Fold) : (s.modFold n f).routers = s.routers := rfl
@[simp] theorem State.modFold_packets (s : State) (n : Nat) (f : Fold → Fold) : (s.modFold n f).packets = s.packets := rfl
@[simp] theorem State.modFold_hubs (s : State) (n : Nat) (f : Fold → Fold) : (s.modFold n f).hubs = s.hubs := rfl
@[simp] theorem State.modFold_drams (s : State) (n : Nat) (f : Fold → Fold) : (s.modFold n f).drams = s.drams := rfl
@[simp] theorem State.modFold_folds (s : State) (n : Nat) (f : Fold → Fold) : (s.modFold n f).folds = Map.set Fold.reset s.folds n (f (s.fold n)) := rfl
@[simp] theorem State.modFold_entries (s : State) (n : Nat) (f : Fold → Fold) : (s.modFold n f).entries = s.entries := rfl
@[simp] theorem State.modFold_mirrors (s : State) (n : Nat) (f : Fold → Fold) : (s.modFold n f).mirrors = s.mirrors := rfl
@[simp] theorem State.modFold_shown (s : State) (n : Nat) (f : Fold → Fold) : (s.modFold n f).shown = s.shown := rfl
@[simp] theorem State.modFold_blanked (s : State) (n : Nat) (f : Fold → Fold) : (s.modFold n f).blanked = s.blanked := rfl
@[simp] theorem State.modFold_endpoints (s : State) (n : Nat) (f : Fold → Fold) : (s.modFold n f).endpoints = s.endpoints := rfl
@[simp] theorem State.modFold_models (s : State) (n : Nat) (f : Fold → Fold) : (s.modFold n f).models = s.models := rfl
@[simp] theorem State.modFold_rebuilds (s : State) (n : Nat) (f : Fold → Fold) : (s.modFold n f).rebuilds = s.rebuilds := rfl
@[simp] theorem State.modFold_links (s : State) (n : Nat) (f : Fold → Fold) : (s.modFold n f).links = s.links := rfl
@[simp] theorem State.modFold_ports (s : State) (n : Nat) (f : Fold → Fold) : (s.modFold n f).ports = s.ports := rfl
@[simp] theorem State.modFold_windows (s : State) (n : Nat) (f : Fold → Fold) : (s.modFold n f).windows = s.windows := rfl
@[simp] theorem State.modFold_remotes (s : State) (n : Nat) (f : Fold → Fold) : (s.modFold n f).remotes = s.remotes := rfl
@[simp] theorem State.modFold_inbox (s : State) (n : Nat) (f : Fold → Fold) : (s.modFold n f).inbox = s.inbox := rfl
@[simp] theorem State.modFold_transits (s : State) (n : Nat) (f : Fold → Fold) : (s.modFold n f).transits = s.transits := rfl
@[simp] theorem State.modFold_relays (s : State) (n : Nat) (f : Fold → Fold) : (s.modFold n f).relays = s.relays := rfl
@[simp] theorem State.modFold_early (s : State) (n : Nat) (f : Fold → Fold) : (s.modFold n f).early = s.early := rfl
@[simp] theorem State.modFold_power (s : State) (n : Nat) (f : Fold → Fold) : (s.modFold n f).power = s.power := rfl
@[simp] theorem State.modFold_thermal (s : State) (n : Nat) (f : Fold → Fold) : (s.modFold n f).thermal = s.thermal := rfl
@[simp] theorem State.modFold_sec (s : State) (n : Nat) (f : Fold → Fold) : (s.modFold n f).sec = s.sec := rfl
@[simp] theorem State.modFold_store (s : State) (n : Nat) (f : Fold → Fold) : (s.modFold n f).store = s.store := rfl
@[simp] theorem State.modFold_restore (s : State) (n : Nat) (f : Fold → Fold) : (s.modFold n f).restore = s.restore := rfl
@[simp] theorem State.modFold_globalLog (s : State) (n : Nat) (f : Fold → Fold) : (s.modFold n f).globalLog = s.globalLog := rfl
@[simp] theorem State.modFold_streamed (s : State) (n : Nat) (f : Fold → Fold) : (s.modFold n f).streamed = s.streamed := rfl
@[simp] theorem State.modFold_out (s : State) (n : Nat) (f : Fold → Fold) : (s.modFold n f).out = s.out := rfl

/-! ### `State.modEntry` -/

@[simp] theorem State.modEntry_pending (s : State) (g : Nat) (f : Entry → Entry) : (s.modEntry g f).pending = s.pending := rfl
@[simp] theorem State.modEntry_funcs (s : State) (g : Nat) (f : Entry → Entry) : (s.modEntry g f).funcs = s.funcs := rfl
@[simp] theorem State.modEntry_now (s : State) (g : Nat) (f : Entry → Entry) : (s.modEntry g f).now = s.now := rfl
@[simp] theorem State.modEntry_fresh (s : State) (g : Nat) (f : Entry → Entry) : (s.modEntry g f).fresh = s.fresh := rfl
@[simp] theorem State.modEntry_nextTag (s : State) (g : Nat) (f : Entry → Entry) : (s.modEntry g f).nextTag = s.nextTag := rfl
@[simp] theorem State.modEntry_regs (s : State) (g : Nat) (f : Entry → Entry) : (s.modEntry g f).regs = s.regs := rfl
@[simp] theorem State.modEntry_positions (s : State) (g : Nat) (f : Entry → Entry) : (s.modEntry g f).positions = s.positions := rfl
@[simp] theorem State.modEntry_time (s : State) (g : Nat) (f : Entry → Entry) : (s.modEntry g f).time = s.time := rfl
@[simp] theorem State.modEntry_cores (s : State) (g : Nat) (f : Entry → Entry) : (s.modEntry g f).cores = s.cores := rfl
@[simp] theorem State.modEntry_clusters (s : State) (g : Nat) (f : Entry → Entry) : (s.modEntry g f).clusters = s.clusters := rfl
@[simp] theorem State.modEntry_routers (s : State) (g : Nat) (f : Entry → Entry) : (s.modEntry g f).routers = s.routers := rfl
@[simp] theorem State.modEntry_packets (s : State) (g : Nat) (f : Entry → Entry) : (s.modEntry g f).packets = s.packets := rfl
@[simp] theorem State.modEntry_hubs (s : State) (g : Nat) (f : Entry → Entry) : (s.modEntry g f).hubs = s.hubs := rfl
@[simp] theorem State.modEntry_drams (s : State) (g : Nat) (f : Entry → Entry) : (s.modEntry g f).drams = s.drams := rfl
@[simp] theorem State.modEntry_folds (s : State) (g : Nat) (f : Entry → Entry) : (s.modEntry g f).folds = s.folds := rfl
@[simp] theorem State.modEntry_entries (s : State) (g : Nat) (f : Entry → Entry) : (s.modEntry g f).entries = Map.set Entry.reset s.entries g (f (s.entry g)) := rfl
@[simp] theorem State.modEntry_mirrors (s : State) (g : Nat) (f : Entry → Entry) : (s.modEntry g f).mirrors = s.mirrors := rfl
@[simp] theorem State.modEntry_shown (s : State) (g : Nat) (f : Entry → Entry) : (s.modEntry g f).shown = s.shown := rfl
@[simp] theorem State.modEntry_blanked (s : State) (g : Nat) (f : Entry → Entry) : (s.modEntry g f).blanked = s.blanked := rfl
@[simp] theorem State.modEntry_endpoints (s : State) (g : Nat) (f : Entry → Entry) : (s.modEntry g f).endpoints = s.endpoints := rfl
@[simp] theorem State.modEntry_models (s : State) (g : Nat) (f : Entry → Entry) : (s.modEntry g f).models = s.models := rfl
@[simp] theorem State.modEntry_rebuilds (s : State) (g : Nat) (f : Entry → Entry) : (s.modEntry g f).rebuilds = s.rebuilds := rfl
@[simp] theorem State.modEntry_links (s : State) (g : Nat) (f : Entry → Entry) : (s.modEntry g f).links = s.links := rfl
@[simp] theorem State.modEntry_ports (s : State) (g : Nat) (f : Entry → Entry) : (s.modEntry g f).ports = s.ports := rfl
@[simp] theorem State.modEntry_windows (s : State) (g : Nat) (f : Entry → Entry) : (s.modEntry g f).windows = s.windows := rfl
@[simp] theorem State.modEntry_remotes (s : State) (g : Nat) (f : Entry → Entry) : (s.modEntry g f).remotes = s.remotes := rfl
@[simp] theorem State.modEntry_inbox (s : State) (g : Nat) (f : Entry → Entry) : (s.modEntry g f).inbox = s.inbox := rfl
@[simp] theorem State.modEntry_transits (s : State) (g : Nat) (f : Entry → Entry) : (s.modEntry g f).transits = s.transits := rfl
@[simp] theorem State.modEntry_relays (s : State) (g : Nat) (f : Entry → Entry) : (s.modEntry g f).relays = s.relays := rfl
@[simp] theorem State.modEntry_early (s : State) (g : Nat) (f : Entry → Entry) : (s.modEntry g f).early = s.early := rfl
@[simp] theorem State.modEntry_power (s : State) (g : Nat) (f : Entry → Entry) : (s.modEntry g f).power = s.power := rfl
@[simp] theorem State.modEntry_thermal (s : State) (g : Nat) (f : Entry → Entry) : (s.modEntry g f).thermal = s.thermal := rfl
@[simp] theorem State.modEntry_sec (s : State) (g : Nat) (f : Entry → Entry) : (s.modEntry g f).sec = s.sec := rfl
@[simp] theorem State.modEntry_store (s : State) (g : Nat) (f : Entry → Entry) : (s.modEntry g f).store = s.store := rfl
@[simp] theorem State.modEntry_restore (s : State) (g : Nat) (f : Entry → Entry) : (s.modEntry g f).restore = s.restore := rfl
@[simp] theorem State.modEntry_globalLog (s : State) (g : Nat) (f : Entry → Entry) : (s.modEntry g f).globalLog = s.globalLog := rfl
@[simp] theorem State.modEntry_streamed (s : State) (g : Nat) (f : Entry → Entry) : (s.modEntry g f).streamed = s.streamed := rfl
@[simp] theorem State.modEntry_out (s : State) (g : Nat) (f : Entry → Entry) : (s.modEntry g f).out = s.out := rfl

/-! ### `State.modEndpoint` -/

@[simp] theorem State.modEndpoint_pending (s : State) (e : Nat) (f : Endpoint → Endpoint) : (s.modEndpoint e f).pending = s.pending := rfl
@[simp] theorem State.modEndpoint_funcs (s : State) (e : Nat) (f : Endpoint → Endpoint) : (s.modEndpoint e f).funcs = s.funcs := rfl
@[simp] theorem State.modEndpoint_now (s : State) (e : Nat) (f : Endpoint → Endpoint) : (s.modEndpoint e f).now = s.now := rfl
@[simp] theorem State.modEndpoint_fresh (s : State) (e : Nat) (f : Endpoint → Endpoint) : (s.modEndpoint e f).fresh = s.fresh := rfl
@[simp] theorem State.modEndpoint_nextTag (s : State) (e : Nat) (f : Endpoint → Endpoint) : (s.modEndpoint e f).nextTag = s.nextTag := rfl
@[simp] theorem State.modEndpoint_regs (s : State) (e : Nat) (f : Endpoint → Endpoint) : (s.modEndpoint e f).regs = s.regs := rfl
@[simp] theorem State.modEndpoint_positions (s : State) (e : Nat) (f : Endpoint → Endpoint) : (s.modEndpoint e f).positions = s.positions := rfl
@[simp] theorem State.modEndpoint_time (s : State) (e : Nat) (f : Endpoint → Endpoint) : (s.modEndpoint e f).time = s.time := rfl
@[simp] theorem State.modEndpoint_cores (s : State) (e : Nat) (f : Endpoint → Endpoint) : (s.modEndpoint e f).cores = s.cores := rfl
@[simp] theorem State.modEndpoint_clusters (s : State) (e : Nat) (f : Endpoint → Endpoint) : (s.modEndpoint e f).clusters = s.clusters := rfl
@[simp] theorem State.modEndpoint_routers (s : State) (e : Nat) (f : Endpoint → Endpoint) : (s.modEndpoint e f).routers = s.routers := rfl
@[simp] theorem State.modEndpoint_packets (s : State) (e : Nat) (f : Endpoint → Endpoint) : (s.modEndpoint e f).packets = s.packets := rfl
@[simp] theorem State.modEndpoint_hubs (s : State) (e : Nat) (f : Endpoint → Endpoint) : (s.modEndpoint e f).hubs = s.hubs := rfl
@[simp] theorem State.modEndpoint_drams (s : State) (e : Nat) (f : Endpoint → Endpoint) : (s.modEndpoint e f).drams = s.drams := rfl
@[simp] theorem State.modEndpoint_folds (s : State) (e : Nat) (f : Endpoint → Endpoint) : (s.modEndpoint e f).folds = s.folds := rfl
@[simp] theorem State.modEndpoint_entries (s : State) (e : Nat) (f : Endpoint → Endpoint) : (s.modEndpoint e f).entries = s.entries := rfl
@[simp] theorem State.modEndpoint_mirrors (s : State) (e : Nat) (f : Endpoint → Endpoint) : (s.modEndpoint e f).mirrors = s.mirrors := rfl
@[simp] theorem State.modEndpoint_shown (s : State) (e : Nat) (f : Endpoint → Endpoint) : (s.modEndpoint e f).shown = s.shown := rfl
@[simp] theorem State.modEndpoint_blanked (s : State) (e : Nat) (f : Endpoint → Endpoint) : (s.modEndpoint e f).blanked = s.blanked := rfl
@[simp] theorem State.modEndpoint_endpoints (s : State) (e : Nat) (f : Endpoint → Endpoint) : (s.modEndpoint e f).endpoints = Map.set Endpoint.reset s.endpoints e (f (s.endpoint e)) := rfl
@[simp] theorem State.modEndpoint_models (s : State) (e : Nat) (f : Endpoint → Endpoint) : (s.modEndpoint e f).models = s.models := rfl
@[simp] theorem State.modEndpoint_rebuilds (s : State) (e : Nat) (f : Endpoint → Endpoint) : (s.modEndpoint e f).rebuilds = s.rebuilds := rfl
@[simp] theorem State.modEndpoint_links (s : State) (e : Nat) (f : Endpoint → Endpoint) : (s.modEndpoint e f).links = s.links := rfl
@[simp] theorem State.modEndpoint_ports (s : State) (e : Nat) (f : Endpoint → Endpoint) : (s.modEndpoint e f).ports = s.ports := rfl
@[simp] theorem State.modEndpoint_windows (s : State) (e : Nat) (f : Endpoint → Endpoint) : (s.modEndpoint e f).windows = s.windows := rfl
@[simp] theorem State.modEndpoint_remotes (s : State) (e : Nat) (f : Endpoint → Endpoint) : (s.modEndpoint e f).remotes = s.remotes := rfl
@[simp] theorem State.modEndpoint_inbox (s : State) (e : Nat) (f : Endpoint → Endpoint) : (s.modEndpoint e f).inbox = s.inbox := rfl
@[simp] theorem State.modEndpoint_transits (s : State) (e : Nat) (f : Endpoint → Endpoint) : (s.modEndpoint e f).transits = s.transits := rfl
@[simp] theorem State.modEndpoint_relays (s : State) (e : Nat) (f : Endpoint → Endpoint) : (s.modEndpoint e f).relays = s.relays := rfl
@[simp] theorem State.modEndpoint_early (s : State) (e : Nat) (f : Endpoint → Endpoint) : (s.modEndpoint e f).early = s.early := rfl
@[simp] theorem State.modEndpoint_power (s : State) (e : Nat) (f : Endpoint → Endpoint) : (s.modEndpoint e f).power = s.power := rfl
@[simp] theorem State.modEndpoint_thermal (s : State) (e : Nat) (f : Endpoint → Endpoint) : (s.modEndpoint e f).thermal = s.thermal := rfl
@[simp] theorem State.modEndpoint_sec (s : State) (e : Nat) (f : Endpoint → Endpoint) : (s.modEndpoint e f).sec = s.sec := rfl
@[simp] theorem State.modEndpoint_store (s : State) (e : Nat) (f : Endpoint → Endpoint) : (s.modEndpoint e f).store = s.store := rfl
@[simp] theorem State.modEndpoint_restore (s : State) (e : Nat) (f : Endpoint → Endpoint) : (s.modEndpoint e f).restore = s.restore := rfl
@[simp] theorem State.modEndpoint_globalLog (s : State) (e : Nat) (f : Endpoint → Endpoint) : (s.modEndpoint e f).globalLog = s.globalLog := rfl
@[simp] theorem State.modEndpoint_streamed (s : State) (e : Nat) (f : Endpoint → Endpoint) : (s.modEndpoint e f).streamed = s.streamed := rfl
@[simp] theorem State.modEndpoint_out (s : State) (e : Nat) (f : Endpoint → Endpoint) : (s.modEndpoint e f).out = s.out := rfl

/-! ### `State.modLink` -/

@[simp] theorem State.modLink_pending (s : State) (l : Nat) (f : Link → Link) : (s.modLink l f).pending = s.pending := rfl
@[simp] theorem State.modLink_funcs (s : State) (l : Nat) (f : Link → Link) : (s.modLink l f).funcs = s.funcs := rfl
@[simp] theorem State.modLink_now (s : State) (l : Nat) (f : Link → Link) : (s.modLink l f).now = s.now := rfl
@[simp] theorem State.modLink_fresh (s : State) (l : Nat) (f : Link → Link) : (s.modLink l f).fresh = s.fresh := rfl
@[simp] theorem State.modLink_nextTag (s : State) (l : Nat) (f : Link → Link) : (s.modLink l f).nextTag = s.nextTag := rfl
@[simp] theorem State.modLink_regs (s : State) (l : Nat) (f : Link → Link) : (s.modLink l f).regs = s.regs := rfl
@[simp] theorem State.modLink_positions (s : State) (l : Nat) (f : Link → Link) : (s.modLink l f).positions = s.positions := rfl
@[simp] theorem State.modLink_time (s : State) (l : Nat) (f : Link → Link) : (s.modLink l f).time = s.time := rfl
@[simp] theorem State.modLink_cores (s : State) (l : Nat) (f : Link → Link) : (s.modLink l f).cores = s.cores := rfl
@[simp] theorem State.modLink_clusters (s : State) (l : Nat) (f : Link → Link) : (s.modLink l f).clusters = s.clusters := rfl
@[simp] theorem State.modLink_routers (s : State) (l : Nat) (f : Link → Link) : (s.modLink l f).routers = s.routers := rfl
@[simp] theorem State.modLink_packets (s : State) (l : Nat) (f : Link → Link) : (s.modLink l f).packets = s.packets := rfl
@[simp] theorem State.modLink_hubs (s : State) (l : Nat) (f : Link → Link) : (s.modLink l f).hubs = s.hubs := rfl
@[simp] theorem State.modLink_drams (s : State) (l : Nat) (f : Link → Link) : (s.modLink l f).drams = s.drams := rfl
@[simp] theorem State.modLink_folds (s : State) (l : Nat) (f : Link → Link) : (s.modLink l f).folds = s.folds := rfl
@[simp] theorem State.modLink_entries (s : State) (l : Nat) (f : Link → Link) : (s.modLink l f).entries = s.entries := rfl
@[simp] theorem State.modLink_mirrors (s : State) (l : Nat) (f : Link → Link) : (s.modLink l f).mirrors = s.mirrors := rfl
@[simp] theorem State.modLink_shown (s : State) (l : Nat) (f : Link → Link) : (s.modLink l f).shown = s.shown := rfl
@[simp] theorem State.modLink_blanked (s : State) (l : Nat) (f : Link → Link) : (s.modLink l f).blanked = s.blanked := rfl
@[simp] theorem State.modLink_endpoints (s : State) (l : Nat) (f : Link → Link) : (s.modLink l f).endpoints = s.endpoints := rfl
@[simp] theorem State.modLink_models (s : State) (l : Nat) (f : Link → Link) : (s.modLink l f).models = s.models := rfl
@[simp] theorem State.modLink_rebuilds (s : State) (l : Nat) (f : Link → Link) : (s.modLink l f).rebuilds = s.rebuilds := rfl
@[simp] theorem State.modLink_links (s : State) (l : Nat) (f : Link → Link) : (s.modLink l f).links = Map.set (Link.reset l) s.links l (f (s.linkOf l)) := rfl
@[simp] theorem State.modLink_ports (s : State) (l : Nat) (f : Link → Link) : (s.modLink l f).ports = s.ports := rfl
@[simp] theorem State.modLink_windows (s : State) (l : Nat) (f : Link → Link) : (s.modLink l f).windows = s.windows := rfl
@[simp] theorem State.modLink_remotes (s : State) (l : Nat) (f : Link → Link) : (s.modLink l f).remotes = s.remotes := rfl
@[simp] theorem State.modLink_inbox (s : State) (l : Nat) (f : Link → Link) : (s.modLink l f).inbox = s.inbox := rfl
@[simp] theorem State.modLink_transits (s : State) (l : Nat) (f : Link → Link) : (s.modLink l f).transits = s.transits := rfl
@[simp] theorem State.modLink_relays (s : State) (l : Nat) (f : Link → Link) : (s.modLink l f).relays = s.relays := rfl
@[simp] theorem State.modLink_early (s : State) (l : Nat) (f : Link → Link) : (s.modLink l f).early = s.early := rfl
@[simp] theorem State.modLink_power (s : State) (l : Nat) (f : Link → Link) : (s.modLink l f).power = s.power := rfl
@[simp] theorem State.modLink_thermal (s : State) (l : Nat) (f : Link → Link) : (s.modLink l f).thermal = s.thermal := rfl
@[simp] theorem State.modLink_sec (s : State) (l : Nat) (f : Link → Link) : (s.modLink l f).sec = s.sec := rfl
@[simp] theorem State.modLink_store (s : State) (l : Nat) (f : Link → Link) : (s.modLink l f).store = s.store := rfl
@[simp] theorem State.modLink_restore (s : State) (l : Nat) (f : Link → Link) : (s.modLink l f).restore = s.restore := rfl
@[simp] theorem State.modLink_globalLog (s : State) (l : Nat) (f : Link → Link) : (s.modLink l f).globalLog = s.globalLog := rfl
@[simp] theorem State.modLink_streamed (s : State) (l : Nat) (f : Link → Link) : (s.modLink l f).streamed = s.streamed := rfl
@[simp] theorem State.modLink_out (s : State) (l : Nat) (f : Link → Link) : (s.modLink l f).out = s.out := rfl

/-! ### `State.modPort` -/

@[simp] theorem State.modPort_pending (s : State) (p : Nat) (f : Port → Port) : (s.modPort p f).pending = s.pending := rfl
@[simp] theorem State.modPort_funcs (s : State) (p : Nat) (f : Port → Port) : (s.modPort p f).funcs = s.funcs := rfl
@[simp] theorem State.modPort_now (s : State) (p : Nat) (f : Port → Port) : (s.modPort p f).now = s.now := rfl
@[simp] theorem State.modPort_fresh (s : State) (p : Nat) (f : Port → Port) : (s.modPort p f).fresh = s.fresh := rfl
@[simp] theorem State.modPort_nextTag (s : State) (p : Nat) (f : Port → Port) : (s.modPort p f).nextTag = s.nextTag := rfl
@[simp] theorem State.modPort_regs (s : State) (p : Nat) (f : Port → Port) : (s.modPort p f).regs = s.regs := rfl
@[simp] theorem State.modPort_positions (s : State) (p : Nat) (f : Port → Port) : (s.modPort p f).positions = s.positions := rfl
@[simp] theorem State.modPort_time (s : State) (p : Nat) (f : Port → Port) : (s.modPort p f).time = s.time := rfl
@[simp] theorem State.modPort_cores (s : State) (p : Nat) (f : Port → Port) : (s.modPort p f).cores = s.cores := rfl
@[simp] theorem State.modPort_clusters (s : State) (p : Nat) (f : Port → Port) : (s.modPort p f).clusters = s.clusters := rfl
@[simp] theorem State.modPort_routers (s : State) (p : Nat) (f : Port → Port) : (s.modPort p f).routers = s.routers := rfl
@[simp] theorem State.modPort_packets (s : State) (p : Nat) (f : Port → Port) : (s.modPort p f).packets = s.packets := rfl
@[simp] theorem State.modPort_hubs (s : State) (p : Nat) (f : Port → Port) : (s.modPort p f).hubs = s.hubs := rfl
@[simp] theorem State.modPort_drams (s : State) (p : Nat) (f : Port → Port) : (s.modPort p f).drams = s.drams := rfl
@[simp] theorem State.modPort_folds (s : State) (p : Nat) (f : Port → Port) : (s.modPort p f).folds = s.folds := rfl
@[simp] theorem State.modPort_entries (s : State) (p : Nat) (f : Port → Port) : (s.modPort p f).entries = s.entries := rfl
@[simp] theorem State.modPort_mirrors (s : State) (p : Nat) (f : Port → Port) : (s.modPort p f).mirrors = s.mirrors := rfl
@[simp] theorem State.modPort_shown (s : State) (p : Nat) (f : Port → Port) : (s.modPort p f).shown = s.shown := rfl
@[simp] theorem State.modPort_blanked (s : State) (p : Nat) (f : Port → Port) : (s.modPort p f).blanked = s.blanked := rfl
@[simp] theorem State.modPort_endpoints (s : State) (p : Nat) (f : Port → Port) : (s.modPort p f).endpoints = s.endpoints := rfl
@[simp] theorem State.modPort_models (s : State) (p : Nat) (f : Port → Port) : (s.modPort p f).models = s.models := rfl
@[simp] theorem State.modPort_rebuilds (s : State) (p : Nat) (f : Port → Port) : (s.modPort p f).rebuilds = s.rebuilds := rfl
@[simp] theorem State.modPort_links (s : State) (p : Nat) (f : Port → Port) : (s.modPort p f).links = s.links := rfl
@[simp] theorem State.modPort_ports (s : State) (p : Nat) (f : Port → Port) : (s.modPort p f).ports = Map.set Port.reset s.ports p (f (s.port p)) := rfl
@[simp] theorem State.modPort_windows (s : State) (p : Nat) (f : Port → Port) : (s.modPort p f).windows = s.windows := rfl
@[simp] theorem State.modPort_remotes (s : State) (p : Nat) (f : Port → Port) : (s.modPort p f).remotes = s.remotes := rfl
@[simp] theorem State.modPort_inbox (s : State) (p : Nat) (f : Port → Port) : (s.modPort p f).inbox = s.inbox := rfl
@[simp] theorem State.modPort_transits (s : State) (p : Nat) (f : Port → Port) : (s.modPort p f).transits = s.transits := rfl
@[simp] theorem State.modPort_relays (s : State) (p : Nat) (f : Port → Port) : (s.modPort p f).relays = s.relays := rfl
@[simp] theorem State.modPort_early (s : State) (p : Nat) (f : Port → Port) : (s.modPort p f).early = s.early := rfl
@[simp] theorem State.modPort_power (s : State) (p : Nat) (f : Port → Port) : (s.modPort p f).power = s.power := rfl
@[simp] theorem State.modPort_thermal (s : State) (p : Nat) (f : Port → Port) : (s.modPort p f).thermal = s.thermal := rfl
@[simp] theorem State.modPort_sec (s : State) (p : Nat) (f : Port → Port) : (s.modPort p f).sec = s.sec := rfl
@[simp] theorem State.modPort_store (s : State) (p : Nat) (f : Port → Port) : (s.modPort p f).store = s.store := rfl
@[simp] theorem State.modPort_restore (s : State) (p : Nat) (f : Port → Port) : (s.modPort p f).restore = s.restore := rfl
@[simp] theorem State.modPort_globalLog (s : State) (p : Nat) (f : Port → Port) : (s.modPort p f).globalLog = s.globalLog := rfl
@[simp] theorem State.modPort_streamed (s : State) (p : Nat) (f : Port → Port) : (s.modPort p f).streamed = s.streamed := rfl
@[simp] theorem State.modPort_out (s : State) (p : Nat) (f : Port → Port) : (s.modPort p f).out = s.out := rfl

/-! ### `State.modPower` -/

@[simp] theorem State.modPower_pending (s : State) (f : Power → Power) : (s.modPower f).pending = s.pending := rfl
@[simp] theorem State.modPower_funcs (s : State) (f : Power → Power) : (s.modPower f).funcs = s.funcs := rfl
@[simp] theorem State.modPower_now (s : State) (f : Power → Power) : (s.modPower f).now = s.now := rfl
@[simp] theorem State.modPower_fresh (s : State) (f : Power → Power) : (s.modPower f).fresh = s.fresh := rfl
@[simp] theorem State.modPower_nextTag (s : State) (f : Power → Power) : (s.modPower f).nextTag = s.nextTag := rfl
@[simp] theorem State.modPower_regs (s : State) (f : Power → Power) : (s.modPower f).regs = s.regs := rfl
@[simp] theorem State.modPower_positions (s : State) (f : Power → Power) : (s.modPower f).positions = s.positions := rfl
@[simp] theorem State.modPower_time (s : State) (f : Power → Power) : (s.modPower f).time = s.time := rfl
@[simp] theorem State.modPower_cores (s : State) (f : Power → Power) : (s.modPower f).cores = s.cores := rfl
@[simp] theorem State.modPower_clusters (s : State) (f : Power → Power) : (s.modPower f).clusters = s.clusters := rfl
@[simp] theorem State.modPower_routers (s : State) (f : Power → Power) : (s.modPower f).routers = s.routers := rfl
@[simp] theorem State.modPower_packets (s : State) (f : Power → Power) : (s.modPower f).packets = s.packets := rfl
@[simp] theorem State.modPower_hubs (s : State) (f : Power → Power) : (s.modPower f).hubs = s.hubs := rfl
@[simp] theorem State.modPower_drams (s : State) (f : Power → Power) : (s.modPower f).drams = s.drams := rfl
@[simp] theorem State.modPower_folds (s : State) (f : Power → Power) : (s.modPower f).folds = s.folds := rfl
@[simp] theorem State.modPower_entries (s : State) (f : Power → Power) : (s.modPower f).entries = s.entries := rfl
@[simp] theorem State.modPower_mirrors (s : State) (f : Power → Power) : (s.modPower f).mirrors = s.mirrors := rfl
@[simp] theorem State.modPower_shown (s : State) (f : Power → Power) : (s.modPower f).shown = s.shown := rfl
@[simp] theorem State.modPower_blanked (s : State) (f : Power → Power) : (s.modPower f).blanked = s.blanked := rfl
@[simp] theorem State.modPower_endpoints (s : State) (f : Power → Power) : (s.modPower f).endpoints = s.endpoints := rfl
@[simp] theorem State.modPower_models (s : State) (f : Power → Power) : (s.modPower f).models = s.models := rfl
@[simp] theorem State.modPower_rebuilds (s : State) (f : Power → Power) : (s.modPower f).rebuilds = s.rebuilds := rfl
@[simp] theorem State.modPower_links (s : State) (f : Power → Power) : (s.modPower f).links = s.links := rfl
@[simp] theorem State.modPower_ports (s : State) (f : Power → Power) : (s.modPower f).ports = s.ports := rfl
@[simp] theorem State.modPower_windows (s : State) (f : Power → Power) : (s.modPower f).windows = s.windows := rfl
@[simp] theorem State.modPower_remotes (s : State) (f : Power → Power) : (s.modPower f).remotes = s.remotes := rfl
@[simp] theorem State.modPower_inbox (s : State) (f : Power → Power) : (s.modPower f).inbox = s.inbox := rfl
@[simp] theorem State.modPower_transits (s : State) (f : Power → Power) : (s.modPower f).transits = s.transits := rfl
@[simp] theorem State.modPower_relays (s : State) (f : Power → Power) : (s.modPower f).relays = s.relays := rfl
@[simp] theorem State.modPower_early (s : State) (f : Power → Power) : (s.modPower f).early = s.early := rfl
@[simp] theorem State.modPower_power (s : State) (f : Power → Power) : (s.modPower f).power = f s.power := rfl
@[simp] theorem State.modPower_thermal (s : State) (f : Power → Power) : (s.modPower f).thermal = s.thermal := rfl
@[simp] theorem State.modPower_sec (s : State) (f : Power → Power) : (s.modPower f).sec = s.sec := rfl
@[simp] theorem State.modPower_store (s : State) (f : Power → Power) : (s.modPower f).store = s.store := rfl
@[simp] theorem State.modPower_restore (s : State) (f : Power → Power) : (s.modPower f).restore = s.restore := rfl
@[simp] theorem State.modPower_globalLog (s : State) (f : Power → Power) : (s.modPower f).globalLog = s.globalLog := rfl
@[simp] theorem State.modPower_streamed (s : State) (f : Power → Power) : (s.modPower f).streamed = s.streamed := rfl
@[simp] theorem State.modPower_out (s : State) (f : Power → Power) : (s.modPower f).out = s.out := rfl

/-! ### `State.modThermal` -/

@[simp] theorem State.modThermal_pending (s : State) (f : Thermal → Thermal) : (s.modThermal f).pending = s.pending := rfl
@[simp] theorem State.modThermal_funcs (s : State) (f : Thermal → Thermal) : (s.modThermal f).funcs = s.funcs := rfl
@[simp] theorem State.modThermal_now (s : State) (f : Thermal → Thermal) : (s.modThermal f).now = s.now := rfl
@[simp] theorem State.modThermal_fresh (s : State) (f : Thermal → Thermal) : (s.modThermal f).fresh = s.fresh := rfl
@[simp] theorem State.modThermal_nextTag (s : State) (f : Thermal → Thermal) : (s.modThermal f).nextTag = s.nextTag := rfl
@[simp] theorem State.modThermal_regs (s : State) (f : Thermal → Thermal) : (s.modThermal f).regs = s.regs := rfl
@[simp] theorem State.modThermal_positions (s : State) (f : Thermal → Thermal) : (s.modThermal f).positions = s.positions := rfl
@[simp] theorem State.modThermal_time (s : State) (f : Thermal → Thermal) : (s.modThermal f).time = s.time := rfl
@[simp] theorem State.modThermal_cores (s : State) (f : Thermal → Thermal) : (s.modThermal f).cores = s.cores := rfl
@[simp] theorem State.modThermal_clusters (s : State) (f : Thermal → Thermal) : (s.modThermal f).clusters = s.clusters := rfl
@[simp] theorem State.modThermal_routers (s : State) (f : Thermal → Thermal) : (s.modThermal f).routers = s.routers := rfl
@[simp] theorem State.modThermal_packets (s : State) (f : Thermal → Thermal) : (s.modThermal f).packets = s.packets := rfl
@[simp] theorem State.modThermal_hubs (s : State) (f : Thermal → Thermal) : (s.modThermal f).hubs = s.hubs := rfl
@[simp] theorem State.modThermal_drams (s : State) (f : Thermal → Thermal) : (s.modThermal f).drams = s.drams := rfl
@[simp] theorem State.modThermal_folds (s : State) (f : Thermal → Thermal) : (s.modThermal f).folds = s.folds := rfl
@[simp] theorem State.modThermal_entries (s : State) (f : Thermal → Thermal) : (s.modThermal f).entries = s.entries := rfl
@[simp] theorem State.modThermal_mirrors (s : State) (f : Thermal → Thermal) : (s.modThermal f).mirrors = s.mirrors := rfl
@[simp] theorem State.modThermal_shown (s : State) (f : Thermal → Thermal) : (s.modThermal f).shown = s.shown := rfl
@[simp] theorem State.modThermal_blanked (s : State) (f : Thermal → Thermal) : (s.modThermal f).blanked = s.blanked := rfl
@[simp] theorem State.modThermal_endpoints (s : State) (f : Thermal → Thermal) : (s.modThermal f).endpoints = s.endpoints := rfl
@[simp] theorem State.modThermal_models (s : State) (f : Thermal → Thermal) : (s.modThermal f).models = s.models := rfl
@[simp] theorem State.modThermal_rebuilds (s : State) (f : Thermal → Thermal) : (s.modThermal f).rebuilds = s.rebuilds := rfl
@[simp] theorem State.modThermal_links (s : State) (f : Thermal → Thermal) : (s.modThermal f).links = s.links := rfl
@[simp] theorem State.modThermal_ports (s : State) (f : Thermal → Thermal) : (s.modThermal f).ports = s.ports := rfl
@[simp] theorem State.modThermal_windows (s : State) (f : Thermal → Thermal) : (s.modThermal f).windows = s.windows := rfl
@[simp] theorem State.modThermal_remotes (s : State) (f : Thermal → Thermal) : (s.modThermal f).remotes = s.remotes := rfl
@[simp] theorem State.modThermal_inbox (s : State) (f : Thermal → Thermal) : (s.modThermal f).inbox = s.inbox := rfl
@[simp] theorem State.modThermal_transits (s : State) (f : Thermal → Thermal) : (s.modThermal f).transits = s.transits := rfl
@[simp] theorem State.modThermal_relays (s : State) (f : Thermal → Thermal) : (s.modThermal f).relays = s.relays := rfl
@[simp] theorem State.modThermal_early (s : State) (f : Thermal → Thermal) : (s.modThermal f).early = s.early := rfl
@[simp] theorem State.modThermal_power (s : State) (f : Thermal → Thermal) : (s.modThermal f).power = s.power := rfl
@[simp] theorem State.modThermal_thermal (s : State) (f : Thermal → Thermal) : (s.modThermal f).thermal = f s.thermal := rfl
@[simp] theorem State.modThermal_sec (s : State) (f : Thermal → Thermal) : (s.modThermal f).sec = s.sec := rfl
@[simp] theorem State.modThermal_store (s : State) (f : Thermal → Thermal) : (s.modThermal f).store = s.store := rfl
@[simp] theorem State.modThermal_restore (s : State) (f : Thermal → Thermal) : (s.modThermal f).restore = s.restore := rfl
@[simp] theorem State.modThermal_globalLog (s : State) (f : Thermal → Thermal) : (s.modThermal f).globalLog = s.globalLog := rfl
@[simp] theorem State.modThermal_streamed (s : State) (f : Thermal → Thermal) : (s.modThermal f).streamed = s.streamed := rfl
@[simp] theorem State.modThermal_out (s : State) (f : Thermal → Thermal) : (s.modThermal f).out = s.out := rfl

/-! ### `State.modSec` -/

@[simp] theorem State.modSec_pending (s : State) (f : Sec → Sec) : (s.modSec f).pending = s.pending := rfl
@[simp] theorem State.modSec_funcs (s : State) (f : Sec → Sec) : (s.modSec f).funcs = s.funcs := rfl
@[simp] theorem State.modSec_now (s : State) (f : Sec → Sec) : (s.modSec f).now = s.now := rfl
@[simp] theorem State.modSec_fresh (s : State) (f : Sec → Sec) : (s.modSec f).fresh = s.fresh := rfl
@[simp] theorem State.modSec_nextTag (s : State) (f : Sec → Sec) : (s.modSec f).nextTag = s.nextTag := rfl
@[simp] theorem State.modSec_regs (s : State) (f : Sec → Sec) : (s.modSec f).regs = s.regs := rfl
@[simp] theorem State.modSec_positions (s : State) (f : Sec → Sec) : (s.modSec f).positions = s.positions := rfl
@[simp] theorem State.modSec_time (s : State) (f : Sec → Sec) : (s.modSec f).time = s.time := rfl
@[simp] theorem State.modSec_cores (s : State) (f : Sec → Sec) : (s.modSec f).cores = s.cores := rfl
@[simp] theorem State.modSec_clusters (s : State) (f : Sec → Sec) : (s.modSec f).clusters = s.clusters := rfl
@[simp] theorem State.modSec_routers (s : State) (f : Sec → Sec) : (s.modSec f).routers = s.routers := rfl
@[simp] theorem State.modSec_packets (s : State) (f : Sec → Sec) : (s.modSec f).packets = s.packets := rfl
@[simp] theorem State.modSec_hubs (s : State) (f : Sec → Sec) : (s.modSec f).hubs = s.hubs := rfl
@[simp] theorem State.modSec_drams (s : State) (f : Sec → Sec) : (s.modSec f).drams = s.drams := rfl
@[simp] theorem State.modSec_folds (s : State) (f : Sec → Sec) : (s.modSec f).folds = s.folds := rfl
@[simp] theorem State.modSec_entries (s : State) (f : Sec → Sec) : (s.modSec f).entries = s.entries := rfl
@[simp] theorem State.modSec_mirrors (s : State) (f : Sec → Sec) : (s.modSec f).mirrors = s.mirrors := rfl
@[simp] theorem State.modSec_shown (s : State) (f : Sec → Sec) : (s.modSec f).shown = s.shown := rfl
@[simp] theorem State.modSec_blanked (s : State) (f : Sec → Sec) : (s.modSec f).blanked = s.blanked := rfl
@[simp] theorem State.modSec_endpoints (s : State) (f : Sec → Sec) : (s.modSec f).endpoints = s.endpoints := rfl
@[simp] theorem State.modSec_models (s : State) (f : Sec → Sec) : (s.modSec f).models = s.models := rfl
@[simp] theorem State.modSec_rebuilds (s : State) (f : Sec → Sec) : (s.modSec f).rebuilds = s.rebuilds := rfl
@[simp] theorem State.modSec_links (s : State) (f : Sec → Sec) : (s.modSec f).links = s.links := rfl
@[simp] theorem State.modSec_ports (s : State) (f : Sec → Sec) : (s.modSec f).ports = s.ports := rfl
@[simp] theorem State.modSec_windows (s : State) (f : Sec → Sec) : (s.modSec f).windows = s.windows := rfl
@[simp] theorem State.modSec_remotes (s : State) (f : Sec → Sec) : (s.modSec f).remotes = s.remotes := rfl
@[simp] theorem State.modSec_inbox (s : State) (f : Sec → Sec) : (s.modSec f).inbox = s.inbox := rfl
@[simp] theorem State.modSec_transits (s : State) (f : Sec → Sec) : (s.modSec f).transits = s.transits := rfl
@[simp] theorem State.modSec_relays (s : State) (f : Sec → Sec) : (s.modSec f).relays = s.relays := rfl
@[simp] theorem State.modSec_early (s : State) (f : Sec → Sec) : (s.modSec f).early = s.early := rfl
@[simp] theorem State.modSec_power (s : State) (f : Sec → Sec) : (s.modSec f).power = s.power := rfl
@[simp] theorem State.modSec_thermal (s : State) (f : Sec → Sec) : (s.modSec f).thermal = s.thermal := rfl
@[simp] theorem State.modSec_sec (s : State) (f : Sec → Sec) : (s.modSec f).sec = f s.sec := rfl
@[simp] theorem State.modSec_store (s : State) (f : Sec → Sec) : (s.modSec f).store = s.store := rfl
@[simp] theorem State.modSec_restore (s : State) (f : Sec → Sec) : (s.modSec f).restore = s.restore := rfl
@[simp] theorem State.modSec_globalLog (s : State) (f : Sec → Sec) : (s.modSec f).globalLog = s.globalLog := rfl
@[simp] theorem State.modSec_streamed (s : State) (f : Sec → Sec) : (s.modSec f).streamed = s.streamed := rfl
@[simp] theorem State.modSec_out (s : State) (f : Sec → Sec) : (s.modSec f).out = s.out := rfl

/-! ### `State.drew` -/

@[simp] theorem State.drew_pending (s : State) : (s.drew).pending = s.pending := rfl
@[simp] theorem State.drew_funcs (s : State) : (s.drew).funcs = s.funcs := rfl
@[simp] theorem State.drew_now (s : State) : (s.drew).now = s.now := rfl
@[simp] theorem State.drew_fresh (s : State) : (s.drew).fresh = s.fresh + 1 := rfl
@[simp] theorem State.drew_nextTag (s : State) : (s.drew).nextTag = s.nextTag := rfl
@[simp] theorem State.drew_regs (s : State) : (s.drew).regs = s.regs := rfl
@[simp] theorem State.drew_positions (s : State) : (s.drew).positions = s.positions := rfl
@[simp] theorem State.drew_time (s : State) : (s.drew).time = s.time := rfl
@[simp] theorem State.drew_cores (s : State) : (s.drew).cores = s.cores := rfl
@[simp] theorem State.drew_clusters (s : State) : (s.drew).clusters = s.clusters := rfl
@[simp] theorem State.drew_routers (s : State) : (s.drew).routers = s.routers := rfl
@[simp] theorem State.drew_packets (s : State) : (s.drew).packets = s.packets := rfl
@[simp] theorem State.drew_hubs (s : State) : (s.drew).hubs = s.hubs := rfl
@[simp] theorem State.drew_drams (s : State) : (s.drew).drams = s.drams := rfl
@[simp] theorem State.drew_folds (s : State) : (s.drew).folds = s.folds := rfl
@[simp] theorem State.drew_entries (s : State) : (s.drew).entries = s.entries := rfl
@[simp] theorem State.drew_mirrors (s : State) : (s.drew).mirrors = s.mirrors := rfl
@[simp] theorem State.drew_shown (s : State) : (s.drew).shown = s.shown := rfl
@[simp] theorem State.drew_blanked (s : State) : (s.drew).blanked = s.blanked := rfl
@[simp] theorem State.drew_endpoints (s : State) : (s.drew).endpoints = s.endpoints := rfl
@[simp] theorem State.drew_models (s : State) : (s.drew).models = s.models := rfl
@[simp] theorem State.drew_rebuilds (s : State) : (s.drew).rebuilds = s.rebuilds := rfl
@[simp] theorem State.drew_links (s : State) : (s.drew).links = s.links := rfl
@[simp] theorem State.drew_ports (s : State) : (s.drew).ports = s.ports := rfl
@[simp] theorem State.drew_windows (s : State) : (s.drew).windows = s.windows := rfl
@[simp] theorem State.drew_remotes (s : State) : (s.drew).remotes = s.remotes := rfl
@[simp] theorem State.drew_inbox (s : State) : (s.drew).inbox = s.inbox := rfl
@[simp] theorem State.drew_transits (s : State) : (s.drew).transits = s.transits := rfl
@[simp] theorem State.drew_relays (s : State) : (s.drew).relays = s.relays := rfl
@[simp] theorem State.drew_early (s : State) : (s.drew).early = s.early := rfl
@[simp] theorem State.drew_power (s : State) : (s.drew).power = s.power := rfl
@[simp] theorem State.drew_thermal (s : State) : (s.drew).thermal = s.thermal := rfl
@[simp] theorem State.drew_sec (s : State) : (s.drew).sec = s.sec := rfl
@[simp] theorem State.drew_store (s : State) : (s.drew).store = s.store := rfl
@[simp] theorem State.drew_restore (s : State) : (s.drew).restore = s.restore := rfl
@[simp] theorem State.drew_globalLog (s : State) : (s.drew).globalLog = s.globalLog := rfl
@[simp] theorem State.drew_streamed (s : State) : (s.drew).streamed = s.streamed := rfl
@[simp] theorem State.drew_out (s : State) : (s.drew).out = s.out := rfl

/-! ### `State.send` -/

@[simp] theorem State.send_pending (s : State) (o : Out) : (s.send o).pending = s.pending := rfl
@[simp] theorem State.send_funcs (s : State) (o : Out) : (s.send o).funcs = s.funcs := rfl
@[simp] theorem State.send_now (s : State) (o : Out) : (s.send o).now = s.now := rfl
@[simp] theorem State.send_fresh (s : State) (o : Out) : (s.send o).fresh = s.fresh := rfl
@[simp] theorem State.send_nextTag (s : State) (o : Out) : (s.send o).nextTag = s.nextTag := rfl
@[simp] theorem State.send_regs (s : State) (o : Out) : (s.send o).regs = s.regs := rfl
@[simp] theorem State.send_positions (s : State) (o : Out) : (s.send o).positions = s.positions := rfl
@[simp] theorem State.send_time (s : State) (o : Out) : (s.send o).time = s.time := rfl
@[simp] theorem State.send_cores (s : State) (o : Out) : (s.send o).cores = s.cores := rfl
@[simp] theorem State.send_clusters (s : State) (o : Out) : (s.send o).clusters = s.clusters := rfl
@[simp] theorem State.send_routers (s : State) (o : Out) : (s.send o).routers = s.routers := rfl
@[simp] theorem State.send_packets (s : State) (o : Out) : (s.send o).packets = s.packets := rfl
@[simp] theorem State.send_hubs (s : State) (o : Out) : (s.send o).hubs = s.hubs := rfl
@[simp] theorem State.send_drams (s : State) (o : Out) : (s.send o).drams = s.drams := rfl
@[simp] theorem State.send_folds (s : State) (o : Out) : (s.send o).folds = s.folds := rfl
@[simp] theorem State.send_entries (s : State) (o : Out) : (s.send o).entries = s.entries := rfl
@[simp] theorem State.send_mirrors (s : State) (o : Out) : (s.send o).mirrors = s.mirrors := rfl
@[simp] theorem State.send_shown (s : State) (o : Out) : (s.send o).shown = s.shown := rfl
@[simp] theorem State.send_blanked (s : State) (o : Out) : (s.send o).blanked = s.blanked := rfl
@[simp] theorem State.send_endpoints (s : State) (o : Out) : (s.send o).endpoints = s.endpoints := rfl
@[simp] theorem State.send_models (s : State) (o : Out) : (s.send o).models = s.models := rfl
@[simp] theorem State.send_rebuilds (s : State) (o : Out) : (s.send o).rebuilds = s.rebuilds := rfl
@[simp] theorem State.send_links (s : State) (o : Out) : (s.send o).links = s.links := rfl
@[simp] theorem State.send_ports (s : State) (o : Out) : (s.send o).ports = s.ports := rfl
@[simp] theorem State.send_windows (s : State) (o : Out) : (s.send o).windows = s.windows := rfl
@[simp] theorem State.send_remotes (s : State) (o : Out) : (s.send o).remotes = s.remotes := rfl
@[simp] theorem State.send_inbox (s : State) (o : Out) : (s.send o).inbox = s.inbox := rfl
@[simp] theorem State.send_transits (s : State) (o : Out) : (s.send o).transits = s.transits := rfl
@[simp] theorem State.send_relays (s : State) (o : Out) : (s.send o).relays = s.relays := rfl
@[simp] theorem State.send_early (s : State) (o : Out) : (s.send o).early = s.early := rfl
@[simp] theorem State.send_power (s : State) (o : Out) : (s.send o).power = s.power := rfl
@[simp] theorem State.send_thermal (s : State) (o : Out) : (s.send o).thermal = s.thermal := rfl
@[simp] theorem State.send_sec (s : State) (o : Out) : (s.send o).sec = s.sec := rfl
@[simp] theorem State.send_store (s : State) (o : Out) : (s.send o).store = s.store := rfl
@[simp] theorem State.send_restore (s : State) (o : Out) : (s.send o).restore = s.restore := rfl
@[simp] theorem State.send_globalLog (s : State) (o : Out) : (s.send o).globalLog = s.globalLog := rfl
@[simp] theorem State.send_streamed (s : State) (o : Out) : (s.send o).streamed = s.streamed := rfl
@[simp] theorem State.send_out (s : State) (o : Out) : (s.send o).out = o :: s.out := rfl

/-! ### `State.completes` -/

@[simp] theorem State.completes_pending (s : State) (p : Path) (a : Nat) (ok : Bool) : (s.completes p a ok).pending = s.pending := rfl
@[simp] theorem State.completes_funcs (s : State) (p : Path) (a : Nat) (ok : Bool) : (s.completes p a ok).funcs = s.funcs := rfl
@[simp] theorem State.completes_now (s : State) (p : Path) (a : Nat) (ok : Bool) : (s.completes p a ok).now = s.now := rfl
@[simp] theorem State.completes_fresh (s : State) (p : Path) (a : Nat) (ok : Bool) : (s.completes p a ok).fresh = s.fresh := rfl
@[simp] theorem State.completes_nextTag (s : State) (p : Path) (a : Nat) (ok : Bool) : (s.completes p a ok).nextTag = s.nextTag := rfl
@[simp] theorem State.completes_regs (s : State) (p : Path) (a : Nat) (ok : Bool) : (s.completes p a ok).regs = s.regs := rfl
@[simp] theorem State.completes_positions (s : State) (p : Path) (a : Nat) (ok : Bool) : (s.completes p a ok).positions = s.positions := rfl
@[simp] theorem State.completes_time (s : State) (p : Path) (a : Nat) (ok : Bool) : (s.completes p a ok).time = s.time := rfl
@[simp] theorem State.completes_cores (s : State) (p : Path) (a : Nat) (ok : Bool) : (s.completes p a ok).cores = s.cores := rfl
@[simp] theorem State.completes_clusters (s : State) (p : Path) (a : Nat) (ok : Bool) : (s.completes p a ok).clusters = s.clusters := rfl
@[simp] theorem State.completes_routers (s : State) (p : Path) (a : Nat) (ok : Bool) : (s.completes p a ok).routers = s.routers := rfl
@[simp] theorem State.completes_packets (s : State) (p : Path) (a : Nat) (ok : Bool) : (s.completes p a ok).packets = s.packets := rfl
@[simp] theorem State.completes_hubs (s : State) (p : Path) (a : Nat) (ok : Bool) : (s.completes p a ok).hubs = s.hubs := rfl
@[simp] theorem State.completes_drams (s : State) (p : Path) (a : Nat) (ok : Bool) : (s.completes p a ok).drams = s.drams := rfl
@[simp] theorem State.completes_folds (s : State) (p : Path) (a : Nat) (ok : Bool) : (s.completes p a ok).folds = s.folds := rfl
@[simp] theorem State.completes_entries (s : State) (p : Path) (a : Nat) (ok : Bool) : (s.completes p a ok).entries = s.entries := rfl
@[simp] theorem State.completes_mirrors (s : State) (p : Path) (a : Nat) (ok : Bool) : (s.completes p a ok).mirrors = s.mirrors := rfl
@[simp] theorem State.completes_shown (s : State) (p : Path) (a : Nat) (ok : Bool) : (s.completes p a ok).shown = s.shown := rfl
@[simp] theorem State.completes_blanked (s : State) (p : Path) (a : Nat) (ok : Bool) : (s.completes p a ok).blanked = s.blanked := rfl
@[simp] theorem State.completes_endpoints (s : State) (p : Path) (a : Nat) (ok : Bool) : (s.completes p a ok).endpoints = s.endpoints := rfl
@[simp] theorem State.completes_models (s : State) (p : Path) (a : Nat) (ok : Bool) : (s.completes p a ok).models = s.models := rfl
@[simp] theorem State.completes_rebuilds (s : State) (p : Path) (a : Nat) (ok : Bool) : (s.completes p a ok).rebuilds = s.rebuilds := rfl
@[simp] theorem State.completes_links (s : State) (p : Path) (a : Nat) (ok : Bool) : (s.completes p a ok).links = s.links := rfl
@[simp] theorem State.completes_ports (s : State) (p : Path) (a : Nat) (ok : Bool) : (s.completes p a ok).ports = s.ports := rfl
@[simp] theorem State.completes_windows (s : State) (p : Path) (a : Nat) (ok : Bool) : (s.completes p a ok).windows = s.windows := rfl
@[simp] theorem State.completes_remotes (s : State) (p : Path) (a : Nat) (ok : Bool) : (s.completes p a ok).remotes = s.remotes := rfl
@[simp] theorem State.completes_inbox (s : State) (p : Path) (a : Nat) (ok : Bool) : (s.completes p a ok).inbox = s.inbox := rfl
@[simp] theorem State.completes_transits (s : State) (p : Path) (a : Nat) (ok : Bool) : (s.completes p a ok).transits = s.transits := rfl
@[simp] theorem State.completes_relays (s : State) (p : Path) (a : Nat) (ok : Bool) : (s.completes p a ok).relays = s.relays := rfl
@[simp] theorem State.completes_early (s : State) (p : Path) (a : Nat) (ok : Bool) : (s.completes p a ok).early = s.early := rfl
@[simp] theorem State.completes_power (s : State) (p : Path) (a : Nat) (ok : Bool) : (s.completes p a ok).power = s.power := rfl
@[simp] theorem State.completes_thermal (s : State) (p : Path) (a : Nat) (ok : Bool) : (s.completes p a ok).thermal = s.thermal := rfl
@[simp] theorem State.completes_sec (s : State) (p : Path) (a : Nat) (ok : Bool) : (s.completes p a ok).sec = s.sec := rfl
@[simp] theorem State.completes_store (s : State) (p : Path) (a : Nat) (ok : Bool) : (s.completes p a ok).store = s.store := rfl
@[simp] theorem State.completes_restore (s : State) (p : Path) (a : Nat) (ok : Bool) : (s.completes p a ok).restore = s.restore := rfl
@[simp] theorem State.completes_globalLog (s : State) (p : Path) (a : Nat) (ok : Bool) : (s.completes p a ok).globalLog = s.globalLog := rfl
@[simp] theorem State.completes_streamed (s : State) (p : Path) (a : Nat) (ok : Bool) : (s.completes p a ok).streamed = s.streamed := rfl
@[simp] theorem State.completes_out (s : State) (p : Path) (a : Nat) (ok : Bool) : (s.completes p a ok).out = .access p a ok :: s.out := rfl

/-! ### `State.recordModule` -/

@[simp] theorem State.recordModule_pending (s : State) : s.recordModule.pending = s.pending := rfl
@[simp] theorem State.recordModule_funcs (s : State) : s.recordModule.funcs = s.funcs := rfl
@[simp] theorem State.recordModule_now (s : State) : s.recordModule.now = s.now := rfl
@[simp] theorem State.recordModule_fresh (s : State) : s.recordModule.fresh = s.fresh := rfl
@[simp] theorem State.recordModule_nextTag (s : State) : s.recordModule.nextTag = s.nextTag := rfl
@[simp] theorem State.recordModule_regs (s : State) : s.recordModule.regs = s.regs := rfl
@[simp] theorem State.recordModule_positions (s : State) : s.recordModule.positions = s.positions := rfl
@[simp] theorem State.recordModule_time (s : State) : s.recordModule.time = s.time := rfl
@[simp] theorem State.recordModule_cores (s : State) : s.recordModule.cores = s.cores := rfl
@[simp] theorem State.recordModule_clusters (s : State) : s.recordModule.clusters = s.clusters := rfl
@[simp] theorem State.recordModule_routers (s : State) : s.recordModule.routers = s.routers := rfl
@[simp] theorem State.recordModule_packets (s : State) : s.recordModule.packets = s.packets := rfl
@[simp] theorem State.recordModule_hubs (s : State) : s.recordModule.hubs = s.hubs := rfl
@[simp] theorem State.recordModule_drams (s : State) : s.recordModule.drams = s.drams := rfl
@[simp] theorem State.recordModule_folds (s : State) : s.recordModule.folds = s.folds := rfl
@[simp] theorem State.recordModule_entries (s : State) : s.recordModule.entries = s.entries := rfl
@[simp] theorem State.recordModule_mirrors (s : State) : s.recordModule.mirrors = s.mirrors := rfl
@[simp] theorem State.recordModule_shown (s : State) : s.recordModule.shown = s.shown := rfl
@[simp] theorem State.recordModule_blanked (s : State) : s.recordModule.blanked = s.blanked := rfl
@[simp] theorem State.recordModule_endpoints (s : State) : s.recordModule.endpoints = s.endpoints := rfl
@[simp] theorem State.recordModule_models (s : State) : s.recordModule.models = s.models := rfl
@[simp] theorem State.recordModule_rebuilds (s : State) : s.recordModule.rebuilds = s.rebuilds := rfl
@[simp] theorem State.recordModule_links (s : State) : s.recordModule.links = s.links := rfl
@[simp] theorem State.recordModule_ports (s : State) : s.recordModule.ports = s.ports := rfl
@[simp] theorem State.recordModule_windows (s : State) : s.recordModule.windows = s.windows := rfl
@[simp] theorem State.recordModule_remotes (s : State) : s.recordModule.remotes = s.remotes := rfl
@[simp] theorem State.recordModule_inbox (s : State) : s.recordModule.inbox = s.inbox := rfl
@[simp] theorem State.recordModule_transits (s : State) : s.recordModule.transits = s.transits := rfl
@[simp] theorem State.recordModule_relays (s : State) : s.recordModule.relays = s.relays := rfl
@[simp] theorem State.recordModule_early (s : State) : s.recordModule.early = s.early := rfl
@[simp] theorem State.recordModule_power (s : State) : s.recordModule.power = s.power := rfl
@[simp] theorem State.recordModule_thermal (s : State) : s.recordModule.thermal = s.thermal := rfl
@[simp] theorem State.recordModule_sec (s : State) : s.recordModule.sec = s.sec := rfl
@[simp] theorem State.recordModule_store (s : State) : s.recordModule.store = { s.store with seq := (s.store.seq + 1) % 2 ^ 64 } := rfl
@[simp] theorem State.recordModule_restore (s : State) : s.recordModule.restore = s.restore := rfl
@[simp] theorem State.recordModule_globalLog (s : State) : s.recordModule.globalLog = s.globalLog := rfl
@[simp] theorem State.recordModule_streamed (s : State) : s.recordModule.streamed = s.streamed := rfl
@[simp] theorem State.recordModule_out (s : State) : s.recordModule.out = s.out := rfl

/-! ### `State.setReg` -/

@[simp] theorem State.setReg_pending (s : State) (r : Reg) (u i : Nat) (w : Word) : (s.setReg r u i w).pending = s.pending := rfl
@[simp] theorem State.setReg_funcs (s : State) (r : Reg) (u i : Nat) (w : Word) : (s.setReg r u i w).funcs = s.funcs := rfl
@[simp] theorem State.setReg_now (s : State) (r : Reg) (u i : Nat) (w : Word) : (s.setReg r u i w).now = s.now := rfl
@[simp] theorem State.setReg_fresh (s : State) (r : Reg) (u i : Nat) (w : Word) : (s.setReg r u i w).fresh = s.fresh := rfl
@[simp] theorem State.setReg_nextTag (s : State) (r : Reg) (u i : Nat) (w : Word) : (s.setReg r u i w).nextTag = s.nextTag := rfl
@[simp] theorem State.setReg_regs (s : State) (r : Reg) (u i : Nat) (w : Word) : (s.setReg r u i w).regs = Map.set (r.resetWord u i) s.regs (r.addr u i) w := rfl
@[simp] theorem State.setReg_positions (s : State) (r : Reg) (u i : Nat) (w : Word) : (s.setReg r u i w).positions = s.positions := rfl
@[simp] theorem State.setReg_time (s : State) (r : Reg) (u i : Nat) (w : Word) : (s.setReg r u i w).time = s.time := rfl
@[simp] theorem State.setReg_cores (s : State) (r : Reg) (u i : Nat) (w : Word) : (s.setReg r u i w).cores = s.cores := rfl
@[simp] theorem State.setReg_clusters (s : State) (r : Reg) (u i : Nat) (w : Word) : (s.setReg r u i w).clusters = s.clusters := rfl
@[simp] theorem State.setReg_routers (s : State) (r : Reg) (u i : Nat) (w : Word) : (s.setReg r u i w).routers = s.routers := rfl
@[simp] theorem State.setReg_packets (s : State) (r : Reg) (u i : Nat) (w : Word) : (s.setReg r u i w).packets = s.packets := rfl
@[simp] theorem State.setReg_hubs (s : State) (r : Reg) (u i : Nat) (w : Word) : (s.setReg r u i w).hubs = s.hubs := rfl
@[simp] theorem State.setReg_drams (s : State) (r : Reg) (u i : Nat) (w : Word) : (s.setReg r u i w).drams = s.drams := rfl
@[simp] theorem State.setReg_folds (s : State) (r : Reg) (u i : Nat) (w : Word) : (s.setReg r u i w).folds = s.folds := rfl
@[simp] theorem State.setReg_entries (s : State) (r : Reg) (u i : Nat) (w : Word) : (s.setReg r u i w).entries = s.entries := rfl
@[simp] theorem State.setReg_mirrors (s : State) (r : Reg) (u i : Nat) (w : Word) : (s.setReg r u i w).mirrors = s.mirrors := rfl
@[simp] theorem State.setReg_shown (s : State) (r : Reg) (u i : Nat) (w : Word) : (s.setReg r u i w).shown = s.shown := rfl
@[simp] theorem State.setReg_blanked (s : State) (r : Reg) (u i : Nat) (w : Word) : (s.setReg r u i w).blanked = s.blanked := rfl
@[simp] theorem State.setReg_endpoints (s : State) (r : Reg) (u i : Nat) (w : Word) : (s.setReg r u i w).endpoints = s.endpoints := rfl
@[simp] theorem State.setReg_models (s : State) (r : Reg) (u i : Nat) (w : Word) : (s.setReg r u i w).models = s.models := rfl
@[simp] theorem State.setReg_rebuilds (s : State) (r : Reg) (u i : Nat) (w : Word) : (s.setReg r u i w).rebuilds = s.rebuilds := rfl
@[simp] theorem State.setReg_links (s : State) (r : Reg) (u i : Nat) (w : Word) : (s.setReg r u i w).links = s.links := rfl
@[simp] theorem State.setReg_ports (s : State) (r : Reg) (u i : Nat) (w : Word) : (s.setReg r u i w).ports = s.ports := rfl
@[simp] theorem State.setReg_windows (s : State) (r : Reg) (u i : Nat) (w : Word) : (s.setReg r u i w).windows = s.windows := rfl
@[simp] theorem State.setReg_remotes (s : State) (r : Reg) (u i : Nat) (w : Word) : (s.setReg r u i w).remotes = s.remotes := rfl
@[simp] theorem State.setReg_inbox (s : State) (r : Reg) (u i : Nat) (w : Word) : (s.setReg r u i w).inbox = s.inbox := rfl
@[simp] theorem State.setReg_transits (s : State) (r : Reg) (u i : Nat) (w : Word) : (s.setReg r u i w).transits = s.transits := rfl
@[simp] theorem State.setReg_relays (s : State) (r : Reg) (u i : Nat) (w : Word) : (s.setReg r u i w).relays = s.relays := rfl
@[simp] theorem State.setReg_early (s : State) (r : Reg) (u i : Nat) (w : Word) : (s.setReg r u i w).early = s.early := rfl
@[simp] theorem State.setReg_power (s : State) (r : Reg) (u i : Nat) (w : Word) : (s.setReg r u i w).power = s.power := rfl
@[simp] theorem State.setReg_thermal (s : State) (r : Reg) (u i : Nat) (w : Word) : (s.setReg r u i w).thermal = s.thermal := rfl
@[simp] theorem State.setReg_sec (s : State) (r : Reg) (u i : Nat) (w : Word) : (s.setReg r u i w).sec = s.sec := rfl
@[simp] theorem State.setReg_store (s : State) (r : Reg) (u i : Nat) (w : Word) : (s.setReg r u i w).store = s.store := rfl
@[simp] theorem State.setReg_restore (s : State) (r : Reg) (u i : Nat) (w : Word) : (s.setReg r u i w).restore = s.restore := rfl
@[simp] theorem State.setReg_globalLog (s : State) (r : Reg) (u i : Nat) (w : Word) : (s.setReg r u i w).globalLog = s.globalLog := rfl
@[simp] theorem State.setReg_streamed (s : State) (r : Reg) (u i : Nat) (w : Word) : (s.setReg r u i w).streamed = s.streamed := rfl
@[simp] theorem State.setReg_out (s : State) (r : Reg) (u i : Nat) (w : Word) : (s.setReg r u i w).out = s.out := rfl

/-! ### `State.setFld` -/

@[simp] theorem State.setFld_pending (s : State) (f : Fld) (u i v : Nat) : (s.setFld f u i v).pending = s.pending := rfl
@[simp] theorem State.setFld_funcs (s : State) (f : Fld) (u i v : Nat) : (s.setFld f u i v).funcs = s.funcs := rfl
@[simp] theorem State.setFld_now (s : State) (f : Fld) (u i v : Nat) : (s.setFld f u i v).now = s.now := rfl
@[simp] theorem State.setFld_fresh (s : State) (f : Fld) (u i v : Nat) : (s.setFld f u i v).fresh = s.fresh := rfl
@[simp] theorem State.setFld_nextTag (s : State) (f : Fld) (u i v : Nat) : (s.setFld f u i v).nextTag = s.nextTag := rfl
@[simp] theorem State.setFld_positions (s : State) (f : Fld) (u i v : Nat) : (s.setFld f u i v).positions = s.positions := rfl
@[simp] theorem State.setFld_time (s : State) (f : Fld) (u i v : Nat) : (s.setFld f u i v).time = s.time := rfl
@[simp] theorem State.setFld_cores (s : State) (f : Fld) (u i v : Nat) : (s.setFld f u i v).cores = s.cores := rfl
@[simp] theorem State.setFld_clusters (s : State) (f : Fld) (u i v : Nat) : (s.setFld f u i v).clusters = s.clusters := rfl
@[simp] theorem State.setFld_routers (s : State) (f : Fld) (u i v : Nat) : (s.setFld f u i v).routers = s.routers := rfl
@[simp] theorem State.setFld_packets (s : State) (f : Fld) (u i v : Nat) : (s.setFld f u i v).packets = s.packets := rfl
@[simp] theorem State.setFld_hubs (s : State) (f : Fld) (u i v : Nat) : (s.setFld f u i v).hubs = s.hubs := rfl
@[simp] theorem State.setFld_drams (s : State) (f : Fld) (u i v : Nat) : (s.setFld f u i v).drams = s.drams := rfl
@[simp] theorem State.setFld_folds (s : State) (f : Fld) (u i v : Nat) : (s.setFld f u i v).folds = s.folds := rfl
@[simp] theorem State.setFld_entries (s : State) (f : Fld) (u i v : Nat) : (s.setFld f u i v).entries = s.entries := rfl
@[simp] theorem State.setFld_mirrors (s : State) (f : Fld) (u i v : Nat) : (s.setFld f u i v).mirrors = s.mirrors := rfl
@[simp] theorem State.setFld_shown (s : State) (f : Fld) (u i v : Nat) : (s.setFld f u i v).shown = s.shown := rfl
@[simp] theorem State.setFld_blanked (s : State) (f : Fld) (u i v : Nat) : (s.setFld f u i v).blanked = s.blanked := rfl
@[simp] theorem State.setFld_endpoints (s : State) (f : Fld) (u i v : Nat) : (s.setFld f u i v).endpoints = s.endpoints := rfl
@[simp] theorem State.setFld_models (s : State) (f : Fld) (u i v : Nat) : (s.setFld f u i v).models = s.models := rfl
@[simp] theorem State.setFld_rebuilds (s : State) (f : Fld) (u i v : Nat) : (s.setFld f u i v).rebuilds = s.rebuilds := rfl
@[simp] theorem State.setFld_links (s : State) (f : Fld) (u i v : Nat) : (s.setFld f u i v).links = s.links := rfl
@[simp] theorem State.setFld_ports (s : State) (f : Fld) (u i v : Nat) : (s.setFld f u i v).ports = s.ports := rfl
@[simp] theorem State.setFld_windows (s : State) (f : Fld) (u i v : Nat) : (s.setFld f u i v).windows = s.windows := rfl
@[simp] theorem State.setFld_remotes (s : State) (f : Fld) (u i v : Nat) : (s.setFld f u i v).remotes = s.remotes := rfl
@[simp] theorem State.setFld_inbox (s : State) (f : Fld) (u i v : Nat) : (s.setFld f u i v).inbox = s.inbox := rfl
@[simp] theorem State.setFld_transits (s : State) (f : Fld) (u i v : Nat) : (s.setFld f u i v).transits = s.transits := rfl
@[simp] theorem State.setFld_relays (s : State) (f : Fld) (u i v : Nat) : (s.setFld f u i v).relays = s.relays := rfl
@[simp] theorem State.setFld_early (s : State) (f : Fld) (u i v : Nat) : (s.setFld f u i v).early = s.early := rfl
@[simp] theorem State.setFld_power (s : State) (f : Fld) (u i v : Nat) : (s.setFld f u i v).power = s.power := rfl
@[simp] theorem State.setFld_thermal (s : State) (f : Fld) (u i v : Nat) : (s.setFld f u i v).thermal = s.thermal := rfl
@[simp] theorem State.setFld_sec (s : State) (f : Fld) (u i v : Nat) : (s.setFld f u i v).sec = s.sec := rfl
@[simp] theorem State.setFld_store (s : State) (f : Fld) (u i v : Nat) : (s.setFld f u i v).store = s.store := rfl
@[simp] theorem State.setFld_restore (s : State) (f : Fld) (u i v : Nat) : (s.setFld f u i v).restore = s.restore := rfl
@[simp] theorem State.setFld_globalLog (s : State) (f : Fld) (u i v : Nat) : (s.setFld f u i v).globalLog = s.globalLog := rfl
@[simp] theorem State.setFld_streamed (s : State) (f : Fld) (u i v : Nat) : (s.setFld f u i v).streamed = s.streamed := rfl
@[simp] theorem State.setFld_out (s : State) (f : Fld) (u i v : Nat) : (s.setFld f u i v).out = s.out := rfl

/-! ### `State.bumpBy` -/

@[simp] theorem State.bumpBy_pending (s : State) (f : Fld) (u i n : Nat) : (s.bumpBy f u i n).pending = s.pending := rfl
@[simp] theorem State.bumpBy_funcs (s : State) (f : Fld) (u i n : Nat) : (s.bumpBy f u i n).funcs = s.funcs := rfl
@[simp] theorem State.bumpBy_now (s : State) (f : Fld) (u i n : Nat) : (s.bumpBy f u i n).now = s.now := rfl
@[simp] theorem State.bumpBy_fresh (s : State) (f : Fld) (u i n : Nat) : (s.bumpBy f u i n).fresh = s.fresh := rfl
@[simp] theorem State.bumpBy_nextTag (s : State) (f : Fld) (u i n : Nat) : (s.bumpBy f u i n).nextTag = s.nextTag := rfl
@[simp] theorem State.bumpBy_positions (s : State) (f : Fld) (u i n : Nat) : (s.bumpBy f u i n).positions = s.positions := rfl
@[simp] theorem State.bumpBy_time (s : State) (f : Fld) (u i n : Nat) : (s.bumpBy f u i n).time = s.time := rfl
@[simp] theorem State.bumpBy_cores (s : State) (f : Fld) (u i n : Nat) : (s.bumpBy f u i n).cores = s.cores := rfl
@[simp] theorem State.bumpBy_clusters (s : State) (f : Fld) (u i n : Nat) : (s.bumpBy f u i n).clusters = s.clusters := rfl
@[simp] theorem State.bumpBy_routers (s : State) (f : Fld) (u i n : Nat) : (s.bumpBy f u i n).routers = s.routers := rfl
@[simp] theorem State.bumpBy_packets (s : State) (f : Fld) (u i n : Nat) : (s.bumpBy f u i n).packets = s.packets := rfl
@[simp] theorem State.bumpBy_hubs (s : State) (f : Fld) (u i n : Nat) : (s.bumpBy f u i n).hubs = s.hubs := rfl
@[simp] theorem State.bumpBy_drams (s : State) (f : Fld) (u i n : Nat) : (s.bumpBy f u i n).drams = s.drams := rfl
@[simp] theorem State.bumpBy_folds (s : State) (f : Fld) (u i n : Nat) : (s.bumpBy f u i n).folds = s.folds := rfl
@[simp] theorem State.bumpBy_entries (s : State) (f : Fld) (u i n : Nat) : (s.bumpBy f u i n).entries = s.entries := rfl
@[simp] theorem State.bumpBy_mirrors (s : State) (f : Fld) (u i n : Nat) : (s.bumpBy f u i n).mirrors = s.mirrors := rfl
@[simp] theorem State.bumpBy_shown (s : State) (f : Fld) (u i n : Nat) : (s.bumpBy f u i n).shown = s.shown := rfl
@[simp] theorem State.bumpBy_blanked (s : State) (f : Fld) (u i n : Nat) : (s.bumpBy f u i n).blanked = s.blanked := rfl
@[simp] theorem State.bumpBy_endpoints (s : State) (f : Fld) (u i n : Nat) : (s.bumpBy f u i n).endpoints = s.endpoints := rfl
@[simp] theorem State.bumpBy_models (s : State) (f : Fld) (u i n : Nat) : (s.bumpBy f u i n).models = s.models := rfl
@[simp] theorem State.bumpBy_rebuilds (s : State) (f : Fld) (u i n : Nat) : (s.bumpBy f u i n).rebuilds = s.rebuilds := rfl
@[simp] theorem State.bumpBy_links (s : State) (f : Fld) (u i n : Nat) : (s.bumpBy f u i n).links = s.links := rfl
@[simp] theorem State.bumpBy_ports (s : State) (f : Fld) (u i n : Nat) : (s.bumpBy f u i n).ports = s.ports := rfl
@[simp] theorem State.bumpBy_windows (s : State) (f : Fld) (u i n : Nat) : (s.bumpBy f u i n).windows = s.windows := rfl
@[simp] theorem State.bumpBy_remotes (s : State) (f : Fld) (u i n : Nat) : (s.bumpBy f u i n).remotes = s.remotes := rfl
@[simp] theorem State.bumpBy_inbox (s : State) (f : Fld) (u i n : Nat) : (s.bumpBy f u i n).inbox = s.inbox := rfl
@[simp] theorem State.bumpBy_transits (s : State) (f : Fld) (u i n : Nat) : (s.bumpBy f u i n).transits = s.transits := rfl
@[simp] theorem State.bumpBy_relays (s : State) (f : Fld) (u i n : Nat) : (s.bumpBy f u i n).relays = s.relays := rfl
@[simp] theorem State.bumpBy_early (s : State) (f : Fld) (u i n : Nat) : (s.bumpBy f u i n).early = s.early := rfl
@[simp] theorem State.bumpBy_power (s : State) (f : Fld) (u i n : Nat) : (s.bumpBy f u i n).power = s.power := rfl
@[simp] theorem State.bumpBy_thermal (s : State) (f : Fld) (u i n : Nat) : (s.bumpBy f u i n).thermal = s.thermal := rfl
@[simp] theorem State.bumpBy_sec (s : State) (f : Fld) (u i n : Nat) : (s.bumpBy f u i n).sec = s.sec := rfl
@[simp] theorem State.bumpBy_store (s : State) (f : Fld) (u i n : Nat) : (s.bumpBy f u i n).store = s.store := rfl
@[simp] theorem State.bumpBy_restore (s : State) (f : Fld) (u i n : Nat) : (s.bumpBy f u i n).restore = s.restore := rfl
@[simp] theorem State.bumpBy_globalLog (s : State) (f : Fld) (u i n : Nat) : (s.bumpBy f u i n).globalLog = s.globalLog := rfl
@[simp] theorem State.bumpBy_streamed (s : State) (f : Fld) (u i n : Nat) : (s.bumpBy f u i n).streamed = s.streamed := rfl
@[simp] theorem State.bumpBy_out (s : State) (f : Fld) (u i n : Nat) : (s.bumpBy f u i n).out = s.out := rfl

/-! ### `State.bump` -/

@[simp] theorem State.bump_pending (s : State) (f : Fld) (u i : Nat) : (s.bump f u i).pending = s.pending := rfl
@[simp] theorem State.bump_funcs (s : State) (f : Fld) (u i : Nat) : (s.bump f u i).funcs = s.funcs := rfl
@[simp] theorem State.bump_now (s : State) (f : Fld) (u i : Nat) : (s.bump f u i).now = s.now := rfl
@[simp] theorem State.bump_fresh (s : State) (f : Fld) (u i : Nat) : (s.bump f u i).fresh = s.fresh := rfl
@[simp] theorem State.bump_nextTag (s : State) (f : Fld) (u i : Nat) : (s.bump f u i).nextTag = s.nextTag := rfl
@[simp] theorem State.bump_positions (s : State) (f : Fld) (u i : Nat) : (s.bump f u i).positions = s.positions := rfl
@[simp] theorem State.bump_time (s : State) (f : Fld) (u i : Nat) : (s.bump f u i).time = s.time := rfl
@[simp] theorem State.bump_cores (s : State) (f : Fld) (u i : Nat) : (s.bump f u i).cores = s.cores := rfl
@[simp] theorem State.bump_clusters (s : State) (f : Fld) (u i : Nat) : (s.bump f u i).clusters = s.clusters := rfl
@[simp] theorem State.bump_routers (s : State) (f : Fld) (u i : Nat) : (s.bump f u i).routers = s.routers := rfl
@[simp] theorem State.bump_packets (s : State) (f : Fld) (u i : Nat) : (s.bump f u i).packets = s.packets := rfl
@[simp] theorem State.bump_hubs (s : State) (f : Fld) (u i : Nat) : (s.bump f u i).hubs = s.hubs := rfl
@[simp] theorem State.bump_drams (s : State) (f : Fld) (u i : Nat) : (s.bump f u i).drams = s.drams := rfl
@[simp] theorem State.bump_folds (s : State) (f : Fld) (u i : Nat) : (s.bump f u i).folds = s.folds := rfl
@[simp] theorem State.bump_entries (s : State) (f : Fld) (u i : Nat) : (s.bump f u i).entries = s.entries := rfl
@[simp] theorem State.bump_mirrors (s : State) (f : Fld) (u i : Nat) : (s.bump f u i).mirrors = s.mirrors := rfl
@[simp] theorem State.bump_shown (s : State) (f : Fld) (u i : Nat) : (s.bump f u i).shown = s.shown := rfl
@[simp] theorem State.bump_blanked (s : State) (f : Fld) (u i : Nat) : (s.bump f u i).blanked = s.blanked := rfl
@[simp] theorem State.bump_endpoints (s : State) (f : Fld) (u i : Nat) : (s.bump f u i).endpoints = s.endpoints := rfl
@[simp] theorem State.bump_models (s : State) (f : Fld) (u i : Nat) : (s.bump f u i).models = s.models := rfl
@[simp] theorem State.bump_rebuilds (s : State) (f : Fld) (u i : Nat) : (s.bump f u i).rebuilds = s.rebuilds := rfl
@[simp] theorem State.bump_links (s : State) (f : Fld) (u i : Nat) : (s.bump f u i).links = s.links := rfl
@[simp] theorem State.bump_ports (s : State) (f : Fld) (u i : Nat) : (s.bump f u i).ports = s.ports := rfl
@[simp] theorem State.bump_windows (s : State) (f : Fld) (u i : Nat) : (s.bump f u i).windows = s.windows := rfl
@[simp] theorem State.bump_remotes (s : State) (f : Fld) (u i : Nat) : (s.bump f u i).remotes = s.remotes := rfl
@[simp] theorem State.bump_inbox (s : State) (f : Fld) (u i : Nat) : (s.bump f u i).inbox = s.inbox := rfl
@[simp] theorem State.bump_transits (s : State) (f : Fld) (u i : Nat) : (s.bump f u i).transits = s.transits := rfl
@[simp] theorem State.bump_relays (s : State) (f : Fld) (u i : Nat) : (s.bump f u i).relays = s.relays := rfl
@[simp] theorem State.bump_early (s : State) (f : Fld) (u i : Nat) : (s.bump f u i).early = s.early := rfl
@[simp] theorem State.bump_power (s : State) (f : Fld) (u i : Nat) : (s.bump f u i).power = s.power := rfl
@[simp] theorem State.bump_thermal (s : State) (f : Fld) (u i : Nat) : (s.bump f u i).thermal = s.thermal := rfl
@[simp] theorem State.bump_sec (s : State) (f : Fld) (u i : Nat) : (s.bump f u i).sec = s.sec := rfl
@[simp] theorem State.bump_store (s : State) (f : Fld) (u i : Nat) : (s.bump f u i).store = s.store := rfl
@[simp] theorem State.bump_restore (s : State) (f : Fld) (u i : Nat) : (s.bump f u i).restore = s.restore := rfl
@[simp] theorem State.bump_globalLog (s : State) (f : Fld) (u i : Nat) : (s.bump f u i).globalLog = s.globalLog := rfl
@[simp] theorem State.bump_streamed (s : State) (f : Fld) (u i : Nat) : (s.bump f u i).streamed = s.streamed := rfl
@[simp] theorem State.bump_out (s : State) (f : Fld) (u i : Nat) : (s.bump f u i).out = s.out := rfl

/-! ### `State.setBit` -/

@[simp] theorem State.setBit_pending (s : State) (f : Fld) (u i b : Nat) (on : Bool) : (s.setBit f u i b on).pending = s.pending := rfl
@[simp] theorem State.setBit_funcs (s : State) (f : Fld) (u i b : Nat) (on : Bool) : (s.setBit f u i b on).funcs = s.funcs := rfl
@[simp] theorem State.setBit_now (s : State) (f : Fld) (u i b : Nat) (on : Bool) : (s.setBit f u i b on).now = s.now := rfl
@[simp] theorem State.setBit_fresh (s : State) (f : Fld) (u i b : Nat) (on : Bool) : (s.setBit f u i b on).fresh = s.fresh := rfl
@[simp] theorem State.setBit_nextTag (s : State) (f : Fld) (u i b : Nat) (on : Bool) : (s.setBit f u i b on).nextTag = s.nextTag := rfl
@[simp] theorem State.setBit_positions (s : State) (f : Fld) (u i b : Nat) (on : Bool) : (s.setBit f u i b on).positions = s.positions := rfl
@[simp] theorem State.setBit_time (s : State) (f : Fld) (u i b : Nat) (on : Bool) : (s.setBit f u i b on).time = s.time := rfl
@[simp] theorem State.setBit_cores (s : State) (f : Fld) (u i b : Nat) (on : Bool) : (s.setBit f u i b on).cores = s.cores := rfl
@[simp] theorem State.setBit_clusters (s : State) (f : Fld) (u i b : Nat) (on : Bool) : (s.setBit f u i b on).clusters = s.clusters := rfl
@[simp] theorem State.setBit_routers (s : State) (f : Fld) (u i b : Nat) (on : Bool) : (s.setBit f u i b on).routers = s.routers := rfl
@[simp] theorem State.setBit_packets (s : State) (f : Fld) (u i b : Nat) (on : Bool) : (s.setBit f u i b on).packets = s.packets := rfl
@[simp] theorem State.setBit_hubs (s : State) (f : Fld) (u i b : Nat) (on : Bool) : (s.setBit f u i b on).hubs = s.hubs := rfl
@[simp] theorem State.setBit_drams (s : State) (f : Fld) (u i b : Nat) (on : Bool) : (s.setBit f u i b on).drams = s.drams := rfl
@[simp] theorem State.setBit_folds (s : State) (f : Fld) (u i b : Nat) (on : Bool) : (s.setBit f u i b on).folds = s.folds := rfl
@[simp] theorem State.setBit_entries (s : State) (f : Fld) (u i b : Nat) (on : Bool) : (s.setBit f u i b on).entries = s.entries := rfl
@[simp] theorem State.setBit_mirrors (s : State) (f : Fld) (u i b : Nat) (on : Bool) : (s.setBit f u i b on).mirrors = s.mirrors := rfl
@[simp] theorem State.setBit_shown (s : State) (f : Fld) (u i b : Nat) (on : Bool) : (s.setBit f u i b on).shown = s.shown := rfl
@[simp] theorem State.setBit_blanked (s : State) (f : Fld) (u i b : Nat) (on : Bool) : (s.setBit f u i b on).blanked = s.blanked := rfl
@[simp] theorem State.setBit_endpoints (s : State) (f : Fld) (u i b : Nat) (on : Bool) : (s.setBit f u i b on).endpoints = s.endpoints := rfl
@[simp] theorem State.setBit_models (s : State) (f : Fld) (u i b : Nat) (on : Bool) : (s.setBit f u i b on).models = s.models := rfl
@[simp] theorem State.setBit_rebuilds (s : State) (f : Fld) (u i b : Nat) (on : Bool) : (s.setBit f u i b on).rebuilds = s.rebuilds := rfl
@[simp] theorem State.setBit_links (s : State) (f : Fld) (u i b : Nat) (on : Bool) : (s.setBit f u i b on).links = s.links := rfl
@[simp] theorem State.setBit_ports (s : State) (f : Fld) (u i b : Nat) (on : Bool) : (s.setBit f u i b on).ports = s.ports := rfl
@[simp] theorem State.setBit_windows (s : State) (f : Fld) (u i b : Nat) (on : Bool) : (s.setBit f u i b on).windows = s.windows := rfl
@[simp] theorem State.setBit_remotes (s : State) (f : Fld) (u i b : Nat) (on : Bool) : (s.setBit f u i b on).remotes = s.remotes := rfl
@[simp] theorem State.setBit_inbox (s : State) (f : Fld) (u i b : Nat) (on : Bool) : (s.setBit f u i b on).inbox = s.inbox := rfl
@[simp] theorem State.setBit_transits (s : State) (f : Fld) (u i b : Nat) (on : Bool) : (s.setBit f u i b on).transits = s.transits := rfl
@[simp] theorem State.setBit_relays (s : State) (f : Fld) (u i b : Nat) (on : Bool) : (s.setBit f u i b on).relays = s.relays := rfl
@[simp] theorem State.setBit_early (s : State) (f : Fld) (u i b : Nat) (on : Bool) : (s.setBit f u i b on).early = s.early := rfl
@[simp] theorem State.setBit_power (s : State) (f : Fld) (u i b : Nat) (on : Bool) : (s.setBit f u i b on).power = s.power := rfl
@[simp] theorem State.setBit_thermal (s : State) (f : Fld) (u i b : Nat) (on : Bool) : (s.setBit f u i b on).thermal = s.thermal := rfl
@[simp] theorem State.setBit_sec (s : State) (f : Fld) (u i b : Nat) (on : Bool) : (s.setBit f u i b on).sec = s.sec := rfl
@[simp] theorem State.setBit_store (s : State) (f : Fld) (u i b : Nat) (on : Bool) : (s.setBit f u i b on).store = s.store := rfl
@[simp] theorem State.setBit_restore (s : State) (f : Fld) (u i b : Nat) (on : Bool) : (s.setBit f u i b on).restore = s.restore := rfl
@[simp] theorem State.setBit_globalLog (s : State) (f : Fld) (u i b : Nat) (on : Bool) : (s.setBit f u i b on).globalLog = s.globalLog := rfl
@[simp] theorem State.setBit_streamed (s : State) (f : Fld) (u i b : Nat) (on : Bool) : (s.setBit f u i b on).streamed = s.streamed := rfl
@[simp] theorem State.setBit_out (s : State) (f : Fld) (u i b : Nat) (on : Bool) : (s.setBit f u i b on).out = s.out := rfl

/-! ### `State.modModel` -/

@[simp] theorem State.modModel_pending (s : State) (h : Nat) (f : Model → Model) : (s.modModel h f).pending = s.pending := by unfold State.modModel; split <;> rfl
@[simp] theorem State.modModel_now (s : State) (h : Nat) (f : Model → Model) : (s.modModel h f).now = s.now := by unfold State.modModel; split <;> rfl
@[simp] theorem State.modModel_fresh (s : State) (h : Nat) (f : Model → Model) : (s.modModel h f).fresh = s.fresh := by unfold State.modModel; split <;> rfl
@[simp] theorem State.modModel_nextTag (s : State) (h : Nat) (f : Model → Model) : (s.modModel h f).nextTag = s.nextTag := by unfold State.modModel; split <;> rfl
@[simp] theorem State.modModel_regs (s : State) (h : Nat) (f : Model → Model) : (s.modModel h f).regs = s.regs := by unfold State.modModel; split <;> rfl
@[simp] theorem State.modModel_positions (s : State) (h : Nat) (f : Model → Model) : (s.modModel h f).positions = s.positions := by unfold State.modModel; split <;> rfl
@[simp] theorem State.modModel_time (s : State) (h : Nat) (f : Model → Model) : (s.modModel h f).time = s.time := by unfold State.modModel; split <;> rfl
@[simp] theorem State.modModel_cores (s : State) (h : Nat) (f : Model → Model) : (s.modModel h f).cores = s.cores := by unfold State.modModel; split <;> rfl
@[simp] theorem State.modModel_clusters (s : State) (h : Nat) (f : Model → Model) : (s.modModel h f).clusters = s.clusters := by unfold State.modModel; split <;> rfl
@[simp] theorem State.modModel_routers (s : State) (h : Nat) (f : Model → Model) : (s.modModel h f).routers = s.routers := by unfold State.modModel; split <;> rfl
@[simp] theorem State.modModel_packets (s : State) (h : Nat) (f : Model → Model) : (s.modModel h f).packets = s.packets := by unfold State.modModel; split <;> rfl
@[simp] theorem State.modModel_hubs (s : State) (h : Nat) (f : Model → Model) : (s.modModel h f).hubs = s.hubs := by unfold State.modModel; split <;> rfl
@[simp] theorem State.modModel_drams (s : State) (h : Nat) (f : Model → Model) : (s.modModel h f).drams = s.drams := by unfold State.modModel; split <;> rfl
@[simp] theorem State.modModel_folds (s : State) (h : Nat) (f : Model → Model) : (s.modModel h f).folds = s.folds := by unfold State.modModel; split <;> rfl
@[simp] theorem State.modModel_entries (s : State) (h : Nat) (f : Model → Model) : (s.modModel h f).entries = s.entries := by unfold State.modModel; split <;> rfl
@[simp] theorem State.modModel_mirrors (s : State) (h : Nat) (f : Model → Model) : (s.modModel h f).mirrors = s.mirrors := by unfold State.modModel; split <;> rfl
@[simp] theorem State.modModel_shown (s : State) (h : Nat) (f : Model → Model) : (s.modModel h f).shown = s.shown := by unfold State.modModel; split <;> rfl
@[simp] theorem State.modModel_blanked (s : State) (h : Nat) (f : Model → Model) : (s.modModel h f).blanked = s.blanked := by unfold State.modModel; split <;> rfl
@[simp] theorem State.modModel_endpoints (s : State) (h : Nat) (f : Model → Model) : (s.modModel h f).endpoints = s.endpoints := by unfold State.modModel; split <;> rfl
@[simp] theorem State.modModel_rebuilds (s : State) (h : Nat) (f : Model → Model) : (s.modModel h f).rebuilds = s.rebuilds := by unfold State.modModel; split <;> rfl
@[simp] theorem State.modModel_links (s : State) (h : Nat) (f : Model → Model) : (s.modModel h f).links = s.links := by unfold State.modModel; split <;> rfl
@[simp] theorem State.modModel_ports (s : State) (h : Nat) (f : Model → Model) : (s.modModel h f).ports = s.ports := by unfold State.modModel; split <;> rfl
@[simp] theorem State.modModel_windows (s : State) (h : Nat) (f : Model → Model) : (s.modModel h f).windows = s.windows := by unfold State.modModel; split <;> rfl
@[simp] theorem State.modModel_remotes (s : State) (h : Nat) (f : Model → Model) : (s.modModel h f).remotes = s.remotes := by unfold State.modModel; split <;> rfl
@[simp] theorem State.modModel_inbox (s : State) (h : Nat) (f : Model → Model) : (s.modModel h f).inbox = s.inbox := by unfold State.modModel; split <;> rfl
@[simp] theorem State.modModel_power (s : State) (h : Nat) (f : Model → Model) : (s.modModel h f).power = s.power := by unfold State.modModel; split <;> rfl
@[simp] theorem State.modModel_thermal (s : State) (h : Nat) (f : Model → Model) : (s.modModel h f).thermal = s.thermal := by unfold State.modModel; split <;> rfl
@[simp] theorem State.modModel_sec (s : State) (h : Nat) (f : Model → Model) : (s.modModel h f).sec = s.sec := by unfold State.modModel; split <;> rfl
@[simp] theorem State.modModel_store (s : State) (h : Nat) (f : Model → Model) : (s.modModel h f).store = s.store := by unfold State.modModel; split <;> rfl
@[simp] theorem State.modModel_restore (s : State) (h : Nat) (f : Model → Model) : (s.modModel h f).restore = s.restore := by unfold State.modModel; split <;> rfl
@[simp] theorem State.modModel_globalLog (s : State) (h : Nat) (f : Model → Model) : (s.modModel h f).globalLog = s.globalLog := by unfold State.modModel; split <;> rfl
@[simp] theorem State.modModel_streamed (s : State) (h : Nat) (f : Model → Model) : (s.modModel h f).streamed = s.streamed := by unfold State.modModel; split <;> rfl
@[simp] theorem State.modModel_out (s : State) (h : Nat) (f : Model → Model) : (s.modModel h f).out = s.out := by unfold State.modModel; split <;> rfl

/-! ### The parts that the accessors read -/

@[simp] theorem State.core_of_at (s : State) (t : Nat) (y : Nat) : (s.at t).core y = s.core y := rfl
@[simp] theorem State.cluster_of_at (s : State) (t : Nat) (y : Nat) : (s.at t).cluster y = s.cluster y := rfl
@[simp] theorem State.router_of_at (s : State) (t : Nat) (y : Nat) : (s.at t).router y = s.router y := rfl
@[simp] theorem State.hub_of_at (s : State) (t : Nat) (y : Nat) : (s.at t).hub y = s.hub y := rfl
@[simp] theorem State.dram_of_at (s : State) (t : Nat) (y : Nat) : (s.at t).dram y = s.dram y := rfl
@[simp] theorem State.fold_of_at (s : State) (t : Nat) (y : Nat) : (s.at t).fold y = s.fold y := rfl
@[simp] theorem State.entry_of_at (s : State) (t : Nat) (y : Nat) : (s.at t).entry y = s.entry y := rfl
@[simp] theorem State.endpoint_of_at (s : State) (t : Nat) (y : Nat) : (s.at t).endpoint y = s.endpoint y := rfl
@[simp] theorem State.linkOf_of_at (s : State) (t : Nat) (y : Nat) : (s.at t).linkOf y = s.linkOf y := rfl
@[simp] theorem State.port_of_at (s : State) (t : Nat) (y : Nat) : (s.at t).port y = s.port y := rfl
@[simp] theorem State.reg_of_at (s : State) (t : Nat) (r : Reg) (j k : Nat) : (s.at t).reg r j k = s.reg r j k := rfl
@[simp] theorem State.fld_of_at (s : State) (t : Nat) (d : Fld) (j k : Nat) : (s.at t).fld d j k = s.fld d j k := rfl
@[simp] theorem State.core_of_setCore (s : State) (c : Nat) (x : Core) (y : Nat) :
    (s.setCore c x).core y = if y = c then x else s.core y := Map.get_set _ _ _ _ _
@[simp] theorem State.cluster_of_setCore (s : State) (c : Nat) (x : Core) (y : Nat) : (s.setCore c x).cluster y = s.cluster y := rfl
@[simp] theorem State.router_of_setCore (s : State) (c : Nat) (x : Core) (y : Nat) : (s.setCore c x).router y = s.router y := rfl
@[simp] theorem State.hub_of_setCore (s : State) (c : Nat) (x : Core) (y : Nat) : (s.setCore c x).hub y = s.hub y := rfl
@[simp] theorem State.dram_of_setCore (s : State) (c : Nat) (x : Core) (y : Nat) : (s.setCore c x).dram y = s.dram y := rfl
@[simp] theorem State.fold_of_setCore (s : State) (c : Nat) (x : Core) (y : Nat) : (s.setCore c x).fold y = s.fold y := rfl
@[simp] theorem State.entry_of_setCore (s : State) (c : Nat) (x : Core) (y : Nat) : (s.setCore c x).entry y = s.entry y := rfl
@[simp] theorem State.endpoint_of_setCore (s : State) (c : Nat) (x : Core) (y : Nat) : (s.setCore c x).endpoint y = s.endpoint y := rfl
@[simp] theorem State.linkOf_of_setCore (s : State) (c : Nat) (x : Core) (y : Nat) : (s.setCore c x).linkOf y = s.linkOf y := rfl
@[simp] theorem State.port_of_setCore (s : State) (c : Nat) (x : Core) (y : Nat) : (s.setCore c x).port y = s.port y := rfl
@[simp] theorem State.reg_of_setCore (s : State) (c : Nat) (x : Core) (r : Reg) (j k : Nat) : (s.setCore c x).reg r j k = s.reg r j k := rfl
@[simp] theorem State.fld_of_setCore (s : State) (c : Nat) (x : Core) (d : Fld) (j k : Nat) : (s.setCore c x).fld d j k = s.fld d j k := rfl
@[simp] theorem State.core_of_modCore (s : State) (c : Nat) (f : Core → Core) (y : Nat) :
    (s.modCore c f).core y = if y = c then f (s.core c) else s.core y := Map.get_set _ _ _ _ _
@[simp] theorem State.cluster_of_modCore (s : State) (c : Nat) (f : Core → Core) (y : Nat) : (s.modCore c f).cluster y = s.cluster y := rfl
@[simp] theorem State.router_of_modCore (s : State) (c : Nat) (f : Core → Core) (y : Nat) : (s.modCore c f).router y = s.router y := rfl
@[simp] theorem State.hub_of_modCore (s : State) (c : Nat) (f : Core → Core) (y : Nat) : (s.modCore c f).hub y = s.hub y := rfl
@[simp] theorem State.dram_of_modCore (s : State) (c : Nat) (f : Core → Core) (y : Nat) : (s.modCore c f).dram y = s.dram y := rfl
@[simp] theorem State.fold_of_modCore (s : State) (c : Nat) (f : Core → Core) (y : Nat) : (s.modCore c f).fold y = s.fold y := rfl
@[simp] theorem State.entry_of_modCore (s : State) (c : Nat) (f : Core → Core) (y : Nat) : (s.modCore c f).entry y = s.entry y := rfl
@[simp] theorem State.endpoint_of_modCore (s : State) (c : Nat) (f : Core → Core) (y : Nat) : (s.modCore c f).endpoint y = s.endpoint y := rfl
@[simp] theorem State.linkOf_of_modCore (s : State) (c : Nat) (f : Core → Core) (y : Nat) : (s.modCore c f).linkOf y = s.linkOf y := rfl
@[simp] theorem State.port_of_modCore (s : State) (c : Nat) (f : Core → Core) (y : Nat) : (s.modCore c f).port y = s.port y := rfl
@[simp] theorem State.reg_of_modCore (s : State) (c : Nat) (f : Core → Core) (r : Reg) (j k : Nat) : (s.modCore c f).reg r j k = s.reg r j k := rfl
@[simp] theorem State.fld_of_modCore (s : State) (c : Nat) (f : Core → Core) (d : Fld) (j k : Nat) : (s.modCore c f).fld d j k = s.fld d j k := rfl
@[simp] theorem State.core_of_setCluster (s : State) (q : Nat) (x : Cluster) (y : Nat) : (s.setCluster q x).core y = s.core y := rfl
@[simp] theorem State.cluster_of_setCluster (s : State) (q : Nat) (x : Cluster) (y : Nat) :
    (s.setCluster q x).cluster y = if y = q then x else s.cluster y := Map.get_set _ _ _ _ _
@[simp] theorem State.router_of_setCluster (s : State) (q : Nat) (x : Cluster) (y : Nat) : (s.setCluster q x).router y = s.router y := rfl
@[simp] theorem State.hub_of_setCluster (s : State) (q : Nat) (x : Cluster) (y : Nat) : (s.setCluster q x).hub y = s.hub y := rfl
@[simp] theorem State.dram_of_setCluster (s : State) (q : Nat) (x : Cluster) (y : Nat) : (s.setCluster q x).dram y = s.dram y := rfl
@[simp] theorem State.fold_of_setCluster (s : State) (q : Nat) (x : Cluster) (y : Nat) : (s.setCluster q x).fold y = s.fold y := rfl
@[simp] theorem State.entry_of_setCluster (s : State) (q : Nat) (x : Cluster) (y : Nat) : (s.setCluster q x).entry y = s.entry y := rfl
@[simp] theorem State.endpoint_of_setCluster (s : State) (q : Nat) (x : Cluster) (y : Nat) : (s.setCluster q x).endpoint y = s.endpoint y := rfl
@[simp] theorem State.linkOf_of_setCluster (s : State) (q : Nat) (x : Cluster) (y : Nat) : (s.setCluster q x).linkOf y = s.linkOf y := rfl
@[simp] theorem State.port_of_setCluster (s : State) (q : Nat) (x : Cluster) (y : Nat) : (s.setCluster q x).port y = s.port y := rfl
@[simp] theorem State.reg_of_setCluster (s : State) (q : Nat) (x : Cluster) (r : Reg) (j k : Nat) : (s.setCluster q x).reg r j k = s.reg r j k := rfl
@[simp] theorem State.fld_of_setCluster (s : State) (q : Nat) (x : Cluster) (d : Fld) (j k : Nat) : (s.setCluster q x).fld d j k = s.fld d j k := rfl
@[simp] theorem State.core_of_modCluster (s : State) (q : Nat) (f : Cluster → Cluster) (y : Nat) : (s.modCluster q f).core y = s.core y := rfl
@[simp] theorem State.cluster_of_modCluster (s : State) (q : Nat) (f : Cluster → Cluster) (y : Nat) :
    (s.modCluster q f).cluster y = if y = q then f (s.cluster q) else s.cluster y := Map.get_set _ _ _ _ _
@[simp] theorem State.router_of_modCluster (s : State) (q : Nat) (f : Cluster → Cluster) (y : Nat) : (s.modCluster q f).router y = s.router y := rfl
@[simp] theorem State.hub_of_modCluster (s : State) (q : Nat) (f : Cluster → Cluster) (y : Nat) : (s.modCluster q f).hub y = s.hub y := rfl
@[simp] theorem State.dram_of_modCluster (s : State) (q : Nat) (f : Cluster → Cluster) (y : Nat) : (s.modCluster q f).dram y = s.dram y := rfl
@[simp] theorem State.fold_of_modCluster (s : State) (q : Nat) (f : Cluster → Cluster) (y : Nat) : (s.modCluster q f).fold y = s.fold y := rfl
@[simp] theorem State.entry_of_modCluster (s : State) (q : Nat) (f : Cluster → Cluster) (y : Nat) : (s.modCluster q f).entry y = s.entry y := rfl
@[simp] theorem State.endpoint_of_modCluster (s : State) (q : Nat) (f : Cluster → Cluster) (y : Nat) : (s.modCluster q f).endpoint y = s.endpoint y := rfl
@[simp] theorem State.linkOf_of_modCluster (s : State) (q : Nat) (f : Cluster → Cluster) (y : Nat) : (s.modCluster q f).linkOf y = s.linkOf y := rfl
@[simp] theorem State.port_of_modCluster (s : State) (q : Nat) (f : Cluster → Cluster) (y : Nat) : (s.modCluster q f).port y = s.port y := rfl
@[simp] theorem State.reg_of_modCluster (s : State) (q : Nat) (f : Cluster → Cluster) (r : Reg) (j k : Nat) : (s.modCluster q f).reg r j k = s.reg r j k := rfl
@[simp] theorem State.fld_of_modCluster (s : State) (q : Nat) (f : Cluster → Cluster) (d : Fld) (j k : Nat) : (s.modCluster q f).fld d j k = s.fld d j k := rfl
@[simp] theorem State.core_of_modRouter (s : State) (x : Nat) (f : Router → Router) (y : Nat) : (s.modRouter x f).core y = s.core y := rfl
@[simp] theorem State.cluster_of_modRouter (s : State) (x : Nat) (f : Router → Router) (y : Nat) : (s.modRouter x f).cluster y = s.cluster y := rfl
@[simp] theorem State.router_of_modRouter (s : State) (x : Nat) (f : Router → Router) (y : Nat) :
    (s.modRouter x f).router y = if y = x then f (s.router x) else s.router y := Map.get_set _ _ _ _ _
@[simp] theorem State.hub_of_modRouter (s : State) (x : Nat) (f : Router → Router) (y : Nat) : (s.modRouter x f).hub y = s.hub y := rfl
@[simp] theorem State.dram_of_modRouter (s : State) (x : Nat) (f : Router → Router) (y : Nat) : (s.modRouter x f).dram y = s.dram y := rfl
@[simp] theorem State.fold_of_modRouter (s : State) (x : Nat) (f : Router → Router) (y : Nat) : (s.modRouter x f).fold y = s.fold y := rfl
@[simp] theorem State.entry_of_modRouter (s : State) (x : Nat) (f : Router → Router) (y : Nat) : (s.modRouter x f).entry y = s.entry y := rfl
@[simp] theorem State.endpoint_of_modRouter (s : State) (x : Nat) (f : Router → Router) (y : Nat) : (s.modRouter x f).endpoint y = s.endpoint y := rfl
@[simp] theorem State.linkOf_of_modRouter (s : State) (x : Nat) (f : Router → Router) (y : Nat) : (s.modRouter x f).linkOf y = s.linkOf y := rfl
@[simp] theorem State.port_of_modRouter (s : State) (x : Nat) (f : Router → Router) (y : Nat) : (s.modRouter x f).port y = s.port y := rfl
@[simp] theorem State.reg_of_modRouter (s : State) (x : Nat) (f : Router → Router) (r : Reg) (j k : Nat) : (s.modRouter x f).reg r j k = s.reg r j k := rfl
@[simp] theorem State.fld_of_modRouter (s : State) (x : Nat) (f : Router → Router) (d : Fld) (j k : Nat) : (s.modRouter x f).fld d j k = s.fld d j k := rfl
@[simp] theorem State.core_of_modHub (s : State) (n : Nat) (f : Hub → Hub) (y : Nat) : (s.modHub n f).core y = s.core y := rfl
@[simp] theorem State.cluster_of_modHub (s : State) (n : Nat) (f : Hub → Hub) (y : Nat) : (s.modHub n f).cluster y = s.cluster y := rfl
@[simp] theorem State.router_of_modHub (s : State) (n : Nat) (f : Hub → Hub) (y : Nat) : (s.modHub n f).router y = s.router y := rfl
@[simp] theorem State.hub_of_modHub (s : State) (n : Nat) (f : Hub → Hub) (y : Nat) :
    (s.modHub n f).hub y = if y = n then f (s.hub n) else s.hub y := Map.get_set _ _ _ _ _
@[simp] theorem State.dram_of_modHub (s : State) (n : Nat) (f : Hub → Hub) (y : Nat) : (s.modHub n f).dram y = s.dram y := rfl
@[simp] theorem State.fold_of_modHub (s : State) (n : Nat) (f : Hub → Hub) (y : Nat) : (s.modHub n f).fold y = s.fold y := rfl
@[simp] theorem State.entry_of_modHub (s : State) (n : Nat) (f : Hub → Hub) (y : Nat) : (s.modHub n f).entry y = s.entry y := rfl
@[simp] theorem State.endpoint_of_modHub (s : State) (n : Nat) (f : Hub → Hub) (y : Nat) : (s.modHub n f).endpoint y = s.endpoint y := rfl
@[simp] theorem State.linkOf_of_modHub (s : State) (n : Nat) (f : Hub → Hub) (y : Nat) : (s.modHub n f).linkOf y = s.linkOf y := rfl
@[simp] theorem State.port_of_modHub (s : State) (n : Nat) (f : Hub → Hub) (y : Nat) : (s.modHub n f).port y = s.port y := rfl
@[simp] theorem State.reg_of_modHub (s : State) (n : Nat) (f : Hub → Hub) (r : Reg) (j k : Nat) : (s.modHub n f).reg r j k = s.reg r j k := rfl
@[simp] theorem State.fld_of_modHub (s : State) (n : Nat) (f : Hub → Hub) (d : Fld) (j k : Nat) : (s.modHub n f).fld d j k = s.fld d j k := rfl
@[simp] theorem State.core_of_modDram (s : State) (n : Nat) (f : Stack → Stack) (y : Nat) : (s.modDram n f).core y = s.core y := rfl
@[simp] theorem State.cluster_of_modDram (s : State) (n : Nat) (f : Stack → Stack) (y : Nat) : (s.modDram n f).cluster y = s.cluster y := rfl
@[simp] theorem State.router_of_modDram (s : State) (n : Nat) (f : Stack → Stack) (y : Nat) : (s.modDram n f).router y = s.router y := rfl
@[simp] theorem State.hub_of_modDram (s : State) (n : Nat) (f : Stack → Stack) (y : Nat) : (s.modDram n f).hub y = s.hub y := rfl
@[simp] theorem State.dram_of_modDram (s : State) (n : Nat) (f : Stack → Stack) (y : Nat) :
    (s.modDram n f).dram y = if y = n then f (s.dram n) else s.dram y := Map.get_set _ _ _ _ _
@[simp] theorem State.fold_of_modDram (s : State) (n : Nat) (f : Stack → Stack) (y : Nat) : (s.modDram n f).fold y = s.fold y := rfl
@[simp] theorem State.entry_of_modDram (s : State) (n : Nat) (f : Stack → Stack) (y : Nat) : (s.modDram n f).entry y = s.entry y := rfl
@[simp] theorem State.endpoint_of_modDram (s : State) (n : Nat) (f : Stack → Stack) (y : Nat) : (s.modDram n f).endpoint y = s.endpoint y := rfl
@[simp] theorem State.linkOf_of_modDram (s : State) (n : Nat) (f : Stack → Stack) (y : Nat) : (s.modDram n f).linkOf y = s.linkOf y := rfl
@[simp] theorem State.port_of_modDram (s : State) (n : Nat) (f : Stack → Stack) (y : Nat) : (s.modDram n f).port y = s.port y := rfl
@[simp] theorem State.reg_of_modDram (s : State) (n : Nat) (f : Stack → Stack) (r : Reg) (j k : Nat) : (s.modDram n f).reg r j k = s.reg r j k := rfl
@[simp] theorem State.fld_of_modDram (s : State) (n : Nat) (f : Stack → Stack) (d : Fld) (j k : Nat) : (s.modDram n f).fld d j k = s.fld d j k := rfl
@[simp] theorem State.core_of_setFold (s : State) (n : Nat) (x : Fold) (y : Nat) : (s.setFold n x).core y = s.core y := rfl
@[simp] theorem State.cluster_of_setFold (s : State) (n : Nat) (x : Fold) (y : Nat) : (s.setFold n x).cluster y = s.cluster y := rfl
@[simp] theorem State.router_of_setFold (s : State) (n : Nat) (x : Fold) (y : Nat) : (s.setFold n x).router y = s.router y := rfl
@[simp] theorem State.hub_of_setFold (s : State) (n : Nat) (x : Fold) (y : Nat) : (s.setFold n x).hub y = s.hub y := rfl
@[simp] theorem State.dram_of_setFold (s : State) (n : Nat) (x : Fold) (y : Nat) : (s.setFold n x).dram y = s.dram y := rfl
@[simp] theorem State.fold_of_setFold (s : State) (n : Nat) (x : Fold) (y : Nat) :
    (s.setFold n x).fold y = if y = n then x else s.fold y := Map.get_set _ _ _ _ _
@[simp] theorem State.entry_of_setFold (s : State) (n : Nat) (x : Fold) (y : Nat) : (s.setFold n x).entry y = s.entry y := rfl
@[simp] theorem State.endpoint_of_setFold (s : State) (n : Nat) (x : Fold) (y : Nat) : (s.setFold n x).endpoint y = s.endpoint y := rfl
@[simp] theorem State.linkOf_of_setFold (s : State) (n : Nat) (x : Fold) (y : Nat) : (s.setFold n x).linkOf y = s.linkOf y := rfl
@[simp] theorem State.port_of_setFold (s : State) (n : Nat) (x : Fold) (y : Nat) : (s.setFold n x).port y = s.port y := rfl
@[simp] theorem State.reg_of_setFold (s : State) (n : Nat) (x : Fold) (r : Reg) (j k : Nat) : (s.setFold n x).reg r j k = s.reg r j k := rfl
@[simp] theorem State.fld_of_setFold (s : State) (n : Nat) (x : Fold) (d : Fld) (j k : Nat) : (s.setFold n x).fld d j k = s.fld d j k := rfl
@[simp] theorem State.core_of_modFold (s : State) (n : Nat) (f : Fold → Fold) (y : Nat) : (s.modFold n f).core y = s.core y := rfl
@[simp] theorem State.cluster_of_modFold (s : State) (n : Nat) (f : Fold → Fold) (y : Nat) : (s.modFold n f).cluster y = s.cluster y := rfl
@[simp] theorem State.router_of_modFold (s : State) (n : Nat) (f : Fold → Fold) (y : Nat) : (s.modFold n f).router y = s.router y := rfl
@[simp] theorem State.hub_of_modFold (s : State) (n : Nat) (f : Fold → Fold) (y : Nat) : (s.modFold n f).hub y = s.hub y := rfl
@[simp] theorem State.dram_of_modFold (s : State) (n : Nat) (f : Fold → Fold) (y : Nat) : (s.modFold n f).dram y = s.dram y := rfl
@[simp] theorem State.fold_of_modFold (s : State) (n : Nat) (f : Fold → Fold) (y : Nat) :
    (s.modFold n f).fold y = if y = n then f (s.fold n) else s.fold y := Map.get_set _ _ _ _ _
@[simp] theorem State.entry_of_modFold (s : State) (n : Nat) (f : Fold → Fold) (y : Nat) : (s.modFold n f).entry y = s.entry y := rfl
@[simp] theorem State.endpoint_of_modFold (s : State) (n : Nat) (f : Fold → Fold) (y : Nat) : (s.modFold n f).endpoint y = s.endpoint y := rfl
@[simp] theorem State.linkOf_of_modFold (s : State) (n : Nat) (f : Fold → Fold) (y : Nat) : (s.modFold n f).linkOf y = s.linkOf y := rfl
@[simp] theorem State.port_of_modFold (s : State) (n : Nat) (f : Fold → Fold) (y : Nat) : (s.modFold n f).port y = s.port y := rfl
@[simp] theorem State.reg_of_modFold (s : State) (n : Nat) (f : Fold → Fold) (r : Reg) (j k : Nat) : (s.modFold n f).reg r j k = s.reg r j k := rfl
@[simp] theorem State.fld_of_modFold (s : State) (n : Nat) (f : Fold → Fold) (d : Fld) (j k : Nat) : (s.modFold n f).fld d j k = s.fld d j k := rfl
@[simp] theorem State.core_of_modEntry (s : State) (g : Nat) (f : Entry → Entry) (y : Nat) : (s.modEntry g f).core y = s.core y := rfl
@[simp] theorem State.cluster_of_modEntry (s : State) (g : Nat) (f : Entry → Entry) (y : Nat) : (s.modEntry g f).cluster y = s.cluster y := rfl
@[simp] theorem State.router_of_modEntry (s : State) (g : Nat) (f : Entry → Entry) (y : Nat) : (s.modEntry g f).router y = s.router y := rfl
@[simp] theorem State.hub_of_modEntry (s : State) (g : Nat) (f : Entry → Entry) (y : Nat) : (s.modEntry g f).hub y = s.hub y := rfl
@[simp] theorem State.dram_of_modEntry (s : State) (g : Nat) (f : Entry → Entry) (y : Nat) : (s.modEntry g f).dram y = s.dram y := rfl
@[simp] theorem State.fold_of_modEntry (s : State) (g : Nat) (f : Entry → Entry) (y : Nat) : (s.modEntry g f).fold y = s.fold y := rfl
@[simp] theorem State.entry_of_modEntry (s : State) (g : Nat) (f : Entry → Entry) (y : Nat) :
    (s.modEntry g f).entry y = if y = g then f (s.entry g) else s.entry y := Map.get_set _ _ _ _ _
@[simp] theorem State.endpoint_of_modEntry (s : State) (g : Nat) (f : Entry → Entry) (y : Nat) : (s.modEntry g f).endpoint y = s.endpoint y := rfl
@[simp] theorem State.linkOf_of_modEntry (s : State) (g : Nat) (f : Entry → Entry) (y : Nat) : (s.modEntry g f).linkOf y = s.linkOf y := rfl
@[simp] theorem State.port_of_modEntry (s : State) (g : Nat) (f : Entry → Entry) (y : Nat) : (s.modEntry g f).port y = s.port y := rfl
@[simp] theorem State.reg_of_modEntry (s : State) (g : Nat) (f : Entry → Entry) (r : Reg) (j k : Nat) : (s.modEntry g f).reg r j k = s.reg r j k := rfl
@[simp] theorem State.fld_of_modEntry (s : State) (g : Nat) (f : Entry → Entry) (d : Fld) (j k : Nat) : (s.modEntry g f).fld d j k = s.fld d j k := rfl
@[simp] theorem State.core_of_modEndpoint (s : State) (e : Nat) (f : Endpoint → Endpoint) (y : Nat) : (s.modEndpoint e f).core y = s.core y := rfl
@[simp] theorem State.cluster_of_modEndpoint (s : State) (e : Nat) (f : Endpoint → Endpoint) (y : Nat) : (s.modEndpoint e f).cluster y = s.cluster y := rfl
@[simp] theorem State.router_of_modEndpoint (s : State) (e : Nat) (f : Endpoint → Endpoint) (y : Nat) : (s.modEndpoint e f).router y = s.router y := rfl
@[simp] theorem State.hub_of_modEndpoint (s : State) (e : Nat) (f : Endpoint → Endpoint) (y : Nat) : (s.modEndpoint e f).hub y = s.hub y := rfl
@[simp] theorem State.dram_of_modEndpoint (s : State) (e : Nat) (f : Endpoint → Endpoint) (y : Nat) : (s.modEndpoint e f).dram y = s.dram y := rfl
@[simp] theorem State.fold_of_modEndpoint (s : State) (e : Nat) (f : Endpoint → Endpoint) (y : Nat) : (s.modEndpoint e f).fold y = s.fold y := rfl
@[simp] theorem State.entry_of_modEndpoint (s : State) (e : Nat) (f : Endpoint → Endpoint) (y : Nat) : (s.modEndpoint e f).entry y = s.entry y := rfl
@[simp] theorem State.endpoint_of_modEndpoint (s : State) (e : Nat) (f : Endpoint → Endpoint) (y : Nat) :
    (s.modEndpoint e f).endpoint y = if y = e then f (s.endpoint e) else s.endpoint y := Map.get_set _ _ _ _ _
@[simp] theorem State.linkOf_of_modEndpoint (s : State) (e : Nat) (f : Endpoint → Endpoint) (y : Nat) : (s.modEndpoint e f).linkOf y = s.linkOf y := rfl
@[simp] theorem State.port_of_modEndpoint (s : State) (e : Nat) (f : Endpoint → Endpoint) (y : Nat) : (s.modEndpoint e f).port y = s.port y := rfl
@[simp] theorem State.reg_of_modEndpoint (s : State) (e : Nat) (f : Endpoint → Endpoint) (r : Reg) (j k : Nat) : (s.modEndpoint e f).reg r j k = s.reg r j k := rfl
@[simp] theorem State.fld_of_modEndpoint (s : State) (e : Nat) (f : Endpoint → Endpoint) (d : Fld) (j k : Nat) : (s.modEndpoint e f).fld d j k = s.fld d j k := rfl
@[simp] theorem State.core_of_modLink (s : State) (l : Nat) (f : Link → Link) (y : Nat) : (s.modLink l f).core y = s.core y := rfl
@[simp] theorem State.cluster_of_modLink (s : State) (l : Nat) (f : Link → Link) (y : Nat) : (s.modLink l f).cluster y = s.cluster y := rfl
@[simp] theorem State.router_of_modLink (s : State) (l : Nat) (f : Link → Link) (y : Nat) : (s.modLink l f).router y = s.router y := rfl
@[simp] theorem State.hub_of_modLink (s : State) (l : Nat) (f : Link → Link) (y : Nat) : (s.modLink l f).hub y = s.hub y := rfl
@[simp] theorem State.dram_of_modLink (s : State) (l : Nat) (f : Link → Link) (y : Nat) : (s.modLink l f).dram y = s.dram y := rfl
@[simp] theorem State.fold_of_modLink (s : State) (l : Nat) (f : Link → Link) (y : Nat) : (s.modLink l f).fold y = s.fold y := rfl
@[simp] theorem State.entry_of_modLink (s : State) (l : Nat) (f : Link → Link) (y : Nat) : (s.modLink l f).entry y = s.entry y := rfl
@[simp] theorem State.endpoint_of_modLink (s : State) (l : Nat) (f : Link → Link) (y : Nat) : (s.modLink l f).endpoint y = s.endpoint y := rfl
@[simp] theorem State.port_of_modLink (s : State) (l : Nat) (f : Link → Link) (y : Nat) : (s.modLink l f).port y = s.port y := rfl
@[simp] theorem State.reg_of_modLink (s : State) (l : Nat) (f : Link → Link) (r : Reg) (j k : Nat) : (s.modLink l f).reg r j k = s.reg r j k := rfl
@[simp] theorem State.fld_of_modLink (s : State) (l : Nat) (f : Link → Link) (d : Fld) (j k : Nat) : (s.modLink l f).fld d j k = s.fld d j k := rfl
@[simp] theorem State.core_of_modPort (s : State) (p : Nat) (f : Port → Port) (y : Nat) : (s.modPort p f).core y = s.core y := rfl
@[simp] theorem State.cluster_of_modPort (s : State) (p : Nat) (f : Port → Port) (y : Nat) : (s.modPort p f).cluster y = s.cluster y := rfl
@[simp] theorem State.router_of_modPort (s : State) (p : Nat) (f : Port → Port) (y : Nat) : (s.modPort p f).router y = s.router y := rfl
@[simp] theorem State.hub_of_modPort (s : State) (p : Nat) (f : Port → Port) (y : Nat) : (s.modPort p f).hub y = s.hub y := rfl
@[simp] theorem State.dram_of_modPort (s : State) (p : Nat) (f : Port → Port) (y : Nat) : (s.modPort p f).dram y = s.dram y := rfl
@[simp] theorem State.fold_of_modPort (s : State) (p : Nat) (f : Port → Port) (y : Nat) : (s.modPort p f).fold y = s.fold y := rfl
@[simp] theorem State.entry_of_modPort (s : State) (p : Nat) (f : Port → Port) (y : Nat) : (s.modPort p f).entry y = s.entry y := rfl
@[simp] theorem State.endpoint_of_modPort (s : State) (p : Nat) (f : Port → Port) (y : Nat) : (s.modPort p f).endpoint y = s.endpoint y := rfl
@[simp] theorem State.linkOf_of_modPort (s : State) (p : Nat) (f : Port → Port) (y : Nat) : (s.modPort p f).linkOf y = s.linkOf y := rfl
@[simp] theorem State.port_of_modPort (s : State) (p : Nat) (f : Port → Port) (y : Nat) :
    (s.modPort p f).port y = if y = p then f (s.port p) else s.port y := Map.get_set _ _ _ _ _
@[simp] theorem State.reg_of_modPort (s : State) (p : Nat) (f : Port → Port) (r : Reg) (j k : Nat) : (s.modPort p f).reg r j k = s.reg r j k := rfl
@[simp] theorem State.fld_of_modPort (s : State) (p : Nat) (f : Port → Port) (d : Fld) (j k : Nat) : (s.modPort p f).fld d j k = s.fld d j k := rfl
@[simp] theorem State.core_of_modPower (s : State) (f : Power → Power) (y : Nat) : (s.modPower f).core y = s.core y := rfl
@[simp] theorem State.cluster_of_modPower (s : State) (f : Power → Power) (y : Nat) : (s.modPower f).cluster y = s.cluster y := rfl
@[simp] theorem State.router_of_modPower (s : State) (f : Power → Power) (y : Nat) : (s.modPower f).router y = s.router y := rfl
@[simp] theorem State.hub_of_modPower (s : State) (f : Power → Power) (y : Nat) : (s.modPower f).hub y = s.hub y := rfl
@[simp] theorem State.dram_of_modPower (s : State) (f : Power → Power) (y : Nat) : (s.modPower f).dram y = s.dram y := rfl
@[simp] theorem State.fold_of_modPower (s : State) (f : Power → Power) (y : Nat) : (s.modPower f).fold y = s.fold y := rfl
@[simp] theorem State.entry_of_modPower (s : State) (f : Power → Power) (y : Nat) : (s.modPower f).entry y = s.entry y := rfl
@[simp] theorem State.endpoint_of_modPower (s : State) (f : Power → Power) (y : Nat) : (s.modPower f).endpoint y = s.endpoint y := rfl
@[simp] theorem State.linkOf_of_modPower (s : State) (f : Power → Power) (y : Nat) : (s.modPower f).linkOf y = s.linkOf y := rfl
@[simp] theorem State.port_of_modPower (s : State) (f : Power → Power) (y : Nat) : (s.modPower f).port y = s.port y := rfl
@[simp] theorem State.reg_of_modPower (s : State) (f : Power → Power) (r : Reg) (j k : Nat) : (s.modPower f).reg r j k = s.reg r j k := rfl
@[simp] theorem State.fld_of_modPower (s : State) (f : Power → Power) (d : Fld) (j k : Nat) : (s.modPower f).fld d j k = s.fld d j k := rfl
@[simp] theorem State.core_of_modThermal (s : State) (f : Thermal → Thermal) (y : Nat) : (s.modThermal f).core y = s.core y := rfl
@[simp] theorem State.cluster_of_modThermal (s : State) (f : Thermal → Thermal) (y : Nat) : (s.modThermal f).cluster y = s.cluster y := rfl
@[simp] theorem State.router_of_modThermal (s : State) (f : Thermal → Thermal) (y : Nat) : (s.modThermal f).router y = s.router y := rfl
@[simp] theorem State.hub_of_modThermal (s : State) (f : Thermal → Thermal) (y : Nat) : (s.modThermal f).hub y = s.hub y := rfl
@[simp] theorem State.dram_of_modThermal (s : State) (f : Thermal → Thermal) (y : Nat) : (s.modThermal f).dram y = s.dram y := rfl
@[simp] theorem State.fold_of_modThermal (s : State) (f : Thermal → Thermal) (y : Nat) : (s.modThermal f).fold y = s.fold y := rfl
@[simp] theorem State.entry_of_modThermal (s : State) (f : Thermal → Thermal) (y : Nat) : (s.modThermal f).entry y = s.entry y := rfl
@[simp] theorem State.endpoint_of_modThermal (s : State) (f : Thermal → Thermal) (y : Nat) : (s.modThermal f).endpoint y = s.endpoint y := rfl
@[simp] theorem State.linkOf_of_modThermal (s : State) (f : Thermal → Thermal) (y : Nat) : (s.modThermal f).linkOf y = s.linkOf y := rfl
@[simp] theorem State.port_of_modThermal (s : State) (f : Thermal → Thermal) (y : Nat) : (s.modThermal f).port y = s.port y := rfl
@[simp] theorem State.reg_of_modThermal (s : State) (f : Thermal → Thermal) (r : Reg) (j k : Nat) : (s.modThermal f).reg r j k = s.reg r j k := rfl
@[simp] theorem State.fld_of_modThermal (s : State) (f : Thermal → Thermal) (d : Fld) (j k : Nat) : (s.modThermal f).fld d j k = s.fld d j k := rfl
@[simp] theorem State.core_of_modSec (s : State) (f : Sec → Sec) (y : Nat) : (s.modSec f).core y = s.core y := rfl
@[simp] theorem State.cluster_of_modSec (s : State) (f : Sec → Sec) (y : Nat) : (s.modSec f).cluster y = s.cluster y := rfl
@[simp] theorem State.router_of_modSec (s : State) (f : Sec → Sec) (y : Nat) : (s.modSec f).router y = s.router y := rfl
@[simp] theorem State.hub_of_modSec (s : State) (f : Sec → Sec) (y : Nat) : (s.modSec f).hub y = s.hub y := rfl
@[simp] theorem State.dram_of_modSec (s : State) (f : Sec → Sec) (y : Nat) : (s.modSec f).dram y = s.dram y := rfl
@[simp] theorem State.fold_of_modSec (s : State) (f : Sec → Sec) (y : Nat) : (s.modSec f).fold y = s.fold y := rfl
@[simp] theorem State.entry_of_modSec (s : State) (f : Sec → Sec) (y : Nat) : (s.modSec f).entry y = s.entry y := rfl
@[simp] theorem State.endpoint_of_modSec (s : State) (f : Sec → Sec) (y : Nat) : (s.modSec f).endpoint y = s.endpoint y := rfl
@[simp] theorem State.linkOf_of_modSec (s : State) (f : Sec → Sec) (y : Nat) : (s.modSec f).linkOf y = s.linkOf y := rfl
@[simp] theorem State.port_of_modSec (s : State) (f : Sec → Sec) (y : Nat) : (s.modSec f).port y = s.port y := rfl
@[simp] theorem State.reg_of_modSec (s : State) (f : Sec → Sec) (r : Reg) (j k : Nat) : (s.modSec f).reg r j k = s.reg r j k := rfl
@[simp] theorem State.fld_of_modSec (s : State) (f : Sec → Sec) (d : Fld) (j k : Nat) : (s.modSec f).fld d j k = s.fld d j k := rfl
@[simp] theorem State.core_of_drew (s : State) (y : Nat) : (s.drew).core y = s.core y := rfl
@[simp] theorem State.cluster_of_drew (s : State) (y : Nat) : (s.drew).cluster y = s.cluster y := rfl
@[simp] theorem State.router_of_drew (s : State) (y : Nat) : (s.drew).router y = s.router y := rfl
@[simp] theorem State.hub_of_drew (s : State) (y : Nat) : (s.drew).hub y = s.hub y := rfl
@[simp] theorem State.dram_of_drew (s : State) (y : Nat) : (s.drew).dram y = s.dram y := rfl
@[simp] theorem State.fold_of_drew (s : State) (y : Nat) : (s.drew).fold y = s.fold y := rfl
@[simp] theorem State.entry_of_drew (s : State) (y : Nat) : (s.drew).entry y = s.entry y := rfl
@[simp] theorem State.endpoint_of_drew (s : State) (y : Nat) : (s.drew).endpoint y = s.endpoint y := rfl
@[simp] theorem State.linkOf_of_drew (s : State) (y : Nat) : (s.drew).linkOf y = s.linkOf y := rfl
@[simp] theorem State.port_of_drew (s : State) (y : Nat) : (s.drew).port y = s.port y := rfl
@[simp] theorem State.reg_of_drew (s : State) (r : Reg) (j k : Nat) : (s.drew).reg r j k = s.reg r j k := rfl
@[simp] theorem State.fld_of_drew (s : State) (d : Fld) (j k : Nat) : (s.drew).fld d j k = s.fld d j k := rfl
@[simp] theorem State.core_of_send (s : State) (o : Out) (y : Nat) : (s.send o).core y = s.core y := rfl
@[simp] theorem State.cluster_of_send (s : State) (o : Out) (y : Nat) : (s.send o).cluster y = s.cluster y := rfl
@[simp] theorem State.router_of_send (s : State) (o : Out) (y : Nat) : (s.send o).router y = s.router y := rfl
@[simp] theorem State.hub_of_send (s : State) (o : Out) (y : Nat) : (s.send o).hub y = s.hub y := rfl
@[simp] theorem State.dram_of_send (s : State) (o : Out) (y : Nat) : (s.send o).dram y = s.dram y := rfl
@[simp] theorem State.fold_of_send (s : State) (o : Out) (y : Nat) : (s.send o).fold y = s.fold y := rfl
@[simp] theorem State.entry_of_send (s : State) (o : Out) (y : Nat) : (s.send o).entry y = s.entry y := rfl
@[simp] theorem State.endpoint_of_send (s : State) (o : Out) (y : Nat) : (s.send o).endpoint y = s.endpoint y := rfl
@[simp] theorem State.linkOf_of_send (s : State) (o : Out) (y : Nat) : (s.send o).linkOf y = s.linkOf y := rfl
@[simp] theorem State.port_of_send (s : State) (o : Out) (y : Nat) : (s.send o).port y = s.port y := rfl
@[simp] theorem State.reg_of_send (s : State) (o : Out) (r : Reg) (j k : Nat) : (s.send o).reg r j k = s.reg r j k := rfl
@[simp] theorem State.fld_of_send (s : State) (o : Out) (d : Fld) (j k : Nat) : (s.send o).fld d j k = s.fld d j k := rfl
@[simp] theorem State.core_of_completes (s : State) (p : Path) (a : Nat) (ok : Bool) (y : Nat) : (s.completes p a ok).core y = s.core y := rfl
@[simp] theorem State.cluster_of_completes (s : State) (p : Path) (a : Nat) (ok : Bool) (y : Nat) : (s.completes p a ok).cluster y = s.cluster y := rfl
@[simp] theorem State.router_of_completes (s : State) (p : Path) (a : Nat) (ok : Bool) (y : Nat) : (s.completes p a ok).router y = s.router y := rfl
@[simp] theorem State.hub_of_completes (s : State) (p : Path) (a : Nat) (ok : Bool) (y : Nat) : (s.completes p a ok).hub y = s.hub y := rfl
@[simp] theorem State.dram_of_completes (s : State) (p : Path) (a : Nat) (ok : Bool) (y : Nat) : (s.completes p a ok).dram y = s.dram y := rfl
@[simp] theorem State.fold_of_completes (s : State) (p : Path) (a : Nat) (ok : Bool) (y : Nat) : (s.completes p a ok).fold y = s.fold y := rfl
@[simp] theorem State.entry_of_completes (s : State) (p : Path) (a : Nat) (ok : Bool) (y : Nat) : (s.completes p a ok).entry y = s.entry y := rfl
@[simp] theorem State.endpoint_of_completes (s : State) (p : Path) (a : Nat) (ok : Bool) (y : Nat) : (s.completes p a ok).endpoint y = s.endpoint y := rfl
@[simp] theorem State.linkOf_of_completes (s : State) (p : Path) (a : Nat) (ok : Bool) (y : Nat) : (s.completes p a ok).linkOf y = s.linkOf y := rfl
@[simp] theorem State.port_of_completes (s : State) (p : Path) (a : Nat) (ok : Bool) (y : Nat) : (s.completes p a ok).port y = s.port y := rfl
@[simp] theorem State.reg_of_completes (s : State) (p : Path) (a : Nat) (ok : Bool) (r : Reg) (j k : Nat) : (s.completes p a ok).reg r j k = s.reg r j k := rfl
@[simp] theorem State.fld_of_completes (s : State) (p : Path) (a : Nat) (ok : Bool) (d : Fld) (j k : Nat) : (s.completes p a ok).fld d j k = s.fld d j k := rfl
@[simp] theorem State.core_of_recordModule (s : State) (y : Nat) : s.recordModule.core y = s.core y := rfl
@[simp] theorem State.cluster_of_recordModule (s : State) (y : Nat) : s.recordModule.cluster y = s.cluster y := rfl
@[simp] theorem State.router_of_recordModule (s : State) (y : Nat) : s.recordModule.router y = s.router y := rfl
@[simp] theorem State.hub_of_recordModule (s : State) (y : Nat) : s.recordModule.hub y = s.hub y := rfl
@[simp] theorem State.dram_of_recordModule (s : State) (y : Nat) : s.recordModule.dram y = s.dram y := rfl
@[simp] theorem State.fold_of_recordModule (s : State) (y : Nat) : s.recordModule.fold y = s.fold y := rfl
@[simp] theorem State.entry_of_recordModule (s : State) (y : Nat) : s.recordModule.entry y = s.entry y := rfl
@[simp] theorem State.endpoint_of_recordModule (s : State) (y : Nat) : s.recordModule.endpoint y = s.endpoint y := rfl
@[simp] theorem State.linkOf_of_recordModule (s : State) (y : Nat) : s.recordModule.linkOf y = s.linkOf y := rfl
@[simp] theorem State.port_of_recordModule (s : State) (y : Nat) : s.recordModule.port y = s.port y := rfl
@[simp] theorem State.reg_of_recordModule (s : State) (r : Reg) (j k : Nat) : s.recordModule.reg r j k = s.reg r j k := rfl
@[simp] theorem State.fld_of_recordModule (s : State) (d : Fld) (j k : Nat) : s.recordModule.fld d j k = s.fld d j k := rfl
@[simp] theorem State.core_of_setReg (s : State) (r : Reg) (u i : Nat) (w : Word) (y : Nat) : (s.setReg r u i w).core y = s.core y := rfl
@[simp] theorem State.cluster_of_setReg (s : State) (r : Reg) (u i : Nat) (w : Word) (y : Nat) : (s.setReg r u i w).cluster y = s.cluster y := rfl
@[simp] theorem State.router_of_setReg (s : State) (r : Reg) (u i : Nat) (w : Word) (y : Nat) : (s.setReg r u i w).router y = s.router y := rfl
@[simp] theorem State.hub_of_setReg (s : State) (r : Reg) (u i : Nat) (w : Word) (y : Nat) : (s.setReg r u i w).hub y = s.hub y := rfl
@[simp] theorem State.dram_of_setReg (s : State) (r : Reg) (u i : Nat) (w : Word) (y : Nat) : (s.setReg r u i w).dram y = s.dram y := rfl
@[simp] theorem State.fold_of_setReg (s : State) (r : Reg) (u i : Nat) (w : Word) (y : Nat) : (s.setReg r u i w).fold y = s.fold y := rfl
@[simp] theorem State.entry_of_setReg (s : State) (r : Reg) (u i : Nat) (w : Word) (y : Nat) : (s.setReg r u i w).entry y = s.entry y := rfl
@[simp] theorem State.endpoint_of_setReg (s : State) (r : Reg) (u i : Nat) (w : Word) (y : Nat) : (s.setReg r u i w).endpoint y = s.endpoint y := rfl
@[simp] theorem State.linkOf_of_setReg (s : State) (r : Reg) (u i : Nat) (w : Word) (y : Nat) : (s.setReg r u i w).linkOf y = s.linkOf y := rfl
@[simp] theorem State.port_of_setReg (s : State) (r : Reg) (u i : Nat) (w : Word) (y : Nat) : (s.setReg r u i w).port y = s.port y := rfl
@[simp] theorem State.core_of_setFld (s : State) (f : Fld) (u i v : Nat) (y : Nat) : (s.setFld f u i v).core y = s.core y := rfl
@[simp] theorem State.cluster_of_setFld (s : State) (f : Fld) (u i v : Nat) (y : Nat) : (s.setFld f u i v).cluster y = s.cluster y := rfl
@[simp] theorem State.router_of_setFld (s : State) (f : Fld) (u i v : Nat) (y : Nat) : (s.setFld f u i v).router y = s.router y := rfl
@[simp] theorem State.hub_of_setFld (s : State) (f : Fld) (u i v : Nat) (y : Nat) : (s.setFld f u i v).hub y = s.hub y := rfl
@[simp] theorem State.dram_of_setFld (s : State) (f : Fld) (u i v : Nat) (y : Nat) : (s.setFld f u i v).dram y = s.dram y := rfl
@[simp] theorem State.fold_of_setFld (s : State) (f : Fld) (u i v : Nat) (y : Nat) : (s.setFld f u i v).fold y = s.fold y := rfl
@[simp] theorem State.entry_of_setFld (s : State) (f : Fld) (u i v : Nat) (y : Nat) : (s.setFld f u i v).entry y = s.entry y := rfl
@[simp] theorem State.endpoint_of_setFld (s : State) (f : Fld) (u i v : Nat) (y : Nat) : (s.setFld f u i v).endpoint y = s.endpoint y := rfl
@[simp] theorem State.linkOf_of_setFld (s : State) (f : Fld) (u i v : Nat) (y : Nat) : (s.setFld f u i v).linkOf y = s.linkOf y := rfl
@[simp] theorem State.port_of_setFld (s : State) (f : Fld) (u i v : Nat) (y : Nat) : (s.setFld f u i v).port y = s.port y := rfl
@[simp] theorem State.core_of_bumpBy (s : State) (f : Fld) (u i n : Nat) (y : Nat) : (s.bumpBy f u i n).core y = s.core y := rfl
@[simp] theorem State.cluster_of_bumpBy (s : State) (f : Fld) (u i n : Nat) (y : Nat) : (s.bumpBy f u i n).cluster y = s.cluster y := rfl
@[simp] theorem State.router_of_bumpBy (s : State) (f : Fld) (u i n : Nat) (y : Nat) : (s.bumpBy f u i n).router y = s.router y := rfl
@[simp] theorem State.hub_of_bumpBy (s : State) (f : Fld) (u i n : Nat) (y : Nat) : (s.bumpBy f u i n).hub y = s.hub y := rfl
@[simp] theorem State.dram_of_bumpBy (s : State) (f : Fld) (u i n : Nat) (y : Nat) : (s.bumpBy f u i n).dram y = s.dram y := rfl
@[simp] theorem State.fold_of_bumpBy (s : State) (f : Fld) (u i n : Nat) (y : Nat) : (s.bumpBy f u i n).fold y = s.fold y := rfl
@[simp] theorem State.entry_of_bumpBy (s : State) (f : Fld) (u i n : Nat) (y : Nat) : (s.bumpBy f u i n).entry y = s.entry y := rfl
@[simp] theorem State.endpoint_of_bumpBy (s : State) (f : Fld) (u i n : Nat) (y : Nat) : (s.bumpBy f u i n).endpoint y = s.endpoint y := rfl
@[simp] theorem State.linkOf_of_bumpBy (s : State) (f : Fld) (u i n : Nat) (y : Nat) : (s.bumpBy f u i n).linkOf y = s.linkOf y := rfl
@[simp] theorem State.port_of_bumpBy (s : State) (f : Fld) (u i n : Nat) (y : Nat) : (s.bumpBy f u i n).port y = s.port y := rfl
@[simp] theorem State.core_of_bump (s : State) (f : Fld) (u i : Nat) (y : Nat) : (s.bump f u i).core y = s.core y := rfl
@[simp] theorem State.cluster_of_bump (s : State) (f : Fld) (u i : Nat) (y : Nat) : (s.bump f u i).cluster y = s.cluster y := rfl
@[simp] theorem State.router_of_bump (s : State) (f : Fld) (u i : Nat) (y : Nat) : (s.bump f u i).router y = s.router y := rfl
@[simp] theorem State.hub_of_bump (s : State) (f : Fld) (u i : Nat) (y : Nat) : (s.bump f u i).hub y = s.hub y := rfl
@[simp] theorem State.dram_of_bump (s : State) (f : Fld) (u i : Nat) (y : Nat) : (s.bump f u i).dram y = s.dram y := rfl
@[simp] theorem State.fold_of_bump (s : State) (f : Fld) (u i : Nat) (y : Nat) : (s.bump f u i).fold y = s.fold y := rfl
@[simp] theorem State.entry_of_bump (s : State) (f : Fld) (u i : Nat) (y : Nat) : (s.bump f u i).entry y = s.entry y := rfl
@[simp] theorem State.endpoint_of_bump (s : State) (f : Fld) (u i : Nat) (y : Nat) : (s.bump f u i).endpoint y = s.endpoint y := rfl
@[simp] theorem State.linkOf_of_bump (s : State) (f : Fld) (u i : Nat) (y : Nat) : (s.bump f u i).linkOf y = s.linkOf y := rfl
@[simp] theorem State.port_of_bump (s : State) (f : Fld) (u i : Nat) (y : Nat) : (s.bump f u i).port y = s.port y := rfl
@[simp] theorem State.core_of_setBit (s : State) (f : Fld) (u i b : Nat) (on : Bool) (y : Nat) : (s.setBit f u i b on).core y = s.core y := rfl
@[simp] theorem State.cluster_of_setBit (s : State) (f : Fld) (u i b : Nat) (on : Bool) (y : Nat) : (s.setBit f u i b on).cluster y = s.cluster y := rfl
@[simp] theorem State.router_of_setBit (s : State) (f : Fld) (u i b : Nat) (on : Bool) (y : Nat) : (s.setBit f u i b on).router y = s.router y := rfl
@[simp] theorem State.hub_of_setBit (s : State) (f : Fld) (u i b : Nat) (on : Bool) (y : Nat) : (s.setBit f u i b on).hub y = s.hub y := rfl
@[simp] theorem State.dram_of_setBit (s : State) (f : Fld) (u i b : Nat) (on : Bool) (y : Nat) : (s.setBit f u i b on).dram y = s.dram y := rfl
@[simp] theorem State.fold_of_setBit (s : State) (f : Fld) (u i b : Nat) (on : Bool) (y : Nat) : (s.setBit f u i b on).fold y = s.fold y := rfl
@[simp] theorem State.entry_of_setBit (s : State) (f : Fld) (u i b : Nat) (on : Bool) (y : Nat) : (s.setBit f u i b on).entry y = s.entry y := rfl
@[simp] theorem State.endpoint_of_setBit (s : State) (f : Fld) (u i b : Nat) (on : Bool) (y : Nat) : (s.setBit f u i b on).endpoint y = s.endpoint y := rfl
@[simp] theorem State.linkOf_of_setBit (s : State) (f : Fld) (u i b : Nat) (on : Bool) (y : Nat) : (s.setBit f u i b on).linkOf y = s.linkOf y := rfl
@[simp] theorem State.port_of_setBit (s : State) (f : Fld) (u i b : Nat) (on : Bool) (y : Nat) : (s.setBit f u i b on).port y = s.port y := rfl
@[simp] theorem State.core_of_modModel (s : State) (h : Nat) (f : Model → Model) (y : Nat) : (s.modModel h f).core y = s.core y := by unfold State.modModel; split <;> rfl
@[simp] theorem State.cluster_of_modModel (s : State) (h : Nat) (f : Model → Model) (y : Nat) : (s.modModel h f).cluster y = s.cluster y := by unfold State.modModel; split <;> rfl
@[simp] theorem State.router_of_modModel (s : State) (h : Nat) (f : Model → Model) (y : Nat) : (s.modModel h f).router y = s.router y := by unfold State.modModel; split <;> rfl
@[simp] theorem State.hub_of_modModel (s : State) (h : Nat) (f : Model → Model) (y : Nat) : (s.modModel h f).hub y = s.hub y := by unfold State.modModel; split <;> rfl
@[simp] theorem State.dram_of_modModel (s : State) (h : Nat) (f : Model → Model) (y : Nat) : (s.modModel h f).dram y = s.dram y := by unfold State.modModel; split <;> rfl
@[simp] theorem State.fold_of_modModel (s : State) (h : Nat) (f : Model → Model) (y : Nat) : (s.modModel h f).fold y = s.fold y := by unfold State.modModel; split <;> rfl
@[simp] theorem State.entry_of_modModel (s : State) (h : Nat) (f : Model → Model) (y : Nat) : (s.modModel h f).entry y = s.entry y := by unfold State.modModel; split <;> rfl
@[simp] theorem State.endpoint_of_modModel (s : State) (h : Nat) (f : Model → Model) (y : Nat) : (s.modModel h f).endpoint y = s.endpoint y := by unfold State.modModel; split <;> rfl
@[simp] theorem State.linkOf_of_modModel (s : State) (h : Nat) (f : Model → Model) (y : Nat) : (s.modModel h f).linkOf y = s.linkOf y := by unfold State.modModel; split <;> rfl
@[simp] theorem State.port_of_modModel (s : State) (h : Nat) (f : Model → Model) (y : Nat) : (s.modModel h f).port y = s.port y := by unfold State.modModel; split <;> rfl
@[simp] theorem State.reg_of_modModel (s : State) (h : Nat) (f : Model → Model) (r : Reg) (j k : Nat) : (s.modModel h f).reg r j k = s.reg r j k := by unfold State.modModel; split <;> rfl
@[simp] theorem State.fld_of_modModel (s : State) (h : Nat) (f : Model → Model) (d : Fld) (j k : Nat) : (s.modModel h f).fld d j k = s.fld d j k := by unfold State.modModel; split <;> rfl

end Sys2Proof.Machine
end

