-- ==== Sys2Proof/Laws/Regs.lean ====
section
/-! SUPPORT. What reading a register or a field gives after a write. -/

namespace Sys2Proof.Machine

/-! ### Fields of a word -/

theorem getBits_lt (w : Word) (lo width : Nat) : getBits w lo width < 2 ^ width :=
  Nat.mod_lt _ (Nat.two_pow_pos _)

/-- A word in three parts: above a field, the field, below it. -/
theorem word_parts (w : Word) (lo width : Nat) :
    w.toNat = w.toNat / 2 ^ (lo + width) * 2 ^ (lo + width) + getBits w lo width * 2 ^ lo + w.toNat % 2 ^ lo := by
  unfold getBits
  have h1 := Nat.div_add_mod w.toNat (2 ^ lo)
  have h2 := Nat.div_add_mod (w.toNat / 2 ^ lo) (2 ^ width)
  rw [Nat.div_div_eq_div_mul, ← Nat.pow_add] at h2
  have h3 : 2 ^ lo * (w.toNat / 2 ^ lo) =
      w.toNat / 2 ^ (lo + width) * 2 ^ (lo + width) + w.toNat / 2 ^ lo % 2 ^ width * 2 ^ lo := by
    conv => lhs; rw [← h2]
    rw [Nat.pow_add]; ring
  omega

theorem setBits_toNat (w : Word) (lo width v : Nat) (h : lo + width ≤ 64) :
    (setBits w lo width v).toNat =
      w.toNat / 2 ^ (lo + width) * 2 ^ (lo + width) + v % 2 ^ width * 2 ^ lo + w.toNat % 2 ^ lo := by
  have hp := word_parts w lo width
  have hv : v % 2 ^ width < 2 ^ width := Nat.mod_lt _ (Nat.two_pow_pos _)
  have hl : w.toNat % 2 ^ lo < 2 ^ lo := Nat.mod_lt _ (Nat.two_pow_pos _)
  have hw := w.isLt
  have hmid : v % 2 ^ width * 2 ^ lo + w.toNat % 2 ^ lo < 2 ^ (lo + width) := by
    have : (v % 2 ^ width + 1) * 2 ^ lo ≤ 2 ^ width * 2 ^ lo := Nat.mul_le_mul_right _ hv
    rw [Nat.pow_add, Nat.mul_comm (2 ^ lo)]
    rw [Nat.add_mul, Nat.one_mul] at this
    omega
  have htop : w.toNat / 2 ^ (lo + width) < 2 ^ (64 - (lo + width)) := by
    rw [Nat.div_lt_iff_lt_mul (Nat.two_pow_pos _), ← Nat.pow_add]
    have : 64 - (lo + width) + (lo + width) = 64 := by omega
    rw [this]; exact hw
  have hall : w.toNat / 2 ^ (lo + width) * 2 ^ (lo + width) + 2 ^ (lo + width) ≤ 2 ^ 64 := by
    have h1 : (w.toNat / 2 ^ (lo + width) + 1) * 2 ^ (lo + width) ≤ 2 ^ (64 - (lo + width)) * 2 ^ (lo + width) :=
      Nat.mul_le_mul_right _ htop
    rw [← Nat.pow_add] at h1
    have : 64 - (lo + width) + (lo + width) = 64 := by omega
    rw [this, Nat.add_mul, Nat.one_mul] at h1
    exact h1
  unfold setBits
  rw [BitVec.toNat_ofNat, Nat.mod_eq_of_lt (by omega)]
  omega

/-- A field reads as it was set, modulo its width. -/
theorem getBits_setBits (w : Word) (lo width v : Nat) (h : lo + width ≤ 64) :
    getBits (setBits w lo width v) lo width = v % 2 ^ width := by
  have hl : w.toNat % 2 ^ lo < 2 ^ lo := Nat.mod_lt _ (Nat.two_pow_pos _)
  unfold getBits
  rw [setBits_toNat w lo width v h]
  have h1 : w.toNat / 2 ^ (lo + width) * 2 ^ (lo + width) + v % 2 ^ width * 2 ^ lo + w.toNat % 2 ^ lo =
      w.toNat % 2 ^ lo + 2 ^ lo * (v % 2 ^ width + 2 ^ width * (w.toNat / 2 ^ (lo + width))) := by
    rw [Nat.pow_add]; ring
  rw [h1, Nat.add_mul_div_left _ _ (Nat.two_pow_pos _), Nat.div_eq_of_lt hl, Nat.zero_add, Nat.add_mul_mod_self_left,
    Nat.mod_mod]

/-- Setting a field leaves every field that lies above or below it. -/
theorem getBits_setBits_ne (w : Word) (lo width v lo' width' : Nat) (h : lo + width ≤ 64)
    (hd : lo' + width' ≤ lo ∨ lo + width ≤ lo') : getBits (setBits w lo width v) lo' width' = getBits w lo' width' := by
  have hl : w.toNat % 2 ^ lo < 2 ^ lo := Nat.mod_lt _ (Nat.two_pow_pos _)
  have hv : v % 2 ^ width < 2 ^ width := Nat.mod_lt _ (Nat.two_pow_pos _)
  unfold getBits
  rw [setBits_toNat w lo width v h]
  rcases hd with hd | hd
  · have low : ∀ x y : Nat, x % 2 ^ lo = y % 2 ^ lo → x / 2 ^ lo' % 2 ^ width' = y / 2 ^ lo' % 2 ^ width' := by
      intro x y hxy
      have e : ∀ z : Nat, z / 2 ^ lo' % 2 ^ width' = z % 2 ^ lo / 2 ^ lo' % 2 ^ width' := by
        intro z
        rw [← Nat.mod_mul_right_div_self, ← Nat.mod_mul_right_div_self, ← Nat.pow_add,
          Nat.mod_mod_of_dvd _ (Nat.pow_dvd_pow 2 hd)]
      rw [e x, e y, hxy]
    apply low
    have h1 : w.toNat / 2 ^ (lo + width) * 2 ^ (lo + width) + v % 2 ^ width * 2 ^ lo + w.toNat % 2 ^ lo =
        w.toNat % 2 ^ lo + 2 ^ lo * (v % 2 ^ width + 2 ^ width * (w.toNat / 2 ^ (lo + width))) := by
      rw [Nat.pow_add]; ring
    rw [h1, Nat.add_mul_mod_self_left, Nat.mod_mod]
  · have hmid : v % 2 ^ width * 2 ^ lo + w.toNat % 2 ^ lo < 2 ^ (lo + width) := by
      have : (v % 2 ^ width + 1) * 2 ^ lo ≤ 2 ^ width * 2 ^ lo := Nat.mul_le_mul_right _ hv
      rw [Nat.pow_add, Nat.mul_comm (2 ^ lo)]
      rw [Nat.add_mul, Nat.one_mul] at this
      omega
    have top : ∀ x y : Nat, x / 2 ^ (lo + width) = y / 2 ^ (lo + width) → x / 2 ^ lo' = y / 2 ^ lo' := by
      intro x y hxy
      have e : ∀ z : Nat, z / 2 ^ lo' = z / 2 ^ (lo + width) / 2 ^ (lo' - (lo + width)) := by
        intro z
        rw [Nat.div_div_eq_div_mul, ← Nat.pow_add]
        congr 2; omega
      rw [e x, e y, hxy]
    rw [top _ w.toNat]
    rw [Nat.add_assoc, Nat.add_comm, Nat.mul_comm (w.toNat / _), Nat.add_mul_div_left _ _ (Nat.two_pow_pos _),
      Nat.div_eq_of_lt hmid, Nat.zero_add]

/-! ### Registers -/

@[simp] theorem State.reg_setReg (s : State) (r : Reg) (u i : Nat) (w : Word) : (s.setReg r u i w).reg r u i = w := by
  simp [State.reg, State.setReg]

theorem State.find_setReg (s : State) (r : Reg) (u i : Nat) (w : Word) (a : Nat) (h : a ≠ r.addr u i) :
    Map.find (s.setReg r u i w).regs a = Map.find s.regs a := Map.find_set_ne _ _ _ _ _ h

/-- A write leaves every register at another address. -/
theorem State.reg_setReg_ne (s : State) (r : Reg) (u i : Nat) (w : Word) (r' : Reg) (u' i' : Nat)
    (h : r'.addr u' i' ≠ r.addr u i) : (s.setReg r u i w).reg r' u' i' = s.reg r' u' i' := by
  unfold State.reg Map.get
  rw [State.find_setReg s r u i w _ h]

/-- A field holds what was written, modulo its width. -/
theorem State.fld_setFld (s : State) (f : Fld) (u i v : Nat) (h : f.lo + f.width ≤ 64) :
    (s.setFld f u i v).fld f u i = v % 2 ^ f.width := by
  unfold State.fld State.setFld
  rw [State.reg_setReg, getBits_setBits _ _ _ _ h]

/-- The fields beside the one written keep their values. -/
theorem State.fld_setFld_beside (s : State) (f g : Fld) (u i v : Nat) (hr : g.reg = f.reg) (h : f.lo + f.width ≤ 64)
    (hd : g.lo + g.width ≤ f.lo ∨ f.lo + f.width ≤ g.lo) : (s.setFld f u i v).fld g u i = s.fld g u i := by
  unfold State.fld State.setFld
  rw [hr, State.reg_setReg, getBits_setBits_ne _ _ _ _ _ _ h hd]

/-- The fields of other registers keep their values. -/
theorem State.fld_setFld_ne (s : State) (f g : Fld) (u i v j k : Nat) (h : g.reg.addr j k ≠ f.reg.addr u i) :
    (s.setFld f u i v).fld g j k = s.fld g j k := by
  unfold State.fld State.setFld
  rw [State.reg_setReg_ne _ _ _ _ _ _ _ _ h]

/-- A counter goes up by `n` and stands at its highest value. -/
theorem State.fld_bumpBy (s : State) (f : Fld) (u i n : Nat) (h : f.lo + f.width ≤ 64) :
    (s.bumpBy f u i n).fld f u i = Nat.min (s.fld f u i + n) (2 ^ f.width - 1) := by
  unfold State.bumpBy
  rw [State.fld_setFld _ _ _ _ _ h, Nat.mod_eq_of_lt]
  have := Nat.two_pow_pos f.width
  exact Nat.lt_of_le_of_lt (Nat.min_le_right _ _) (by omega)

theorem State.fld_bump (s : State) (f : Fld) (u i : Nat) (h : f.lo + f.width ≤ 64) :
    (s.bump f u i).fld f u i = Nat.min (s.fld f u i + 1) (2 ^ f.width - 1) := State.fld_bumpBy s f u i 1 h

end Sys2Proof.Machine
end

