-- ==== Sys2Proof/Laws/Core.lean ====
section
/-! SUPPORT. How a core issues a bundle of one instruction, and what writing a register of a core does. -/

namespace Sys2Proof.Machine

theorem OnlyCore.refl (c : Nat) (s : State) : OnlyCore c s s := ⟨rfl, fun _ _ => rfl⟩

theorem OnlyCore.trans {c : Nat} {s t u : State} (h : OnlyCore c s t) (h' : OnlyCore c t u) : OnlyCore c s u := by
  obtain ⟨h1, h2⟩ := h
  obtain ⟨h3, h4⟩ := h'
  refine ⟨?_, fun x hx => by rw [h4 x hx, h2 x hx]⟩
  rw [h3, h1]

theorem onlyCore_modCore (s : State) (c : Nat) (f : Core → Core) : OnlyCore c s (s.modCore c f) :=
  ⟨rfl, fun x hx => by simp [hx]⟩

theorem onlyCore_modFiles (s : State) (c : Nat) (f : Files → Files) : OnlyCore c s (s.modFiles c f) :=
  onlyCore_modCore s c _

theorem onlyCore_readyAt (s : State) (c code x : Nat) : OnlyCore c s (s.readyAt c code x) := onlyCore_modCore s c _

theorem onlyCore_goOn (s : State) (c pc idle : Nat) : OnlyCore c s (s.goOn c pc idle) := onlyCore_modCore s c _

theorem onlyCluster_modCluster (s : State) (q : Nat) (f : Cluster → Cluster) : OnlyCluster q s (s.modCluster q f) :=
  ⟨rfl, fun x hx => by simp [hx]⟩

theorem onlyHub_modHub (s : State) (n : Nat) (f : Hub → Hub) : OnlyHub n s (s.modHub n f) :=
  ⟨rfl, fun x hx => by simp [hx]⟩

theorem onlyStack_modDram (s : State) (n : Nat) (f : Stack → Stack) : OnlyStack n s (s.modDram n f) :=
  ⟨rfl, fun x hx => by simp [hx]⟩

theorem onlyFold_modFold (s : State) (n : Nat) (f : Fold → Fold) : OnlyFold n s (s.modFold n f) :=
  ⟨rfl, fun x hx => by simp [hx]⟩

theorem onlyReg_setReg (s : State) (r : Reg) (u i : Nat) (w : Word) : OnlyReg (r.addr u i) s (s.setReg r u i w) :=
  ⟨rfl, fun x hx => State.find_setReg s r u i w x hx⟩

theorem onlyReg_setFld (s : State) (f : Fld) (u i v : Nat) : OnlyReg (f.reg.addr u i) s (s.setFld f u i v) :=
  onlyReg_setReg s _ u i _

@[simp] theorem State.files_modFiles (s : State) (c : Nat) (f : Files → Files) (x : Nat) :
    (s.modFiles c f).files x = if x = c then f (s.files c) else s.files x := by
  unfold State.files State.modFiles
  rw [State.core_of_modCore]
  split <;> rfl

@[simp] theorem State.files_readyAt (s : State) (c code t x : Nat) : (s.readyAt c code t).files x = s.files x := by
  unfold State.files State.readyAt
  rw [State.core_of_modCore]
  split
  · rename_i h; rw [h]
  · rfl

@[simp] theorem State.files_goOn (s : State) (c pc idle x : Nat) : (s.goOn c pc idle).files x = s.files x := by
  unfold State.files State.goOn
  rw [State.core_of_modCore]
  split
  · rename_i h; rw [h]
  · rfl

/-- Scalar registers after a write; s0 stays zero. -/
@[simp] theorem Files.s_setS (f : Files) (d : Nat) (v : Word) (n : Nat) :
    (f.setS d v).s n = if n = d ∧ n ≠ 0 then v else f.s n := by
  unfold Files.s Files.setS
  by_cases hd : d = 0
  · subst hd; simp only [if_true]
    by_cases hn : n = 0 <;> simp [hn]
  · by_cases hn : n = 0 <;> simp [hd, hn]

/-- Predicate registers after a write; p0 stays all ones. -/
@[simp] theorem Files.p_setP (f : Files) (d : Nat) (v : Word) (n : Nat) :
    (f.setP d v).p n = if n = d ∧ n ≠ 0 then v else f.p n := by
  unfold Files.p Files.setP
  by_cases hd : d = 0
  · subst hd; simp only [if_true]
    by_cases hn : n = 0 <;> simp [hn]
  · by_cases hn : n = 0 <;> simp [hd, hn]

@[simp] theorem Files.v_setV (f : Files) (d : Nat) (x : Vec) (n : Nat) :
    (f.setV d x).v n = if n = d then x else f.v n := by simp [Files.v, Files.setV]
@[simp] theorem Files.t_setT (f : Files) (d : Nat) (x : Tile) (n : Nat) :
    (f.setT d x).t n = if n = d then x else f.t n := by simp [Files.t, Files.setT]
@[simp] theorem Files.a_setA (f : Files) (d : Nat) (x : Tile) (n : Nat) :
    (f.setA d x).a n = if n = d then x else f.a n := by simp [Files.a, Files.setA]
@[simp] theorem Files.tag_setTag (f : Files) (d : Nat) (x : AccTag) (n : Nat) :
    (f.setTag d x).tag n = if n = d then x else f.tag n := by simp [Files.tag, Files.setTag]

end Sys2Proof.Machine

namespace Sys2Proof.Machine

/-- A command that issues a bundle of one instruction answers the state after that bundle. -/
theorem exec_alone (o : CoreOp) (i : Instr) (t : Nat) (op : State → Op) (s : State)
    (h : (s.at t).issuesAlone o (op (s.at t)) = true) :
    o.exec i t true op s = .next (o.alone (op (s.at t)) (s.at t)) := by
  simp only [State.issuesAlone, State.spellsAlone, Option.any_eq_true, Bool.and_eq_true, Bool.not_eq_true',
    Option.isNone_iff_eq_none] at h
  obtain ⟨⟨⟨⟨⟨⟨⟨⟨⟨h1, h2⟩, h3⟩, h4⟩, h5⟩, h6⟩, b, hb, ⟨⟨ha, hb'⟩, hs⟩, hz⟩, h8⟩, _⟩, _⟩ := h
  rw [State.core_of_at] at h3
  simp only [State.at_funcs] at ha hb' hs
  simp [CoreOp.exec, onUnit, h1, CoreOp.command, h4, h2, h3, Machine.State.issue, h5, h6, h8, hb, ha, hb', hs,
    beq_iff_eq.mp hz]

/-- An instruction that issues alone and is not gated off whole runs. -/
theorem act_run (o : CoreOp) (op : Op) (s : State) (h : s.issuesAlone o op = true)
    (g : op.whole = true → s.gateOpen o = true) : o.act op (s.files o.core) s = op.run (s.files o.core) s := by
  simp only [State.issuesAlone, Bool.and_eq_true] at h
  obtain ⟨⟨_, h9⟩, h10⟩ := h
  simp only [State.gateOpen] at g
  simp only [CoreOp.act, h10, h9]
  by_cases hw : op.whole = true
  · simp [hw, g hw]
  · simp [hw]

/-- The bundle that follows a scalar result. -/
theorem writesScalar_goOn (o : CoreOp) (d : Nat) (v : Word) (lat : Nat) (s : State) :
    WritesScalar o d v lat s ((s.putS o.core d v lat).goOn o.core ((s.core o.core).pc + 1) 0) := by
  refine ⟨⟨?_, ?_⟩, ?_, ?_, ?_⟩
  · exact ((onlyCore_modCore _ _ _).trans (onlyCore_modCore _ _ _)).trans (onlyCore_modCore _ _ _)
  · simp [State.goOn, State.putS, State.readyAt, State.modFiles, State.files]
  · intro n
    simp [State.goOn, State.putS, State.readyAt, State.modFiles]
  · simp [State.putS, Files.setS]; split <;> rfl
  · intro n; simp [State.putS]

/-- The bundle that follows a predicate result. -/
theorem writesPredicate_goOn (o : CoreOp) (d : Nat) (v : Word) (lat : Nat) (s : State) :
    WritesPredicate o d v lat s ((s.putP o.core d v lat).goOn o.core ((s.core o.core).pc + 1) 0) := by
  refine ⟨⟨?_, ?_⟩, ?_, ?_, ?_⟩
  · exact ((onlyCore_modCore _ _ _).trans (onlyCore_modCore _ _ _)).trans (onlyCore_modCore _ _ _)
  · simp [State.goOn, State.putP, State.readyAt, State.modFiles, State.files]
  · intro n
    simp [State.goOn, State.putP, State.readyAt, State.modFiles]
  · simp [State.putP, Files.setP]; split <;> rfl
  · intro n; simp [State.putP]

/-- A branch that issues. -/
theorem branches_goOn (o : CoreOp) (target idle : Nat) (s : State) :
    Branches o target idle s (s.goOn o.core target idle) := by
  refine ⟨⟨onlyCore_goOn _ _ _ _, ?_⟩, ?_, ?_⟩
  · simp [State.goOn, State.files]
  · simp [State.goOn]
  · simp

end Sys2Proof.Machine
end

