-- ==== Sys2Proof/Laws/PerInstr.lean ====
section
/-! SUPPORT. A statement about every command, one lemma for each. -/

/-- Every command carries its tick: it can be given any other, which changes nothing else of it, and the units that it
names do not depend on it. -/
def Sys2Proof.Laws.Tick.Statement (i : Sys2Proof.Instr) : Prop :=
  ∀ n, (i.retime n).tick = n ∧ (i.retime n).wf = i.wf ∧ i.retime i.tick = i

theorem Sys2Proof.Laws.Tick.nop : ∀ t x0, Sys2Proof.Laws.Tick.Statement (.nop t x0) :=
  fun _ _ _ => ⟨rfl, rfl, rfl⟩
theorem Sys2Proof.Laws.Tick.add : ∀ t x0 x1 x2, Sys2Proof.Laws.Tick.Statement (.add t x0 x1 x2) :=
  fun _ _ _ _ _ => ⟨rfl, rfl, rfl⟩
theorem Sys2Proof.Laws.Tick.shl : ∀ t x0 x1 x2, Sys2Proof.Laws.Tick.Statement (.shl t x0 x1 x2) :=
  fun _ _ _ _ _ => ⟨rfl, rfl, rfl⟩
theorem Sys2Proof.Laws.Tick.min : ∀ t x0 x1, Sys2Proof.Laws.Tick.Statement (.min t x0 x1) :=
  fun _ _ _ _ => ⟨rfl, rfl, rfl⟩
theorem Sys2Proof.Laws.Tick.mul : ∀ t x0 x1, Sys2Proof.Laws.Tick.Statement (.mul t x0 x1) :=
  fun _ _ _ _ => ⟨rfl, rfl, rfl⟩
theorem Sys2Proof.Laws.Tick.li : ∀ t x0, Sys2Proof.Laws.Tick.Statement (.li t x0) :=
  fun _ _ _ => ⟨rfl, rfl, rfl⟩
theorem Sys2Proof.Laws.Tick.lui : ∀ t x0, Sys2Proof.Laws.Tick.Statement (.lui t x0) :=
  fun _ _ _ => ⟨rfl, rfl, rfl⟩
theorem Sys2Proof.Laws.Tick.cmp : ∀ t x0 x1, Sys2Proof.Laws.Tick.Statement (.cmp t x0 x1) :=
  fun _ _ _ _ => ⟨rfl, rfl, rfl⟩
theorem Sys2Proof.Laws.Tick.sysRd : ∀ t x0, Sys2Proof.Laws.Tick.Statement (.sysRd t x0) :=
  fun _ _ _ => ⟨rfl, rfl, rfl⟩
theorem Sys2Proof.Laws.Tick.br : ∀ t x0, Sys2Proof.Laws.Tick.Statement (.br t x0) :=
  fun _ _ _ => ⟨rfl, rfl, rfl⟩
theorem Sys2Proof.Laws.Tick.brP : ∀ t x0, Sys2Proof.Laws.Tick.Statement (.brP t x0) :=
  fun _ _ _ => ⟨rfl, rfl, rfl⟩
theorem Sys2Proof.Laws.Tick.loop : ∀ t x0, Sys2Proof.Laws.Tick.Statement (.loop t x0) :=
  fun _ _ _ => ⟨rfl, rfl, rfl⟩
theorem Sys2Proof.Laws.Tick.jal : ∀ t x0, Sys2Proof.Laws.Tick.Statement (.jal t x0) :=
  fun _ _ _ => ⟨rfl, rfl, rfl⟩
theorem Sys2Proof.Laws.Tick.jr : ∀ t x0, Sys2Proof.Laws.Tick.Statement (.jr t x0) :=
  fun _ _ _ => ⟨rfl, rfl, rfl⟩
theorem Sys2Proof.Laws.Tick.vAdd : ∀ t x0 x1 x2, Sys2Proof.Laws.Tick.Statement (.vAdd t x0 x1 x2) :=
  fun _ _ _ _ _ => ⟨rfl, rfl, rfl⟩
theorem Sys2Proof.Laws.Tick.vAnd : ∀ t x0 x1 x2, Sys2Proof.Laws.Tick.Statement (.vAnd t x0 x1 x2) :=
  fun _ _ _ _ _ => ⟨rfl, rfl, rfl⟩
theorem Sys2Proof.Laws.Tick.vMul : ∀ t x0 x1 x2, Sys2Proof.Laws.Tick.Statement (.vMul t x0 x1 x2) :=
  fun _ _ _ _ _ => ⟨rfl, rfl, rfl⟩
theorem Sys2Proof.Laws.Tick.vCmp : ∀ t x0 x1 x2, Sys2Proof.Laws.Tick.Statement (.vCmp t x0 x1 x2) :=
  fun _ _ _ _ _ => ⟨rfl, rfl, rfl⟩
theorem Sys2Proof.Laws.Tick.vSel : ∀ t x0 x1, Sys2Proof.Laws.Tick.Statement (.vSel t x0 x1) :=
  fun _ _ _ _ => ⟨rfl, rfl, rfl⟩
theorem Sys2Proof.Laws.Tick.vCvt : ∀ t x0 x1, Sys2Proof.Laws.Tick.Statement (.vCvt t x0 x1) :=
  fun _ _ _ _ => ⟨rfl, rfl, rfl⟩
theorem Sys2Proof.Laws.Tick.vExp2 : ∀ t x0 x1 x2, Sys2Proof.Laws.Tick.Statement (.vExp2 t x0 x1 x2) :=
  fun _ _ _ _ _ => ⟨rfl, rfl, rfl⟩
theorem Sys2Proof.Laws.Tick.vRedAdd : ∀ t x0 x1 x2, Sys2Proof.Laws.Tick.Statement (.vRedAdd t x0 x1 x2) :=
  fun _ _ _ _ _ => ⟨rfl, rfl, rfl⟩
theorem Sys2Proof.Laws.Tick.vShuf : ∀ t x0 x1, Sys2Proof.Laws.Tick.Statement (.vShuf t x0 x1) :=
  fun _ _ _ _ => ⟨rfl, rfl, rfl⟩
theorem Sys2Proof.Laws.Tick.vBcast : ∀ t x0 x1, Sys2Proof.Laws.Tick.Statement (.vBcast t x0 x1) :=
  fun _ _ _ _ => ⟨rfl, rfl, rfl⟩
theorem Sys2Proof.Laws.Tick.vExt : ∀ t x0 x1, Sys2Proof.Laws.Tick.Statement (.vExt t x0 x1) :=
  fun _ _ _ _ => ⟨rfl, rfl, rfl⟩
theorem Sys2Proof.Laws.Tick.vIns : ∀ t x0 x1, Sys2Proof.Laws.Tick.Statement (.vIns t x0 x1) :=
  fun _ _ _ _ => ⟨rfl, rfl, rfl⟩
theorem Sys2Proof.Laws.Tick.mma : ∀ t x0 x1 x2 x3, Sys2Proof.Laws.Tick.Statement (.mma t x0 x1 x2 x3) :=
  fun _ _ _ _ _ _ => ⟨rfl, rfl, rfl⟩
theorem Sys2Proof.Laws.Tick.mmaStart : ∀ t x0, Sys2Proof.Laws.Tick.Statement (.mmaStart t x0) :=
  fun _ _ _ => ⟨rfl, rfl, rfl⟩
theorem Sys2Proof.Laws.Tick.mmaEnd : ∀ t x0, Sys2Proof.Laws.Tick.Statement (.mmaEnd t x0) :=
  fun _ _ _ => ⟨rfl, rfl, rfl⟩
theorem Sys2Proof.Laws.Tick.accClr : ∀ t x0, Sys2Proof.Laws.Tick.Statement (.accClr t x0) :=
  fun _ _ _ => ⟨rfl, rfl, rfl⟩
theorem Sys2Proof.Laws.Tick.accMv : ∀ t x0, Sys2Proof.Laws.Tick.Statement (.accMv t x0) :=
  fun _ _ _ => ⟨rfl, rfl, rfl⟩
theorem Sys2Proof.Laws.Tick.rowLd : ∀ t x0 x1, Sys2Proof.Laws.Tick.Statement (.rowLd t x0 x1) :=
  fun _ _ _ _ => ⟨rfl, rfl, rfl⟩
theorem Sys2Proof.Laws.Tick.rowSt : ∀ t x0 x1, Sys2Proof.Laws.Tick.Statement (.rowSt t x0 x1) :=
  fun _ _ _ _ => ⟨rfl, rfl, rfl⟩
theorem Sys2Proof.Laws.Tick.qPutRd : ∀ t x0 x1, Sys2Proof.Laws.Tick.Statement (.qPutRd t x0 x1) :=
  fun _ _ _ _ => ⟨rfl, rfl, rfl⟩
theorem Sys2Proof.Laws.Tick.qPutWr : ∀ t x0 x1, Sys2Proof.Laws.Tick.Statement (.qPutWr t x0 x1) :=
  fun _ _ _ _ => ⟨rfl, rfl, rfl⟩
theorem Sys2Proof.Laws.Tick.qGet : ∀ t x0 x1 x2, Sys2Proof.Laws.Tick.Statement (.qGet t x0 x1 x2) :=
  fun _ _ _ _ _ => ⟨rfl, rfl, rfl⟩
theorem Sys2Proof.Laws.Tick.qWait : ∀ t x0 x1, Sys2Proof.Laws.Tick.Statement (.qWait t x0 x1) :=
  fun _ _ _ _ => ⟨rfl, rfl, rfl⟩
theorem Sys2Proof.Laws.Tick.qWaitWr : ∀ t x0 x1, Sys2Proof.Laws.Tick.Statement (.qWaitWr t x0 x1) :=
  fun _ _ _ _ => ⟨rfl, rfl, rfl⟩
theorem Sys2Proof.Laws.Tick.slotSend : ∀ t x0, Sys2Proof.Laws.Tick.Statement (.slotSend t x0) :=
  fun _ _ _ => ⟨rfl, rfl, rfl⟩
theorem Sys2Proof.Laws.Tick.arrIssue : ∀ t x0 x1, Sys2Proof.Laws.Tick.Statement (.arrIssue t x0 x1) :=
  fun _ _ _ _ => ⟨rfl, rfl, rfl⟩
theorem Sys2Proof.Laws.Tick.arrCollect : ∀ t x0 x1, Sys2Proof.Laws.Tick.Statement (.arrCollect t x0 x1) :=
  fun _ _ _ _ => ⟨rfl, rfl, rfl⟩
theorem Sys2Proof.Laws.Tick.leaveReq : ∀ t x0, Sys2Proof.Laws.Tick.Statement (.leaveReq t x0) :=
  fun _ _ _ => ⟨rfl, rfl, rfl⟩
theorem Sys2Proof.Laws.Tick.leaveWait : ∀ t x0, Sys2Proof.Laws.Tick.Statement (.leaveWait t x0) :=
  fun _ _ _ => ⟨rfl, rfl, rfl⟩
theorem Sys2Proof.Laws.Tick.stile : ∀ t x0, Sys2Proof.Laws.Tick.Statement (.stile t x0) :=
  fun _ _ _ => ⟨rfl, rfl, rfl⟩
theorem Sys2Proof.Laws.Tick.swathWait : ∀ t x0, Sys2Proof.Laws.Tick.Statement (.swathWait t x0) :=
  fun _ _ _ => ⟨rfl, rfl, rfl⟩
theorem Sys2Proof.Laws.Tick.engCall : ∀ t x0, Sys2Proof.Laws.Tick.Statement (.engCall t x0) :=
  fun _ _ _ => ⟨rfl, rfl, rfl⟩
theorem Sys2Proof.Laws.Tick.engWait : ∀ t x0, Sys2Proof.Laws.Tick.Statement (.engWait t x0) :=
  fun _ _ _ => ⟨rfl, rfl, rfl⟩
theorem Sys2Proof.Laws.Tick.recEmit : ∀ t x0, Sys2Proof.Laws.Tick.Statement (.recEmit t x0) :=
  fun _ _ _ => ⟨rfl, rfl, rfl⟩
theorem Sys2Proof.Laws.Tick.recordSend : ∀ t x0, Sys2Proof.Laws.Tick.Statement (.recordSend t x0) :=
  fun _ _ _ => ⟨rfl, rfl, rfl⟩
theorem Sys2Proof.Laws.Tick.bankAccess : ∀ t x0 x1, Sys2Proof.Laws.Tick.Statement (.bankAccess t x0 x1) :=
  fun _ _ _ _ => ⟨rfl, rfl, rfl⟩
theorem Sys2Proof.Laws.Tick.scrubRead : ∀ t x0 x1, Sys2Proof.Laws.Tick.Statement (.scrubRead t x0 x1) :=
  fun _ _ _ _ => ⟨rfl, rfl, rfl⟩
theorem Sys2Proof.Laws.Tick.partitionDescriptorWrite : ∀ t x0 x1 x2 x3 x4, Sys2Proof.Laws.Tick.Statement (.partitionDescriptorWrite t x0 x1 x2 x3 x4) :=
  fun _ _ _ _ _ _ _ => ⟨rfl, rfl, rfl⟩
theorem Sys2Proof.Laws.Tick.partitionClose : ∀ t x0 x1 x2, Sys2Proof.Laws.Tick.Statement (.partitionClose t x0 x1 x2) :=
  fun _ _ _ _ _ => ⟨rfl, rfl, rfl⟩
theorem Sys2Proof.Laws.Tick.bankClosure : ∀ t x0 x1, Sys2Proof.Laws.Tick.Statement (.bankClosure t x0 x1) :=
  fun _ _ _ _ => ⟨rfl, rfl, rfl⟩
theorem Sys2Proof.Laws.Tick.partitionOpen : ∀ t x0 x1 x2, Sys2Proof.Laws.Tick.Statement (.partitionOpen t x0 x1 x2) :=
  fun _ _ _ _ _ => ⟨rfl, rfl, rfl⟩
theorem Sys2Proof.Laws.Tick.bankFillDone : ∀ t x0 x1, Sys2Proof.Laws.Tick.Statement (.bankFillDone t x0 x1) :=
  fun _ _ _ _ => ⟨rfl, rfl, rfl⟩
theorem Sys2Proof.Laws.Tick.layerEntryWrite : ∀ t x0 x1 x2 x3 x4, Sys2Proof.Laws.Tick.Statement (.layerEntryWrite t x0 x1 x2 x3 x4) :=
  fun _ _ _ _ _ _ _ => ⟨rfl, rfl, rfl⟩
theorem Sys2Proof.Laws.Tick.arrayAccept : ∀ t x0 x1, Sys2Proof.Laws.Tick.Statement (.arrayAccept t x0 x1) :=
  fun _ _ _ _ => ⟨rfl, rfl, rfl⟩
theorem Sys2Proof.Laws.Tick.arrayRotationEnd : ∀ t x0 x1, Sys2Proof.Laws.Tick.Statement (.arrayRotationEnd t x0 x1) :=
  fun _ _ _ _ => ⟨rfl, rfl, rfl⟩
theorem Sys2Proof.Laws.Tick.arrayPlane : ∀ t x0 x1, Sys2Proof.Laws.Tick.Statement (.arrayPlane t x0 x1) :=
  fun _ _ _ _ => ⟨rfl, rfl, rfl⟩
theorem Sys2Proof.Laws.Tick.arrayAccumulation : ∀ t x0 x1, Sys2Proof.Laws.Tick.Statement (.arrayAccumulation t x0 x1) :=
  fun _ _ _ _ => ⟨rfl, rfl, rfl⟩
theorem Sys2Proof.Laws.Tick.arrayResultReady : ∀ t x0 x1, Sys2Proof.Laws.Tick.Statement (.arrayResultReady t x0 x1) :=
  fun _ _ _ _ => ⟨rfl, rfl, rfl⟩
theorem Sys2Proof.Laws.Tick.sideRowFetched : ∀ t x0, Sys2Proof.Laws.Tick.Statement (.sideRowFetched t x0) :=
  fun _ _ _ => ⟨rfl, rfl, rfl⟩
theorem Sys2Proof.Laws.Tick.sideDelivery : ∀ t x0, Sys2Proof.Laws.Tick.Statement (.sideDelivery t x0) :=
  fun _ _ _ => ⟨rfl, rfl, rfl⟩
theorem Sys2Proof.Laws.Tick.calibrationDue : ∀ t x0 x1 x2, Sys2Proof.Laws.Tick.Statement (.calibrationDue t x0 x1 x2) :=
  fun _ _ _ _ _ => ⟨rfl, rfl, rfl⟩
theorem Sys2Proof.Laws.Tick.calibrationSlice : ∀ t x0 x1 x2, Sys2Proof.Laws.Tick.Statement (.calibrationSlice t x0 x1 x2) :=
  fun _ _ _ _ _ => ⟨rfl, rfl, rfl⟩
theorem Sys2Proof.Laws.Tick.calibrationFitDone : ∀ t x0 x1 x2, Sys2Proof.Laws.Tick.Statement (.calibrationFitDone t x0 x1 x2) :=
  fun _ _ _ _ _ => ⟨rfl, rfl, rfl⟩
theorem Sys2Proof.Laws.Tick.arrayRowProgram : ∀ t x0 x1 x2 x3 x4 x5, Sys2Proof.Laws.Tick.Statement (.arrayRowProgram t x0 x1 x2 x3 x4 x5) :=
  fun _ _ _ _ _ _ _ _ => ⟨rfl, rfl, rfl⟩
theorem Sys2Proof.Laws.Tick.ppsEdge : ∀ t, Sys2Proof.Laws.Tick.Statement (.ppsEdge t) :=
  fun _ _ => ⟨rfl, rfl, rfl⟩
theorem Sys2Proof.Laws.Tick.ptpSync : ∀ t x0, Sys2Proof.Laws.Tick.Statement (.ptpSync t x0) :=
  fun _ _ _ => ⟨rfl, rfl, rfl⟩
theorem Sys2Proof.Laws.Tick.timeLocked : ∀ t, Sys2Proof.Laws.Tick.Statement (.timeLocked t) :=
  fun _ _ => ⟨rfl, rfl, rfl⟩
theorem Sys2Proof.Laws.Tick.holdover : ∀ t, Sys2Proof.Laws.Tick.Statement (.holdover t) :=
  fun _ _ => ⟨rfl, rfl, rfl⟩
theorem Sys2Proof.Laws.Tick.referenceClockLoss : ∀ t, Sys2Proof.Laws.Tick.Statement (.referenceClockLoss t) :=
  fun _ _ => ⟨rfl, rfl, rfl⟩
theorem Sys2Proof.Laws.Tick.foldArm : ∀ t x0 x1 x2, Sys2Proof.Laws.Tick.Statement (.foldArm t x0 x1 x2) :=
  fun _ _ _ _ _ => ⟨rfl, rfl, rfl⟩
theorem Sys2Proof.Laws.Tick.foldStop : ∀ t x0 x1, Sys2Proof.Laws.Tick.Statement (.foldStop t x0 x1) :=
  fun _ _ _ _ => ⟨rfl, rfl, rfl⟩
theorem Sys2Proof.Laws.Tick.swathOpen : ∀ t x0, Sys2Proof.Laws.Tick.Statement (.swathOpen t x0) :=
  fun _ _ _ => ⟨rfl, rfl, rfl⟩
theorem Sys2Proof.Laws.Tick.swathRunStart : ∀ t x0, Sys2Proof.Laws.Tick.Statement (.swathRunStart t x0) :=
  fun _ _ _ => ⟨rfl, rfl, rfl⟩
theorem Sys2Proof.Laws.Tick.stileRelease : ∀ t x0 x1, Sys2Proof.Laws.Tick.Statement (.stileRelease t x0 x1) :=
  fun _ _ _ _ => ⟨rfl, rfl, rfl⟩
theorem Sys2Proof.Laws.Tick.swathDrainEnd : ∀ t x0, Sys2Proof.Laws.Tick.Statement (.swathDrainEnd t x0) :=
  fun _ _ _ => ⟨rfl, rfl, rfl⟩
theorem Sys2Proof.Laws.Tick.outputEntry : ∀ t x0 x1, Sys2Proof.Laws.Tick.Statement (.outputEntry t x0 x1) :=
  fun _ _ _ _ => ⟨rfl, rfl, rfl⟩
theorem Sys2Proof.Laws.Tick.swathGuardStart : ∀ t x0, Sys2Proof.Laws.Tick.Statement (.swathGuardStart t x0) :=
  fun _ _ _ => ⟨rfl, rfl, rfl⟩
theorem Sys2Proof.Laws.Tick.stileTimeout : ∀ t x0, Sys2Proof.Laws.Tick.Statement (.stileTimeout t x0) :=
  fun _ _ _ => ⟨rfl, rfl, rfl⟩
theorem Sys2Proof.Laws.Tick.leaveRequestPlace : ∀ t x0, Sys2Proof.Laws.Tick.Statement (.leaveRequestPlace t x0) :=
  fun _ _ _ => ⟨rfl, rfl, rfl⟩
theorem Sys2Proof.Laws.Tick.grantStart : ∀ t x0 x1, Sys2Proof.Laws.Tick.Statement (.grantStart t x0 x1) :=
  fun _ _ _ _ => ⟨rfl, rfl, rfl⟩
theorem Sys2Proof.Laws.Tick.grantSpanEnd : ∀ t x0 x1, Sys2Proof.Laws.Tick.Statement (.grantSpanEnd t x0 x1) :=
  fun _ _ _ _ => ⟨rfl, rfl, rfl⟩
theorem Sys2Proof.Laws.Tick.slotLaunch : ∀ t x0, Sys2Proof.Laws.Tick.Statement (.slotLaunch t x0) :=
  fun _ _ _ => ⟨rfl, rfl, rfl⟩
theorem Sys2Proof.Laws.Tick.routerRow : ∀ t x0, Sys2Proof.Laws.Tick.Statement (.routerRow t x0) :=
  fun _ _ _ => ⟨rfl, rfl, rfl⟩
theorem Sys2Proof.Laws.Tick.timedRowArrival : ∀ t x0, Sys2Proof.Laws.Tick.Statement (.timedRowArrival t x0) :=
  fun _ _ _ => ⟨rfl, rfl, rfl⟩
theorem Sys2Proof.Laws.Tick.routerPortArrival : ∀ t x0, Sys2Proof.Laws.Tick.Statement (.routerPortArrival t x0) :=
  fun _ _ _ => ⟨rfl, rfl, rfl⟩
theorem Sys2Proof.Laws.Tick.stackRequestAdmit : ∀ t x0, Sys2Proof.Laws.Tick.Statement (.stackRequestAdmit t x0) :=
  fun _ _ _ => ⟨rfl, rfl, rfl⟩
theorem Sys2Proof.Laws.Tick.queueReturn : ∀ t x0 x1, Sys2Proof.Laws.Tick.Statement (.queueReturn t x0 x1) :=
  fun _ _ _ _ => ⟨rfl, rfl, rfl⟩
theorem Sys2Proof.Laws.Tick.writeAcknowledgement : ∀ t x0 x1, Sys2Proof.Laws.Tick.Statement (.writeAcknowledgement t x0 x1) :=
  fun _ _ _ _ => ⟨rfl, rfl, rfl⟩
theorem Sys2Proof.Laws.Tick.stackRefresh : ∀ t x0 x1, Sys2Proof.Laws.Tick.Statement (.stackRefresh t x0 x1) :=
  fun _ _ _ _ => ⟨rfl, rfl, rfl⟩
theorem Sys2Proof.Laws.Tick.stackTemperatureRead : ∀ t x0 x1, Sys2Proof.Laws.Tick.Statement (.stackTemperatureRead t x0 x1) :=
  fun _ _ _ _ => ⟨rfl, rfl, rfl⟩
theorem Sys2Proof.Laws.Tick.stackScrub : ∀ t x0 x1, Sys2Proof.Laws.Tick.Statement (.stackScrub t x0 x1) :=
  fun _ _ _ _ => ⟨rfl, rfl, rfl⟩
theorem Sys2Proof.Laws.Tick.selfRefreshExit : ∀ t x0, Sys2Proof.Laws.Tick.Statement (.selfRefreshExit t x0) :=
  fun _ _ _ => ⟨rfl, rfl, rfl⟩
theorem Sys2Proof.Laws.Tick.regionDescriptorWrite : ∀ t x0 x1 x2 x3 x4, Sys2Proof.Laws.Tick.Statement (.regionDescriptorWrite t x0 x1 x2 x3 x4) :=
  fun _ _ _ _ _ _ _ => ⟨rfl, rfl, rfl⟩
theorem Sys2Proof.Laws.Tick.regionClear : ∀ t x0 x1 x2, Sys2Proof.Laws.Tick.Statement (.regionClear t x0 x1 x2) :=
  fun _ _ _ _ _ => ⟨rfl, rfl, rfl⟩
theorem Sys2Proof.Laws.Tick.engineCallAdmit : ∀ t x0 x1, Sys2Proof.Laws.Tick.Statement (.engineCallAdmit t x0 x1) :=
  fun _ _ _ _ => ⟨rfl, rfl, rfl⟩
theorem Sys2Proof.Laws.Tick.features : ∀ t x0, Sys2Proof.Laws.Tick.Statement (.features t x0) :=
  fun _ _ _ => ⟨rfl, rfl, rfl⟩
theorem Sys2Proof.Laws.Tick.encode : ∀ t x0, Sys2Proof.Laws.Tick.Statement (.encode t x0) :=
  fun _ _ _ => ⟨rfl, rfl, rfl⟩
theorem Sys2Proof.Laws.Tick.decode : ∀ t x0, Sys2Proof.Laws.Tick.Statement (.decode t x0) :=
  fun _ _ _ => ⟨rfl, rfl, rfl⟩
theorem Sys2Proof.Laws.Tick.attend : ∀ t x0, Sys2Proof.Laws.Tick.Statement (.attend t x0) :=
  fun _ _ _ => ⟨rfl, rfl, rfl⟩
theorem Sys2Proof.Laws.Tick.scores : ∀ t x0, Sys2Proof.Laws.Tick.Statement (.scores t x0) :=
  fun _ _ _ => ⟨rfl, rfl, rfl⟩
theorem Sys2Proof.Laws.Tick.sample : ∀ t x0 x1, Sys2Proof.Laws.Tick.Statement (.sample t x0 x1) :=
  fun _ _ _ _ => ⟨rfl, rfl, rfl⟩
theorem Sys2Proof.Laws.Tick.verify : ∀ t x0 x1, Sys2Proof.Laws.Tick.Statement (.verify t x0 x1) :=
  fun _ _ _ _ => ⟨rfl, rfl, rfl⟩
theorem Sys2Proof.Laws.Tick.translate : ∀ t x0, Sys2Proof.Laws.Tick.Statement (.translate t x0) :=
  fun _ _ _ => ⟨rfl, rfl, rfl⟩
theorem Sys2Proof.Laws.Tick.extend : ∀ t x0, Sys2Proof.Laws.Tick.Statement (.extend t x0) :=
  fun _ _ _ => ⟨rfl, rfl, rfl⟩
theorem Sys2Proof.Laws.Tick.trim : ∀ t x0, Sys2Proof.Laws.Tick.Statement (.trim t x0) :=
  fun _ _ _ => ⟨rfl, rfl, rfl⟩
theorem Sys2Proof.Laws.Tick.gcmDecrypt : ∀ t x0, Sys2Proof.Laws.Tick.Statement (.gcmDecrypt t x0) :=
  fun _ _ _ => ⟨rfl, rfl, rfl⟩
theorem Sys2Proof.Laws.Tick.gcmEncrypt : ∀ t x0, Sys2Proof.Laws.Tick.Statement (.gcmEncrypt t x0) :=
  fun _ _ _ => ⟨rfl, rfl, rfl⟩
theorem Sys2Proof.Laws.Tick.sha384 : ∀ t x0, Sys2Proof.Laws.Tick.Statement (.sha384 t x0) :=
  fun _ _ _ => ⟨rfl, rfl, rfl⟩
theorem Sys2Proof.Laws.Tick.ecdsaVerify : ∀ t x0 x1 x2 x3, Sys2Proof.Laws.Tick.Statement (.ecdsaVerify t x0 x1 x2 x3) :=
  fun _ _ _ _ _ _ => ⟨rfl, rfl, rfl⟩
theorem Sys2Proof.Laws.Tick.lmsVerify : ∀ t x0 x1 x2 x3, Sys2Proof.Laws.Tick.Statement (.lmsVerify t x0 x1 x2 x3) :=
  fun _ _ _ _ _ _ => ⟨rfl, rfl, rfl⟩
theorem Sys2Proof.Laws.Tick.normSet : ∀ t x0, Sys2Proof.Laws.Tick.Statement (.normSet t x0) :=
  fun _ _ _ => ⟨rfl, rfl, rfl⟩
theorem Sys2Proof.Laws.Tick.normSubmit : ∀ t x0, Sys2Proof.Laws.Tick.Statement (.normSubmit t x0) :=
  fun _ _ _ => ⟨rfl, rfl, rfl⟩
theorem Sys2Proof.Laws.Tick.engineCallComplete : ∀ t x0 x1 x2, Sys2Proof.Laws.Tick.Statement (.engineCallComplete t x0 x1 x2) :=
  fun _ _ _ _ _ => ⟨rfl, rfl, rfl⟩
theorem Sys2Proof.Laws.Tick.weightCodecChunk : ∀ t x0 x1 x2 x3 x4 x5, Sys2Proof.Laws.Tick.Statement (.weightCodecChunk t x0 x1 x2 x3 x4 x5) :=
  fun _ _ _ _ _ _ _ _ => ⟨rfl, rfl, rfl⟩
theorem Sys2Proof.Laws.Tick.connectionRequest : ∀ t x0 x1, Sys2Proof.Laws.Tick.Statement (.connectionRequest t x0 x1) :=
  fun _ _ _ _ => ⟨rfl, rfl, rfl⟩
theorem Sys2Proof.Laws.Tick.connectionFail : ∀ t x0, Sys2Proof.Laws.Tick.Statement (.connectionFail t x0) :=
  fun _ _ _ => ⟨rfl, rfl, rfl⟩
theorem Sys2Proof.Laws.Tick.submissionDoorbell : ∀ t x0 x1 x2, Sys2Proof.Laws.Tick.Statement (.submissionDoorbell t x0 x1 x2) :=
  fun _ _ _ _ _ => ⟨rfl, rfl, rfl⟩
theorem Sys2Proof.Laws.Tick.completionHead : ∀ t x0 x1 x2, Sys2Proof.Laws.Tick.Statement (.completionHead t x0 x1 x2) :=
  fun _ _ _ _ _ => ⟨rfl, rfl, rfl⟩
theorem Sys2Proof.Laws.Tick.creditSlotWrite : ∀ t x0 x1 x2 x3, Sys2Proof.Laws.Tick.Statement (.creditSlotWrite t x0 x1 x2 x3) :=
  fun _ _ _ _ _ _ => ⟨rfl, rfl, rfl⟩
theorem Sys2Proof.Laws.Tick.descriptorFetch : ∀ t x0 x1, Sys2Proof.Laws.Tick.Statement (.descriptorFetch t x0 x1) :=
  fun _ _ _ _ => ⟨rfl, rfl, rfl⟩
theorem Sys2Proof.Laws.Tick.accept : ∀ t x0, Sys2Proof.Laws.Tick.Statement (.accept t x0) :=
  fun _ _ _ => ⟨rfl, rfl, rfl⟩
theorem Sys2Proof.Laws.Tick.reject : ∀ t x0, Sys2Proof.Laws.Tick.Statement (.reject t x0) :=
  fun _ _ _ => ⟨rfl, rfl, rfl⟩
theorem Sys2Proof.Laws.Tick.carriedAccept : ∀ t x0, Sys2Proof.Laws.Tick.Statement (.carriedAccept t x0) :=
  fun _ _ _ => ⟨rfl, rfl, rfl⟩
theorem Sys2Proof.Laws.Tick.openStream : ∀ t x0 x1, Sys2Proof.Laws.Tick.Statement (.openStream t x0 x1) :=
  fun _ _ _ _ => ⟨rfl, rfl, rfl⟩
theorem Sys2Proof.Laws.Tick.appendInput : ∀ t x0 x1, Sys2Proof.Laws.Tick.Statement (.appendInput t x0 x1) :=
  fun _ _ _ _ => ⟨rfl, rfl, rfl⟩
theorem Sys2Proof.Laws.Tick.generate : ∀ t x0, Sys2Proof.Laws.Tick.Statement (.generate t x0) :=
  fun _ _ _ => ⟨rfl, rfl, rfl⟩
theorem Sys2Proof.Laws.Tick.verifyDraft : ∀ t x0 x1, Sys2Proof.Laws.Tick.Statement (.verifyDraft t x0 x1) :=
  fun _ _ _ _ => ⟨rfl, rfl, rfl⟩
theorem Sys2Proof.Laws.Tick.close : ∀ t x0, Sys2Proof.Laws.Tick.Statement (.close t x0) :=
  fun _ _ _ => ⟨rfl, rfl, rfl⟩
theorem Sys2Proof.Laws.Tick.adaptStep : ∀ t x0 x1, Sys2Proof.Laws.Tick.Statement (.adaptStep t x0 x1) :=
  fun _ _ _ _ => ⟨rfl, rfl, rfl⟩
theorem Sys2Proof.Laws.Tick.loadModel : ∀ t x0 x1, Sys2Proof.Laws.Tick.Statement (.loadModel t x0 x1) :=
  fun _ _ _ _ => ⟨rfl, rfl, rfl⟩
theorem Sys2Proof.Laws.Tick.unloadModel : ∀ t x0, Sys2Proof.Laws.Tick.Statement (.unloadModel t x0) :=
  fun _ _ _ => ⟨rfl, rfl, rfl⟩
theorem Sys2Proof.Laws.Tick.query : ∀ t x0 x1, Sys2Proof.Laws.Tick.Statement (.query t x0 x1) :=
  fun _ _ _ _ => ⟨rfl, rfl, rfl⟩
theorem Sys2Proof.Laws.Tick.fence : ∀ t x0, Sys2Proof.Laws.Tick.Statement (.fence t x0) :=
  fun _ _ _ => ⟨rfl, rfl, rfl⟩
theorem Sys2Proof.Laws.Tick.setupRead : ∀ t x0 x1, Sys2Proof.Laws.Tick.Statement (.setupRead t x0 x1) :=
  fun _ _ _ _ => ⟨rfl, rfl, rfl⟩
theorem Sys2Proof.Laws.Tick.setupWrite : ∀ t x0, Sys2Proof.Laws.Tick.Statement (.setupWrite t x0) :=
  fun _ _ _ => ⟨rfl, rfl, rfl⟩
theorem Sys2Proof.Laws.Tick.replayDone : ∀ t x0, Sys2Proof.Laws.Tick.Statement (.replayDone t x0) :=
  fun _ _ _ => ⟨rfl, rfl, rfl⟩
theorem Sys2Proof.Laws.Tick.rebuild : ∀ t x0 x1, Sys2Proof.Laws.Tick.Statement (.rebuild t x0 x1) :=
  fun _ _ _ _ => ⟨rfl, rfl, rfl⟩
theorem Sys2Proof.Laws.Tick.copyRetire : ∀ t x0, Sys2Proof.Laws.Tick.Statement (.copyRetire t x0) :=
  fun _ _ _ => ⟨rfl, rfl, rfl⟩
theorem Sys2Proof.Laws.Tick.linkTraining : ∀ t x0 x1, Sys2Proof.Laws.Tick.Statement (.linkTraining t x0 x1) :=
  fun _ _ _ _ => ⟨rfl, rfl, rfl⟩
theorem Sys2Proof.Laws.Tick.skeltinDataFrame : ∀ t x0 x1, Sys2Proof.Laws.Tick.Statement (.skeltinDataFrame t x0 x1) :=
  fun _ _ _ _ => ⟨rfl, rfl, rfl⟩
theorem Sys2Proof.Laws.Tick.nak : ∀ t x0 x1, Sys2Proof.Laws.Tick.Statement (.nak t x0 x1) :=
  fun _ _ _ _ => ⟨rfl, rfl, rfl⟩
theorem Sys2Proof.Laws.Tick.ackTimeout : ∀ t x0, Sys2Proof.Laws.Tick.Statement (.ackTimeout t x0) :=
  fun _ _ _ => ⟨rfl, rfl, rfl⟩
theorem Sys2Proof.Laws.Tick.stepMarkerArmed : ∀ t x0, Sys2Proof.Laws.Tick.Statement (.stepMarkerArmed t x0) :=
  fun _ _ _ => ⟨rfl, rfl, rfl⟩
theorem Sys2Proof.Laws.Tick.stepMarkerJoin : ∀ t x0, Sys2Proof.Laws.Tick.Statement (.stepMarkerJoin t x0) :=
  fun _ _ _ => ⟨rfl, rfl, rfl⟩
theorem Sys2Proof.Laws.Tick.stepMarkerDrained : ∀ t x0, Sys2Proof.Laws.Tick.Statement (.stepMarkerDrained t x0) :=
  fun _ _ _ => ⟨rfl, rfl, rfl⟩
theorem Sys2Proof.Laws.Tick.windowAnnounce : ∀ t x0 x1 x2 x3, Sys2Proof.Laws.Tick.Statement (.windowAnnounce t x0 x1 x2 x3) :=
  fun _ _ _ _ _ _ => ⟨rfl, rfl, rfl⟩
theorem Sys2Proof.Laws.Tick.windowRequest : ∀ t x0 x1, Sys2Proof.Laws.Tick.Statement (.windowRequest t x0 x1) :=
  fun _ _ _ _ => ⟨rfl, rfl, rfl⟩
theorem Sys2Proof.Laws.Tick.refusal : ∀ t x0 x1, Sys2Proof.Laws.Tick.Statement (.refusal t x0 x1) :=
  fun _ _ _ _ => ⟨rfl, rfl, rfl⟩
theorem Sys2Proof.Laws.Tick.windowClose : ∀ t x0, Sys2Proof.Laws.Tick.Statement (.windowClose t x0) :=
  fun _ _ _ => ⟨rfl, rfl, rfl⟩
theorem Sys2Proof.Laws.Tick.inputMonitor : ∀ t x0 x1 x2 x3, Sys2Proof.Laws.Tick.Statement (.inputMonitor t x0 x1 x2 x3) :=
  fun _ _ _ _ _ _ => ⟨rfl, rfl, rfl⟩
theorem Sys2Proof.Laws.Tick.overdrawCheck : ∀ t x0 x1, Sys2Proof.Laws.Tick.Statement (.overdrawCheck t x0 x1) :=
  fun _ _ _ _ => ⟨rfl, rfl, rfl⟩
theorem Sys2Proof.Laws.Tick.clusterOn : ∀ t x0, Sys2Proof.Laws.Tick.Statement (.clusterOn t x0) :=
  fun _ _ _ => ⟨rfl, rfl, rfl⟩
theorem Sys2Proof.Laws.Tick.reservoirConnect : ∀ t x0 x1, Sys2Proof.Laws.Tick.Statement (.reservoirConnect t x0 x1) :=
  fun _ _ _ _ => ⟨rfl, rfl, rfl⟩
theorem Sys2Proof.Laws.Tick.droop : ∀ t x0 x1, Sys2Proof.Laws.Tick.Statement (.droop t x0 x1) :=
  fun _ _ _ _ => ⟨rfl, rfl, rfl⟩
theorem Sys2Proof.Laws.Tick.droopRelease : ∀ t x0, Sys2Proof.Laws.Tick.Statement (.droopRelease t x0) :=
  fun _ _ _ => ⟨rfl, rfl, rfl⟩
theorem Sys2Proof.Laws.Tick.vminRearm : ∀ t x0 x1 x2, Sys2Proof.Laws.Tick.Statement (.vminRearm t x0 x1 x2) :=
  fun _ _ _ _ _ => ⟨rfl, rfl, rfl⟩
theorem Sys2Proof.Laws.Tick.currentSample : ∀ t x0 x1, Sys2Proof.Laws.Tick.Statement (.currentSample t x0 x1) :=
  fun _ _ _ _ => ⟨rfl, rfl, rfl⟩
theorem Sys2Proof.Laws.Tick.supplyWarn : ∀ t x0 x1, Sys2Proof.Laws.Tick.Statement (.supplyWarn t x0 x1) :=
  fun _ _ _ _ => ⟨rfl, rfl, rfl⟩
theorem Sys2Proof.Laws.Tick.supplyOk : ∀ t x0 x1, Sys2Proof.Laws.Tick.Statement (.supplyOk t x0 x1) :=
  fun _ _ _ _ => ⟨rfl, rfl, rfl⟩
theorem Sys2Proof.Laws.Tick.supplyQuiesce : ∀ t, Sys2Proof.Laws.Tick.Statement (.supplyQuiesce t) :=
  fun _ _ => ⟨rfl, rfl, rfl⟩
theorem Sys2Proof.Laws.Tick.supplyResume : ∀ t, Sys2Proof.Laws.Tick.Statement (.supplyResume t) :=
  fun _ _ => ⟨rfl, rfl, rfl⟩
theorem Sys2Proof.Laws.Tick.inputLoss : ∀ t x0, Sys2Proof.Laws.Tick.Statement (.inputLoss t x0) :=
  fun _ _ _ => ⟨rfl, rfl, rfl⟩
theorem Sys2Proof.Laws.Tick.inputOvervoltage : ∀ t x0, Sys2Proof.Laws.Tick.Statement (.inputOvervoltage t x0) :=
  fun _ _ _ => ⟨rfl, rfl, rfl⟩
theorem Sys2Proof.Laws.Tick.inputReversed : ∀ t, Sys2Proof.Laws.Tick.Statement (.inputReversed t) :=
  fun _ _ => ⟨rfl, rfl, rfl⟩
theorem Sys2Proof.Laws.Tick.inputPrecharge : ∀ t x0, Sys2Proof.Laws.Tick.Statement (.inputPrecharge t x0) :=
  fun _ _ _ => ⟨rfl, rfl, rfl⟩
theorem Sys2Proof.Laws.Tick.sliceFail : ∀ t x0 x1, Sys2Proof.Laws.Tick.Statement (.sliceFail t x0 x1) :=
  fun _ _ _ _ => ⟨rfl, rfl, rfl⟩
theorem Sys2Proof.Laws.Tick.phaseFail : ∀ t x0 x1, Sys2Proof.Laws.Tick.Statement (.phaseFail t x0 x1) :=
  fun _ _ _ _ => ⟨rfl, rfl, rfl⟩
theorem Sys2Proof.Laws.Tick.senseOpen : ∀ t x0 x1, Sys2Proof.Laws.Tick.Statement (.senseOpen t x0 x1) :=
  fun _ _ _ _ => ⟨rfl, rfl, rfl⟩
theorem Sys2Proof.Laws.Tick.segmentFail : ∀ t x0 x1, Sys2Proof.Laws.Tick.Statement (.segmentFail t x0 x1) :=
  fun _ _ _ _ => ⟨rfl, rfl, rfl⟩
theorem Sys2Proof.Laws.Tick.pwrEnAssert : ∀ t, Sys2Proof.Laws.Tick.Statement (.pwrEnAssert t) :=
  fun _ _ => ⟨rfl, rfl, rfl⟩
theorem Sys2Proof.Laws.Tick.coolantCheckEnd : ∀ t x0 x1 x2, Sys2Proof.Laws.Tick.Statement (.coolantCheckEnd t x0 x1 x2) :=
  fun _ _ _ _ _ => ⟨rfl, rfl, rfl⟩
theorem Sys2Proof.Laws.Tick.pwrEnDeassert : ∀ t, Sys2Proof.Laws.Tick.Statement (.pwrEnDeassert t) :=
  fun _ _ => ⟨rfl, rfl, rfl⟩
theorem Sys2Proof.Laws.Tick.trayReport : ∀ t x0 x1, Sys2Proof.Laws.Tick.Statement (.trayReport t x0 x1) :=
  fun _ _ _ _ => ⟨rfl, rfl, rfl⟩
theorem Sys2Proof.Laws.Tick.traySilent : ∀ t, Sys2Proof.Laws.Tick.Statement (.traySilent t) :=
  fun _ _ => ⟨rfl, rfl, rfl⟩
theorem Sys2Proof.Laws.Tick.sensorRead : ∀ t x0 x1, Sys2Proof.Laws.Tick.Statement (.sensorRead t x0 x1) :=
  fun _ _ _ _ => ⟨rfl, rfl, rfl⟩
theorem Sys2Proof.Laws.Tick.allowanceUpdate : ∀ t, Sys2Proof.Laws.Tick.Statement (.allowanceUpdate t) :=
  fun _ _ => ⟨rfl, rfl, rfl⟩
theorem Sys2Proof.Laws.Tick.holdExit : ∀ t, Sys2Proof.Laws.Tick.Statement (.holdExit t) :=
  fun _ _ => ⟨rfl, rfl, rfl⟩
theorem Sys2Proof.Laws.Tick.hotLevelStep : ∀ t x0, Sys2Proof.Laws.Tick.Statement (.hotLevelStep t x0) :=
  fun _ _ _ => ⟨rfl, rfl, rfl⟩
theorem Sys2Proof.Laws.Tick.hotOffMark : ∀ t x0, Sys2Proof.Laws.Tick.Statement (.hotOffMark t x0) :=
  fun _ _ _ => ⟨rfl, rfl, rfl⟩
theorem Sys2Proof.Laws.Tick.regionHotOff : ∀ t x0, Sys2Proof.Laws.Tick.Statement (.regionHotOff t x0) :=
  fun _ _ _ => ⟨rfl, rfl, rfl⟩
theorem Sys2Proof.Laws.Tick.hotReturn : ∀ t x0, Sys2Proof.Laws.Tick.Statement (.hotReturn t x0) :=
  fun _ _ _ => ⟨rfl, rfl, rfl⟩
theorem Sys2Proof.Laws.Tick.flowLossN : ∀ t x0, Sys2Proof.Laws.Tick.Statement (.flowLossN t x0) :=
  fun _ _ _ => ⟨rfl, rfl, rfl⟩
theorem Sys2Proof.Laws.Tick.stopClear : ∀ t x0, Sys2Proof.Laws.Tick.Statement (.stopClear t x0) :=
  fun _ _ _ => ⟨rfl, rfl, rfl⟩
theorem Sys2Proof.Laws.Tick.slewGovernor : ∀ t, Sys2Proof.Laws.Tick.Statement (.slewGovernor t) :=
  fun _ _ => ⟨rfl, rfl, rfl⟩
theorem Sys2Proof.Laws.Tick.heartbeat : ∀ t x0, Sys2Proof.Laws.Tick.Statement (.heartbeat t x0) :=
  fun _ _ _ => ⟨rfl, rfl, rfl⟩
theorem Sys2Proof.Laws.Tick.clusterFail : ∀ t x0 x1 x2, Sys2Proof.Laws.Tick.Statement (.clusterFail t x0 x1 x2) :=
  fun _ _ _ _ _ => ⟨rfl, rfl, rfl⟩
theorem Sys2Proof.Laws.Tick.heartbeatLost : ∀ t x0 x1 x2, Sys2Proof.Laws.Tick.Statement (.heartbeatLost t x0 x1 x2) :=
  fun _ _ _ _ _ => ⟨rfl, rfl, rfl⟩
theorem Sys2Proof.Laws.Tick.routesDone : ∀ t x0, Sys2Proof.Laws.Tick.Statement (.routesDone t x0) :=
  fun _ _ _ => ⟨rfl, rfl, rfl⟩
theorem Sys2Proof.Laws.Tick.stackFail : ∀ t x0, Sys2Proof.Laws.Tick.Statement (.stackFail t x0) :=
  fun _ _ _ => ⟨rfl, rfl, rfl⟩
theorem Sys2Proof.Laws.Tick.spareTestEnd : ∀ t x0 x1, Sys2Proof.Laws.Tick.Statement (.spareTestEnd t x0 x1) :=
  fun _ _ _ _ => ⟨rfl, rfl, rfl⟩
theorem Sys2Proof.Laws.Tick.replaceDone : ∀ t x0, Sys2Proof.Laws.Tick.Statement (.replaceDone t x0) :=
  fun _ _ _ => ⟨rfl, rfl, rfl⟩
theorem Sys2Proof.Laws.Tick.recordStreamSend : ∀ t x0, Sys2Proof.Laws.Tick.Statement (.recordStreamSend t x0) :=
  fun _ _ _ => ⟨rfl, rfl, rfl⟩
theorem Sys2Proof.Laws.Tick.boot : ∀ t x0, Sys2Proof.Laws.Tick.Statement (.boot t x0) :=
  fun _ _ _ => ⟨rfl, rfl, rfl⟩
theorem Sys2Proof.Laws.Tick.installSigner : ∀ t x0 x1, Sys2Proof.Laws.Tick.Statement (.installSigner t x0 x1) :=
  fun _ _ _ _ => ⟨rfl, rfl, rfl⟩
theorem Sys2Proof.Laws.Tick.eraseSigner : ∀ t x0 x1, Sys2Proof.Laws.Tick.Statement (.eraseSigner t x0 x1) :=
  fun _ _ _ _ => ⟨rfl, rfl, rfl⟩
theorem Sys2Proof.Laws.Tick.installSetupKey : ∀ t x0 x1, Sys2Proof.Laws.Tick.Statement (.installSetupKey t x0 x1) :=
  fun _ _ _ _ => ⟨rfl, rfl, rfl⟩
theorem Sys2Proof.Laws.Tick.exportKeys : ∀ t x0, Sys2Proof.Laws.Tick.Statement (.exportKeys t x0) :=
  fun _ _ _ => ⟨rfl, rfl, rfl⟩
theorem Sys2Proof.Laws.Tick.attest : ∀ t x0, Sys2Proof.Laws.Tick.Statement (.attest t x0) :=
  fun _ _ _ => ⟨rfl, rfl, rfl⟩
theorem Sys2Proof.Laws.Tick.commitSvn : ∀ t x0, Sys2Proof.Laws.Tick.Statement (.commitSvn t x0) :=
  fun _ _ _ => ⟨rfl, rfl, rfl⟩
theorem Sys2Proof.Laws.Tick.attestTreeBuild : ∀ t, Sys2Proof.Laws.Tick.Statement (.attestTreeBuild t) :=
  fun _ _ => ⟨rfl, rfl, rfl⟩
theorem Sys2Proof.Laws.Tick.seal : ∀ t x0, Sys2Proof.Laws.Tick.Statement (.seal t x0) :=
  fun _ _ _ => ⟨rfl, rfl, rfl⟩
theorem Sys2Proof.Laws.Tick.requestUpdate : ∀ t, Sys2Proof.Laws.Tick.Statement (.requestUpdate t) :=
  fun _ _ => ⟨rfl, rfl, rfl⟩
theorem Sys2Proof.Laws.Tick.verifyComplete : ∀ t x0, Sys2Proof.Laws.Tick.Statement (.verifyComplete t x0) :=
  fun _ _ _ => ⟨rfl, rfl, rfl⟩
theorem Sys2Proof.Laws.Tick.applyComplete : ∀ t, Sys2Proof.Laws.Tick.Statement (.applyComplete t) :=
  fun _ _ => ⟨rfl, rfl, rfl⟩
theorem Sys2Proof.Laws.Tick.setdasa : ∀ t x0, Sys2Proof.Laws.Tick.Statement (.setdasa t x0) :=
  fun _ _ _ => ⟨rfl, rfl, rfl⟩
theorem Sys2Proof.Laws.Tick.cold : ∀ t x0, Sys2Proof.Laws.Tick.Statement (.cold t x0) :=
  fun _ _ _ => ⟨rfl, rfl, rfl⟩
theorem Sys2Proof.Laws.Tick.warm : ∀ t x0, Sys2Proof.Laws.Tick.Statement (.warm t x0) :=
  fun _ _ _ => ⟨rfl, rfl, rfl⟩
theorem Sys2Proof.Laws.Tick.lea : ∀ t x0 x1, Sys2Proof.Laws.Tick.Statement (.lea t x0 x1) :=
  fun _ _ _ _ => ⟨rfl, rfl, rfl⟩
theorem Sys2Proof.Laws.Tick.cluster : ∀ t x0 x1, Sys2Proof.Laws.Tick.Statement (.cluster t x0 x1) :=
  fun _ _ _ _ => ⟨rfl, rfl, rfl⟩
theorem Sys2Proof.Laws.Tick.fold : ∀ t x0 x1, Sys2Proof.Laws.Tick.Statement (.fold t x0 x1) :=
  fun _ _ _ _ => ⟨rfl, rfl, rfl⟩
theorem Sys2Proof.Laws.Tick.link : ∀ t x0 x1, Sys2Proof.Laws.Tick.Statement (.link t x0 x1) :=
  fun _ _ _ _ => ⟨rfl, rfl, rfl⟩
theorem Sys2Proof.Laws.Tick.stopN : ∀ t, Sys2Proof.Laws.Tick.Statement (.stopN t) :=
  fun _ _ => ⟨rfl, rfl, rfl⟩
theorem Sys2Proof.Laws.Tick.chiefWatchdog : ∀ t, Sys2Proof.Laws.Tick.Statement (.chiefWatchdog t) :=
  fun _ _ => ⟨rfl, rfl, rfl⟩
theorem Sys2Proof.Laws.Tick.stewardWatchdog : ∀ t x0, Sys2Proof.Laws.Tick.Statement (.stewardWatchdog t x0) :=
  fun _ _ _ => ⟨rfl, rfl, rfl⟩
theorem Sys2Proof.Laws.Tick.standby : ∀ t x0, Sys2Proof.Laws.Tick.Statement (.standby t x0) :=
  fun _ _ _ => ⟨rfl, rfl, rfl⟩
theorem Sys2Proof.Laws.Tick.active : ∀ t x0, Sys2Proof.Laws.Tick.Statement (.active t x0) :=
  fun _ _ _ => ⟨rfl, rfl, rfl⟩
theorem Sys2Proof.Laws.Tick.regionOff : ∀ t x0 x1 x2, Sys2Proof.Laws.Tick.Statement (.regionOff t x0 x1 x2) :=
  fun _ _ _ _ _ => ⟨rfl, rfl, rfl⟩
theorem Sys2Proof.Laws.Tick.registerWrite : ∀ t x0 x1 x2 x3, Sys2Proof.Laws.Tick.Statement (.registerWrite t x0 x1 x2 x3) :=
  fun _ _ _ _ _ _ => ⟨rfl, rfl, rfl⟩
theorem Sys2Proof.Laws.Tick.auxiliaryInputPresent : ∀ t x0, Sys2Proof.Laws.Tick.Statement (.auxiliaryInputPresent t x0) :=
  fun _ _ _ => ⟨rfl, rfl, rfl⟩
theorem Sys2Proof.Laws.Tick.auxiliaryInputLoss : ∀ t, Sys2Proof.Laws.Tick.Statement (.auxiliaryInputLoss t) :=
  fun _ _ => ⟨rfl, rfl, rfl⟩
theorem Sys2Proof.Laws.Tick.stopNRelease : ∀ t, Sys2Proof.Laws.Tick.Statement (.stopNRelease t) :=
  fun _ _ => ⟨rfl, rfl, rfl⟩
theorem Sys2Proof.Laws.Tick.modelRevalidated : ∀ t x0, Sys2Proof.Laws.Tick.Statement (.modelRevalidated t x0) :=
  fun _ _ _ => ⟨rfl, rfl, rfl⟩
theorem Sys2Proof.Laws.Tick.idlenessSwitchOff : ∀ t x0, Sys2Proof.Laws.Tick.Statement (.idlenessSwitchOff t x0) :=
  fun _ _ _ => ⟨rfl, rfl, rfl⟩
end

