-- ==== Sys2Proof/Laws/Rows.lean ====
section
/-! SUPPORT. What storing a row does, in a scratchpad and in a stack, and what a read of it finds then. -/

namespace Sys2Proof.Machine

/-! ### Rows of a scratchpad -/

theorem onlyCluster_storeRow (s : State) (q a : Nat) (r : Row) : OnlyCluster q s (s.storeRow q a r) :=
  onlyCluster_modCluster s q _

/-- Storing a row changes that row alone. -/
@[simp] theorem State.row_storeRow (s : State) (q a : Nat) (r : Row) (p b : Nat) :
    (s.storeRow q a r).row p b = if p = q ∧ b = a then r else s.row p b := by
  unfold State.row State.storeRow
  by_cases hp : p = q
  · subst hp; simp
  · simp [hp]

@[simp] theorem State.partOf_storeRow (s : State) (q a : Nat) (r : Row) (p b : Nat) :
    (s.storeRow q a r).partOf p b = s.partOf p b := rfl

@[simp] theorem State.partWclass_storeRow (s : State) (q a : Nat) (r : Row) (p i : Nat) :
    (s.storeRow q a r).partWclass p i = s.partWclass p i := rfl

/-- A row that was just stored is right as it stands: its check bytes are those of its class (R139). -/
theorem State.rowHealth_storeRow (s : State) (q a : Nat) (r : Row) : (s.storeRow q a r).rowHealth q a = .good := by
  have h : (s.storeRow q a r).codeOfRow q a = s.rowWclass q a := by
    unfold State.codeOfRow State.rowWclass
    simp only [State.partOf_storeRow, State.partWclass_storeRow]
    cases h : s.partOf q a <;> simp [State.storeRow, Map.get, State.rowWclass, h]
  unfold State.rowHealth
  rw [h]
  simp [State.storeRow]

/-- A read of a row that was just stored finds it, and counts nothing. -/
theorem State.senseRow_storeRow (s : State) (q a : Nat) (r : Row) :
    (s.storeRow q a r).senseRow q a = (some r, false, s.storeRow q a r) := by
  simp [State.senseRow, State.rowHealth_storeRow]

/-! ### Cycles of a bank -/

theorem onlyCluster_takeCycle (s : State) (q b ends : Nat) : OnlyCluster q s (s.takeCycle q b ends) :=
  onlyCluster_modCluster s q _

/-- A bank that gave its cycle has none left at the present edge; the other banks keep theirs. -/
@[simp] theorem State.cycleUsed_takeCycle (s : State) (q b ends c : Nat) :
    (s.takeCycle q b ends).cycleUsed q c = (decide (c = b) || s.cycleUsed q c) := by
  have h : (s.takeCycle q b ends).now = s.now := rfl
  unfold State.cycleUsed
  rw [h]
  by_cases hc : c = b <;> simp [State.takeCycle, hc]

/-! ### Rows of a stack -/

theorem onlyStack_stackWrite (s : State) (n a : Nat) (r : Row) : OnlyStack n s (s.stackWrite n a r) :=
  onlyStack_modDram s n _

/-- A row of a stack as it is stored. -/
@[simp] theorem State.rows_stackWrite (s : State) (n a : Nat) (r : Row) (m b : Nat) :
    Map.get 0 ((s.stackWrite n a r).dram m).rows b = if m = n ∧ b = a then r else Map.get 0 (s.dram m).rows b := by
  unfold State.stackWrite
  by_cases hm : m = n
  · subst hm; simp
  · simp [hm]

end Sys2Proof.Machine
end

