-- ==== Sys2Proof/Tests/Slice0.lean ====
section
/-! SUPPORT. Tests of this slice: a state and operands that meet the premises of each statement, terms that the
well-formedness check refuses, and the CRC of two frames. -/

namespace Sys2Proof.Tests

open Sys2Proof.Machine

-- One proof at a time: each kernel evaluation waits for the declarations before it, and a waiting thread keeps its stack.
set_option Elab.async false

/-! ### A small module: fold 0 runs on cluster 0, whose core 0 has four bundles -/

def image0 : Image :=
  { clusters := [0], leaRect := true, endTick := 1000000, drain := 10, code := [(0, [0, 0, 0, 0])], stiles := [(1, [0])],
    queues := [(0, 0, 0), (0, 1, 0), (0, 8, 0)], items := [], model := 0, batchAt := (0, 1), resultAt := (0, 2), limits := [], worst := [],
    outBound := [], growth := [], pools := [], kvPools := [], block := [], flows := [], windows := [], placements := [], setup := [],
    streamRows := [], benver := 0 }

/-- Partition 0 of cluster 0 is rows 0 to 1,023 of bank 0 and belongs to fold 0. -/
def withPart (s : State) : State :=
  (((((s.setFld Fld.cluPartBanksBankMask 0 0 1).setFld Fld.cluPartCfgValid 0 0 1).setFld Fld.cluPartCfgGate 0 0 1).setFld
    Fld.cluPartCfgRowCount 0 0 1024).setFld Fld.cluPartCfgFold 0 0 0).setFld Fld.cluBankPowerPowered 0 0 1

def base : State :=
  let s := { State.reset with positions := [], funcs := [] }
  let s := (s.setFld Fld.cluPwrStateState 0 0 2).setFoldState 0 2
  let s := s.modFold 0 (fun x => { x with image := some image0, phase := .run })
  withPart s

/-- A bundle of one instruction in slot A or B of core 0, all operands at one register. -/
def inA (d a b : BitVec 6) (imm : BitVec 22) : CoreOp := ⟨0, .a, false, false, 0, d, a, b, 0, imm⟩
def inB (d a b : BitVec 6) (imm : BitVec 22) : CoreOp := ⟨0, .b, false, false, 0, d, a, b, 0, imm⟩
/-- Gated off by the predicate p0 inverted. -/
def offA (d a b : BitVec 6) (imm : BitVec 22) : CoreOp := ⟨0, .a, false, true, 0, d, a, b, 0, imm⟩
def offB (d a b : BitVec 6) (imm : BitVec 22) : CoreOp := ⟨0, .b, false, true, 0, d, a, b, 0, imm⟩

/-- A func for an instruction: the codes of the core's instructions are free. -/
def funcOf (op : Op) : Nat :=
  match op.low with
  | some l => 4 * op.fn + l
  | none => op.fn
/-- The bundle that spells an instruction in its slot and NOP in the other. -/
def bundleOf (o : CoreOp) (op : Op) : BitVec 128 :=
  let w := o.word op.cls (funcOf op)
  match o.slot with
  | .a => 0#64 ++ w
  | .b => w ++ 0#64
/-- `s` at tick `t`, with that bundle as the whole program of core 0. -/
def runsAt (t : Nat) (s : State) (o : CoreOp) (op : State → Op) : State :=
  let x := op (s.at t)
  ({ s with funcs := [(x.cls, x.fn, funcOf x)] }.modFold 0 (fun y => { y with
    image := some { image0 with code := [(0, [bundleOf o x])] } })).at t
/-- There the instruction issues alone, and its predicate opens it or not. -/
def issues (s : State) (g : Bool) (o : CoreOp) (op : State → Op) : Bool :=
  let u := runsAt 1 s o op
  u.issuesAlone o (op u) && u.gateOpen o == g

theorem witness_NopScalarCompletes :
    (let o := inA 31 31 31 0
     ∀ op ∈ [nopOp, addOp o .sub false, shiftOp o .sra true, minOp o .maxu, mulOp o .mulhu, liOp o],
      issues base true o (fun _ => op) = true) ∧
    issues base true (inA 0 31 31 0) (fun _ => luiOp (inA 0 31 31 0)) = true ∧
    issues base true (inA 7 31 31 0) (fun _ => cmpOp (inA 7 31 31 0) .geu) = true ∧
    issues base true (inA 31 0 0 0) (sysRdOp (inA 31 0 0 0)) = true := by decide +kernel

theorem witness_BranchesComplete :
    (∀ a ∈ ([0, 31] : List (BitVec 6)),
      let o := inA 31 a 0 5
      ∀ op ∈ [brOp o, brPOp o, loopOp o, jalOp o, jrOp o], issues base true o (fun _ => op) = true) ∧
    issues base false (offA 0 0 0 5) (fun _ => brPOp (offA 0 0 0 5)) = true := by decide +kernel

theorem witness_GatedOffKeepsTime :
    (let o := offA 7 31 31 0
     ∀ op ∈ [fun _ => addOp o .add true, fun _ => shiftOp o .shl false, fun _ => minOp o .min, fun _ => mulOp o .mul,
        fun _ => liOp o, fun _ => luiOp o, fun _ => cmpOp o .lt, sysRdOp o, fun _ => brOp o, fun _ => jrOp o, fun _ => jalOp o,
        fun _ => loopOp o, leaveReqOp o, fun _ => swathWaitOp o, fun _ => engWaitOp o, recEmitOp o,
        fun _ => qWaitWrOp o 0], issues base false o op = true) ∧
    (let o := offA 7 31 31 1
     ∀ op ∈ [fun _ => qWaitOp o 0, fun _ => leaveWaitOp o, fun _ => stileOp o], issues base false o op = true) ∧
    (let o := offB 7 31 31 0
     ∀ op ∈ [fun _ => vExtOp o .f32, fun _ => qPutRdOp o 0, fun _ => qPutWrOp o 0,
        fun _ => slotSendOp o, arrIssueOp o 3, fun _ => arrCollectOp o 3, fun _ => engCallOp o],
      issues base false o op = true) ∧
    (let o := offB 1 7 7 0
     ∀ op ∈ [mmaOp o .i8 true true, accClrOp o, rowLdOp o true, fun _ => rowStOp o true, qGetOp o 0 .tile],
      issues base false o op = true) ∧
    (let o := offB 24 1 0 7
     ∀ op ∈ [accMvOp o, rowLdOp o false, fun _ => rowStOp o false, qGetOp o 0 .vec], issues base false o op = true) := by decide +kernel

/-- Core 0 runs an MMA while it issues a gated-off one; a move, a send and a STILE that nothing holds up. -/
theorem witness_GatedOffKeepsTime_free :
    (let o := offB 1 7 7 0
     let s := base.modCore 0 (fun k => { k with mmaRun := some ⟨.i8, 1, 7, true, 7, true, 100, none, false⟩ })
     issues s false o (mmaOp o .i8 true true) = true ∧ (((runsAt 1 s o (mmaOp o .i8 true true)).core 0).mmaRun).isSome = true) ∧
    (let o := offB 24 1 0 7
     ∀ op ∈ [rowLdOp o false, fun _ => rowStOp o false, qGetOp o 0 .row],
      issues base false o op = true ∧ (runsAt 1 base o op).moveFree o = true) ∧
    (let o := offB 7 31 31 0
     let u := runsAt 1 base o (fun _ => slotSendOp o)
     issues base false o (fun _ => slotSendOp o) = true ∧ u.sendFree o ((u.files 0).s o.a) ((u.files 0).s o.b) = true) ∧
    (let o := offA 7 31 31 1
     let u := runsAt 1 base o (fun _ => stileOp o)
     issues base false o (fun _ => stileOp o) = true ∧ o.u ≤ 15 ∧ u.inStile (u.myFold o) o.u o.core = true) := by decide +kernel

theorem witness_VectorLanesComplete :
    (let o := inB 31 31 31 0
     ∀ op ∈ [vAddOp o .max .b16, vAndOp o .sra .i8, vMulOp o false .i32, vMulOp o true .f32, vShufOp o .i8, vBcastOp o .f8e4,
        vRedOp o true .b16, vExp2Op o .rsqrt .b16], issues base true o (fun _ => op) = true) ∧
    issues base true (inB 31 31 31 63) (fun _ => vInsOp (inB 31 31 31 63) .i8) = true ∧
    laneTypeOf ((inB 31 31 31 5).u % 8) = some .f32 ∧
    issues base true (inB 31 31 31 5) (fun _ => vCvtOp (inB 31 31 31 5) .b16) = true ∧ (∃ g, laneFmt .b16 = some g) := by
  refine ⟨?_, ?_, ?_, ?_, ⟨_, rfl⟩⟩ <;> decide +kernel

theorem witness_VectorSpecialComplete :
    issues base true (inB 7 31 31 0) (fun _ => vCmpOp (inB 7 31 31 0) .le .f32) = true ∧
    issues base true (inB 7 31 31 0) (fun _ => vSelOp (inB 7 31 31 0) .i8) = true ∧
    issues base true (inB 31 31 0 15) (fun _ => vExtOp (inB 31 31 0 15) .i32) = true := by
  decide +kernel

/-- Core 0 with an MMA that waits, one that runs, one that waits gated off, and one that waits for grant 7. -/
def mma0 : Mma := ⟨.i8, 1, 7, true, 7, true, 0, none, false⟩
def waiting (m : Mma) : State := base.modCore 0 (fun k => { k with mmaWait := some m })
def running (m : Mma) : State := base.modCore 0 (fun k => { k with mmaRun := some { m with ends := 100 } })
/-- Core 0 holds leave of class `cls` until tick 100,000. -/
def allowed (cls : Nat) (s : State) : State := s.modArb 0 (fun a => { a with
  placed := [⟨9, cls, 0, 1, 1, 1, 0, 100000, 8333, true, none, []⟩] })

theorem witness_MatrixCompletes :
    (let o := inB 1 7 7 0
     let op := mmaOp o .i8 true true
     ∀ s ∈ [base, running mma0, allowed clsMatrix base, base.modCore 0 (fun k => { k with files := k.files.setTag 1 (mmaTag .i8) })],
      issues s true o op = true ∧ (((runsAt 1 s o op).files 0).tag 1 = .none ∨ ((runsAt 1 s o op).files 0).tag 1 = mmaTag .i8)) ∧
    validCore 0 = true ∧
    (∀ m ∈ [mma0, { mma0 with off := true }, { mma0 with grant := some 7 }],
      let u := (waiting m).at 1
      (u.core 0).mmaRun = none ∧ (u.core 0).mmaWait = some m ∧ u.unbegun (clusterOf 0 / 24) 7 = false ∧
      u.covered 0 clsMatrix u.now (u.now + mmaTicks m.kind) = false ∧ u.held (clusterOf 0) < 16) ∧
    (let u := (allowed clsMatrix (waiting mma0)).at 1
     (u.core 0).mmaRun = none ∧ (u.core 0).mmaWait = some mma0 ∧
      u.covered 0 clsMatrix u.now (u.now + mmaTicks mma0.kind) = true) ∧
    (∀ m ∈ [mma0, { mma0 with off := true }],
      let u := (running m).at 100
      (u.core 0).mmaRun = some { m with ends := 100 } ∧ 100 ≤ u.now) ∧
    issues base true (inB 1 7 7 0) (accClrOp (inB 1 7 7 0)) = true ∧
    issues base true (inB 24 1 0 7) (accMvOp (inB 24 1 0 7)) = true := by decide +kernel

/-- Core 0 waited at this edge's predecessor; grant 7 covers, or is what it asked for. -/
theorem witness_RowMovesComplete :
    let edge := fun (o : CoreOp) (op : State → Op) => (runsAt 1 base o op).moveEdge 0 0
    ∀ x ∈ [(inB 0 0 0 7, true), (inB 24 0 0 0, false)],
      ∀ op ∈ [rowLdOp x.1 x.2, fun _ => rowStOp x.1 x.2],
        let back := base.modCore 0 (fun k => { k with lastEdge := some (edge x.1 op - 3) })
        ∀ s ∈ [base, allowed clsBank back, back.modCore 0 (fun k => { k with rowGrant := some 7 })],
          let u := runsAt 1 s x.1 op
          issues s true x.1 op = true ∧ ((u.files 0).s x.1.a).toNat < 49152 ∧ u.myFold x.1 = 0 ∧
          u.reaches (u.myFold x.1) 0 ((u.files 0).s x.1.a).toNat = true ∧ (runsAt 1 s x.1 op).moveFree x.1 = true := by
  intro edge
  decide +kernel

/-- Core 0 with values in its registers s1 and s2. -/
def withRegs (s : State) (a b : Word) : State :=
  s.modCore 0 (fun k => { k with files := (k.files.setS 1 a).setS 2 b })
/-- Queue pair 0 of cluster 0. -/
def withQueue (s : State) (f : Queue → Queue) : State := s.modQueue 0 0 f

/-- s1 names row 0 of stack 0; s2 asks for 64 rows. -/
def puts : State := withRegs base 0 0x400000
/-- s1 names row 0 of cluster 0. -/
def putsFar : State := withRegs base 0x4000000000000000 0x400000
def gets : State := withQueue base (fun x => { x with inb := [⟨some 5⟩] })
def owes : State := withQueue base (fun x => { x with owed := 64 })
def writes : State := withQueue base (fun x => { x with reqs := [⟨1, true, 0, 1, [5], 0, 0, 0, 0, 0⟩], outb := 1 })

theorem witness_QueueInstructionsComplete :
    (let o := inB 31 1 2 0
     let u := puts.at 1
     u.queueOwner o.q 0 = some o.core ∧ remoteOf ((u.files 0).s o.a) = .stack (o.q / 24) 0 ∧
      putCount ((u.files 0).s o.b) = 64 ∧ 64 ≤ (u.queue o.q 0).inRoom ∧ (u.queue o.q 0).reqs = [] ∧
      64 ≤ (u.queue o.q 0).outRoom ∧ getBits ((u.files 0).s o.b) 0 16 + 64 ≤ 49152 ∧
      u.reachesAll (u.myFold o) o.q (getBits ((u.files 0).s o.b) 0 16) 64 = true ∧
      issues puts true o (fun _ => qPutRdOp o 0) = true ∧ issues puts true o (fun _ => qPutWrOp o 0) = true) ∧
    (let o := inB 31 1 2 0
     let u := putsFar.at 1
     u.queueOwner o.q 8 = some o.core ∧ remoteOf ((u.files 0).s o.a) = .cluster 0 0 ∧ putCount ((u.files 0).s o.b) = 64 ∧
      u.hedgeAdmits (u.myFold o) 0 0 64 = true ∧ 64 ≤ (u.queue o.q 8).inRoom ∧ (u.queue o.q 8).reqs = [] ∧
      issues putsFar true o (fun _ => qPutRdOp o 8) = true) ∧
    ((gets.at 1).queue 0 0).inb = [⟨some 5⟩] ∧
    issues gets true (inB 7 0 0 7) (qGetOp (inB 7 0 0 7) 0 .tile) = true ∧
    issues gets true (inB 24 0 0 0) (qGetOp (inB 24 0 0 0) 0 .vec) = true ∧
    (let w := inA 31 0 0 1
     issues gets true w (fun _ => qWaitOp w 0) = true ∧ w.u ≤ ((gets.at 1).queue 0 0).inb.length ∧
      issues owes true w (fun _ => qWaitOp w 0) = true ∧ ((owes.at 1).queue 0 0).inb.length < w.u ∧
      (owes.at 1).nothingToCome w.q 0 = false ∧
      issues base true w (fun _ => qWaitWrOp w 0) = true ∧ (base.at 1).hasWrites w.q 0 w.core = false ∧
      issues writes true w (fun _ => qWaitWrOp w 0) = true ∧ (writes.at 1).hasWrites w.q 0 w.core = true) := by decide +kernel

/-- A group with one vector. -/
def withVec (s : State) (v : ArrVec) : State := s.modGroup 0 3 (fun x => { x with vecs := [v] })
def fresh0 : ArrVec := ArrVec.fresh 0 0 0 0 0

/-- A send to a route set, of 4 rows in slot 15; without a route set, of one row from row 0 on plane 0. -/
def sendsSet (s : State) : State := withRegs s 0x8000000000000000 0xF030000
/-- Fold 0 is exact. -/
def exact0 (s : State) : State := s.setFld Fld.timFoldCfgMode 0 0 0

theorem witness_SendsAndArraysComplete :
    (let o := inB 31 1 2 0
     ∀ s ∈ [base, sendsSet (allowed clsBank base), sendsSet (exact0 (allowed clsBank base)),
        base.modCore 0 (fun k => { k with rowGrant := some 7 })],
      let u := runsAt 1 s o (fun _ => slotSendOp o)
      let a := (u.files 0).s 1
      let b := (u.files 0).s 2
      let n := getBits b 16 3 + 1
      issues s true o (fun _ => slotSendOp o) = true ∧ slotLegal b = true ∧
      u.reachesAll (u.myFold o) 0 (getBits b 0 16) n = true ∧
      (getBits a 63 1 = 1 ∨ (getBits a 6 11 % 32 < 24 ∧
        u.hedgeAdmits (u.myFold o) (clusterOf (getBits a 6 11 * 64)) (getBits a 32 16) n = true)) ∧
      u.sendFree o a b = true) ∧
    (let o := inB 31 0 0 0
     let u := runsAt 1 base o (arrIssueOp o 3)
     let a := (u.files 0).s 0
     issues base true o (arrIssueOp o 3) = true ∧ u.fld Fld.timFoldCfgDigitalExact 0 (u.myFold o) ≠ 1 ∧
      u.reachesAll (u.myFold o) o.q (getBits a 0 16) (4 * u.depth o.q (getBits a 0 8)) = true) ∧
    (let o := inB 31 0 0 0
     ∀ v ∈ [{ fresh0 with stage := .ready, notReady := true }, { fresh0 with stage := .ready, out := List.replicate 256 0 }],
      let s := withVec base v
      let u := runsAt 1 s o (fun _ => arrCollectOp o 3)
      issues s true o (fun _ => arrCollectOp o 3) = true ∧ ((u.cluster 0).group 3).vecs = [v] ∧ v.stage = .ready ∧
      (v.rows = [] ↔ v.notReady = true) ∧ u.reachesAll (u.myFold o) o.q (getBits ((u.files 0).s 0) 0 16) v.rows.length = true) := by
  decide +kernel

/-- s1 = 0 asks in the core's own name; s2 asks for one unit of class 2 over one frame. -/
def asks : State := withRegs base 0 0x1000000000012
/-- Grants 7 and 9 are LEAVE.REQ's: 7 waits, 9 has begun. -/
def leaves : State :=
  (base.modCore 0 (fun k => { k with leaves := [(1, 7), (2, 9)] })).modArb 0 (fun a => { a with
    waiting := [⟨7, 1, 0, 1, 1, 1, 0, 0, none, none⟩], placed := [⟨9, 2, 0, 1, 1, 1, 0, 12, 1, true, none, []⟩] })

theorem witness_SyncInstructionsComplete :
    let r := inA 0 1 2 0
    let v := leaves.at 1
    issues asks true r (leaveReqOp r) = true ∧ leaveLegal (((asks.at 1).files 0).s 1) (((asks.at 1).files 0).s 2) = true ∧
    issues leaves true (inA 0 0 0 1) (fun _ => leaveWaitOp (inA 0 0 0 1)) = true ∧
    issues leaves true (inA 0 0 0 2) (fun _ => leaveWaitOp (inA 0 0 0 2)) = true ∧
    v.oldestLeave 0 1 = some 7 ∧ v.stillAsked 0 7 = true ∧ v.oldestLeave 0 2 = some 9 ∧ v.stillAsked 0 9 = false ∧
    v.grantStart? 0 9 = some 0 ∧ 0 ≤ v.now ∧
    issues leaves true (inA 0 0 0 0) (fun _ => stileOp (inA 0 0 0 0)) = true ∧ v.inStile 0 0 0 = true ∧
    issues leaves true (inA 0 0 0 1) (fun _ => stileOp (inA 0 0 0 1)) = true ∧ v.inStile 0 1 0 = true ∧
    issues leaves true (inA 31 0 0 0) (fun _ => swathWaitOp (inA 31 0 0 0)) = true := by decide +kernel

/-- s1 calls function 0 of engine 2 of lea 0, s2 gives block row 0. -/
def calls : State := withRegs base 0x400002 0
/-- s1 holds number 0; calls (0 − callBase) is the one it names. -/
def called (st : Option Nat) : State :=
  base.modCore 0 (fun k => { k with calls := [((0 - Config.callBase : Word).toNat, ⟨0, 2, st⟩)] })
def records : State := base.modCore 0 (fun k => { k with records := [⟨0x7F00, 0, 0, some 0, some 0, false, 0, 0, 0⟩] })

theorem witness_CallsAndRecordsComplete :
    let o := inB 31 1 2 0
    let u := calls.at 1
    let a := (u.files 0).s o.a
    issues calls true o (fun _ => engCallOp o) = true ∧ getBits a 23 41 = 0 ∧ getBits a 22 1 = 1 ∧
    getBits a 16 6 = 0 ∧ engineFn (getBits a 0 8) (getBits a 8 8) = true ∧
    u.reaches (u.myFold o) o.q (getBits ((u.files 0).s o.b) 0 16) = true ∧ (u.core 0).openCalls < 4 ∧
    issues base true (inA 0 0 0 255) (recEmitOp (inA 0 0 0 255)) = true ∧ validCore 0 = true ∧
    ((records.at 64).core 0).records = [⟨0x7F00, 0, 0, some 0, some 0, false, 0, 0, 0⟩] ∧
    ((records.at 64).core 0).sentAt = none := by decide +kernel

/-- Whether a bundle of ENG.WAIT issues does not depend on the calls that its core holds. -/
theorem issuesAlone_of_calls (s : State) (m : Map CoreCall) (c : Nat) (o : CoreOp) :
    (s.modCore c (fun k => { k with calls := m })).issuesAlone o (engWaitOp o) = s.issuesAlone o (engWaitOp o) := by
  generalize hs : s.modCore c (fun k => { k with calls := m }) = s'
  have core : ∀ x, s'.core x = { s.core x with calls := if x = c then m else (s.core x).calls } := by
    intro x
    by_cases hx : x = c <;> simp [← hs, hx]
  have live : ∀ x, s'.coreLive x = s.coreLive x := fun _ => hs ▸ rfl
  have may : ∀ x, s'.mayIssue x = s.mayIssue x := fun _ => hs ▸ rfl
  have bubble : ∀ x, s'.coreBubble x = s.coreBubble x := fun _ => hs ▸ rfl
  have code : ∀ x, s'.codeOf x = s.codeOf x := fun _ => hs ▸ rfl
  have now : s'.now = s.now := hs ▸ rfl
  have funcs : s'.funcs = s.funcs := hs ▸ rfl
  simp only [State.issuesAlone, State.spellsAlone, State.bundle, State.coreFree, CoreOp.accepted, core, live, may, bubble,
    code, now, funcs]
  rfl

/-- ENG.WAIT of call `st` alone. -/
def waitsFor (st : Option Nat) : State := runsAt 1 (called st) (inA 31 0 0 0) (fun _ => engWaitOp (inA 31 0 0 0))
/-- The same without the call. -/
def waitsBare : State := runsAt 1 base (inA 31 0 0 0) (fun _ => engWaitOp (inA 31 0 0 0))

theorem waitsFor_eq (st : Option Nat) :
    waitsFor st = waitsBare.modCore 0 (fun k => { k with calls := [((0 - Config.callBase : Word).toNat, ⟨0, 2, st⟩)] }) := by
  simp only [waitsFor, waitsBare, called]
  generalize base = b
  rfl

theorem witness_CallsAndRecordsComplete_wait (st : Option Nat) :
    let o := inA 31 0 0 0
    (waitsFor st).gateOpen o = true ∧ (waitsFor st).issuesAlone o (engWaitOp o) = true ∧
    Map.find ((waitsFor st).core 0).calls (((waitsFor st).files 0).s o.a - Config.callBase).toNat = some ⟨0, 2, st⟩ := by
  have issues : waitsBare.issuesAlone (inA 31 0 0 0) (engWaitOp (inA 31 0 0 0)) = true := by decide +kernel
  have zero : (waitsBare.files 0).s 0 = 0 := by decide +kernel
  have files : (waitsFor st).files 0 = waitsBare.files 0 := by simp [waitsFor_eq, State.files]
  refine ⟨?_, ?_, ?_⟩
  · rw [State.gateOpen, show (inA 31 0 0 0).core = 0 from rfl, files]
    decide +kernel
  · rw [waitsFor_eq, issuesAlone_of_calls]
    exact issues
  · rw [files, show (inA 31 0 0 0).a = 0 from rfl, zero, waitsFor_eq]
    simp [Map.find]

/-! ### Commands that name units no W1 has -/

def coreAt (c : Nat) : CoreOp := ⟨c, .a, false, false, 0, 0, 0, 0, 0, 0⟩

theorem test_wf_refuses_cores :
    (Instr.nop 0 (coreAt 131072)).wf = false ∧ (Instr.nop 0 (coreAt (64 * 24))).wf = false ∧
    (Instr.nop 0 (coreAt 48)).wf = false ∧ (Instr.nop 0 (coreAt (2048 * 63 + 64 * 23 + 47))).wf = true ∧
    (Instr.mmaStart 0 48).wf = false ∧ (Instr.qGet 0 (coreAt 0) 16 .vec).wf = false ∧
    (Instr.arrIssue 0 (coreAt 0) 4).wf = false := by decide

theorem test_wf_refuses_clusters :
    (Instr.bankAccess 0 1536 0).wf = false ∧ (Instr.bankAccess 0 0 48).wf = false ∧ (Instr.bankAccess 0 1535 47).wf = true ∧
    (Instr.scrubRead 0 0 49152).wf = false ∧ (Instr.partitionOpen 0 .mgmt 0 64).wf = false ∧
    (Instr.layerEntryWrite 0 .mgmt 0 256 0 0).wf = false ∧ (Instr.layerEntryWrite 0 .mgmt 0 0 3 0).wf = false ∧
    (Instr.arrayAccept 0 0 4).wf = false ∧ (Instr.calibrationDue 0 0 32 .boot).wf = false ∧
    (Instr.arrayRowProgram 0 0 0 1024 0 true []).wf = false ∧ (Instr.arrayRowProgram 0 0 0 0 0 true [⟨512, true, 0⟩]).wf = false ∧
    (Instr.arrayRowProgram 0 0 0 0 0 true [⟨0, true, 8⟩]).wf = false ∧ (Instr.sliceFail 0 0 4).wf = false ∧
    (Instr.clusterFail 0 0 1 (some 48)).wf = false ∧ (Instr.queueReturn 0 0 16).wf = false := by decide

theorem test_wf_refuses_leas_and_engines :
    (Instr.attend 0 64).wf = false ∧ (Instr.engineCallAdmit 0 0 7).wf = false ∧ (Instr.engineCallAdmit 0 0 8).wf = true ∧
    (Instr.sample 0 0 2).wf = false ∧ (Instr.weightCodecChunk 0 0 .stack 64 0 0 []).wf = false ∧
    (Instr.weightCodecChunk 0 0 .scratch 24 0 0 []).wf = false ∧
    (Instr.weightCodecChunk 0 0 (.array 32) 0 0 0 []).wf = false ∧ (Instr.regionClear 0 .mgmt 0 64).wf = false ∧
    (Instr.phaseFail 0 0 20).wf = false ∧ (Instr.regionOff 0 .mgmt 0 24).wf = false ∧ (Instr.recordStreamSend 0 65).wf = false ∧
    (Instr.sensorRead 0 (.hub 0 4) none).wf = false ∧ (Instr.sensorRead 0 (.cluster 1536) none).wf = false ∧
    (Instr.sensorRead 0 (.stack 64) none).wf = false ∧ (Instr.sensorRead 0 .inlet none).wf = true := by decide

theorem test_wf_refuses_the_rest :
    (Instr.swathOpen 0 256).wf = false ∧ (Instr.stileRelease 0 0 16).wf = false ∧ (Instr.accept 0 4096).wf = false ∧
    (Instr.creditSlotWrite 0 0 0 504 0).wf = false ∧ (Instr.nak 0 96 0).wf = false ∧ (Instr.ackTimeout 0 96).wf = false ∧
    (Instr.stepMarkerJoin 0 ⟨96, 0, 0, 0, 0, 0, 0, (0, 0, 0, false, [])⟩).wf = false ∧ (Instr.currentSample 0 1600 0).wf = false ∧
    (Instr.segmentFail 0 4 0).wf = false ∧ (Instr.heartbeat 0 40).wf = false ∧ (Instr.heartbeat 0 (64 * 40)).wf = false ∧
    (Instr.routesDone 0 [(0, 0, 5)]).wf = false ∧ (Instr.heartbeatLost 0 true 0 40).wf = false ∧
    (Instr.heartbeatLost 0 false 1536 0).wf = false := by decide

/-! ### Clusters -/

theorem witness_WellFormedAnswersNext :
    (Instr.nop 0 (coreAt 0)).wf = true ∧ (Instr.nop 0 (coreAt 48)).wf = false := by decide

theorem witness_StepKeepsQueueWellFormed :
    ({ State.reset with pending := [.ppsEdge 3, .swathOpen 5 0] } : State).pending.all Instr.wf = true := by decide +kernel

/-- A cluster that a run waits on, its bank 0 with what `f` gives it. -/
def withCluster (f : Cluster → Cluster) : State := base.modCluster 0 f
def stores : Access := ⟨.core 0, 1023, 0, .write 0 7, 0, 0, false⟩
def loadsTile : Access := ⟨.core 0, 0, 1, .toTile 7 7, 0, 0, false⟩
def loadsVec : Access := ⟨.core 0, 0, 1, .toVec 24, 0, 0, false⟩
/-- A row read for a Q.PUT.WR of queue pair 0. -/
def loadsPut : Access := ⟨.routerElastic, 0, 1, .port 7 0 none, 0, 0, false⟩
def banked (l : List Access) : State :=
  (withCluster (fun c => { c with access := l, port := [(7, ⟨.put 0 0 0, 1, 1, []⟩)] })).at 3

/-- The record row of call 4 is written, for which core 0 waits. -/
def endsCall : State :=
  ((withCluster (fun c => { c with
    access := [⟨.routerElastic, 3, 0, .port 7 0 (some (49, 5)), 0, 0, false⟩]
    port := [(7, ⟨.result 0 4 0 (some (3, 5)), 1, 1, []⟩)] })).modCore 0 (fun k => { k with wait := .engine 4 31 })).at 3
/-- A flow whose one row, row 1,023 of cluster 0, has not come. -/
def awaited : Arrival := ⟨⟨1, 0, [], 0, 0, 0, 1023, 1⟩, 1, [0]⟩

theorem witness_BankAccessCompletes :
    (∀ a ∈ [stores, loadsTile, loadsVec, loadsPut],
      let u := banked [a]
      u.onBankEdge 0 = true ∧ u.cycleUsed 0 0 = false ∧ (u.cluster 0).closing.any (fun k => k / 64 == 0) = false ∧
      (u.cluster 0).access = [a] ∧ a.row / 1024 = 0 ∧ a.edge ≤ u.now ∧ u.rowRefused 0 a.row = false ∧
      u.lateRow 0 a = false ∧ u.rowHealth 0 a.row = .good) ∧
    (let a : Access := { stores with agent := .accumulator 0, op := .result 0 0 7 }
     let u := banked [a]
     u.onBankEdge 0 = true ∧ u.cycleUsed 0 0 = false ∧ (u.cluster 0).access = [a] ∧ a.row / 1024 = 0 ∧ a.edge ≤ u.now ∧
      u.rowRefused 0 a.row = false ∧ u.lateRow 0 a = false) ∧
    (let u := endsCall
     let a : Access := ⟨.routerElastic, 3, 0, .port 7 0 (some (49, 5)), 0, 0, false⟩
     u.onBankEdge 0 = true ∧ u.cycleUsed 0 0 = false ∧ (u.cluster 0).closing.any (fun k => k / 64 == 0) = false ∧
      (u.cluster 0).access = [a] ∧ a.row / 1024 = 0 ∧ a.edge ≤ u.now ∧ u.rowRefused 0 a.row = false ∧ u.lateRow 0 a = false ∧
      (u.cluster 0).port = [(7, ⟨.result 0 4 0 (some (3, 5)), 1, 1, []⟩)] ∧ (u.core 0).wait = .engine 4 31 ∧
      (u.core 0).waitOff = false) ∧
    (let u := banked [loadsPut]
     (u.cluster 0).port = [(7, ⟨.put 0 0 0, 1, 1, []⟩)] ∧ clusterOf 0 = 0 ∧ remoteOf 0 = .stack (0 / 24) 0 ∧ (u.queue 0 0).reqs = []) ∧
    (∀ c ∈ [{ loadsVec with agent := .core 47 }, loadsPut],
      let u := banked [stores, c]
      u.onBankEdge 0 = true ∧ u.cycleUsed 0 0 = false ∧ (u.cluster 0).access = [stores, c] ∧ c.row / 1024 = 0 ∧
      c.edge ≤ u.now ∧ u.rowRefused 0 c.row = false ∧ u.lateRow 0 stores = false ∧ u.lateRow 0 c = false ∧
      stores.agent.rank < c.agent.rank ∧ (c.agent.rank < 60 ↔ c ≠ loadsPut)) ∧
    (∀ x ∈ [(([] : Map RowErr), Health.good), ([(1023, .flipped 1)], .fixed)],
      let u := (withCluster (fun c => { c with err := x.1 })).at 3
      u.onBankEdge 0 = true ∧ u.cycleUsed 0 0 = false ∧ u.bankPowered 0 0 = true ∧
      (u.cluster 0).access.any (fun x => x.row / 1024 == 0 && decide (x.edge ≤ u.now)) = false ∧
      u.rowHealth 0 1023 = x.2 ∧ u.lateRow 0 ⟨.scrubber, 1023, u.now, .toTile 0 0, 0, 0, false⟩ = false) ∧
    (let u := (withCluster (fun c => { c with arrivals := [awaited] })).at 3
     u.onBankEdge 0 = true ∧ u.lateRow 0 ⟨.scrubber, 1023, u.now, .toTile 0 0, 0, 0, false⟩ = true) ∧
    (base.at 1).onBankEdge 0 = false ∧ ((withCluster (fun c => { c with used := [(0, 3)] })).at 3).cycleUsed 0 0 = true := by
  decide +kernel

/-- Partition 0 closed. -/
def shut : State := base.setFld Fld.cluPartCfgGate 0 0 0
/-- Partition 0 closed, its bank without power. -/
def dark : State := shut.setFld Fld.cluBankPowerPowered 0 0 0
/-- Bank 0 fills under grant 7, which began at tick 1. -/
def fills : State :=
  (withCluster (fun c => { c with filling := [(0, 7)] })).modArb 0 (fun a => { a with
    placed := [⟨7, clsPowerOn, 0, 0, 2, 2, 1, 10273, 856, true, some 0, []⟩] })

theorem witness_PartitionsComplete :
    ({ base with positions := [(0, 0)] } : State).exposed 0 = false ∧ (base.at 1).partRefused 0 0 true 0 = true ∧
    (base.at 1).exposed 0 = true ∧ (base.at 1).partRefused 0 63 false 2 = false ∧
    (base.at 1).partValid 0 0 = true ∧ (base.at 1).partOpen 0 0 = true ∧ (base.at 1).banksOf 0 0 = [0] ∧
    (dark.at 1).exposed 0 = true ∧ (dark.at 1).partValid 0 0 = true ∧ (dark.at 1).partOpen 0 0 = false ∧
    (dark.at 1).banksOf 0 0 = [0] ∧ (dark.at 1).bankPowered 0 0 = false ∧ Map.find ((dark.at 1).cluster 0).filling 0 = none ∧
    (let u := (shut.modCluster 0 (fun c => { c with closing := [closingKey 0 0] })).at 3
     u.onBankEdge 0 = true ∧ (u.cluster 0).closing.any (fun k => k / 64 == 0) = true ∧ u.inFlight 0 0 = 0 ∧ u.bankPowered 0 0 = true ∧
      u.bankWanted 0 0 = false) ∧
    (let u := (withCluster (fun c => { c with closing := [closingKey 0 1] })).at 3
     u.onBankEdge 0 = true ∧ (u.cluster 0).closing.any (fun k => k / 64 == 0) = true ∧ u.inFlight 0 0 = 0 ∧ u.bankWanted 0 0 = true) ∧
    (base.at 1).onBankEdge 0 = false ∧
    Map.find ((fills.at 10273).cluster 0).filling 0 = some 7 ∧ (fills.at 10273).grantStart? 0 7 = some 1 ∧
    1 + 10272 ≤ (fills.at 10273).now ∧ (fills.at 10273).bankWanted 0 0 = true := by
  decide +kernel

/-! ### Arrays -/

/-- A vector of group 0 in stage `x`, and leave for arrays for core 0. -/
def vecIn (x : Stage) : ArrVec := { fresh0 with id := 1, stage := x }
def grouped (v : ArrVec) : State := base.modGroup 0 0 (fun x => { x with vecs := [v] })

/-- The cluster holds `n` grants until tick 145. -/
def full (n : Nat) (s : State) : State := s.modArb 0 (fun a => { a with
  placed := (List.range n).map (fun i => ⟨100 + i, clsMatrix, 0, 1, 1, 1, 0, 145, 12, true, none, []⟩) })

theorem witness_ArrayVectorAccepted_full :
    (let v := vecIn .issued
     let u := (full 16 (grouped v)).at 144
     (u.vecs 0 0).find? (fun x => x.stage == .issued) = some v ∧ onBoundary u v.fold = true ∧ v.issued + 36 ≤ u.now ∧
      ((u.cluster 0).group 0).next ≤ u.now ∧ v.grant = none ∧
      u.covered v.core clsArray u.now (u.now + u.vecBusy v 0) = false ∧ 16 ≤ u.held 0) ∧
    (match exec (.arrayAccept 144 0 0) (full 16 (grouped (vecIn .issued))) with
      | .next x => (x.vecs 0 0).any (fun w => w.stage == .issued && w.asks && !onBoundary (x.at 145) w.fold) &&
          decide ((x.at 145).held 0 < 16)
      | _ => false) = true := by
  decide +kernel

theorem witness_ArrayVectorAccepted :
    ∀ x ∈ [(allowed clsArray (grouped (vecIn .issued)), vecIn .issued, true), (grouped (vecIn .issued), vecIn .issued, false),
        (grouped { vecIn .issued with grant := some 7 }, { vecIn .issued with grant := some 7 }, false)],
      let v := x.2.1
      let u := x.1.at 144
      v.fold < 256 ∧ v.entry < 256 ∧ validCore v.core = true ∧ clusterOf v.core = 0 ∧
      (u.vecs 0 0).find? (fun x => x.stage == .issued) = some v ∧ onBoundary u v.fold = true ∧ v.issued + 36 ≤ u.now ∧
      ((u.cluster 0).group 0).next ≤ u.now ∧ u.covered v.core clsArray u.now (u.now + u.vecBusy v 0) = x.2.2 ∧
      u.unbegun 0 7 = false ∧ u.held 0 < 16 := by
  decide +kernel

theorem witness_ArrayVectorRotated :
    let v := vecIn .rotating
    let u := (grouped v).at 144
    v.fold < 256 ∧ v.entry < 256 ∧ validCore v.core = true ∧
    (u.vecs 0 0).find? (fun x => x.stage == .rotating) = some v ∧ v.accepted + u.planeTicks ≤ u.now ∧ v.left = 0 ∧
    v.badRow = false ∧ { v with badRow := true }.badRow = true := by
  intro v u
  decide +kernel

theorem witness_ArrayPlaneConverts :
    ∀ p ∈ [(⟨0, 0, 1024, false, false⟩ : SubPlane), ⟨3, 0, 512, true, true⟩],
      let v : ArrVec := { vecIn .planes with subs := [p] }
      let u := (grouped v).at 144
      (u.vecs 0 0).find? (fun v => v.stage == .planes && decide (v.planeT + u.planeTicks ≤ u.now)) = some v ∧
      v.subs = p :: [] := by
  decide +kernel

theorem witness_ArrayResultForms :
    (let v := vecIn .accumulating
     let u := (grouped v).at 100000
     (u.vecs 0 0).find? (fun v => v.stage == .accumulating && v.out.isEmpty && !v.notReady &&
       decide (v.accepted + (1 + u.window 0 v) * u.planeTicks ≤ u.now)) = some v) ∧
    (let v : ArrVec := { vecIn .accumulating with out := [0x3F80] }
     let u := (grouped v).at 100000
     (u.vecs 0 0).find? (fun v => v.stage == .accumulating && (v.notReady || !v.out.isEmpty) &&
       decide (v.ready ≤ u.now)) = some v) := by
  decide +kernel

/-- A job of the side path of cluster 0: its delivery stands first among the reads of queue pair 0. -/
def job0 : SideJob := ⟨3, 0, 0, 0, 0, 0, 0, .strays, true, [], 0, [], [], [], false, true, 0⟩
def jobs (j : SideJob) (back : List Answer) : State :=
  (base.modCluster 0 (fun c => { c with jobs := [j] })).modQueue 0 0 (fun x => { x with
    back := back, flight := [⟨3, false, 0, 33, [], 0, 2, 0, 0, 0⟩] })

theorem witness_SidePathDelivers :
    (∀ w ∈ [(⟨some 5⟩ : InRow), ⟨none⟩],
      let j : SideJob := { job0 with left := [(8, 0)] }
      let a : Answer := ⟨8, [w], none⟩
      let u := (jobs j [a]).at 1
      ((u.cluster 0).jobs.flatMap (fun j => j.left.map (fun t => (j, t)))).find?
        (fun w => (u.queue 0 w.1.queue).back.any (fun a => a.tag == w.2.1)) = some (j, 8, 0) ∧
      takeFirst (fun (a : Answer) => a.tag == 8) (u.queue 0 j.queue).back = some (a, []) ∧ a.rows = w :: []) ∧
    (let u := (jobs job0 []).at 1
     (u.cluster 0).jobs = job0 :: [] ∧ job0.started = true ∧ job0.left = [] ∧ job0.decided = true ∧
      (u.queue 0 job0.queue).oldestRead.any (fun r => r.tag == job0.id) = true ∧
      deliveryRows (u.depth 0 job0.entry) ≤ (u.queue 0 job0.queue).inRoom ∧ u.foldExact job0.fold = false ∧
      validCore job0.core = true) ∧
    (let i : SideJob := { job0 with id := 2, queue := 1, started := false }
     let u := ((jobs job0 []).modCluster 0 (fun c => { c with jobs := [i, job0] })).at 1
     (u.cluster 0).jobs = [i] ++ job0 :: [] ∧ u.mayDeliver 0 i = false ∧
      (u.queue 0 job0.queue).oldestRead.any (fun r => r.tag == job0.id) = true) := by
  decide +kernel

/-- Partition 0 of cluster 0 belongs to fold 0, which is idle. -/
def resting : State := withPart { State.reset with positions := [], funcs := [] }
/-- A layer entry's CFG word with valid = 1. -/
def entryWord : Word := setBits 0 Fld.cluArrLayerCfgValid.lo 1 1

theorem witness_LayerEntryWrites :
    (base.at 1).layerLocked (Path.mgmt == .steward) 0 = true ∧ ({ base with positions := [(0, 0)] } : State).exposed 0 = false ∧
    (let u := resting.at 1
     let w := Reg.cluArrLayerCfg.keep entryWord
     let f := getBits w Fld.cluArrLayerCfgFold.lo 8
     let new := u.setReg .cluArrLayerCfg 0 255 w
     u.exposed 0 = true ∧ u.layerLocked (Path.mgmt == .steward) 0 = false ∧ u.fld Fld.cluArrLayerCfgValid 0 255 = 0 ∧
      u.foldState (u.fld Fld.cluArrLayerCfgFold 0 255) = 0 ∧ u.foldState f = 0 ∧
      getBits w Fld.cluArrLayerCfgValid.lo 1 = 1 ∧
      outOfRange (u.reg .cluArrLayerCfg 0 255) w Fld.cluArrLayerCfgRangeCap 0 7 = false ∧
      outOfRange (u.reg .cluArrLayerCfg 0 255) w Fld.cluArrLayerCfgSplitBudget 0 44 = false ∧
      u.entryRows 0 f (u.fld Fld.cluArrLayerNumOutlierRow 0 255) 1 = (some [0], u) ∧
      u.entryRows 0 f (u.fld Fld.cluArrLayerNumColscaleRow 0 255) (2 * (8 / new.depth 0 255)) =
        (some (List.replicate (2 * (8 / new.depth 0 255)) 0), u)) := by
  decide +kernel

/-- Array 31 of cluster 0 in state `x`. -/
def withArr (x : Nat) (f : Arr → Arr) : State := (resting.setArrState 0 31 x).modArr 0 31 f

theorem witness_CalibrationRuns :
    ((withArr 1 (fun x => { x with fresh := true })).at 1).calibrates 0 31 .program = true ∧
    ((withArr 1 (fun x => { x with fresh := true })).at 1).arr 0 31 = { Arr.reset with fresh := true } ∧
    ((withArr 2 (fun x => { x with lastCal := 0 })).at 1000000000000000).calibrates 0 31 .interval = true ∧
    (let u := (withArr 2 (fun x => { x with due := some .boot, driven := 2815 })).at 1
     (u.arr 0 31).due = some .boot ∧ (u.arr 0 31).driven < 2816 ∧ u.arrState 0 31 ≠ 5 ∧ u.sliceAllowed 0 31 2816 = true) ∧
    (∀ n ∈ [25, 26],
      let s := ((base.setArrState 0 31 2).modArr 0 31 (fun x => { x with due := some .boot })).modFold 0 (fun x => { x with phase := .guard })
      (s.at 1).foldOf 0 = some 0 ∧ (s.at 1).foldBusy 0 = true ∧ (s.at 1).sliceAllowed 0 31 n = decide (n = 25)) ∧
    (∀ x ∈ [(1, true), (2, false)],
      let u := (withArr x.1 (fun y => { y with due := some .program, driven := 2816, fresh := x.2 })).at 10000000
      (u.arr 0 31).due = some .program ∧ (u.arr 0 31).driven = 2816 ∧ (u.arr 0 31).fresh = x.2 ∧ u.arrState 0 31 ≠ 5 ∧
      (u.arr 0 31).driveEnd + 188736 * u.beatTicks / 100 ≤ u.now) := by
  decide +kernel

/-- The codec holds leave for the arrays of cluster 0. -/
def allowedCodec (s : State) : State := s.modArb 0 (fun a => { a with
  placed := [⟨9, clsArray, 0, 0, 1, 1, 0, 100, 8, true, none, []⟩] })

theorem witness_ArrayRowProgrammed :
    (resting.at 1).mayProgram 0 31 = true ∧ ((withArr 1 id).at 1).mayProgram 0 31 = true ∧
    (rowWeights 8).any (fun x => x == -8) = true ∧ (rowWeights 7).any (fun x => x == -8) = false ∧
    (resting.at 1).takesPulses 0 31 1023 0 false = false ∧ (resting.at 1).takesPulses 0 31 1023 0 true = true ∧
    (resting.at 1).takesPulses 0 31 1023 7 false = true ∧
    ((allowedCodec resting).at 1).codecLeave 0 = true ∧
    (resting.at 1).codecLeave 0 = false ∧ (resting.at 1).codecAsked 0 = false := by
  decide +kernel

/-! ### Time and folds -/

/-- Time source `src` in lock state `l`. -/
def timed (src l : Nat) (f : Time → Time) : State :=
  let s := (resting.setFld Fld.timSrcCtlSrc 0 0 src).setLock l
  { s with time := f s.time }

theorem witness_TimeFollowsItsSource :
    ((timed 0 lockAcquiring id).at 1).timeSrc = 0 ∧ ((timed 1 lockLocked id).at 1).timeSrc = 1 ∧
    ((timed 1 lockLocked id).at 1).ethernetUp (((timed 1 lockLocked id).at 1).fld Fld.timSrcCtlPtpLink 0 0) = false ∧
    (let u := ((timed 1 lockLocked id).modLink 0 (fun k => { k with mode := 2 }) |>.setFld Fld.lnkStatusState 0 0 lnkUp).at 1
     u.timeSrc = 1 ∧ u.ethernetUp (u.fld Fld.timSrcCtlPtpLink 0 0) = true) ∧
    (let u := (timed 0 lockAcquiring (fun x => { x with goodSince := some 0, lastEdge := some 28800000000 })).at 28800000000
     u.timeSrc ≠ 2 ∧ u.lock ≠ lockLocked ∧ u.sourceMissing = false ∧ u.time.goodSince = some 0 ∧ 0 + 8 * u.second ≤ u.now) ∧
    (let u := (timed 0 lockLocked (fun x => { x with lastEdge := some 0 })).at 7200000001
     u.sourceMissing = true ∧ u.lock ≠ lockFree) ∧
    (let u := (timed 0 lockLocked (fun x => { x with onBoard := false })).at 1
     u.timeSrc = 0 ∧ u.time.onBoard = false) := by
  decide +kernel

def island : Image := { image0 with leaRect := false }
/-- Fold `f` spans modules under block tag 9. -/
def spansAs (f : Nat) (s : State) : State := (s.setFld Fld.lnkFoldMulti 0 f 1).setFld Fld.lnkFoldBlockTag 0 f 9
/-- Lea 0 as one part of a block of modules 0 and 1. -/
def block0 : Image := { image0 with clusters := List.range 24, block := [0, 1] }
/-- A marker of swath 0 that module `src` sent to port 3. -/
def marker (src tag : Nat) (set : Nat × Nat × Nat × Bool × List Nat) : Marker := ⟨3, src, tag, 0, 0, 0, 0, set⟩
/-- The module in a torus of two, its time locked; fold 255 is idle, and an ARMED marker of module 1 has come for it, or, before
its image, for its block. -/
def beside1 (early : Bool) (set : Nat × Nat × Nat × Bool × List Nat) : State :=
  let s := ((spansAs 255 resting).setFld Fld.lnkTorusValid 0 0 1).setFld Fld.lnkTorusSizeX 0 0 1
  let s := ((s.setFld Fld.timFoldCfgGuard 0 255 10).setLock lockLocked).setFld Fld.timSrcCtlSrc 0 0 0
  if early then { s with early := [(2, 0, marker 1 9 set)] }
  else s.modFold 255 (fun x => { x with markers := [(2, 0, marker 1 9 set)] })

theorem witness_FoldArmsAndStops :
    (base.at 1).foldState 0 ≠ foldIdle ∧
    (let u := resting.at 1
     u.foldState 255 = foldIdle ∧ u.armImage 255 (some image0) = some image0 ∧ u.shapeOk image0 = false ∧
      u.armImage 255 (some island) = some island ∧ (u.configured 255 island true).1 = true ∧ u.shapeOk island = true ∧
      ((u.configured 255 island true).2.takeEarly 255).exactOk 255 island = true ∧
      ((u.configured 255 island true).2.takeEarly 255).blockOk 255 island = true ∧
      ((u.configured 255 island true).2.takeEarly 255).multi 255 = false) ∧
    (∀ early ∈ [false, true], ∀ e ∈ [false, true],
      let g := ((beside1 early (0, 0, 0, false, [])).configured 255 block0 true).2.settings 255
      let u := (beside1 early (if e then (0, 0, 0, false, []) else g)).at 1
      let x := (u.configured 255 block0 true).2.takeEarly 255
      u.foldState 255 = foldIdle ∧ (u.configured 255 block0 true).1 = true ∧ u.shapeOk block0 = true ∧
      x.exactOk 255 block0 = true ∧ x.blockOk 255 block0 = true ∧ x.multi 255 = true ∧
      x.mismatch 255 = (if e then some 1 else none)) ∧
    ((base.setFoldState 0 foldArmed).at 1).foldState 0 = foldArmed ∧
    (base.at 1).foldState 0 = foldRunning ∧ ((base.at 1).fold 0).drained = false ∧
    ((base.modFold 0 (fun x => { x with drained := true })).fold 0).drained = true := by
  decide +kernel

/-- The swath of fold 0 as `f` gives it. -/
def swath (f : Fold → Fold) : State := base.modFold 0 f
/-- Row 5 of cluster 0 stands uncorrectable and holds a tensor of fold 0's model, a copy of which is row 0 of stack 0. -/
def tensor5 : Placed := ⟨1, 0, 0, none, some 5, none, 0, 0, 0, [0]⟩
def spoils : State :=
  let s := (swath (fun x => { x with phase := .drain, drained := true })).setFld Fld.cluPartCfgWclass 0 0 1
  { s.modCluster 0 (fun c => { c with spoiled := [5] }) with
    models := [(7, { Model.reset with state := 2, cur := { Copy.reset with tensors := [tensor5] } })] }
/-- Core 0 waits at stile 1. -/
def joined : State := base.modCore 0 (fun k => { k with wait := .stile 1 0 })
/-- Every core of the fold is faulted, which counts as joined to stile 0. -/
def allFaulted : State :=
  (List.range 48).foldl (fun (s : State) j => s.modCore (coreAddr 0 j) (fun k => { k with faulted := true })) base

theorem witness_SwathOpensAndRuns :
    ((base.at 1).foldClusters 0).Nodup ∧ ((base.at 1).foldClusters 0).all validCluster = true ∧
    (let u := (swath (fun x => { x with phase := .guard, guardEnd := 1 })).at 1
     (u.fold 0).image = some image0 ∧ (u.fold 0).replacing = none ∧ u.openBeat 0 = some 0 ∧ u.foldState 0 ≠ foldStopped ∧
      u.mayOpen 0 = true ∧ u.frameUp (u.edgeTick 0) ≤ u.now ∧
      u.rebuilds.all (fun r => r.phys.all (fun g => decide (g < 4))) = true ∧
      Map.wf Arr.reset (u.cluster 0).arrays = true) ∧
    (let u := (swath (fun x => { x with phase := .opened })).at 12
     (u.fold 0).phase = .opened ∧ (u.fold 0).tick0 + 12 ≤ u.now) ∧
    (let u := joined.at 72
     (u.fold 0).phase = .run ∧ u.stileJoined 0 1 = true ∧ u.releaseTick 0 1 = some 72 ∧ 72 ≤ u.now) ∧
    (let u := joined.at 71
     u.stileJoined 0 1 = true ∧ u.releaseTick 0 1 = some 72 ∧ u.now < 72) ∧
    (let u := (base.modCore 0 (fun k => { k with wait := .stileOff 1 0 5 })).at 72
     (u.fold 0).phase = .run ∧ u.stileJoined 0 1 = false ∧ u.offWaits 0 1 = [(0, 5)] ∧
      u.releaseAfter 0 1 (((u.offWaits 0 1).map Prod.snd).foldl Nat.max (Map.get 0 (u.fold 0).lastJoin 1)) = some 72 ∧
      72 ≤ u.now) ∧
    (let u := ((spansAs 0 joined).modFold 0 (fun x => { x with image := some { image0 with block := [0, 1] } })).at 72
     (u.fold 0).phase = .run ∧ u.stileJoined 0 1 = true ∧ u.releaseTick 0 1 = none) ∧
    (let u := allFaulted.at 96
     (u.fold 0).phase = .run ∧ u.stileJoined 0 0 = true ∧ (u.releaseTick 0 0).any (fun x => decide (x ≤ u.now)) = true) ∧
    (let u := (swath (fun x => { x with phase := .drain, drained := true })).at 400000
     u.foldState 0 = foldRunning ∧ (u.fold 0).phase = .drain ∧ (u.fold 0).drained = true ∧
      Nat.max (u.fold 0).drainAt (u.nominalGuard 0) ≤ u.now) ∧
    (let u := spoils.at 400000
     let c := { Copy.reset with tensors := [tensor5] }
     let v := u.modFold 0 (fun x => { x with
        phase := .guard, guardEnd := Nat.max x.drainAt (u.nominalGuard 0) + u.guardBeats 0 * u.beatTicks })
     u.foldState 0 = foldRunning ∧ (u.fold 0).phase = .drain ∧ (u.fold 0).drained = true ∧
      Nat.max (u.fold 0).drainAt (u.nominalGuard 0) ≤ u.now ∧ u.foldCopies 0 = [c] ∧ c.tensors = [tensor5] ∧
      tensor5.scratch = some 5 ∧ 0 < tensor5.data.length ∧ (u.cluster 0).spoiled.contains 5 = true ∧
      u.rowWclass 0 5 = true ∧ u.rowRefused 0 5 = false ∧ (v.stackCopy tensor5).1[0]? = some (some 0) ∧
      (c.scratchRows tensor5 ((v.stackCopy tensor5).1.map (·.getD 0)))[0]? = some 0) := by
  decide +kernel

/-- Item 9 of endpoint 5 is in the swath of fold 0, for entry 0. -/
def item9 : Item := ⟨9, 4, 0, 0, 0, 1, true, 0, 0, true, none, [], none⟩
def inBatch : State :=
  ((swath (fun x => { x with batch := [⟨0, 0, 9, 5, 4, none, false⟩] })).modEntry 0 (fun e => { e with state := eRunning })).modEndpoint 5
    (fun e => { e with state := 3, items := [item9] })

theorem witness_SwathEnds :
    (base.at 1).multi 0 = false ∧ (base.at 1).lpState = lpActive ∧ ((base.at 1).foldClusters 0).all validCluster = true ∧
    (let u := (swath (fun x => { x with phase := .drain })).at 1
     u.mayDrain 0 = true ∧ u.foldState 0 = foldRunning) ∧
    (∀ m ∈ [[], [(1, 0, marker 1 9 (0, 0, 0, false, []))]],
      let u := (spansAs 0 (swath (fun x => { x with
        phase := .drain, image := some { image0 with block := [0, 1] }, markers := m }))).at 1
      u.mayDrain 0 = true ∧ u.foldState 0 = foldRunning ∧ u.multi 0 = true ∧
      (u.markersOf 0 1 (fun m => m.swath == (u.fold 0).swath)).isSome = !m.isEmpty ∧
      (u.fold 0).relayed.contains (u.ownCoord, 1, (u.fold 0).swath, 0, 0) = false) ∧
    (∀ late ∈ [true, false],
      let u := ((swath (fun x => { x with owed := [(4095, 1, 3, late)] })).modEndpoint 4095 (fun e => { e with state := 3 })).at 1
      (u.fold 0).owed.find? (fun o => o.1 == 4095) = some (4095, 1, 3, late) ∧ (u.endpoint 4095).attached = true ∧
      (u.entry 7).fold = 0) := by
  decide +kernel

theorem witness_SwathEnds_timeout :
    (let u := inBatch.at 712800
     (u.foldClusters 0).all validCluster = true ∧ u.lpState = lpActive ∧ u.isTimedOut 0 = true ∧ (u.fold 0).batch = [⟨0, 0, 9, 5, 4, none, false⟩] ∧ (u.entry 0).state = eRunning ∧
      (u.entry 0).gen = 0 ∧ u.draftOf 0 = none ∧ u.item 5 9 = some item9 ∧ (u.endpoint 5).attached = true ∧
      (u.endpoint 5).mayFinish item9 = true ∧
      u.behindOutput 5 { item9 with fin := some (stFault, (u.fold 0).swath, item9.handle) } = false) := by
  decide +kernel

/-- Core 0 asks leave for its matrix engine. -/
def ask0 : LeaveReq := ⟨7, clsMatrix, 0, 1, 4, 10, 0, 0, none, none⟩
def asked (s : State) : State := s.modArb 0 (fun a => { a with waiting := [ask0] })
def placed (s : State) (g : Grant) : State := s.modArb 0 (fun a => { a with placed := [g] })

theorem witness_LeaveIsPlaced :
    ((base.at 1).hub 63).arb.waiting = [] ∧
    (let u := (asked (base.setFld Fld.pwrStatusSupplyState 0 0 3)).at 1
     (u.hub 0).arb.waiting = [ask0] ∧ u.placeAt 0 ask0 = none ∧ u.nextPlace 0 = none) ∧
    ((asked base).at 1).nextPlace 0 = some (ask0, 7296) ∧ ((asked base).at 1).placeAt 0 ask0 = some 7296 ∧
    (let b : LeaveReq := { ask0 with id := 8, asked := 1 }
     let u := (base.modArb 0 (fun a => { a with waiting := [b, ask0] })).at 1
     (u.hub 0).arb.waiting = [b, ask0] ∧ ask0.before b = true ∧ u.nextPlace 0 = some (ask0, 7296)) ∧
    (let a : LeaveReq := { ask0 with id := 6, cls := clsLinkWake, mask := 0 }
     let g : Grant := ⟨5, clsLinkWake, 23, 0, 2, 2, 0, 125, 10, true, some 95, []⟩
     let u := ((asked base).modArb 0 (fun x => { x with waiting := [a, ask0], placed := [g] })).at 1
     (u.hub 0).arb.waiting = [a, ask0] ∧ ask0.before a = false ∧ u.placeAt 0 a = none ∧ (u.placeAt 0 ask0).isSome = true) ∧
    (let g : Grant := ⟨7, clsMatrix, 0, 1, 4, 4, 5, 125, 10, false, none, []⟩
     let u := (placed (base.modCore 0 (fun k => { k with wait := .leave clsMatrix, leaves := [(clsMatrix, 7)] })) g).at 5
     (u.grants 0).find? (fun x => x.id == 7) = some g ∧ g.start ≤ u.now ∧ g.begun = false ∧ 0 ∈ maskCores g.q g.mask ∧
      (u.core 0).wait = .leave g.cls ∧ u.oldestLeave 0 g.cls = some g.id) ∧
    (let g : Grant := ⟨7, clsPowerOn, 23, 0, 2, 2, 5, 125, 10, false, none, []⟩
     let u := (placed base g).at 125
     (u.grants 0).find? (fun x => x.id == 7) = some g ∧ g.start ≤ u.now ∧ g.cls = clsPowerOn ∧ g.bank = none) ∧
    (∀ c ∈ [clsMatrix, clsLinkWake],
      let g : Grant := ⟨7, c, 23, 0, 2, 2, 5, 125, 10, true, some 95, []⟩
      let u := (placed base g).at 125
      (u.grants 0).find? (fun x => x.id == 7) = some g ∧ g.cls ≠ clsPowerOn ∧ g.ends ≤ u.now ∧ g.q / 24 = 0 ∧
      validCluster g.q = true) := by
  decide +kernel

/-! ### The fabric -/

/-- A row of a slot send of core 0 that stands in tile 0 and goes to tile 2. -/
def pkt0 : Packet :=
  { kind := .slot, plane := 0, timed := false, from_ := 0, start := 0, srcCore := 0, srcK := 0, fold := 0, route := none, dst := 2, tile := 0,
    inPort := 4, hops := 0, entered := 0, launch := none, first := 0, index := 0, count := 1, tag := 5, row := some 7,
    held := false, via := [], out := none, atPort := false, detour := false }
def onMesh (p : Packet) : State := { base with packets := [(3, p)], nextTag := 4 }
/-- Fold 0 owns the router of tile 0, so that timed rows are timed there (R273). -/
def owned (s : State) : State := s.setFld Fld.cluRtrOwnerOwned 0 0 1
def deadAt (x : Nat) (s : State) : State := s.modRouter x (fun r => { r with dead := true })
/-- Every cell of the router of tile 0 is taken until tick 100. -/
def taken (s : State) : State :=
  s.modRouter 0 (fun r => { r with
    cells := (List.range 64).map (fun i => (i, 100)), timedAt := (List.range 64).map (fun i => (i, 100)) })

/-- The hold buffer of the router of tile `x` is full on plane 0. -/
def fullHold (x : Nat) (s : State) : State :=
  { s.modRouter x (fun r => { r with hold := (List.range 8).map (· + 10) }) with
    packets := s.packets ++ (List.range 8).map (fun i => (i + 10, { pkt0 with tile := x, held := true, entered := 1000 })) }

/-- The next router keeps a timed row, which the hold buffer here takes unless it is full too; a held row between two cells stays. -/
theorem witness_RowsCrossTheMesh_kept :
    let p : Packet := { pkt0 with timed := true }
    let kept := fun (u : State) => (neighbour p.tile 1).any (fun y => 1 != 4 && !u.roomAt y 1 p)
    (let u := (fullHold 1 (owned (onMesh p))).at 1
     Map.find u.packets 3 = some p ∧ u.way p = .port 1 ∧ u.mayLeave 3 p 1 = false ∧ u.timedAt p = true ∧ p.held = false ∧
      u.losesCell 3 1 p = false ∧ kept u = true ∧ u.holdRoom p.tile p.plane = true) ∧
    (let u := (fullHold 0 (owned (taken (onMesh p)))).at 1
     Map.find u.packets 3 = some p ∧ u.way p = .port 1 ∧ u.mayLeave 3 p 1 = false ∧ u.timedAt p = true ∧ p.held = false ∧
      u.holdRoom p.tile p.plane = false) ∧
    (let u := (owned ((onMesh p).modRouter 0 (fun r => { r with cells := (List.range 64).map (fun i => (i, 100)) }))).at 1
     u.way p = .port 1 ∧ u.mayLeave 3 p 1 = false ∧ u.timedAt p = true ∧ u.losesCell 3 1 p = false ∧ kept u = false) := by
  decide +kernel

theorem witness_RowsCrossTheMesh :
    (let p : Packet := { pkt0 with timed := true, launch := some 8 }
     let u := (onMesh p).at 8
     Map.find u.packets 3 = some p ∧ p.timed = true ∧ p.row.isSome = true ∧ p.launch = some 8 ∧ 8 ≤ u.now) ∧
    (∀ p ∈ [pkt0, { pkt0 with kind := .ack, row := none }, { pkt0 with timed := true }],
      let u := (owned (onMesh p)).at 1
      Map.find u.packets 3 = some p ∧ p.atPort = false ∧ p.entered ≤ u.now ∧ p.launch = none ∧
      (p.row.isSome = true ∨ p.kind ≠ .slot) ∧ p.route = none ∧ u.timedAt p = p.timed ∧ u.way p = .port 1 ∧
      u.mayLeave 3 p 1 = true ∧ neighbour p.tile 1 = some 1) ∧
    (let p : Packet := { pkt0 with dst := 0 }
     let u := (onMesh p).at 1
     u.way p = .port 4 ∧ u.mayLeave 3 p 4 = true ∧ neighbour p.tile 4 = none) ∧
    (let u := (taken (onMesh pkt0)).at 1
     u.way pkt0 = .port 1 ∧ u.mayLeave 3 pkt0 1 = false ∧ u.timedAt pkt0 = false) ∧
    (∀ h ∈ [true, false],
      let p : Packet := { pkt0 with timed := true, held := h }
      let u := (owned (taken (onMesh p))).at 1
      u.way p = .port 1 ∧ u.mayLeave 3 p 1 = false ∧ u.timedAt p = true ∧ p.held = h ∧ u.losesCell 3 1 p = true) ∧
    (∀ d ∈ [true, false],
      ((deadAt 1 (onMesh { pkt0 with timed := d })).at 1).way { pkt0 with timed := d } = .around [64, 65, 66, 2]) ∧
    (let p : Packet := { pkt0 with route := some 0, out := some 3 }
     p.out.isSome = true ∧ ((onMesh p).at 1).way p = .none ∧ p.fold ≠ noFold) ∧
    (let u := (deadAt 1 (onMesh { pkt0 with dst := 1 })).at 1
     u.way { pkt0 with dst := 1 } = .none ∧ 3 < u.nextTag) ∧
    (let p : Packet := { pkt0 with route := some 0 }
     p.route = some 0 ∧ p.out = none ∧ p.via = [] ∧ ((onMesh p).at 1).onTree p 0 = false) := by
  decide +kernel

/-- A number with the given bytes at the given offsets. -/
def bytesOf (l : List (Nat × Nat)) : Nat := (l.map (fun x => x.2 * 256 ^ x.1)).foldl (· + ·) 0
/-- A call of core 0 of function `fn` of engine `e`: one input row 1, one result row 2, state at row 3, parameters `l` by
their offset. -/
def callOf (e fn inputs : Nat) (l : List (Nat × Nat)) : EngCall :=
  { core := 0, number := 4, engine := e, fn := fn, at0 := 0, fold := 0,
    block := BitVec.ofNat 4096 (bytesOf ([(4, 1), (6, inputs), (8, 2), (10, 2), (12, 3)] ++ l.map (fun x => (16 + x.1, x.2)))),
    admitted := 0, reply := none, server := e, steward := false, early := false, hub := 0, asked := [] }

/-- A packet at the local port of its destination. -/
def arrived : Packet := { pkt0 with atPort := true, dst := 0 }
def ask5 (write : Bool) : QReq := ⟨5, write, 0, 1, [9], 0, 0, 0, 0, 0⟩
def sent (write : Bool) (p : Packet) : State :=
  (onMesh p).modQueue 0 0 (fun x => { x with flight := [ask5 write] })

theorem witness_RowsArrive :
    (∀ x ∈ [(0, Arrived.admitted), (1, .hedge 0)],
      let p : Packet := { arrived with timed := true, tile := x.1 }
      let u := (onMesh p).at 1
      Map.find u.packets 3 = some p ∧ p.atPort = true ∧ validTile p.tile = true ∧ 3 < u.nextTag ∧ p.index = 0 ∧
      clusterOfTile p.tile = some x.1 ∧ p.row = some 7 ∧ u.judgeArrival p.fold x.1 p.first p.count = x.2 ∧
      u.portFirst 3 p = true) ∧
    (let p : Packet := { arrived with entered := 1 }
     let u := ({ onMesh p with packets := [(2, arrived), (3, p)] } : State).at 1
     Map.find u.packets 3 = some p ∧ p.atPort = true ∧ validTile p.tile = true ∧ u.portFirst 3 p = false) ∧
    (∀ k ∈ [PacketKind.slot, .queueWrite, .queueRead, .result false],
      let p : Packet := { arrived with kind := k, first := 1023 }
      let u := (onMesh p).at 1
      Map.find u.packets 3 = some p ∧ p.timed = false ∧ p.kind = k ∧ p.index = 0 ∧ p.row = some 7 ∧
      u.judgeArrival p.fold 0 p.first p.count = .admitted ∧ u.portFirst 3 p = true ∧ u.judgeArrival p.fold 1 p.first p.count = .hedge 0) ∧
    (let p : Packet := { arrived with kind := .queueWrite, index := 1, count := 2 }
     let u := ((onMesh p).modCluster 0 (fun c => { c with port := [(5, ⟨.write 0 0 0, 2, 1, []⟩)] })).at 1
     p.row = some 7 ∧ p.index ≠ 0 ∧ (Map.find (u.cluster 0).port p.tag).isSome = true) ∧
    (∀ k ∈ [PacketKind.back, .ack],
      let p : Packet := { arrived with kind := k }
      (((sent (k == .ack) p).at 1).requestOf p).isSome = true) ∧
    (∀ w ∈ [true, false],
      let p : Packet := { arrived with kind := if w then .queueWrite else .queueRead, tile := 130 }
      let u := (sent w p).at 1
      validTile p.tile = true ∧ clusterOfTile p.tile = none ∧ u.requestOf p = some (ask5 w) ∧
      remoteOf (ask5 w).addr = .stack 0 0 ∧ p.index + 1 = p.count ∧ u.portFirst 3 p = true) ∧
    (let p : Packet := { arrived with kind := .operand 9, tile := 130 }
     let c := { callOf 6 2 1 [] with number := 5, asked := [9] }
     let u := ((onMesh p).modHub (leaOfTile 130) (fun h => { h with arriving := [c] })).at 1
     validTile p.tile = true ∧ clusterOfTile p.tile = none ∧ u.portFirst 3 p = true ∧
      (u.hub (leaOfTile p.tile)).arriving.any
        (fun c => c.core == p.srcCore && c.number == p.tag && c.asked.contains 9) = true) := by
  decide +kernel

def flies (r : QReq) (a : Answer) : State := withQueue base (fun x => { x with flight := [r], back := [a], owed := 1, outb := 1 })

theorem witness_QueueAnswersLand :
    (∀ n ∈ [1, 2],
      let a : Answer := ⟨5, [⟨some 4⟩], none⟩
      let u := ((flies (ask5 false) a).modCore 0 (fun k => { k with wait := .rows 0 n 3 })).at 1
      (u.queue 0 0).oldestRead = some (ask5 false) ∧ (ask5 false).role ≠ 2 ∧
      takeFirst (fun (a : Answer) => a.tag == 5) (u.queue 0 0).back = some (a, []) ∧ a.rows = ⟨some 4⟩ :: [] ∧
      u.queueOwner 0 0 = some 0 ∧ (u.core 0).wait = .rows 0 n 3 ∧ (u.core 0).waitOff = false ∧ (u.core 0).faulted = false) ∧
    (∀ l ∈ [[], [{ ask5 true with tag := 6, addr := 0x4000000000000000 }]],
      let u := (((flies (ask5 true) ⟨5, [], none⟩).modCore 0 (fun k => { k with wait := .acks 0 3 })).modQueue 0 0
        (fun x => { x with reqs := l })).at 1
      takeFirst (fun (r : QReq) => r.write && (u.queue 0 0).back.any (fun a => a.tag == r.tag)) (u.queue 0 0).flight =
        some (ask5 true, []) ∧ (u.core 0).wait = .acks 0 3 ∧ (u.core 0).waitOff = false ∧
      (u.queue 0 0).reqs.all (ownStack 0) = l.isEmpty ∧ l.all (fun w => w.write && remoteOf w.addr == .cluster 0 0) = true) := by
  decide +kernel

/-! ### Stacks -/

/-- Region 0 of stack 63 is rows 0 to 9 and belongs to fold 0. -/
def withRegion (s : State) : State :=
  (s.setFld Fld.hubStkRegionRowCount 63 0 10).setFld Fld.hubStkRegionCfgValid 63 0 1
/-- A request from `source` that stands at stack 63. -/
def atStack (source : ReqFrom) (write : Bool) (row : Nat) : StackReq :=
  ⟨source, { ask5 write with addr := BitVec.ofNat 64 (512 * row) }⟩
def agents (s : State) (x : StackReq) : State := s.modDram 63 (fun d => { d with agents := [x] })
/-- The request of another module with tag 7. -/
def transit7 : Transit := ⟨0, 0, ⟨2, 1, 0, 0, 5, 0, 0, 0, 7, 0, 0, 0⟩, 0, none, 0, 1, [], false⟩
def withTransit (s : State) : State := { s with transits := [(7, transit7)] }

theorem witness_StackServesRequests :
    (∀ src ∈ [ReqFrom.queue 0 0, .link 7, .engine 0 0 4 0], ∀ w ∈ [true, false], ∀ a ∈ [0, 9],
      let x := atStack src w a
      let u := (agents (withTransit (withRegion base)) x).at 1
      (u.dram 63).turn = 0 ∧ (u.takeFrom 63 0).map Prod.fst = some x ∧
      u.stackState 63 = stackActive ∧ getBits x.req.addr 9 28 = a ∧ u.requestFold x = some 0 ∧
      u.stackAdmits 63 x = true ∧ 0 < x.req.n ∧ (u.dram 63).err = [] ∧ (u.dram 63).failedDies = []) ∧
    (withTransit base).transit 7 = some transit7 ∧
    (∀ src ∈ [ReqFrom.queue 0 0, .link 7, .engine 0 0 4 0],
      let x := atStack src true 10
      ((agents (withTransit (withRegion base)) x).at 1).stackAdmits 63 x = false) ∧
    ((agents (base.setFld Fld.hubStkStatusState 63 0 stackFailed) (atStack (.queue 0 0) true 0)).at 1).stackState 63 ≠ stackActive ∧
    ((base.dram 63).exitAt.isSome = false) ∧
    (let x := atStack (.queue 0 0) true 0
     let u := (base.modDram 63 (fun d => { d with remote := [x], turn := 25, left := 1 })).at 1
     (u.dram 63).left ≠ 0 ∧ (u.takeFrom 63 25).map Prod.fst = some x) := by
  decide +kernel

theorem witness_StackKeepsItsRows :
    ((withRegion base).at 1).stackState 63 = stackActive ∧ ((withRegion base).at 1).regionOf 63 9 = some 0 ∧
    (∀ x ∈ [((1 : StackErr), ⟨[0], [], []⟩), (3, ⟨[], [0], []⟩), (0, (⟨[], [], []⟩ : Coded))],
      ((((withRegion base).modDram 63 (fun d => { d with err := [(9, x.1)] })).at 1).coded 63 9) = x.2) ∧
    ((withRegion base).at 1).regionOf 63 10 = none ∧
    (let u := ((base.setFld Fld.hubStkStatusState 63 0 stackSelfRefresh).modDram 63 (fun d => { d with exitAt := some 1 })).at 36001
     u.stackState 63 = stackSelfRefresh ∧ (u.dram 63).exitAt = some 1 ∧ 1 + 10 * u.beatTicks ≤ u.now) := by
  decide +kernel

/-- A region's CFG word with valid = 1. -/
def regionWord : Word := setBits 0 Fld.hubStkRegionCfgValid.lo 1 1

theorem witness_RegionDescriptorsKeepTheirRules :
    (resting.at 1).regionValid 63 63 = false ∧ getBits (regionKeep true 0) Fld.hubStkRegionCfgValid.lo 1 = 0 ∧
    (let u := (resting.setFld Fld.hubStkRegionRowCount 63 63 10).at 1
     u.regionValid 63 63 = false ∧ u.regionFits 63 63 (u.reg .hubStkRegion 63 63) (regionKeep true regionWord) = true) ∧
    getBits (regionKeep true regionWord) Fld.hubStkRegionCfgValid.lo 1 ≠ 0 ∧
    (resting.at 1).regionFits 63 63 ((resting.at 1).reg .hubStkRegion 63 63) (regionKeep true regionWord) = false ∧
    ((withRegion base).at 1).regionValid 63 0 = true ∧
    regionKeep true regionWord ≠
      setBits (((withRegion base).at 1).reg .hubStkRegionCfg 63 0) Fld.hubStkRegionCfgValid.lo 1 0 ∧
    ((withRegion base).at 1).regionClears .mgmt 63 0 = false ∧ ((withRegion resting).at 1).regionValid 63 0 = true ∧
    ((withRegion resting).at 1).regionClears .mgmt 63 0 = true ∧
    (let c := setBits (((withRegion resting).at 1).reg .hubStkRegionCfg 63 0) Fld.hubStkRegionCfgValid.lo 1 0
     regionKeep true c = c) := by
  decide +kernel

/-! ### Engines -/

def queued (s : State) (c : EngCall) (n : Nat) : State := s.modCalls 0 (queueKey c.engine) (fun _ => List.replicate n c)

/-- Core 0 keeps a record of call 4. -/
def knows (s : State) : State := s.modCore 0 (fun k => { k with calls := [(4, ⟨0, 6, none⟩)] })

/-- Rows of cluster 0 have come to hub 0 for a call, all of them zero. -/
def came (c : EngCall) (l : List Nat) (s : State) : State :=
  s.modHub 0 (fun h => { h with fetched := l.map (fun a => ⟨c.core, c.number, clusterWord c.q a, some 0⟩) })

theorem witness_EngineCallsEnterAndEnd :
    (∀ k ∈ [0, 64], ∀ st ∈ [true, false],
      let c := { callOf 6 2 1 [] with asked := [clusterWord 0 0] }
      let s := (knows (queued base c k)).modHub 0 (fun h => { h with arriving := [c], stopped := st })
      let find := fun (u : State) => (u.hub 0).fetched.find? (fun x => x.core == 0 && x.number == 4 && x.addr == clusterWord 0 0)
      engineOk 6 = true ∧ validCore c.core = true ∧ clusterWord c.q c.at0 = clusterWord 0 0 ∧
      (s.at 1 |>.hub 0).arriving.find? (fun c => c.engine == 6) = some c ∧ c.steward = false ∧ (s.at 1).knowsCall c = true ∧
      find (s.at 1) = none ∧ c.asked.contains (clusterWord 0 0) = true ∧
      find ((came c [0] s).at 1) = some ⟨0, 4, clusterWord 0 0, some 0⟩ ∧ ((s.at 1).calls 0 6).length = k ∧
      ((s.at 1).hub 0).stopped = st) ∧
    (let c := callOf 6 2 1 []
     let u := (base.modHub 0 (fun h => { h with arriving := [c] })).at 1
     (u.hub 0).arriving.find? (fun c => c.engine == 6) = some c ∧ (u.hub 0).fetched = [] ∧
      c.asked.contains (clusterWord c.q c.at0) = false ∧ c.hub = 0 ∧ u.judgeArrival c.fold c.q c.at0 1 = .admitted) ∧
    (∀ k ∈ ([true, false] : List Bool),
      let r : EngReply := { emptyReply egOk with result := [5, 6], at0 := 1, state := [7], stateAt := 3 }
      let c : EngCall := { callOf 3 0 1 [] with reply := some r, server := 4 }
      let s := queued base c 1
      let u := (if k then knows s else s).at 1
      engineOk 4 = true ∧ u.repliedCall 0 4 = some (c, r) ∧ c.steward = false ∧ u.knowsCall c = k ∧ c.engine ≠ 8) ∧
    (let r := emptyReply egOk
     let c : EngCall := { callOf 8 0 1 [] with reply := some r }
     let u := (knows (queued base c 1)).at 1
     engineOk 8 = true ∧ u.repliedCall 0 8 = some (c, r) ∧ c.steward = false ∧ u.knowsCall c = true ∧ c.engine = 8 ∧
      r.result = [] ∧ r.state = [] ∧
      (u.cluster c.q).port.any (fun e => e.2.results c.core c.number false || e.2.results c.core c.number true) = false) := by
  refine ⟨?_, ?_, ?_, ?_⟩ <;> decide +kernel

/-- FEATURES at 8 kHz: 64 points, window 16, hop 1, one band. -/
def features : EngCall :=
  callOf 0 0 1 [(0, 8000), (4, 8000), (8, 64), (10, 16), (12, 1), (16, 1), (24, 0x3F800000), (28, 0x3F800000)]
/-- Tokeniser table 3 of lea 0 holds one token and admits fold 0. -/
def withTable : State :=
  ((base.setFld Fld.hubTokTableLoaded 0 3 1).setFld Fld.hubTokTableFoldMask 0 3 1).modHub 0 (fun h =>
    { h with tokens := [(3, ⟨0, [[65]], [], []⟩)] })

theorem witness_TextEnginesReply :
    (let c := callOf 0 0 1 []
     ((queued base c 1).at 1).nextCall 0 0 = some c ∧ c.audioLegal = false) ∧
    (let u := (came features ([features.input] ++ (List.range 9).map (features.stateRow + ·)) (queued base features 1)).at 1
     u.nextCall 0 0 = some features ∧ (u.hub 0).wants = [] ∧ features.fn = 0 ∧ features.audioLegal = true ∧ features.audio.flags % 2 = 0 ∧
      u.callRows features features.input features.inputs = (some [0], u) ∧
      u.callRows features features.stateRow 9 = (some (List.replicate 9 0), u)) ∧
    (∀ fn ∈ [0, 1], ∀ t ∈ [3, 4],
      let c := callOf 1 fn 1 [(0, t)]
      let u := (queued base c 1).at 1
      u.nextCall 0 1 = some c ∧ (4 ≤ c.param 0 1 ∨ u.tokAdmits 0 (c.param 0 1) c.fold = false)) ∧
    (let c := callOf 1 0 1 [(0, 3), (4, 512)]
     let u := (came c [c.input] (queued withTable c 1)).at 1
     let v := (queued withTable c 1).at 1
     v.nextCall 0 1 = some c ∧ (v.hub 0).wants = [] ∧ (v.hub 0).fetched = [] ∧ c.inputs = 1 ∧ c.param 4 4 ≤ 512 ∧ c.hub = 0 ∧
      v.tokAdmits 0 (c.param 0 1) c.fold = true ∧ c.asked = [] ∧ v.judgeArrival c.fold c.q c.input 1 = .admitted ∧
     u.nextCall 0 1 = some c ∧ (u.hub 0).wants = [] ∧ c.fn = 0 ∧ c.param 0 1 < 4 ∧ u.tokAdmits 0 (c.param 0 1) c.fold = true ∧ c.inputs ≤ 128 ∧
      c.param 4 4 ≤ 512 * c.inputs ∧ u.callRows c c.input c.inputs = (some [0], u)) ∧
    (let c := callOf 1 1 1 [(0, 3), (4, 128)]
     let u := (came c [c.input, c.stateRow] (queued withTable c 1)).at 1
     u.nextCall 0 1 = some c ∧ (u.hub 0).wants = [] ∧ c.fn = 1 ∧ c.param 0 1 < 4 ∧ u.tokAdmits 0 (c.param 0 1) c.fold = true ∧
      c.param 4 4 ≤ 16384 ∧ c.param 4 4 ≤ 128 * c.inputs ∧ c.stateRow ≠ 0xFFFF ∧
      u.callRows c c.input c.inputs = (some [0], u) ∧ u.callRows c c.stateRow 1 = (some [0], u) ∧
      ((List.range (c.param 4 4)).map (fun i => rowBytes (([0] : List Row).getD (i / 128) 0) (4 * (i % 128)) 4)).all
        (fun x => decide (x < (u.tokTable 0 (c.param 0 1)).tokens.length)) = true) := by
  decide +kernel

/-- Request entry 0 shows one position, and holds page 0. -/
def serving : State := base.modEntry 0 (fun e => { e with state := eRunning, c := 1, ptCap := 1, pages := [(0, 0)] })
/-- An input row, the page table's first entry `w` and the first row of frame 1 of stack 0 have come for a call. -/
def pages (c : EngCall) (w : Nat) (s : State) : State :=
  s.modHub 0 (fun h => { h with fetched :=
    [⟨c.core, c.number, clusterWord c.q c.input, some 0⟩, ⟨c.core, c.number, stackWord 0 0, some (BitVec.ofNat 4096 w)⟩,
      ⟨c.core, c.number, stackWord 0 128, some 0⟩] })

theorem witness_AttentionUnitReplies :
    (∀ fn ∈ [0, 1],
      let c := callOf 2 fn 1 []
      let u := (queued base c 1).at 1
      u.nextCall 0 2 = some c ∧ u.attentionLegal c = false) ∧
    (∀ w ∈ [0, 0x8000000000000001],
      let c := callOf 2 0 1 [(0, 64), (2, 1), (8, 0x3F800000), (12, 1)]
      let u := (pages c w (queued serving c 1)).at 1
      u.nextCall 0 2 = some c ∧ (u.hub 0).wants = [] ∧ c.fn = 0 ∧ u.attentionLegal c = true ∧
      rowsFor (2 * c.attention.dh * c.attention.rows) + 1 ≤ c.limit ∧ u.callRows c c.input c.inputs = (some [0], u) ∧
      ((u.readKvs 0 c 0 c.attention.seen).2.hub 0).wants = [] ∧
      (kvStatus (c.attention.queries [0]) (u.readKvs 0 c 0 c.attention.seen).1).isNone = decide (w ≠ 0)) ∧
    (∀ w ∈ [0, 0x8000000000000001],
      let c := callOf 2 1 1 [(0, 64), (2, 1), (8, 0x3F800000), (12, 1), (276, 1)]
      let u := (pages c w (queued serving c 1)).at 1
      u.nextCall 0 2 = some c ∧ (u.hub 0).wants = [] ∧ c.fn = 1 ∧ u.attentionLegal c = true ∧ c.param 276 2 ≠ 0 ∧
      c.param 276 2 ≤ 1024 ∧ c.attention.rows * rowsFor (4 * c.param 276 2) ≤ c.limit ∧
      u.callRows c c.input c.inputs = (some [0], u) ∧
      ((u.readKvs 0 c (c.param 272 4) (Nat.min (c.param 276 2) (c.attention.seen - c.param 272 4))).2.hub 0).wants = []) := by
  decide +kernel

theorem witness_SamplersAndWalkerReply :
    (∀ e ∈ [3, 4],
      let c := callOf 3 0 1 [(0, 256)]
      let u := (came c [c.input] (queued serving c 1)).at 1
      u.nextCall 0 e = some c ∧ (u.hub 0).wants = [] ∧ c.fn = 0 ∧ c.param 0 4 ≠ 0 ∧ c.param 0 4 ≤ 262144 ∧ rowsFor (2 * c.param 0 4) ≤ c.inputs ∧
      c.param 8 1 ≤ 63 ∧ 1 ≤ c.limit ∧ u.callRows c c.input (rowsFor (2 * c.param 0 4)) = (some [0], u)) ∧
    (∀ e ∈ [3, 4],
      let c := callOf 3 1 2 [(0, 256), (68, 1)]
      let u := (came c [c.input, c.input + 1] (queued serving c 1)).at 1
      let need := (c.param 68 2 + 1) * rowsFor (2 * c.param 0 4)
      u.nextCall 0 e = some c ∧ c.fn = 1 ∧ c.param 0 4 ≠ 0 ∧ c.param 68 2 ≠ 0 ∧ c.param 68 2 ≤ 16 ∧ need ≤ c.inputs ∧
      1 ≤ c.limit ∧ u.callRows c c.input need = (some [0, 0], u)) ∧
    (let c := callOf 5 0 1 [(4, 1)]
     let u := (pages c 5 (queued serving c 1)).at 1
     u.nextCall 0 5 = some c ∧ (u.hub 0).wants = [] ∧ c.hub = 0 ∧ (u.entry c.entry).tableRow 0 = (0, 0) ∧
      (u.hub 0).fetched.find? (fun x => x.core == c.core && x.number == c.number && x.addr == stackWord 0 0) =
        some ⟨c.core, c.number, stackWord 0 0, some 5⟩ ∧ c.fn = 0 ∧ c.param 4 2 ≠ 0 ∧ c.param 4 2 ≤ 64 ∧
      c.param 0 4 + c.param 4 2 ≤ (u.entry c.entry).ptCap ∧ 1 ≤ c.limit ∧ (u.hub 0).walker = []) ∧
    (let c := callOf 5 1 1 [(0, 1)]
     let u := (queued base c 1).at 1
     u.nextCall 0 5 = some c ∧ c.fn = 1 ∧ u.extendTo c.entry (c.param 0 4) = none) ∧
    (let c := callOf 5 1 1 [(0, 1)]
     let u := (queued (serving.modEntry 0 (fun e => { e with c := 0 })) c 1).at 1
     u.nextCall 0 5 = some c ∧ c.fn = 1 ∧ (u.extendTo c.entry (c.param 0 4)).isSome = true) ∧
    (let c := callOf 5 2 1 []
     ((queued serving c 1).at 1).nextCall 0 5 = some c ∧ c.fn = 2) := by
  decide +kernel

/-- Key slot 255 of lea 0 belongs to fold 0. -/
def withKey : State := base.modHub 0 (fun h => { h with keys := [(255, ⟨some 0, List.replicate 32 1⟩)] })

theorem witness_CryptoEngineReplies :
    (∀ fn ∈ [0, 1],
      let c := callOf 6 fn 1 [(0, 255), (272, 512)]
      let u := (queued base c 1).at 1
      let v := (came c [c.input] (queued withKey c 1)).at 1
      c.param 1 1 = 0 ∧ c.param 2 2 ≤ 256 ∧ c.param 272 4 ≠ 0 ∧ c.param 272 4 ≤ 65536 ∧ c.inputs ≤ 128 ∧
      c.param 272 4 ≤ 512 * c.inputs ∧ c.inputs ≤ c.limit ∧ c.fn = fn ∧
      u.nextCall 0 6 = some c ∧ u.keyOf 0 (c.param 0 1) (some c.fold) = none ∧
      v.nextCall 0 6 = some c ∧ v.keyOf 0 (c.param 0 1) (some c.fold) = some (List.replicate 32 1) ∧
      (List.replicate 32 (1 : BitVec 8)).length = 32 ∧ v.callRows c c.input c.inputs = (some [0], v)) ∧
    (let c := callOf 6 2 1 [(0, 1), (4, 512)]
     let u := (came c [c.input, c.stateRow] (queued base c 1)).at 1
     u.nextCall 0 6 = some c ∧ (u.hub 0).wants = [] ∧ c.fn = 2 ∧ c.param 0 1 = 1 ∧ c.param 4 4 ≤ 512 * c.inputs ∧ c.stateRow ≠ 0xFFFF ∧
      1 ≤ c.limit ∧ u.callRows c c.input c.inputs = (some [0], u) ∧ u.callRows c c.stateRow 1 = (some [0], u)) ∧
    (((queued base (callOf 6 2 1 []) 63).at 1).calls 0 6).length < 64 ∧
    64 ≤ (((queued base (callOf 6 2 1 []) 64).at 1).calls 0 6).length := by
  decide +kernel

/-- A row of zeros, not coded. -/
def plainRow : List (BitVec 8) := List.replicate 512 0

theorem witness_NormCallsAndCodecWrite :
    (∀ fn ∈ [0, 1], ∀ slot ∈ [255, 256, 271, 272],
      let c := callOf 8 fn 1 [(0, slot), (2, 1), (3, 1)]
      let u := (queued base c 1).at 1
      (u.calls (0 / 24) 8).find? (fun c => c.reply.isNone && c.q == 0) = some c ∧ c.fn = fn ∧ c.param 0 2 = slot) ∧
    expand 0 (chunkRows 0 plainRow plainRow.length) plainRow = some [0] ∧
    (∀ x ∈ [(resting, false), (base, true)],
      let u := (withRegion x.1).at 1
      (List.range 1).any (fun i => (u.regionOf 63 (9 + i)).any (fun r =>
        u.foldBusy (u.regionFold 63 r) && !u.inGuard (u.regionFold 63 r))) = x.2) ∧
    (let u := resting.at 1
     validCluster 0 = true ∧ 1023 + ([0] : List Row).length ≤ 49152 ∧
      ((List.range 1).all (fun i => !u.rowRefused 0 (1023 + i) && (u.partOf 0 (1023 + i)).any (fun i =>
        u.foldState (u.partFold 0 i) == foldIdle || u.inGuard (u.partFold 0 i)))) = true ∧ u.partOf 0 1024 = none) ∧
    (let u := (allowedCodec resting).at 1
     u.mayProgram 0 31 = true ∧ u.codecLeave 0 = true ∧ programmingRows [0] ≠ [] ∧
      1022 + (programmingRows [0]).length ≤ 1024 ∧ (programmingRows [0]).any badRow = false ∧
      (programmingRows [8]).any badRow = true) := by
  decide +kernel

/-! ### Endpoints and requests -/

/-- The module in operation: supply ON, out of reset. -/
def active : State :=
  let s := base.setSupply supOn
  { s with restore := { s.restore with inReset := false } }

/-- VALID = 1, submission ring and completion ring of 16 entries, first sequence 0. -/
def ringCfg : Word := setBits (setBits (setBits 0 63 1 1) 55 5 4) 50 5 4
/-- Endpoint 4095 with what `f` gives it. -/
def withEp (f : Endpoint → Endpoint) : State :=
  active.modEndpoint 4095 (fun e => f { e with cfg := ringCfg, state := 3 })

/-- A descriptor of opcode `op`, sequence `seq`, with other bytes by their offset. -/
def desc (op seq : Nat) (l : List (Nat × Nat)) : BitVec 512 := BitVec.ofNat 512 (bytesOf ([(0, op), (4, seq)] ++ l))
/-- The item of a descriptor, its ACCEPT at sequence 0. -/
def itemOf (d : BitVec 512) : Item := makeItem d 0 0
def holds (l : List Item) : State := withEp (fun e => { e with items := l, nextCmp := 1 })

/-- Link `l` is UP in Ethernet mode. -/
def ethernet (l : Nat) (s : State) : State :=
  (s.modLink l (fun k => { k with mode := 2 })).setFld Fld.lnkStatusState l 0 lnkUp

theorem witness_ConnectionsAndDoorbells :
    (((ethernet 95 (withEp (fun e => { e with state := 1 }))).at 1).mayConnect 4095 95 = true) ∧
    ((((withEp (fun e => { e with state := 1 })).setFld Fld.lnkStatusState 0 0 lnkUp).at 1).mayConnect 4095 0 = false) ∧
    (((withEp (fun e => { e with state := 1 })).at 1).endpoint 4095).state < 2 ∧
    (∀ a ∈ [1, 3],
      let u := (withEp (fun e => { e with state := if a = 1 then 2 else 3 })).at 1
      2 ≤ (u.endpoint 4095).state ∧ (u.endpoint 4095).attached = decide (a = 3)) ∧
    (let u := (withEp id).at 1
     2 ≤ (u.endpoint 4095).state ∧ u.folds.all (fun f => f.2.owed.all (fun o => o.1 != 4095)) = true ∧
      u.fld Fld.cliDbKeyDbKey 0 0 = (0 : BitVec 32).toNat ∧ u.fld Fld.cliDbKeyDbKey 0 0 ≠ (1 : BitVec 32).toNat ∧
      u.creditOf 4095 503 = none ∧ (u.endpoint 4095).subSize = 16) ∧
    ((((withEp id).modEntry 3 (fun e => { e with state := eOpen, ep := 4095, credit := 503 })).at 1).creditOf 4095 503 = some 3) ∧
    ((withEp (fun e => { e with tail := 1 })).at 1).mayFetch 4095 = true := by
  decide +kernel

/-- Entry 3 is the stream of endpoint 4095, in state `st`. -/
def streamIn (st : Nat) (s : State) : State := s.modEntry 3 (fun e => { e with state := st, ep := 4095 })

theorem witness_LedgerTakesEntries :
    (∀ op ∈ [opQuery, opFence, opLoad, opClose, opGenerate], ∀ st ∈ [eOpen, eDone],
      let d := desc op 0 [(8, 3)]
      let u := (streamIn st (withEp (fun e => { e with due := some (d, 0) }))).at 1
      let e := u.endpoint 4095
      let g := descHandle d % 65536
      e.due = some (d, 0) ∧ e.attached = true ∧ e.unresolved + 3 ≤ e.room ∧ e.items.all (fun j => j.seq != descSeq d) = true ∧
      g = 3 ∧ (u.entry g).state = st ∧ (u.entry g).ep = 4095 ∧ (u.entry g).gen = descHandle d / 65536 ∧ u.streamItems g = []) ∧
    (∀ op ∈ [opClose, opGenerate], ∀ st ∈ [eOpen, eFailed, eDone],
      let d := desc op 0 [(8, 3)]
      let u := ((streamIn st (withEp (fun e => { e with due := some (d, 0) }))).modEntry 3 (fun e => { e with lost := true })).at 1
      let e := u.endpoint 4095
      e.due = some (d, 0) ∧ e.attached = true ∧ e.unresolved + 3 ≤ e.room ∧ e.items.all (fun j => j.seq != descSeq d) = true ∧
      e.items.all (fun j => j.fin.isNone) = true ∧ u.folds.all (fun f => f.2.owed.all (fun o => o.1 != 4095)) = true ∧
      namesStream (descOp d) = true ∧ (u.entry 3).state = st ∧ (u.entry 3).ep = 4095 ∧ (u.entry 3).lost = true ∧
      (u.entry 3).gen = descHandle d / 65536 ∧ u.streamItems 3 = [] ∧ u.isPlaced 3 (makeItem d u.now e.nextCmp) = false) ∧
    (namesStream (descOp (desc opQuery 0 [])) = false ∧ descOp (desc opQuery 0 []) ≠ opLoad ∧
      namesStream (descOp (desc opClose 0 [])) = true) ∧
    (let u := (withEp (fun e => { e with due := some (desc opOpen 0 [], stDescriptor), nextCmp := 14 })).at 1
     let e := u.endpoint 4095
     e.due = some (desc opOpen 0 [], stDescriptor) ∧ stDescriptor ≠ 0 ∧ e.attached = true ∧ e.unresolved + 2 ≤ e.room) ∧
    (let i := itemOf (desc opFence 0 [])
     let x := entryOf 1 0 opFence 0 0xFFFFFFFF 0 0
     let u := (withEp (fun e => { e with items := [i], nextCmp := 14, head := 14, ring := [(0, x)] })).at 1
     let e := u.endpoint 4095
     e.oldest = some i ∧ e.attached = true ∧ e.room < e.unresolved + 3 ∧ seqLt i.cseq e.head = true ∧
      e.unresolved + 1 ≤ e.room ∧ Map.find e.ring (i.cseq % e.cmpSize) = some x) := by
  decide +kernel

theorem witness_HeadsAndReplay :
    (∀ st ∈ [2, 3],
      let u := (withEp (fun e => { e with state := st, headSeen := true, nextCmp := 5, head := 2 })).at 1
      2 ≤ (u.endpoint 4095).state ∧ u.fld Fld.cliDbKeyDbKey 0 0 = (0 : BitVec 32).toNat ∧
      ((u.endpoint 4095).state ≠ 2 ∨ (u.endpoint 4095).headSeen = true) ∧
      (∀ x ∈ [(1, true), (2, false), (5, false), (6, true)],
        (seqLt x.1 (u.endpoint 4095).head || seqLt (u.endpoint 4095).nextCmp x.1) = x.2)) ∧
    (let x : Entry := { Entry.reset with state := eDone, ep := 4095, closed := some 4 }
     let u := ((withEp (fun e => { e with nextCmp := 5 })).modEntry 3 (fun _ => x)).at 1
     (3, x) ∈ u.entries ∧ x.ep = 4095 ∧ x.state = eDone ∧ x.draft = false ∧ x.closed.any (fun c => seqLt c 5) = true) ∧
    (let i : Item := { itemOf (desc opFence 0 []) with fin := some (stOk, 0, 0xFFFFFFFF) }
     let k : Item := { itemOf (desc opLoad 0 []) with begun := true }
     ∀ l ∈ [[], [i], [k]],
      let u := (withEp (fun e => { e with state := 2, items := l, resumeClass := 3 })).at 1
      let e := u.endpoint 4095
      2 ≤ e.state ∧ u.fld Fld.cliDbKeyDbKey 0 0 = (0 : BitVec 32).toNat ∧ e.state = 2 ∧ e.headSeen = false ∧
      e.ledgerStart 0 = some 0 ∧ e.ledgerStart 9 = none ∧ namesStream i.opcode = false ∧ namesStream k.opcode = false ∧
      i.fin.isSome = true ∧ k.opcode = opLoad ∧ seqLt 0 e.head = false) ∧
    (let u := (withEp (fun e => { e with state := 2, head := 1 })).at 1
     (u.endpoint 4095).ledgerStart 0 = some 0 ∧ seqLt 0 (u.endpoint 4095).head = true) ∧
    (let u := (withEp (fun e => { e with state := 2, headSeen := true, items := [itemOf (desc opFence 0 [])] })).at 1
     (u.endpoint 4095).state = 2 ∧ (u.endpoint 4095).headSeen = true ∧
      u.mirrors.all (fun m => m.2.told || m.2.entry.ep != 4095) = true ∧
      (u.endpoint 4095).items.all (fun i => i.fin.isNone && !(i.opcode == opLoad && i.begun)) = true) ∧
    (let i : Item := { itemOf (desc opGenerate 0 [(8, 3)]) with fin := some (stOk, 0, 3) }
     let m : Mirror := ⟨{ Entry.reset with ep := 4095 }, 0, [1], 0, 0, [], false, true⟩
     let u := ({ withEp (fun e => { e with state := 2, headSeen := true, items := [i] }) with mirrors := [(3, m)] } : State).at 1
     Map.find u.mirrors 3 = some m ∧ m.entry.ep = 4095 ∧ m.data ≠ [] ∧ m.told = true ∧ (u.endpoint 4095).items = [i] ∧
      i.seq = m.byItem ∧ i.entry = 3 ∧ i.fin = some (stOk, 0, 3)) := by
  decide +kernel

/-- Model 7 stands READY in fold 0, its frames in pool 0 of lea 0. -/
def withModel (f : Model → Model) (s : State) : State :=
  ({ s with models := [(7, f { Model.reset with state := 2 })] }).modHub 0 (fun h =>
    { h with pools := [(0, ⟨false, 0, 0, [(0, 1)], []⟩)] })
/-- OPEN_STREAM of model 7 with flags `fl` and a buffer of `len` bytes. -/
def opens (fl len : Nat) : Item := itemOf (desc opOpen 0 [(1, fl), (2, 7), (28, len)])
/-- The greedy profile: top_p and the repetition penalty are 1.0, top_k is 1. -/
def greedy : BitVec 256 := BitVec.ofNat 256 (bytesOf [(4, 0x3F800000), (8, 1), (12, 0x3F800000)])
/-- Every entry of lea 0 is taken but the first `n`. -/
def crowded (n : Nat) (s : State) : State :=
  { s with entries := ((List.range 512).filter (fun i => decide (n ≤ i))).map (fun i =>
    (i, { Entry.reset with state := eRunning })) }

theorem find_listed {α : Type} (l : List Nat) (x : α) (k : Nat) :
    Map.find (l.map (fun i => (i, x))) k = if k ∈ l then some x else none := by
  induction l with
  | nil => rfl
  | cons a l h =>
    by_cases e : k = a
    · simp [Map.find, e]
    · simp [Map.find, e, h]

theorem crowded_freeLocals (n : Nat) (s : State) :
    (crowded n s).freeLocals 0 = (List.range 512).filter (fun i => decide (i < n)) := by
  refine List.filter_congr fun i hi => ?_
  have h : i < 512 := List.mem_range.mp hi
  by_cases e : n ≤ i
  · simp [State.entry, Map.get, crowded, find_listed, h, e, eRunning, eFree]
  · simp [State.entry, Map.get, crowded, find_listed, e, Entry.reset, eFree, Nat.not_le.mp e]

theorem witness_StreamsOpen :
    (∀ fl ∈ [0, 1], ∀ len ∈ [64, 65],
      let i := opens fl len
      let u := (withModel id (holds [i])).at 1
      (u.endpoint 4095).dueItem opOpen = some i ∧ u.mayServe 4095 opOpen = true ∧
      u.endsAlone 4095 i = true ∧ i.flags % 2 = fl ∧ u.openStatus i.desc = 0 ∧
      (Map.find u.models (descModel i.desc)).isSome = true ∧ (u.fold 0).image = some image0 ∧ u.emptiest 0 = some 0 ∧
      u.bufferFits 4095 i image0 = decide (64 < len)) ∧
    ((holds [opens 0 65]).at 1).openStatus (opens 0 65).desc ≠ 0 ∧ profileOk greedy = true ∧ profileOk 0 = false ∧
    (let u := (withModel id (holds [opens 0 65])).at 1
     (u.freeLocals 0).take 2 = [0, 1] ∧ (u.takeFrame 0 ((poolsOf image0 7).getD 0 0)).isSome = true) ∧
    (((holds [opens 0 65]).at 1).takeFrame 0 0).isNone = true ∧
    (let s := withModel (fun m => { m with ident := 5, cur := { m.cur with paired := 5 } }) (holds [opens 0 65])
     (Map.find s.models 7).bind s.draftModel = some 7) := by
  decide +kernel

theorem witness_StreamsOpen_full :
    (crowded 0 (holds [opens 0 65])).freeLocals 0 = [] ∧ (crowded 1 (holds [opens 0 65])).freeLocals 0 = [0] := by
  rw [crowded_freeLocals, crowded_freeLocals]
  decide +kernel

/-- An item of endpoint 4095 for entry 3, `n` units in a buffer of `len` bytes; input of kind `k` from table 3. -/
def inputs (op n len k : Nat) : Item := itemOf (desc op 0 [(8, 3), (12, n), (28, len), (40, k), (41, 3)])

theorem witness_StreamItemsStart :
    (∀ op ∈ [opAppend, opGenerate, opVerify, opAdapt],
      let i := inputs op 2 8 0
      let u := (streamIn eQueued (holds [i])).at 1
      (u.endpoint 4095).dueItem op = some i ∧ u.mayServe 4095 op = true ∧ (u.entry i.entry).lost = false ∧
      (u.endpoint 4095).inTurn i = true ∧ u.endsAlone 4095 i = true ∧ (u.entry i.entry).adapter = 0) ∧
    (let i := { inputs opAppend 2 8 0 with seq := 1 }
     let u := (streamIn eQueued (holds [inputs opGenerate 2 8 0, i])).at 1
     (u.endpoint 4095).dueItem opAppend = some i ∧ (u.endpoint 4095).inTurn i = false) ∧
    (∀ k ∈ [0, 1, 2], inputBytes (descBytes (inputs opAppend 2 8 k).desc 40 1) 2 8 = [8, 2, 8].getD k 0) ∧
    (let i := inputs opClose 0 0 0
     let u := ((streamIn eDraining (holds [i])).modEntry 3 (fun e => { e with linked := 9 })).at 1
     u.dueClose 4095 = some i ∧ u.mayServe 4095 opClose = true ∧ u.draftOf i.entry = some 9 ∧
      (u.endpoint 4095).inTurn i = true ∧ u.endsAlone 4095 i = true) ∧
    (base.at 1).mayServe 4095 opAppend = false := by
  decide +kernel

theorem witness_QueriesAndSetupItems :
    (∀ op ∈ [opQuery, opFence, opSetupRead, opSetupWrite],
      let i := itemOf (desc op 0 [(28, 64)])
      let u := (holds [i]).at 1
      (u.endpoint 4095).dueItem op = some i ∧ u.mayServe 4095 op = true ∧ u.endsAlone 4095 i = true) ∧
    (∀ k ∈ [0, 1, 2, 3], (((holds []).at 1).queryBlock 4095 (desc opQuery 0 [(32, k), (36, 3)])).isSome = decide (k ≠ 2)) ∧
    (((streamIn eOpen (holds [])).at 1).queryBlock 4095 (desc opQuery 0 [(32, 2), (36, 3)])).isSome = true ∧
    (let i := itemOf (desc opFence 1 [])
     let u := (holds [itemOf (desc opGenerate 0 []), i]).at 1
     (u.endpoint 4095).dueItem opFence = some i ∧
      (u.endpoint 4095).items.all (fun j => !seqLt j.seq i.seq) = false) ∧
    (let i := itemOf (desc opSetupWrite 0 [(32, Reg.timFoldCfg.addr 0 0)])
     let u := (holds [i]).at 1
     let w := u.writeSetup .rdma (descBytes i.desc 32 8) 64 0
     u.reach (descBytes i.desc 32 8) 64 = some (.timFoldCfg, 0, 0) ∧ (w.2.endpoint 4095).attached = true ∧
      (w.2.item 4095 i.seq).isSome = true ∧ w.2.endsAlone 4095 i = true) ∧
    ((holds []).at 1).reach 1 64 = none := by
  decide +kernel

/-- A tensor of group 3 of cluster 0 with arrays 0 and 7. -/
def tensor0 (mask : Nat) : Placed := ⟨1, 0, 0, some (3, 1, mask), none, none, 0, 64, 0, []⟩
/-- Model 7 holds group 3, whose array 31 has drifted; group 0 is free where `free`. -/
def drifts (mask : Nat) (free : Bool) : State :=
  let s := (withModel (fun m => { m with cur := { m.cur with tensors := [tensor0 mask] } }) active).setArrState 0 31 3
  let s := s.setFld Fld.cluArrGroupMapPhys 0 0 0xE4
  if free then s else [0, 8, 16].foldl (fun (s : State) a => s.setArrState 0 a 2) s

theorem witness_ModelsLoadAndLeave :
    (∀ r ∈ [0, 1],
      let i := itemOf (desc opLoad 0 [(1, r), (2, 7), (36, 255)])
      let u := (holds [i]).at 1
      (u.endpoint 4095).dueLoad = some i ∧ i.begun = false ∧ u.mayServe 4095 opLoad = true ∧ u.mayWake = true ∧
      u.models.all (fun x => x.2.loading != some (4095, i.seq)) = true ∧
      u.endsAlone 4095 i = true ∧ (loadAsk i.desc).handle = 7 ∧
      (loadAsk i.desc).replace = decide (r = 1) ∧ Map.find u.models 7 = none ∧
      (∀ m ∈ [1, 2], (Map.find ((withModel (fun x => { x with state := m }) (holds [i])).at 1).models 7).any
        (fun x => x.state == m) = true) ∧
      u.codecReady [] = true ∧ u.codecReady [0] = false ∧
      ((u.startLoad 4095 i).runLoad (loadAsk i.desc) ⟨[], [], none, none, []⟩ matches .error _) = true) ∧
    (let i := itemOf (desc opUnload 0 [(2, 7)])
     let u := (withModel id (holds [i])).at 1
     (u.endpoint 4095).dueItem opUnload = some i ∧ u.mayServe 4095 opUnload = true ∧ descModel i.desc = 7 ∧
      Map.find u.models 7 = some { Model.reset with state := 2 } ∧ i.flags / 2 % 2 = 0 ∧
      u.modelEmpty 7 { Model.reset with state := 3 } = false ∧ u.keptByAdapter 7 = false ∧
      (u.modFold 0 (fun x => { x with drained := true })).modelEmpty 7 { Model.reset with state := 3 } = true) ∧
    (let c := fun f => { Copy.reset with fold := f }
     let u := (withModel (fun m => { m with old := [c 0, c 255] }) active).at 1
     (Map.find u.models 7).map Model.old = some [c 0, c 255] ∧
      [c 0, c 255].find? (fun c => u.foldEmpty c.fold && !u.keptIn 7 c.fold) = some (c 255)) ∧
    (let u := (drifts 129 true).at 1
     (u.holder 0 3).map Prod.fst = some 7 ∧ (List.range 8).any (fun k => u.arrState 0 (u.arrayOf 0 3 k) == 3) = true ∧
      u.rebuilds = [] ∧ u.freeGroup 0 129 = some 0 ∧ (u.foldOf 0).any u.foldBusy = true ∧ u.codecLeave 0 = false ∧
      ((allowedCodec (drifts 129 true)).at 1).codecLeave 0 = true) ∧
    (∀ x ∈ [0, 5],
      let u := ((drifts 0 true).setArrState 0 1 x).at 1
      let c := { Copy.reset with tensors := [tensor0 0] }
      let v := (u.shadowed c).2.programGroup (u.shadowed c).1 0 3 0
      (u.holder 0 3).map Prod.snd = some c ∧ u.freeGroup 0 0 = some 0 ∧ (v.foldOf 0).any v.foldBusy = true ∧
      ((groupArrays 0).any (fun a => v.arrState 0 a == arrFailed) = true ↔ x = 5)) ∧
    (let u := (drifts 129 false).at 1
     (u.holder 0 3).map (fun x => State.groupMask x.2 0 3) = some 129 ∧ u.rebuilds = [] ∧
      (List.range 8).any (fun k => u.arrState 0 (u.arrayOf 0 3 k) == 3) = true ∧ u.freeGroup 0 129 = none) ∧
    (active.at 1).holder 1535 3 = none ∧
    (∀ x ∈ [(([] : List Placed), true), ([{ tensor0 1 with data := [7] }], false)],
      let m := { Model.reset with state := 4, cur := { Copy.reset with fold := 255, tensors := x.1 } }
      let u := ((withModel (fun _ => m) active).modHub 0 (fun h => { h with dead := true })).at 1
      let v := m.copies.foldl (fun (s : State) c => c.groups.foldl (fun (s : State) g => s.fetchGroup c g)
        (c.tensors.foldl (fun (s : State) p => s.fetchRows p) s)) u
      Map.find u.models 7 = some m ∧ m.state = 4 ∧ u.mayReset = true ∧
        m.copies.all (fun c => u.stewardMay c.fold) = true ∧ v.layersHold m = x.2) := by
  decide +kernel

/-! ### Links and windows -/

/-- Links 0 and 1 of port 3 carry Skeltin frames. -/
def linked (s : State) : State := (s.setFld Fld.lnkStatusState 0 0 lnkUp).setFld Fld.lnkStatusState 1 0 lnkUp
/-- A training that found module `x`. -/
def trained (x : Nat) (failed : Option Nat) : Training := ⟨failed, false, 0, (x, 0, 0), 0, 1⟩
def zeros48 : List (BitVec 8) := List.replicate 48 0
/-- The first 12 bytes of a frame of kind 1 on VC 0 with sequence number `seq` that carries a packet header of kind 2. -/
def frameHead (seq : Nat) : List (BitVec 8) := [1, 0, BitVec.ofNat 8 seq, 0, 0, 0, 0, 0, 2, 0, 0, 0]
def frameBody (seq : Nat) : List (BitVec 8) := frameHead seq ++ zeros48 ++ zeros48 ++ zeros48 ++ zeros48 ++ zeros48
/-- A frame with the CRC field `crc`. -/
def frameOf (seq crc : Nat) : BitVec 2048 := BitVec.ofNat 2048 (ofBytes (frameBody seq ++ toBytes 4 crc))

/-- The CRC register after some bytes. -/
def crcOver (c : BitVec 32) (l : List (BitVec 8)) : BitVec 32 :=
  l.foldl (fun c b => crc32Bits 8 (c ^^^ b.setWidth 32)) c
theorem crcOver_append (c : BitVec 32) (l r : List (BitVec 8)) : crcOver c (l ++ r) = crcOver (crcOver c l) r :=
  List.foldl_append

/-- The expected value is CRC-32 of IEEE 802.3 of these bytes, computed outside the model, here and below. -/
theorem test_crc_first : crc32 (frameBody 0) = 3929680362 := by
  have h : crcOver 0xFFFFFFFF#32 (frameHead 0) = 3045506420#32 := by decide +kernel
  have a : crcOver 3045506420#32 zeros48 = 3802595426#32 := by decide +kernel
  have b : crcOver 3802595426#32 zeros48 = 3723906958#32 := by decide +kernel
  have c : crcOver 3723906958#32 zeros48 = 2211450403#32 := by decide +kernel
  have d : crcOver 2211450403#32 zeros48 = 248152560#32 := by decide +kernel
  have e : crcOver 248152560#32 zeros48 = 365286933#32 := by decide +kernel
  change (crcOver 0xFFFFFFFF#32 (frameBody 0) ^^^ 0xFFFFFFFF#32).toNat = _
  rw [frameBody, crcOver_append, crcOver_append, crcOver_append, crcOver_append, crcOver_append, h, a, b, c, d, e]
  decide +kernel

theorem test_crc_second : crc32 (frameBody 1) = 799537481 := by
  have h : crcOver 0xFFFFFFFF#32 (frameHead 1) = 1514460746#32 := by decide +kernel
  have a : crcOver 1514460746#32 zeros48 = 2824867825#32 := by decide +kernel
  have b : crcOver 2824867825#32 zeros48 = 2906786849#32 := by decide +kernel
  have c : crcOver 2906786849#32 zeros48 = 2293704615#32 := by decide +kernel
  have d : crcOver 2293704615#32 zeros48 = 2703105351#32 := by decide +kernel
  have e : crcOver 2703105351#32 zeros48 = 3495429814#32 := by decide +kernel
  change (crcOver 0xFFFFFFFF#32 (frameBody 1) ^^^ 0xFFFFFFFF#32).toNat = _
  rw [frameBody, crcOver_append, crcOver_append, crcOver_append, crcOver_append, crcOver_append, h, a, b, c, d, e]
  decide +kernel

theorem witness_LinksCarryFrames_crc :
    (let b := frameIn (frameOf 0 3929680362)
     ofBytes (b.drop 252) = crc32 (b.take 252)) ∧
    (let b := frameIn (frameOf 1 799537481)
     ofBytes (b.drop 252) = crc32 (b.take 252)) ∧
    (let b := frameIn (frameOf 0 0)
     ofBytes (b.drop 252) ≠ crc32 (b.take 252)) := by
  have a : (frameIn (frameOf 0 3929680362)).take 252 = frameBody 0 := by decide +kernel
  have b : (frameIn (frameOf 1 799537481)).take 252 = frameBody 1 := by decide +kernel
  have c : (frameIn (frameOf 0 0)).take 252 = frameBody 0 := by decide +kernel
  simp only [a, b, c, test_crc_first, test_crc_second]
  decide +kernel

/-- A frame in the replay buffer, first sent at tick 0 on link 0. -/
def kept0 : Frame := ⟨1, 0, 0, ⟨1, 0, []⟩⟩
def replays (s : State) : State := (linked s).modPort 3 (fun x => { x with replay := [kept0] })

theorem witness_LinksCarryFrames :
    (∀ r ∈ [trained 31 none, trained 31 (some 0)],
      let u := (base.setFld Fld.lnkStatusState 0 0 lnkTraining).at 1
      (u.linkOf 0).port < 96 ∧ u.lnkState 0 = lnkTraining ∧ ¬ (u.linkOf 0).trainAt + u.trainTicks < u.now ∧
      u.miscabled 0 r = false ∧ u.folds.all (fun f => !f.2.rearm) = true) ∧
    (let u := (((base.setFld Fld.lnkStatusState 0 0 lnkTraining).setFld Fld.lnkTorusValid 0 0 1).setFld Fld.lnkPortRole 0 3 1).at 1
     u.miscabled 0 (trained 31 none) = true) ∧
    ((linked base).at 1).skeltinUp 0 = true ∧ (((linked base).at 1).linkOf 0).port = 3 ∧
    (∀ seq ∈ [0, 1],
      let b := frameIn (frameOf seq 0)
      let v := ofBytes (b.take 8)
      let x := ((linked base).at 1).port 3
      let all := Map.get [] x.parts (bytesAt (ofBytes (b.take 2)) 1 1 % 4) ++ (b.drop 8).take 244
      bytesAt v 0 1 = 1 ∧
      (bytesAt v 2 2 + 65536 - (x.rxSeq + 1)) % 65536 = seq ∧ x.ahead = [] ∧ (headerOf (all.take 32)).kind = 2 ∧
      headerRow (headerOf (all.take 32)) = false ∧ 32 ≤ all.length ∧ (headerOf ((all.drop 32).take 32)).kind = 0 ∧
      (headerOf (all.take 32)).index = 0 ∧ (headerOf (all.take 32)).window = 0) ∧
    ((linked base).at 1).windowElsewhere 0 = none ∧
    (let u := ({ (linked base).setFld Fld.lnkTorusValid 0 0 1 |>.setFld Fld.lnkTorusSizeX 0 0 1 |>.setFld Fld.lnkPortRole 0 3 1 with
        remotes := [(0, ⟨1, 0, 10⟩)] } : State).at 1
     u.windowElsewhere 0 = some 1 ∧ (u.portToward 1).isSome = true) ∧
    (let f := { kept0 with link := 9 }
     let u := ((linked base).modPort 3 (fun x => { x with replay := [f] })).at 3600000
     u.timedOut 3 = some f ∧ f.link ∉ u.portLinks 3 ∧ u.portLinks 3 ≠ []) ∧
    (let u := (replays base).at 3600000
     u.timedOut 3 = some kept0 ∧ 1 ≠ kept0.link ∧ 1 ∈ u.portLinks 3 ∧ kept0.link ∈ u.portLinks 3 ∧
      u.endpoints.all (fun e => e.2.link != kept0.link || decide (e.2.state < 2)) = true) := by
  decide +kernel

/-- Fold 0 spans modules under block tag 9, over those links. -/
def spans (s : State) : State := spansAs 0 (linked s)
/-- Window 5: rows 0 to 9 of region 0 of stack 63, generation 1. -/
def window5 : Window := ⟨true, 0, 1, 10, ⟨5, true, 63, 0, 10, []⟩, false, 0⟩
def withWindow (w : Window) (s : State) : State := { s with windows := [(5, w)] }
/-- A request of kind `k` for one row at `off` of window 5. -/
def asksRows (k off : Nat) : RowHeader := ⟨k, 1, 0, 2, 5, 1, off, 0, 5, 0, 0, 0⟩
/-- A packet that came by a link of port `p` to hub 0. -/
def inInbox (p : Nat) (h : RowHeader) (s : State) : State := { s with inbox := [⟨p, 0, h, 0⟩] }

theorem witness_MarkersAndWindows :
    (let u := (spans base).at 1
     let m := marker 1 9 (u.settings 0)
     m.port < 96 ∧ (u.portLinks m.port).isEmpty = false ∧ (u.port m.port).ahead = [] ∧ u.foldOfTag 9 = some 0 ∧
      u.foldOfTag 8 = none ∧ u.ownCoord = 0 ∧ (u.fold 0).relayed = [] ∧ (u.fold 0).image.isSome = true ∧
      u.foldState 0 ≠ foldArmed ∧ u.swathRuns 0 = true ∧ seqLt m.swath (u.fold 0).swath = false ∧ (u.fold 0).rearm = false) ∧
    (let u := (spans (base.modFold 0 (fun x => { x with relayed := [markerKey 0 (marker 1 9 (0, 0, 0, false, []))] }))).at 1
     u.foldOfTag 9 = some 0 ∧ (u.fold 0).relayed.contains (1, 0, 0, 0, 0) = true) ∧
    (let u := (spans (base.modFold 0 (fun x => { x with image := none }))).at 1
     u.foldOfTag 9 = some 0 ∧ (u.fold 0).image = none ∧ u.ownCoord ≠ 1) ∧
    (let u := (spans (base.setFoldState 0 foldArmed)).at 1
     let m := marker 1 9 (0, 0, 0, true, [])
     u.foldOfTag 9 = some 0 ∧ u.foldState 0 = foldArmed ∧ m.settings ≠ u.settings 0) ∧
    (let u := (spans (base.modFold 0 (fun x => { x with swath := 1 }))).at 1
     u.swathRuns 0 = true ∧ seqLt 0 (u.fold 0).swath = true) := by
  refine ⟨?_, ?_, ?_, ?_, ?_⟩ <;> decide +kernel

/-- A request of window 5 from port `p`, for its stack or for partition 0 of cluster 0. -/
theorem witness_MarkersAndWindows_requests :
    (∀ p ∈ [0, noPort], ∀ k ∈ [1, 2], ∀ off ∈ [9, 10], ∀ stack ∈ [true, false],
      let h := asksRows k off
      let w := { window5 with target := ⟨5, stack, if stack then 63 else 0, 0, 10, []⟩ }
      let u := (inInbox p h (withWindow w (withRegion base))).at 1
      u.takeInbox (fun x => (h.kind == 1 || h.kind == 2) && x.header == h && x.row == 0) =
        some (⟨p, 0, h, 0⟩, { u with inbox := [] }) ∧ (h.kind = 2 ∨ h.index = 0) ∧
      u.judgeWindow h = (if off = 10 then some 2 else none) ∧ Map.find u.windows h.window = some w) ∧
    ((inInbox noPort (asksRows 1 9) (withQueue base (fun x => { x with flight := [ask5 true] }))).at 1).judgeWindow (asksRows 1 9) =
      some 1 ∧
    (((withQueue base (fun x => { x with flight := [ask5 true] })).at 1).queueOfTag 0 5 = some 0) ∧
    (let h := { asksRows 1 9 with index := 1, rows := 2 }
     let tr := fun n => ({ transit7 with port := 0, header := { h with index := 0 }, come := n } : Transit)
     (∀ n ∈ [0, 1], (({ inInbox 0 h base with transits := [(8, tr n)] } : State).at 1).transitOf 0 h = some (8, tr n)) ∧
     ((inInbox 0 h base).at 1).transitOf 0 h = none ∧ h.kind = 1 ∧ h.index ≠ 0) ∧
    (let h := asksRows 5 0
     let u := (inInbox noPort h (withQueue base (fun x => { x with flight := [ask5 true] }))).at 1
     u.takeInbox (fun x => x.header.kind == 5 && x.header.tag == 5 && x.header.cause == 2) =
       some (⟨noPort, 0, h, 0⟩, { u with inbox := [] }) ∧ u.queueOfTag h.src 5 = some 0 ∧
      (u.queue (clusterOf h.src) 0).flight.find? (fun r => r.tag == 5) = some (ask5 true) ∧
      (u.queue (clusterOf h.src) 0).back.all (fun a => a.tag != 5) = true ∧ u.foldOf (clusterOf h.src) = some 0) := by
  refine ⟨?_, ?_, ?_, ?_, ?_⟩ <;> decide +kernel

/-- A packet of transit 7 at a local port: of hub 63, of its own hub, or of cluster 0, whose fold is 0. -/
theorem witness_MarkersAndWindows_arrivals :
    (∀ x ∈ [(PacketKind.linkRow, hubTile 63), (.linkRead, hubTile 63), (.linkAck, hubTile 0), (.linkBack, hubTile 0),
        (.relay 0, hubTile 0)],
      let y : Packet := { arrived with kind := x.1, tile := x.2, tag := 7 }
      let u := ({ onMesh y with transits := [(7, transit7)] } : State).at 1
      Map.find u.packets 3 = some y ∧ y.atPort = true ∧ y.timed = false ∧ u.portFirst 3 y = true ∧
      u.transit y.tag = some transit7 ∧ clusterOfTile y.tile = none ∧ y.index + 1 = y.count ∧ transit7.left ≤ 1 ∧
      transit7.port ≠ noPort) ∧
    (∀ x ∈ [(0, 0, Arrived.admitted), (255, 0, .hedge 0), (0, 1024, .overrun)],
      let y : Packet := { arrived with kind := .linkRow, tag := 7 }
      let tr := { transit7 with fold := x.1, target := none, header := { transit7.header with offset := x.2.1 } }
      let u := ({ onMesh y with transits := [(7, tr)] } : State).at 1
      u.portFirst 3 y = true ∧ u.transit y.tag = some tr ∧ clusterOfTile y.tile = some 0 ∧ y.index = 0 ∧
      u.judgeLink 0 tr = x.2.2) := by
  refine ⟨?_, ?_⟩ <;> decide +kernel

theorem witness_MarkersAndWindows_close :
    (∀ x ∈ [foldIdle, foldArmed, foldRunning],
      let w := { window5 with closing := true }
      let im := { image0 with windows := [w.target] }
      let s := (withWindow w (base.modFold 0 (fun f => { f with image := some im }))).setFoldState 0 x
      let u := s.at 100000
      Map.find u.windows 5 = some w ∧ w.closing = true ∧ u.windowBusy 5 = false ∧ u.foldState w.fold = x ∧
      (u.fold w.fold).image = some im ∧ im.windows = [w.target] ∧ w.target.id = 5 ∧ w.opened ≠ u.beat) ∧
    (({ withWindow window5 base with transits :=
      [(8, { transit7 with target := some window5.target })] } : State).at 1).windowBusy 5 = true := by
  refine ⟨?_, ?_⟩ <;> decide +kernel

/-! ### Power -/

theorem witness_PowerIsWatched :
    (base.at 1).domainOn 0 = true ∧ 500 ≤ 500 ∧ ({ base with positions := [(0, 0)] } : State).exposed 0 = false ∧
    (base.at 1).exposed 0 = true ∧ (base.at 1).exposed 1535 = true ∧
    (base.at 1).supply = supOff ∧ (active.at 1).supply ≠ supOff ∧ (active.at 1).sampled 1599 = true ∧
    (let u := (base.modCluster 0 (fun c => { c with droopAt := some 1 })).at 3602
     (u.cluster 0).droopAt = some 1 ∧ 1 ≤ 2 ∧ 2 + u.beatTicks ≤ u.now) ∧
    (let s := base.setFld Fld.cluPwrStateState 1535 0 domRamping
     let u := (s.modArb 63 (fun a => { a with placed := [⟨7, clsPowerOn, 1535, 0, 2, 2, 0, 300000, 25000, true, none, []⟩] })).at 230400
     u.domain 1535 = domRamping ∧ u.ramped 1535 = true ∧ u.lpState = lpActive ∧ u.folds.all (fun f => !f.2.rearm) = true) := by
  decide +kernel

/-- The supply in state `x`, its chain with what `f` gives it. -/
def supplied (x : Nat) (f : Power → Power) : State :=
  let s := active.setSupply x
  { s with power := f s.power }
def inputsAt (aux hv : Nat) (s : State) : State :=
  (s.setFld Fld.pwrStatusAuxPresent 0 0 aux).setFld Fld.pwrStatusHvPresent 0 0 hv
/-- The coolant check is over; the tray reported `flow`. -/
def checks (flow : Nat) : State :=
  let s := supplied supStandby (fun x => { x with chargeAt := some 0 })
  let s := (s.setFld Fld.thmCoolantFlowDl 0 0 flow).setFld Fld.thmCoolantInletDc 0 0 150
  let s := s.setFld Fld.thmStatusFlowLossN 0 0 1
  { s with thermal := { s.thermal with heating := some 0, trayAt := some 18000000000 } }

theorem witness_SuppliesComeAndGo :
    (let u := ((supplied supOn id).setFld Fld.pwrSegState 0 3 segUp).at 1
     u.supply = supOn ∧ u.segsBelow [3800, 3800, 3800, 3799] 3800 ≠ 0) ∧
    (let u := (supplied supFrozen (fun x => { x with frozenAt := some 0 })).at 36000
     u.supply = supFrozen ∧ u.segsBelow [] 3850 = 0 ∧ 10 ≤ u.beatsSince u.power.frozenAt) ∧
    (let u := (supplied supFrozen (fun x => { x with frozenAt := some 0 })).at 72000000
     u.supply = supFrozen ∧ 20000 ≤ u.beatsSince u.power.frozenAt ∧ u.lpState = lpActive ∧ ∀ f ∈ Map.keys u.folds, f < 256) ∧
    (let u := (supplied supQuiesced (fun x => { x with goodAt := some 0 })).at 360000000
     u.supply = supQuiesced ∧ 100000 ≤ u.beatsSince u.power.goodAt ∧ ∀ f ∈ Map.keys u.folds, f < 256) ∧
    (let u := (inputsAt 1 0 (supplied supStandby id)).at 1
     u.auxPresent = true ∧ u.hvPresent = false ∧ u.supply ≤ supStandby ∧ inRange400 3600 = true ∧ inRange400 3599 = false ∧
      u.fld Fld.pwrStatusPwrEn 0 0 = 0) ∧
    ((supplied supOn id).setFld Fld.pwrStatusPwrEn 0 0 1).fld Fld.pwrStatusPwrEn 0 0 = 1 ∧
    (inputsAt 0 0 (supplied supOff id)).auxPresent = false ∧
    (∀ flow ∈ [119, 120],
      let u := (checks flow).at 18000000000
      u.checkOver = true ∧ u.checkFails = if flow = 120 then none else some 2) := by
  decide +kernel

theorem witness_RegulatorsFail :
    (let u := base.at 1
     u.bit Fld.cluPwrStateSlicesOk 0 0 3 = true ∧ u.bit Fld.cluPwrStateSlicesOk 1535 0 0 = true ∧ u.domain 0 ≠ domFailed ∧
      u.domain 1535 ≠ domFailed ∧ u.position 0 ≠ posFailed ∧ u.domainOn 0 = true ∧ u.domainOn 1535 = false ∧
      (∀ i ∈ [15, 16, 19], (u.hub 63).phasesOut.contains i = false) ∧ (u.hub 63).dead = false ∧
      u.fld Fld.hubPwrRailAoSenseOpen 63 0 = 0 ∧ u.fld Fld.hubPwrRailLeaSenseOpen 63 0 = 0) ∧
    (let u := ((base.setFld Fld.pwrSegState 0 0 segUp).setFld Fld.pwrSegState 0 3 segUp).at 1
     u.fld Fld.pwrSegState 0 0 = segUp ∧ u.fld Fld.pwrSegState 0 3 = segUp) := by
  decide +kernel

/-! ### Heat -/

/-- The thermal state `x`, its parts with what `f` gives them. -/
def heated (x : Nat) (f : Thermal → Thermal) : State :=
  let s := active.setThm x
  { s with thermal := f s.thermal }

theorem witness_CoolantIsJudged :
    (let u := active.at 3600000000
     u.supply ≠ supOff ∧ u.fld Fld.thmStatusTraySilent 0 0 = 0 ∧
      u.thermal.trayAt.getD u.restore.bootAt + 1000000 * u.beatTicks ≤ u.now) ∧
    (∀ k ∈ [Sensor.cluster 1535, .hub 63 3, .stack 63, .inlet, .outlet],
      k.valid = true ∧ ((active.at 1).substitute k).isSome = true) ∧
    (active.at 1).thm ≠ thmStopped ∧ supOn ≤ (active.at 1).supply ∧ (Sensor.cluster 0).limit ≤ 880 ∧ (879 : Int) < (Sensor.cluster 0).limit ∧
    ((heated thmStopped id).at 1).thm = thmStopped ∧ (Sensor.stack 0).trip = some 880 ∧
    (∀ f ∈ Map.keys (active.at 1).folds, f < 256) ∧ (active.at 1).lpState = lpActive ∧ (active.at 1).mayStop = true ∧
    (let u := (heated thmHold (fun x => { x with holdGood := some 0 })).at 36000000000
     u.thm = thmHold ∧ u.thermal.holdGood = some 0 ∧ 0 + 10000000 * u.beatTicks ≤ u.now) ∧
    (let s := heated thmStopped (fun x => { x with causes := [.cluster 0] })
     let u := ((s.setFld Fld.thmStatusFlowLossN 0 0 1).setFld Fld.thmCoolantFlowDl 0 0 200).at 1
     u.thm = thmStopped ∧ u.mayClear = true) ∧
    (let u := (heated thmNormal (fun x => { x with governor := true })).at 1
     u.thermal.governor = true ∧ u.supply = supOn ∧ u.thm ≠ thmHold ∧ u.thm ≠ thmStopped) := by
  decide +kernel

theorem witness_HotRegionsGoDark :
    supOn ≤ (active.at 1).supply ∧
    (let u := (active.modCluster 0 (fun c => { c with sensor := 1000, hotSince := some 0 })).at 36000000
     u.hot 0 = true ∧ u.mayMark 0 = true) ∧
    ((active.setFld Fld.cluThmHotLevel 1535 0 1).at 3600000).coolBy 3 1535 = true ∧
    (let u := ((active.modCluster 0 (fun c => { c with marked := true })).modFold 0 (fun x => { x with drained := true })).at 1
     u.mayHotOff 0 = true ∧ u.lpState = lpActive ∧ u.foldOf 0 = some 0) ∧
    (let u := ((active.setFld Fld.cluThmState 1535 0 2).modCluster 1535 (fun c => { c with coolSince := some 0 })).at 3600000000
     u.fld Fld.cluThmState 1535 0 = 2 ∧ u.fld Fld.cluThmSensorFail 1535 0 = 0 ∧ (u.cluster 1535).coolSince = some 0 ∧
      0 + 1000000 * u.beatTicks ≤ u.now ∧ u.domain 1535 = domDark ∧ u.bit Fld.glbLpOffMask 0 (1535 / 24) (1535 % 24) = false ∧
      u.mayWake = true ∧ (u.hub (1535 / 24)).dead = false) := by
  decide +kernel

/-! ### Losses, boot and resets -/

/-- Fold 0 stopped, its cluster 0 re-placed on cluster 23, which passed its test. -/
def replaces (r : Replacing) : State :=
  let s := (active.setFoldState 0 foldStopped).modFold 0 (fun x => { x with replacing := some r })
  (s.setFld Fld.cluPwrStateState 23 0 2).modCluster 23 (fun c => { c with testedOn := true })
def struck : Replacing := ⟨0x2011, 0, [0], [(0, 23)], false⟩

theorem witness_LossesAreHandled :
    validTile 2535 = true ∧ (base.at 1).router 2535 = Router.reset ∧ ((deadAt 2535 base).at 1 |>.router 2535).dead = true ∧
    clusterOfTile 0 = some 0 ∧ (base.at 1).position 0 ≠ posFailed ∧ (base.at 1).domain 0 ≠ domFailed ∧
    tooManyFailed [0, 47] = false ∧ tooManyFailed [0, 1, 47] = true ∧
    (base.at 144000).clusterSilent 1535 = true ∧ (base.at 144000).routerSilent 0 1 = true ∧ validTile 1 = true ∧
    (let u := (deadAt 7 base).at 1
     u.routers.any (fun r => r.2.dead) = true ∧
      ([(0, 7, 4)] : List (Nat × Nat × Nat)).all (fun r => validTile r.1 && validTile r.2.1 && decide (r.2.2 < 5)) = true) ∧
    (let u := base.at 1
     u.stackState 63 ≠ stackFailed ∧ (u.hub 63).dead = false ∧ u.lpState = lpActive ∧ ∀ f ∈ Map.keys u.folds, f < 256) ∧
    (let u := ((replaces struck).modCluster 23 (fun c => { c with testedOn := false })).at 1
     u.pickedBy 23 = some 0 ∧ u.domainOn 23 = true ∧ (u.cluster 23).testedOn = false ∧ (u.hub (23 / 24)).dead = false) ∧
    (let u := ({ replaces struck with positions := [(22, 2), (23, 2)] } : State).at 1
     u.position 23 = posSpare ∧ u.countPos posExposed ≥ u.gradeCount ∧ u.pickedBy 23 = some 0) ∧
    (let u := ({ replaces struck with positions := (List.range 33).map (fun i => (i + 23, posSpare)) } : State).at 1
     u.position 23 = posSpare ∧ u.countPos posExposed < u.gradeCount ∧ u.pickedBy 23 = some 0) ∧
    (let u := (replaces struck).at 1
     (u.fold 0).replacing = some struck ∧ (u.fold 0).image = some image0 ∧ u.foldState 0 = foldStopped ∧
      u.picksReady struck = true ∧ u.mayWake = true ∧ u.codecReady (u.replacePrograms 0 struck) = true) ∧
    (let u := (({ replaces struck with models := [(7, { Model.reset with
        state := 2, cur := { Copy.reset with tensors := [tensor0 129] } })] } : State)).at 1
     (u.fold 0).replacing = some struck ∧ u.picksReady struck = true ∧ u.codecReady (u.replacePrograms 0 struck) = false) ∧
    ((base.setFld Fld.fltStreamCfgEnable 0 0 1).at 1).mayStream = true := by
  decide +kernel

/-- After reset with the supply ON, the security state as `f` gives it. -/
def bootable (f : Sec → Sec) : State :=
  let s := (base.setSupply supOn).setFld Fld.pwrSegState 0 0 segUp
  { s with sec := f s.sec }
/-- In operation, the security state as `f` gives it. -/
def secured (f : Sec → Sec) : State := { active with sec := f active.sec }
def signed : FwImage := ⟨1, 1, 0, true, true, true, true⟩

theorem witness_BootAndKeys :
    ((bootable id).at 1).mayBoot = true ∧ (((bootable id).at 1).chosen).isSome = true ∧
    (let u := (bootable (fun x => { x with slotA := none })).at 1
     u.mayBoot = true ∧ u.chosen = none) ∧
    (∀ n ∈ [39, 40], identityFound ⟨n, true, [], [], [], [], [], []⟩ = decide (n = 40)) ∧
    ((secured id).at 1).mayUpdate = true ∧
    (let u := (secured (fun x => { x with transfer := some true, update := 1 })).at 1
     u.sec.transfer = some true ∧ u.sec.update = 1 ∧ u.supply ≠ supOff ∧ u.imageFault signed = none ∧
      (u.imageFault { signed with hssOk := false }).isSome = true) ∧
    (let u := (secured (fun x => { x with transfer := some true, update := 2 })).at 1
     u.sec.transfer = some true ∧ u.sec.update = 2 ∧ u.supply ≠ supOff) ∧
    ((active.at 1).inReset = false) ∧ (active.at 1).sealed = false ∧
    ((active.setFld Fld.glbSealSealed 0 0 1).at 1).sealed = true ∧ (active.at 1).indicesSpent = false ∧
    (∀ w ∈ [none, some []],
      let u := ((secured (fun x => { x with identity := true, attesting := w })).setFld Fld.secAttestNextIndex 0 0 (2 ^ 19)).at 1
      u.mayBuildTree = true ∧ u.sec.attesting = w) ∧
    (let u := (active.setFld Fld.secAttestNextIndex 0 0 (2 ^ 20)).at 1
     u.needsTree = true ∧ u.treeReady = false) := by
  decide +kernel

/-- No fold is loaded. -/
def idleModule : State := { active with folds := [], regs := (State.reset.setSupply supOn).regs }

theorem witness_ResetsAndLowPower :
    (active.at 1).mayCold = true ∧ (active.at 1).mayReset = true ∧ (∀ f ∈ Map.keys (active.at 1).folds, f < 256) ∧
    (active.at 1).mayResetLea 63 = true ∧ (active.at 1).mayResetCluster 1535 = true ∧ (active.at 1).mayResetLink 95 = true ∧
    (Map.keys (active.at 1).regs).Pairwise (· < ·) ∧ (base.at 1).mayCold = false ∧ (base.at 1).mayReset = false ∧
    ((active.at 1).supply ≠ supOff ∧ (active.at 1).power.stopHeld = false ∧ (active.at 1).railsUp = true) ∧
    ((supplied supOn (fun x => { x with stopHeld := true })).at 1).power.stopHeld = true ∧
    (State.reset.at 1).inReset = true ∧ (active.at 1).inReset = false ∧
    (List.range 256).any (fun f => (active.at 1).foldState f == foldRunning && (active.at 1).multi f) = false ∧
    (let u := (spans active).at 1
     (List.range 256).any (fun f => u.foldState f == foldRunning && u.multi f) = true) ∧
    (let u := idleModule.at 1
     u.inReset = false ∧ (List.range 256).any (fun f => u.foldState f == foldRunning && u.multi f) = false ∧ u.folds = [] ∧
      u.lpState = lpActive) ∧
    (let u := ((active.setLp lpStandby).at 1)
     u.inReset = false ∧ u.lpState = lpStandby ∧ (∀ f ∈ Map.keys u.folds, f < 256) ∧ ∀ f ∈ u.restore.standbyFolds, f < 256) ∧
    (let v := (active.at 1).reg .glbLpOff 0 0 ||| BitVec.ofNat 64 (2 ^ 0)
     (maskClusters 0 v).any (fun q => ((active.at 1).foldOf q).any (active.at 1).foldBusy) = true) ∧
    (let v := (active.at 1).reg .glbLpOff 0 63 ||| BitVec.ofNat 64 (2 ^ 23)
     (maskClusters 63 v).any (fun q => ((active.at 1).foldOf q).any (active.at 1).foldBusy) = false) ∧
    ((active.setFld Fld.cluPwrStateState 1535 0 2).at 1).mayIdleOff 1535 = true := by
  decide +kernel

theorem witness_SetupWritesAreJudged :
    (∀ r ∈ [Reg.glbSeal, .secCmd, .thmStopClr, .thmCoolant, .cluPwrVmin, .hubPwrBudget, .cliEpSubVa, .hubStkArb, .pwrLimit],
      (active.at 1).reach (r.addr 0 0) 64 = some (r, 0, 0)) ∧
    (active.at 1).reach 4 64 = none ∧ (active.at 1).reach 0 32 = none ∧
    (let u := active.at 1
     let v := u.reg .hubStkArb 0 0
     u.sealed = false ∧ Reg.hubStkArb.ranges.any (outsideRange (u.readWord .hubStkArb 0 0) v) = false ∧
      u.conditionBad .hubStkArb 0 0 v = false) ∧
    (let u := active.at 1
     Reg.hubStkArb.ranges.any (outsideRange (u.readWord .hubStkArb 0 0)
       (setBits 0 Fld.hubStkArbRemoteWeight.lo Fld.hubStkArbRemoteWeight.width 9)) = true) ∧
    (let u := active.at 1
     u.conditionBad .pwrLimit 0 0 (setBits 0 0 16 1) = true) ∧
    (let u := (active.setFld Fld.glbSealSealed 0 0 1).at 1
     u.sealed = true ∧ Reg.wgtCtl.changesLocked (u.reg .wgtCtl 0 0)
       (setBits (u.reg .wgtCtl 0 0) 32 1 1) = true) ∧
    (let u := active.at 1
     let v := u.reg .hubPwrBudget 0 0
     u.conditionBad .hubPwrBudget 0 0 v = false ∧
      Reg.hubPwrBudget.ranges.any (outsideRange (u.readWord .hubPwrBudget 0 0) v) = false) ∧
    (active.at 1).epBusy = false := by
  decide +kernel

end Sys2Proof.Tests
end

section
/-! Region descriptors (R297, R298): what a write does in each case of the valid bit, and O36. -/

namespace Sys2Proof.Machine

/-! ### `State.writeRegion`, case by case -/

/-- The configuration word of a region with its valid bit cleared, which is what REGION_CLEAR writes. -/
def State.regionCleared (s : State) (n i : Nat) : Word :=
  setBits (s.reg .hubStkRegionCfg n i) Fld.hubStkRegionCfgValid.lo 1 0

section
variable {s : State} {n i : Nat} (p : Path) (v : Word)

theorem State.writeRegion_span_of_invalid (hv : s.regionValid n i = false) :
    s.writeRegion p n i false v = (true, s.setReg .hubStkRegion n i (regionKeep false v)) := by
  simp [State.writeRegion, hv]

theorem State.writeRegion_cfg_of_fits (hv : s.regionValid n i = false)
    (hw : getBits (regionKeep true v) Fld.hubStkRegionCfgValid.lo 1 = 0 ∨
      s.regionFits n i (s.reg .hubStkRegion n i) (regionKeep true v) = true) :
    s.writeRegion p n i true v = (true, s.setReg .hubStkRegionCfg n i (regionKeep true v)) := by
  simp [State.writeRegion, hv, hw]

theorem State.writeRegion_cfg_of_unfit (hv : s.regionValid n i = false)
    (hset : getBits (regionKeep true v) Fld.hubStkRegionCfgValid.lo 1 ≠ 0)
    (hfit : s.regionFits n i (s.reg .hubStkRegion n i) (regionKeep true v) = false) :
    s.writeRegion p n i true v = (false, s) := by
  simp [State.writeRegion, hv, hset, hfit]

theorem State.writeRegion_span_of_valid (hv : s.regionValid n i = true) :
    s.writeRegion p n i false v = (false, s) := by
  simp [State.writeRegion, hv]

theorem State.writeRegion_cfg_of_keeps (hv : s.regionValid n i = true)
    (h : regionKeep true v ≠ s.regionCleared n i ∨ s.regionClears p n i = false) :
    s.writeRegion p n i true v = (false, s) := by
  rw [State.regionCleared] at h
  rcases h with h | h <;> simp [State.writeRegion, hv, h]

theorem State.writeRegion_cfg_of_clears (hv : s.regionValid n i = true)
    (hw : regionKeep true v = s.regionCleared n i) (hc : s.regionClears p n i = true) :
    s.writeRegion p n i true v = (true, s.setReg .hubStkRegionCfg n i (s.regionCleared n i)) := by
  rw [State.regionCleared] at *
  simp [State.writeRegion, hv, hw, hc]

end

/-- Once the cleared word stands, the region is not valid. -/
theorem State.regionValid_setReg_cleared (s : State) (n i : Nat) :
    (s.setReg .hubStkRegionCfg n i (s.regionCleared n i)).regionValid n i = false := by
  have h : (s.setReg .hubStkRegionCfg n i (s.regionCleared n i)).fld Fld.hubStkRegionCfgValid n i = 0 := by
    show getBits ((s.setReg .hubStkRegionCfg n i (s.regionCleared n i)).reg .hubStkRegionCfg n i) 63 1 = 0
    rw [State.reg_setReg]
    exact getBits_setBits _ 63 1 0 (by decide)
  simp [State.regionValid, h]

/-! ### The two commands -/

/-- The register that a descriptor write names. -/
def regionReg (cfg : Bool) : Reg := if cfg then .hubStkRegionCfg else .hubStkRegion

/-- A descriptor write judged as `(ok, x)` ends in `x` with the status `ok` on its path. -/
theorem exec_regionDescriptorWrite {t n i : Nat} {p : Path} {cfg : Bool} {v : Word} {s x : State} {ok : Bool}
    (hn : n < 64) (hi : i < 64) (h : (s.at t).writeRegion p n i cfg v = (ok, x)) :
    exec (.regionDescriptorWrite t p n i cfg v) s = .next (x.completes p ((regionReg cfg).addr n i) ok) := by
  show onUnit (validRegion n i) (((s.at t).writeRegion p n i cfg v).2.completes p ((regionReg cfg).addr n i)
    ((s.at t).writeRegion p n i cfg v).1) = _
  simp [h, onUnit, validRegion, validLea, hn, hi]

/-- REGION_CLEAR is the write of the cleared word. -/
theorem exec_regionClear (t : Nat) (p : Path) (n i : Nat) (s : State) :
    exec (.regionClear t p n i) s = exec (.regionDescriptorWrite t p n i true ((s.at t).regionCleared n i)) s := rfl

end Sys2Proof.Machine

namespace Sys2Proof
open Machine

/-- Settles O36, case by case of the valid bit. -/
theorem regionDescriptorsKeepTheirRules : Obligations.RegionDescriptorsKeepTheirRules := by
  intro t n i p v s hn hi
  dsimp only
  refine ⟨fun hv => ?_, fun hv hw => ?_, fun hv hset hfit => ?_, fun hv => ?_, fun hv hw => ?_, fun hv hc => ?_,
    fun hv hc hw => ?_⟩
  · exact ⟨_, exec_regionDescriptorWrite hn hi (State.writeRegion_span_of_invalid p v hv), onlyReg_setReg _ _ _ _ _,
      State.reg_setReg _ _ _ _ _⟩
  · exact ⟨_, exec_regionDescriptorWrite hn hi (State.writeRegion_cfg_of_fits p v hv hw), onlyReg_setReg _ _ _ _ _,
      State.reg_setReg _ _ _ _ _⟩
  · exact exec_regionDescriptorWrite hn hi (State.writeRegion_cfg_of_unfit p v hv hset hfit)
  · exact exec_regionDescriptorWrite hn hi (State.writeRegion_span_of_valid p v hv)
  · exact exec_regionDescriptorWrite hn hi (State.writeRegion_cfg_of_keeps p v hv (.inl hw))
  · exact exec_regionDescriptorWrite hn hi (State.writeRegion_cfg_of_keeps p _ hv (.inr hc))
  · exact ⟨_, exec_regionDescriptorWrite hn hi (State.writeRegion_cfg_of_clears p _ hv hw hc), onlyReg_setReg _ _ _ _ _,
      State.regionValid_setReg_cleared _ n i⟩

end Sys2Proof
end

section
/-! Layer entries (R182, R241, R242, R252): when a write is refused, what a write of the seed and a write that sets valid do,
and O23. -/

namespace Sys2Proof.Machine

/-! ### `State.writeLayer`, case by case -/

section
variable {s : State} {st : Bool} {q e : Nat}

/-- R35, R182: neither a position that is not exposed nor a fold at work lets a write pass. -/
theorem State.writeLayer_of_locked (r : Nat) (v : Word)
    (h : s.exposed q = false ∨ s.layerLocked st (s.fld Fld.cluArrLayerCfgFold q e) = true) :
    s.writeLayer st q e r v = (false, s) := by
  rcases h with h | h <;> simp [State.writeLayer, h]

/-- The seed is set alone, unless a steward's write has to load the entry again. -/
theorem State.writeLayer_seed (v : Word) (hx : s.exposed q = true)
    (hl : s.layerLocked st (s.fld Fld.cluArrLayerCfgFold q e) = false)
    (hs : st = false ∨ s.fld Fld.cluArrLayerCfgValid q e = 0) :
    s.writeLayer st q e 1 v = (true, s.setReg .cluArrLayerSeed q e (Reg.cluArrLayerSeed.keep v)) := by
  have hbits : (st && s.fld Fld.cluArrLayerCfgValid q e == 1) = false := by rcases hs with hs | hs <;> simp [hs]
  simp [State.writeLayer, layerReg, hx, hl, hbits]

/-- An IDLE fold locks none of its entries. -/
theorem State.layerLocked_of_idle {f : Nat} (hf : s.foldState f = 0) : s.layerLocked st f = false := by
  simp [State.layerLocked, hf]

theorem layerNum_addr_ne_cfg (q e : Nat) : Reg.cluArrLayerNum.addr q e ≠ Reg.cluArrLayerCfg.addr q e := by
  show Scope.cluster.origin q + 0x4010 + 32 * e ≠ Scope.cluster.origin q + 0x4000 + 32 * e
  omega

/-- A write of CFG leaves the fields of NUM. -/
theorem State.fld_num_setReg_cfg (s : State) (q e : Nat) (w : Word) (f : Fld) (hf : f.reg = .cluArrLayerNum) :
    (s.setReg .cluArrLayerCfg q e w).fld f q e = s.fld f q e := by
  unfold State.fld
  rw [hf, State.reg_setReg_ne _ _ _ _ _ _ _ _ (layerNum_addr_ne_cfg q e)]

/-- R241, R242: a write that sets valid while both folds are IDLE hangs on the numeric row alone, once its ranges hold and its
rows are read without a loss. -/
theorem State.writeLayer_sets_valid {v : Word} {n : Row} {scale : List Row} (hx : s.exposed q = true)
    (hown : s.foldState (s.fld Fld.cluArrLayerCfgFold q e) = 0)
    (hf : s.foldState (getBits (Reg.cluArrLayerCfg.keep v) Fld.cluArrLayerCfgFold.lo 8) = 0)
    (hvalid : getBits (Reg.cluArrLayerCfg.keep v) Fld.cluArrLayerCfgValid.lo 1 = 1)
    (hcap : outOfRange (s.reg .cluArrLayerCfg q e) (Reg.cluArrLayerCfg.keep v) Fld.cluArrLayerCfgRangeCap 0 7 = false)
    (hsplit : outOfRange (s.reg .cluArrLayerCfg q e) (Reg.cluArrLayerCfg.keep v) Fld.cluArrLayerCfgSplitBudget 0 44 = false)
    (hnum : s.entryRows q (getBits (Reg.cluArrLayerCfg.keep v) Fld.cluArrLayerCfgFold.lo 8)
      (s.fld Fld.cluArrLayerNumOutlierRow q e) 1 = (some [n], s))
    (hscale : s.entryRows q (getBits (Reg.cluArrLayerCfg.keep v) Fld.cluArrLayerCfgFold.lo 8)
      (s.fld Fld.cluArrLayerNumColscaleRow q e)
      (2 * (8 / (s.setReg .cluArrLayerCfg q e (Reg.cluArrLayerCfg.keep v)).depth q e)) = (some scale, s)) :
    s.writeLayer st q e 0 v =
      if numericOk n ((s.setReg .cluArrLayerCfg q e (Reg.cluArrLayerCfg.keep v)).depth q e)
        (s.fld Fld.cluArrLayerNumOutlierCount q e) = true
      then (true, (s.setReg .cluArrLayerCfg q e (Reg.cluArrLayerCfg.keep v)).loadEntry q e n scale)
      else (false, s) := by
  have hidle := State.layerLocked_of_idle (st := st) hown
  rw [← State.fld_num_setReg_cfg s q e (Reg.cluArrLayerCfg.keep v) _ rfl] at hnum hscale
  rw [← State.fld_num_setReg_cfg s q e (Reg.cluArrLayerCfg.keep v) Fld.cluArrLayerNumOutlierCount rfl]
  fun_cases State.writeLayer s st q e 0 v
  case case1 reg old w own f bad hbad =>
    simp [bad, f, own, old, w, reg, layerReg, hx, hidle, hf, hcap, hsplit] at hbad
  case case2 reg _ w _ _ _ _ _ sets hsets =>
    simp [sets, w, reg, layerReg, hvalid] at hsets
  -- In the cases that read rows, `f` is the fold of the written word, since `r` is 0.
  case case3 f _ _ _ _ _ _ _ _ _ _ _ hok h₁ h₂ =>
    rw [show f = _ from if_pos rfl] at h₁ h₂
    cases hnum.symm.trans h₁
    cases hscale.symm.trans h₂
    exact (if_pos hok).symm
  case case4 f _ _ _ _ _ _ _ _ _ _ _ hok h₁ h₂ =>
    rw [show f = _ from if_pos rfl] at h₁ h₂
    cases hnum.symm.trans h₁
    cases hscale.symm.trans h₂
    exact (if_neg hok).symm
  case case5 f _ _ _ _ _ _ _ _ h₁ _ _ h₂ hno =>
    rw [show f = _ from if_pos rfl] at h₁ h₂
    cases hnum.symm.trans h₁
    cases hscale.symm.trans h₂
    exact (hno _ _ _ rfl rfl).elim

end

/-! ### `State.loadEntry` -/

section
variable (m : NormSlot) (policy warmup hi lo : Nat)

@[simp] theorem NormSlot.configured_policy : (m.configured policy warmup hi lo).policy = policy := rfl
@[simp] theorem NormSlot.configured_warmup : (m.configured policy warmup hi lo).warmup = warmup := rfl
@[simp] theorem NormSlot.configured_hi : (m.configured policy warmup hi lo).hi = hi := rfl
@[simp] theorem NormSlot.configured_lo : (m.configured policy warmup hi lo).lo = lo := rfl
@[simp] theorem NormSlot.configured_state :
    (m.configured policy warmup hi lo).state = if policy = 0 then 0 else 1 := rfl

end

section
variable (s : State) (q e : Nat) (n : Row) (scale : List Row)

@[simp] theorem State.reg_loadEntry (r : Reg) (u i : Nat) : (s.loadEntry q e n scale).reg r u i = s.reg r u i := rfl

@[simp] theorem State.out_loadEntry : (s.loadEntry q e n scale).out = s.out := rfl

/-- The copies come from the rows; no row changes. -/
theorem State.row_loadEntry (p a : Nat) : (s.loadEntry q e n scale).row p a = s.row p a := by
  unfold State.row
  by_cases h : p = q <;> simp [State.loadEntry, State.setNormSlot, h]

@[simp] theorem State.layerCopy_loadEntry :
    (s.loadEntry q e n scale).layerCopy q e = ⟨n, scale.flatMap (fun r => rowHalves r 0 256)⟩ := by
  simp [State.layerCopy, State.loadEntry, State.setNormSlot]

/-- R252: the slot is configured from the numeric row. -/
@[simp] theorem State.normSlot_loadEntry : (s.loadEntry q e n scale).normSlot q e =
    (s.normSlot q e).configured (rowByte n 268) (rowByte n 269) (rowBytes n 270 2) (rowBytes n 272 2) := by
  simp [State.normSlot, State.loadEntry, State.setNormSlot]

end

@[simp] theorem State.row_of_completes (s : State) (p : Path) (a : Nat) (ok : Bool) (q b : Nat) :
    (s.completes p a ok).row q b = s.row q b := by
  unfold State.row
  rw [State.cluster_of_completes]

@[simp] theorem State.row_of_setReg (s : State) (r : Reg) (u i : Nat) (w : Word) (q b : Nat) :
    (s.setReg r u i w).row q b = s.row q b := by
  unfold State.row
  rw [State.cluster_of_setReg]

@[simp] theorem State.normSlot_of_completes (s : State) (p : Path) (a : Nat) (ok : Bool) (q i : Nat) :
    (s.completes p a ok).normSlot q i = s.normSlot q i := rfl

/-! ### The command -/

/-- A write of a layer entry judged as `(ok, x)` ends in `x` with the status `ok` on its path. -/
theorem exec_layerEntryWrite {t q e r : Nat} {p : Path} {v : Word} {s x : State} {ok : Bool}
    (hq : validCluster q = true) (he : e < 256) (hr : r < 3) (h : (s.at t).writeLayer (p == .steward) q e r v = (ok, x)) :
    exec (.layerEntryWrite t p q e r v) s = .next (x.completes p ((layerReg r).addr q e) ok) := by
  show onUnit _ (((s.at t).writeLayer (p == .steward) q e r v).2.completes p ((layerReg r).addr q e)
    ((s.at t).writeLayer (p == .steward) q e r v).1) = _
  simp [h, onUnit, hq, he, hr]

end Sys2Proof.Machine

namespace Sys2Proof
open Machine

/-- Settles O23: the three cases of `State.writeLayer`, and for the last what `State.loadEntry` sets. -/
theorem layerEntryWrites : Obligations.LayerEntryWrites := by
  intro t q e r p v s hq he hr
  dsimp only
  refine ⟨fun h => exec_layerEntryWrite hq he hr (State.writeLayer_of_locked r v h), ?_, ?_⟩
  · rintro rfl hx hl hs
    have hs' : (p == Path.steward) = false ∨ (s.at t).fld Fld.cluArrLayerCfgValid q e = 0 := hs.imp_left (by simp)
    exact ⟨_, exec_layerEntryWrite hq he hr (State.writeLayer_seed v hx hl hs'), onlyReg_setReg _ _ _ _ _,
      State.reg_setReg _ _ _ _ _⟩
  · rintro n scale rfl hx hown hf hvalid hcap hsplit hnum hscale
    have hw := State.writeLayer_sets_valid (st := p == .steward) hx hown hf hvalid hcap hsplit hnum hscale
    by_cases hok : numericOk n (((s.at t).setReg .cluArrLayerCfg q e (Reg.cluArrLayerCfg.keep v)).depth q e)
        ((s.at t).fld Fld.cluArrLayerNumOutlierCount q e) = true
    · rw [if_pos hok] at hw
      refine ⟨_, exec_layerEntryWrite hq he hr hw, fun a b => ?_, ?_⟩
      · rw [State.row_of_completes, State.row_loadEntry, State.row_of_setReg]
      rw [if_neg (Bool.not_eq_false _ ▸ hok)]
      rw [State.normSlot_of_completes, State.normSlot_loadEntry]
      exact ⟨rfl, State.reg_setReg _ _ _ _ _, State.layerCopy_loadEntry _ q e n scale, NormSlot.configured_policy ..,
        NormSlot.configured_warmup .., NormSlot.configured_hi .., NormSlot.configured_lo .., NormSlot.configured_state ..⟩
    · rw [if_neg hok] at hw
      refine ⟨_, exec_layerEntryWrite hq he hr hw, fun _ _ => rfl, ?_⟩
      rw [if_pos (Bool.not_eq_true _ ▸ hok)]

end Sys2Proof
end

section
/-! Setup registers (R7 to R10, R586, R587, R594, R619): how a write is judged, what it changes, and O60. -/

namespace Sys2Proof.Machine

/-! ### Which register an access reaches (R7, R8) -/

theorem State.reach_of_misaligned (s : State) {addr width : Nat} (h : width ≠ 64 ∨ addr % 8 ≠ 0) :
    s.reach addr width = none := if_pos h

theorem Reg.inst_lt_count {r : Reg} {off i : Nat} (h : r.inst off = some i) : i < r.place.count := by
  dsimp only [Reg.inst] at h
  obtain ⟨⟨_, _, hlt⟩, hi⟩ := Option.ite_none_right_eq_some.mp h
  cases hi
  exact hlt

theorem Reg.atOffset_lt_count {ok : Scope → Bool} {off : Nat} {l : List Reg} {r : Reg} {i : Nat}
    (h : Reg.atOffset ok off l = some (r, i)) : i < r.place.count := by
  induction l with
  | nil => cases h
  | cons a rest ih =>
    unfold Reg.atOffset at h
    split at h
    · split at h
      next hi =>
        cases h
        exact Reg.inst_lt_count hi
      next => exact ih h
    · exact ih h

/-- An address names no more of a register than Table 00-5 gives it. -/
theorem Reg.decode_lt_count {a u i : Nat} {r : Reg} (h : Reg.decode a = some (r, u, i)) : i < r.place.count := by
  unfold Reg.decode at h
  simp only [] at h
  have key : ∀ (ok : Scope → Bool) (off : Nat) (f : Reg × Nat → Nat),
      (Reg.atOffset ok off Reg.all).map (fun x => (x.1, f x, x.2)) = some (r, u, i) → i < r.place.count := by
    intro ok off f hm
    obtain ⟨⟨r', i'⟩, hx, he⟩ := Option.map_eq_some_iff.mp hm
    cases he
    exact Reg.atOffset_lt_count hx
  split at h
  · exact key _ _ _ h
  split at h
  · exact key _ _ _ h
  split at h
  · cases h
  split at h
  · exact key _ _ (fun x => if x.1.place.scope = .router then 1536 + _ else _) h
  split at h
  · exact key _ _ _ h
  · cases h

theorem State.reach_lt_count {s : State} {addr width u i : Nat} {r : Reg} (h : s.reach addr width = some (r, u, i)) :
    i < r.place.count := by
  unfold State.reach at h
  split at h
  · cases h
  split at h
  next hd =>
    split at h
    · cases h
    · cases h
      exact Reg.decode_lt_count hd
  next => cases h

/-! ### Records of the module itself (R557 to R559) -/

/-- The record of an event of the whole module, in no fold. -/
def State.moduleRec (s : State) (code p0 p1 : Nat) : Rec :=
  ⟨code, 4, 0, none, none, false, s.ns, p0 % 2 ^ 64, p1 % 2 ^ 48⟩

/-- Such a record enters the global log, whatever its class. -/
theorem State.report_module (s : State) (code p0 p1 : Nat) : s.report (srcModule none) code p0 p1 =
    { s.countDropped true 16384 s.globalLog with globalLog := s.globalLog.push 16384 (s.moduleRec code p0 p1) } := by
  unfold State.report
  split
  next hf => cases hf
  next => rfl

/-- The record last pushed is the newest; only its mark of a loss is the log's own. -/
theorem Log.head_push (cap : Nat) (l : Log) (r : Rec) : ∃ lost, (l.push cap r).recs.head? = some { r with lost := lost } := by
  unfold Log.push
  split
  · exact ⟨false, rfl⟩
  · exact ⟨true, rfl⟩

/-- Of the registers, a lost record changes FLT_STREAM_STAT alone. -/
theorem State.onlyReg_countDropped (s : State) (glob : Bool) (cap : Nat) (l : Log) :
    OnlyReg (Reg.fltStreamStat.addr 0 0) s (s.countDropped glob cap l) := by
  unfold State.countDropped
  split
  · exact onlyReg_setReg _ _ _ _ _
  · exact ⟨rfl, fun _ _ => rfl⟩

theorem State.report_module_frame (s : State) (code p0 p1 : Nat) :
    s.report (srcModule none) code p0 p1 = { s with
      regs := (s.report (srcModule none) code p0 p1).regs
      globalLog := (s.report (srcModule none) code p0 p1).globalLog } := by
  rw [State.report_module]
  conv_lhs => rw [(s.onlyReg_countDropped true 16384 s.globalLog).1]

theorem State.head_report_module (s : State) (code p0 p1 : Nat) :
    ∃ lost, (s.report (srcModule none) code p0 p1).globalLog.recs.head? = some { s.moduleRec code p0 p1 with lost := lost } := by
  rw [State.report_module]
  exact Log.head_push _ _ _

theorem State.reg_report_module (s : State) (code p0 p1 : Nat) {r : Reg} {u i : Nat}
    (h : r.addr u i ≠ Reg.fltStreamStat.addr 0 0) : (s.report (srcModule none) code p0 p1).reg r u i = s.reg r u i := by
  rw [State.report_module]
  unfold State.reg Map.get
  rw [← (s.onlyReg_countDropped true 16384 s.globalLog).2 _ h]

/-- R586: the seal stands from here on. -/
theorem State.sealed_setSeal (s : State) : s.setSeal.sealed = true := by
  unfold State.setSeal
  split
  next h => exact h
  next =>
    have hfld : ((s.setFld Fld.glbSealSealed 0 0 1).report (srcModule none) 0x810A 0 0).fld Fld.glbSealSealed 0 0 = 1 := by
      unfold State.fld
      rw [State.reg_report_module _ _ _ _ (by decide)]
      exact State.fld_setFld s Fld.glbSealSealed 0 0 1 (by decide)
    simp [State.sealed, hfld]

/-! ### How a write is judged -/

/-- The registers whose write is a command of its own or has a rule beside Table 00-6: the list of `SetupWritesAreJudged`. -/
def ownRegs : List Reg :=
  [.timFoldCfg, .glbLpCtl, .glbLpOff, .glbSeal, .secCmd, .glbResetCtl, .thmStopClr, .thmCoolant, .cluPwrVmin,
    .fltReserve, .lnkCfg, .cluPartBanks, .cluPartCfg, .cluArrLayerCfg, .cluArrLayerSeed, .cluArrLayerNum, .hubStkRegion,
    .hubStkRegionCfg, .cliEpCfg, .cliEpSubVa, .cliEpCmpVa, .cliEpKeys, .timSrcCtl, .hubPwrBudget, .timPpsTai]

/-- The registers of descriptors and layer entries, which the units themselves judge. -/
def descriptorRegs : List Reg :=
  [.cluPartBanks, .cluPartCfg, .cluArrLayerCfg, .cluArrLayerSeed, .cluArrLayerNum, .hubStkRegion, .hubStkRegionCfg]

theorem Reg.ne_of_plain {r r' : Reg} (h : ownRegs.contains r = false) (h' : r' ∈ ownRegs) : r ≠ r' := by
  rintro rfl
  rw [List.contains_iff_mem.mpr h'] at h
  cases h

theorem not_descriptor_of_plain {r : Reg} (h : ownRegs.contains r = false) : descriptorRegs.contains r = false := by
  rw [← Bool.not_eq_true, List.contains_iff_mem] at h ⊢
  exact fun hm => h ((by decide : descriptorRegs ⊆ ownRegs) hm)

section
variable {s : State} {p : Path} {r : Reg} {x i : Nat} {v : Word}

theorem State.writeReg_of_plain (h : ownRegs.contains r = false) : s.writeReg p r x i v = s.writeWord p r x i v := by
  unfold State.writeReg
  split
  case h_12 => rfl
  all_goals exact absurd h (by decide)

theorem State.storeReg_of_plain (h : ownRegs.contains r = false) :
    s.storeReg r x i v = s.setReg r x i (r.written (s.reg r x i) v) := by
  unfold State.storeReg
  split
  case h_8 => rfl
  all_goals exact absurd h (by decide)

theorem State.recordEndpoint_of_plain (h : ownRegs.contains r = false) : s.recordEndpoint r = s := by
  refine if_neg fun hm => ?_
  rw [← Bool.not_eq_true, List.contains_iff_mem] at h
  exact h ((by decide : [Reg.cliEpCfg, .cliEpSubVa, .cliEpCmpVa, .cliEpKeys] ⊆ ownRegs) (List.contains_iff_mem.mp hm))

theorem mgmtOnly_of_plain (h : ownRegs.contains r = false) : mgmtOnly r v = false := by
  simp [mgmtOnly, Reg.ne_of_plain h (r' := .glbSeal) (by decide), Reg.ne_of_plain h (r' := .secCmd) (by decide),
    Reg.ne_of_plain h (r' := .thmStopClr) (by decide), Reg.ne_of_plain h (r' := .glbResetCtl) (by decide)]

/-- The order of judgement: the path, the seal, the ranges and conditions. -/
theorem State.writeWord_judged (h : descriptorRegs.contains r = false) : s.writeWord p r x i v =
    if (p != .mgmt && mgmtOnly r v) = true then (.forbidden, s)
    else if (s.sealed && r.changesLocked (s.reg r x i) v) = true then
      (.locked, s.report (srcModule none) 0x8001 (r.addr x i) 0)
    else if (r.ranges.any (outsideRange (s.readWord r x i) v) || s.conditionBad r x i v) = true then (.refused, s)
    else (.done, (s.storeReg r x i v).recordEndpoint r) := by
  unfold State.writeWord
  split
  case h_8 => rfl
  all_goals exact absurd h (by decide)

theorem State.writeWord_forbidden (h : descriptorRegs.contains r = false) (hp : p ≠ .mgmt) (hm : mgmtOnly r v = true) :
    s.writeWord p r x i v = (.forbidden, s) := by
  rw [State.writeWord_judged h, if_pos (by simp [hp, hm])]

/-- A write that no rule refuses is stored. -/
theorem State.writeWord_taken (h : descriptorRegs.contains r = false) (hm : p = .mgmt ∨ mgmtOnly r v = false)
    (hl : s.sealed = false ∨ r.changesLocked (s.reg r x i) v = false)
    (hr : r.ranges.any (outsideRange (s.readWord r x i) v) = false) (hc : s.conditionBad r x i v = false) :
    s.writeWord p r x i v = (.done, (s.storeReg r x i v).recordEndpoint r) := by
  have hm' : (p != .mgmt && mgmtOnly r v) = false := by rcases hm with hm | hm <;> simp [hm]
  have hl' : (s.sealed && r.changesLocked (s.reg r x i) v) = false := by rcases hl with hl | hl <;> simp [hl]
  rw [State.writeWord_judged h, hm', hl', hr, hc]
  rfl

/-- The judgement of a register that has no rule of its own. -/
theorem State.writeReg_plain_judged (h : ownRegs.contains r = false) : s.writeReg p r x i v =
    if s.sealed = true ∧ r.changesLocked (s.reg r x i) v = true then
      (.locked, s.report (srcModule none) 0x8001 (r.addr x i) 0)
    else if r.ranges.any (outsideRange (s.readWord r x i) v) = true ∨ s.conditionBad r x i v = true then (.refused, s)
    else (.done, s.setReg r x i (r.written (s.reg r x i) v)) := by
  rw [State.writeReg_of_plain h, State.writeWord_judged (not_descriptor_of_plain h), mgmtOnly_of_plain h,
    State.storeReg_of_plain h, State.recordEndpoint_of_plain h]
  simp only [Bool.and_false, Bool.false_eq_true, if_false, Bool.and_eq_true, Bool.or_eq_true]

end

/-! ### Writes that start something -/

section
variable {s : State} {w : Written × State} (f : State → Written × State)

theorem State.andThen_of_done {y : State} (h : w = (.done, y)) : State.andThen w f = f y := by
  subst h
  rfl

theorem State.andThen_of_forbidden (h : w = (.forbidden, s)) : State.andThen w f = (.forbidden, s) := by
  subst h
  rfl

end

/-- R587: only the management path seals, commands and clears a stop. -/
theorem State.writeReg_forbidden (s : State) {p : Path} {r : Reg} (x i : Nat) (v : Word) (hp : p ≠ .mgmt)
    (hr : r = .glbSeal ∨ r = .secCmd ∨ r = .thmStopClr) : s.writeReg p r x i v = (.forbidden, s) := by
  rcases hr with rfl | rfl | rfl
  · exact State.andThen_of_forbidden _ (State.writeWord_forbidden (by decide) hp rfl)
  · exact State.andThen_of_forbidden _ (State.writeWord_forbidden (by decide) hp rfl)
  · exact State.andThen_of_forbidden _ (State.writeWord_forbidden (by decide) hp rfl)

theorem State.sealed_writeReg_glbSeal (s : State) (x i : Nat) {v : Word} (hv : v.getLsbD 0 = true) :
    (s.writeReg .mgmt .glbSeal x i v).2.sealed = true := by
  have hw := State.writeWord_taken (s := s) (x := x) (i := i) (v := v) (r := .glbSeal) (by decide) (.inl rfl) (.inr rfl)
    rfl rfl
  show (State.andThen (s.writeWord .mgmt .glbSeal x i v) _).2.sealed = true
  rw [State.andThen_of_done _ hw, if_pos hv]
  exact State.sealed_setSeal _

theorem State.trayAt_trayReport (s : State) (flow : Nat) (inlet : Int) :
    (s.trayReport flow inlet).thermal.trayAt = some s.now :=
  congrArg some ((State.setFld_now _ _ _ _ _).trans (State.setFld_now s Fld.thmCoolantFlowDl 0 0 flow))

/-- R515: a report of the tray is noted at once. -/
theorem State.trayAt_writeReg_thmCoolant (s : State) (p : Path) (x i : Nat) (v : Word) :
    (s.writeReg p .thmCoolant x i v).2.thermal.trayAt = some s.now := by
  have hw := State.writeWord_taken (s := s) (p := p) (x := x) (i := i) (v := v) (r := .thmCoolant) (by decide) (.inr rfl)
    (.inr rfl) rfl rfl
  show (State.andThen (s.writeWord p .thmCoolant x i v) _).2.thermal.trayAt = some s.now
  rw [State.andThen_of_done _ hw, State.trayAt_trayReport]
  exact congrArg some (State.setReg_now s .thmCoolant x i (Reg.thmCoolant.written (s.reg .thmCoolant x i) v))

theorem State.fld_valid_rearmVmin (s : State) (q mv : Nat) : (s.rearmVmin q mv).fld Fld.cluPwrVminValid q 0 = 0 := by
  have hts : Reg.cluPwrVmin.addr q 0 ≠ Reg.cluPwrVminTs.addr q 0 := by
    show Scope.cluster.origin q + 0x8010 + 8 * 0 ≠ Scope.cluster.origin q + 0x8018 + 8 * 0
    omega
  unfold State.rearmVmin
  rw [State.fld_setFld_ne _ _ _ _ _ _ _ _ hts,
    State.fld_setFld_beside _ Fld.cluPwrVminVminMv Fld.cluPwrVminValid _ _ _ rfl (by decide) (by decide),
    State.fld_setFld _ _ _ _ _ (by decide)]
  rfl

theorem State.fld_valid_writeReg_cluPwrVmin (s : State) (p : Path) (x i : Nat) {v : Word} (hv : v.getLsbD 63 = true) :
    (s.writeReg p .cluPwrVmin x i v).2.fld Fld.cluPwrVminValid x 0 = 0 := by
  have hw := State.writeWord_taken (s := s) (p := p) (x := x) (i := i) (v := v) (r := .cluPwrVmin) (by decide) (.inr rfl)
    (.inr rfl) rfl rfl
  show (State.andThen (s.writeWord p .cluPwrVmin x i v) _).2.fld Fld.cluPwrVminValid x 0 = 0
  rw [State.andThen_of_done _ hw, if_pos hv]
  exact State.fld_valid_rearmVmin _ x _

/-- Table 14-5: the clamp only lowers a budget. -/
theorem State.clampB_le (s : State) (n b : Nat) : s.clampB n b ≤ b := by
  have hmin : Nat.min b (100 * Nat.min 15 (s.fld Fld.hubPwrRailLeaPhasesOk n 0)) ≤ b := Nat.min_le_left _ _
  unfold State.clampB
  dsimp only
  generalize Nat.min b _ = m at hmin ⊢
  split <;> omega

/-- The budget that a word carries is the one that the register then shows. -/
theorem getBits_written_hubPwrBudget (old v : Word) {b : Nat} (hb : b < 2 ^ 11) :
    getBits (Reg.hubPwrBudget.written old (setBits v 0 11 b)) 0 11 = b := by
  simp only [Reg.written, Reg.fields, List.foldl, FieldDesc.written]
  rw [getBits_setBits _ _ _ _ (by decide), getBits_setBits _ _ _ _ (by decide), Nat.mod_mod, Nat.mod_eq_of_lt hb]

theorem State.fld_budget_writeReg (s : State) (p : Path) (x : Nat) {v : Word} (hs : s.sealed = false)
    (hc : s.conditionBad .hubPwrBudget x 0 v = false)
    (hr : Reg.hubPwrBudget.ranges.any (outsideRange (s.readWord .hubPwrBudget x 0) v) = false) :
    (s.writeReg p .hubPwrBudget x 0 v).2.fld Fld.hubPwrBudgetBudget x 0 = s.clampB x (getBits v 0 11) := by
  have hb : s.clampB x (getBits v 0 11) < 2 ^ 11 := Nat.lt_of_le_of_lt (s.clampB_le x _) (getBits_lt v 0 11)
  have hw : s.writeReg p .hubPwrBudget x 0 v = s.writeWord p .hubPwrBudget x 0 v := rfl
  rw [hw, State.writeWord_taken (by decide) (.inr rfl) (.inl hs) hr hc]
  show getBits ((s.setReg .hubPwrBudget x 0 _).reg .hubPwrBudget x 0) 0 11 = _
  rw [State.reg_setReg, getBits_written_hubPwrBudget _ _ hb]

/-- R448: the submission address goes to the selected endpoint alone. -/
theorem State.endpoint_writeReg_cliEpSubVa (s : State) (p : Path) (x i : Nat) (v : Word) (hs : s.sealed = false)
    (hb : s.epBusy = false) (y : Nat) : (s.writeReg p .cliEpSubVa x i v).2.endpoint y =
      if y = s.selEp then { s.endpoint s.selEp with subVa := v } else s.endpoint y := by
  have hw : s.writeReg p .cliEpSubVa x i v = s.writeWord p .cliEpSubVa x i v := rfl
  rw [hw, State.writeWord_taken (by decide) (.inr rfl) (.inl hs) rfl (by simp [State.conditionBad, hb])]
  simp [State.storeReg, State.recordEndpoint, Endpoint.written]

/-! ### The command -/

theorem exec_registerWrite_unreached {t addr width : Nat} {s : State} (p : Path) (v : Word)
    (h : (s.at t).reach addr width = none) :
    exec (.registerWrite t p addr width v) s = .next ((s.at t).completes p addr false) := by
  show Host.Outcome.next (State.ended p addr ((s.at t).writeSetup p addr width v)) = _
  rw [State.writeSetup, h]
  rfl

/-- A write that reaches a register ends with the status of its judgement on its path. -/
theorem exec_registerWrite {t addr width x i : Nat} {s : State} {r : Reg} (p : Path) (v : Word)
    (h : (s.at t).reach addr width = some (r, x, i)) :
    exec (.registerWrite t p addr width v) s =
      .next (((s.at t).writeReg p r x i v).2.completes p addr (((s.at t).writeReg p r x i v).1 == .done)) := by
  show Host.Outcome.next (State.ended p addr ((s.at t).writeSetup p addr width v)) = _
  rw [State.writeSetup, h]
  rfl

end Sys2Proof.Machine

namespace Sys2Proof
open Machine

/-- Settles O60: an access that reaches no register ends at once; any other is judged as `State.writeReg` judges its
register, by one lemma for each kind of register that the statement tells apart. -/
theorem setupWritesAreJudged : Obligations.SetupWritesAreJudged := by
  intro t addr width p v s
  dsimp only
  refine ⟨exec_registerWrite_unreached p v, fun h => exec_registerWrite_unreached p v (State.reach_of_misaligned _ h), ?_⟩
  intro r x i h
  refine ⟨_, _, exec_registerWrite p v h, fun hp hr => ?_, fun hplain => ?_, ?_, ?_, ?_, ?_, ?_⟩
  · rw [State.writeReg_forbidden _ x i v hp hr]
    exact ⟨rfl, rfl⟩
  · rw [State.writeReg_plain_judged hplain]
    by_cases hlock : (s.at t).sealed = true ∧ r.changesLocked ((s.at t).reg r x i) v = true
    · obtain ⟨lost, hhead⟩ := (s.at t).head_report_module 0x8001 (r.addr x i) 0
      simp only [if_pos hlock]
      exact ⟨rfl, State.report_module_frame _ _ _ _, by rw [hhead]; rfl, by rw [hhead]; rfl⟩
    · simp only [if_neg hlock]
      split
      · exact ⟨rfl, rfl⟩
      · exact ⟨onlyReg_setReg _ _ _ _ _, State.reg_setReg _ _ _ _ _, rfl⟩
  · rintro rfl rfl hv
    exact State.sealed_writeReg_glbSeal _ x i hv
  · rintro rfl
    exact State.trayAt_writeReg_thmCoolant _ p x i v
  · rintro rfl hv
    exact State.fld_valid_writeReg_cluPwrVmin _ p x i hv
  · rintro rfl hs hc hr
    obtain rfl : i = 0 := Nat.lt_one_iff.mp (State.reach_lt_count h)
    exact State.fld_budget_writeReg _ p x hs hc hr
  · rintro rfl hs hb
    have hep := State.endpoint_writeReg_cliEpSubVa (s.at t) p x i v hs hb
    exact ⟨by rw [hep, if_pos rfl], fun y hy => by rw [hep, if_neg hy]⟩

end Sys2Proof
end

section
/-! The frame of the queue and the tick: one lemma for each operation of the model, in the order of the model's parts, and from
them what every command does (O2) and what a step keeps (O3). -/

namespace Sys2Proof.Machine

/-- The queue of commands and the tick. `step` alone writes the one and `State.at` the other (log entries 1 and 9): every other
operation of the model keeps both. -/
def State.clock (s : State) : List Instr × Nat := (s.pending, s.now)

@[simp] theorem State.clock_mk x0 x1 x2 x3 x4 x5 x6 x7 x8 x9 x10 x11 x12 x13 x14 x15 x16 x17 x18 x19 x20 x21 x22 x23 x24 x25 x26 x27 x28 x29
    x30 x31 x32 x33 x34 x35 x36 x37 :
    State.clock ⟨x0, x1, x2, x3, x4, x5, x6, x7, x8, x9, x10, x11, x12, x13, x14, x15, x16, x17, x18, x19, x20, x21, x22, x23,
      x24, x25, x26, x27, x28, x29, x30, x31, x32, x33, x34, x35, x36, x37⟩ = (x0, x2) := (rfl)

@[simp] theorem State.clock_eta (s : State) : (s.pending, s.now) = s.clock := (rfl)

/-- The state that an instruction leaves, whatever becomes of its bundle. -/
def Done.state : Done → State
  | .ok s => s
  | .jump s _ _ => s
  | .stall s => s
  | .fault _ s => s

@[simp] theorem Done.state_ok (s : State) : (Done.ok s).state = s := rfl
@[simp] theorem Done.state_jump (s : State) (t i : Nat) : (Done.jump s t i).state = s := rfl
@[simp] theorem Done.state_stall (s : State) : (Done.stall s).state = s := rfl
@[simp] theorem Done.state_fault (s : State) (c : Nat) : (Done.fault c s).state = s := rfl

/-! ### Branches and loops -/

section
variable {α β : Type} (c : Prop) [Decidable c]

@[simp] theorem State.clock_ite (s t : State) : (if c then s else t).clock = if c then s.clock else t.clock :=
  apply_ite _ _ _ _
@[simp] theorem Done.state_ite (x y : Done) : (if c then x else y).state = if c then x.state else y.state :=
  apply_ite _ _ _ _
@[simp] theorem snd_ite (x y : α × β) : (if c then x else y).2 = if c then x.2 else y.2 := apply_ite _ _ _ _
@[simp] theorem fst_ite (x y : α × β) : (if c then x else y).1 = if c then x.1 else y.1 := apply_ite _ _ _ _

end

section
variable {α β : Type} (l : List α)

theorem State.clock_foldl_proj (π : β → State) {f : β → α → β} (h : ∀ x a, (π (f x a)).clock = (π x).clock) (x : β) :
    (π (l.foldl f x)).clock = (π x).clock := by
  induction l generalizing x with
  | nil => rfl
  | cons a l ih => exact (ih _).trans (h x a)

@[simp] theorem State.clock_foldl {f : State → α → State} (h : ∀ s a, (f s a).clock = s.clock) (s : State) :
    (l.foldl f s).clock = s.clock := State.clock_foldl_proj l id h s

@[simp] theorem State.clock_foldl_snd {f : β × State → α → β × State} (h : ∀ x a, (f x a).2.clock = x.2.clock)
    (x : β × State) : (l.foldl f x).2.clock = x.2.clock := State.clock_foldl_proj l Prod.snd h x

@[simp] theorem State.clock_foldl_fst {f : State × β → α → State × β} (h : ∀ x a, (f x a).1.clock = x.1.clock)
    (x : State × β) : (l.foldl f x).1.clock = x.1.clock := State.clock_foldl_proj l Prod.fst h x

end

/-- A result that a match has taken apart has the clock that the result had. -/
theorem State.clock_of_snd {α : Type} {x : α × State} {a : α} {t : State} {c : List Instr × Nat} (hx : x = (a, t))
    (h : x.2.clock = c) : t.clock = c := by
  subst hx
  exact h

theorem State.clock_congr {s t : State} (hp : t.pending = s.pending) (hn : t.now = s.now) : t.clock = s.clock :=
  congrArg₂ Prod.mk hp hn

theorem foldl_bind_none {α β : Type} (f : β → α → Option β) (l : List α) :
    l.foldl (fun (o : Option β) a => o.bind (fun s => f s a)) none = none := by
  induction l with
  | nil => rfl
  | cons a l ih => exact ih

/-- A loop that may fail. -/
theorem State.clock_foldl_bind {α : Type} {f : State → α → Option State}
    (h : ∀ s a t, f s a = some t → t.clock = s.clock) {l : List α} {s t : State}
    (hl : l.foldl (fun (o : Option State) a => o.bind (fun s => f s a)) (some s) = some t) : t.clock = s.clock := by
  induction l generalizing s with
  | nil =>
    cases hl
    rfl
  | cons a l ih =>
    rw [List.foldl_cons, Option.bind_some] at hl
    cases hf : f s a with
    | none =>
      rw [hf, foldl_bind_none] at hl
      cases hl
    | some x =>
      rw [hf] at hl
      exact (ih hl).trans (h s a x hf)

/-! #### Regs -/

@[simp] theorem State.clock_setReg (s : State) (r : Reg) (u i : Nat) (w : Word) : (s.setReg r u i w).clock = s.clock := (rfl)
@[simp] theorem State.clock_setFld (s : State) (f : Fld) (u i v : Nat) : (s.setFld f u i v).clock = s.clock := (rfl)
@[simp] theorem State.clock_bumpBy (s : State) (f : Fld) (u i n : Nat) : (s.bumpBy f u i n).clock = s.clock := (rfl)
@[simp] theorem State.clock_bump (s : State) (f : Fld) (u i : Nat) : (s.bump f u i).clock = s.clock := (rfl)
@[simp] theorem State.clock_setBit (s : State) (f : Fld) (u i b : Nat) (on : Bool) :
    (s.setBit f u i b on).clock = s.clock := (rfl)
@[simp] theorem State.clock_clearRegs (s : State) (mask : Nat) (here : Reg → Nat → Nat → Bool) :
    (s.clearRegs mask here).clock = s.clock := by
  refine State.clock_foldl _ (fun t e => ?_) s
  split
  · split <;> simp
  · rfl

/-! #### Ops -/

@[simp] theorem clock_whenever (c : Bool) (f : State → State) (s : State) (hf : ∀ t, (f t).clock = t.clock) :
    (whenever c f s).clock = s.clock := by
  simp only [whenever]
  repeat' split
  all_goals simp [hf]
@[simp] theorem State.clock_setCore (s : State) (c : Nat) (x : Core) : (s.setCore c x).clock = s.clock := (rfl)
@[simp] theorem State.clock_modCore (s : State) (c : Nat) (f : Core → Core) : (s.modCore c f).clock = s.clock := (rfl)
@[simp] theorem State.clock_setCluster (s : State) (q : Nat) (x : Cluster) : (s.setCluster q x).clock = s.clock := (rfl)
@[simp] theorem State.clock_modCluster (s : State) (q : Nat) (f : Cluster → Cluster) :
    (s.modCluster q f).clock = s.clock := (rfl)
@[simp] theorem State.clock_modRouter (s : State) (x : Nat) (f : Router → Router) :
    (s.modRouter x f).clock = s.clock := (rfl)
@[simp] theorem State.clock_modHub (s : State) (n : Nat) (f : Hub → Hub) : (s.modHub n f).clock = s.clock := (rfl)
@[simp] theorem State.clock_modDram (s : State) (n : Nat) (f : Stack → Stack) : (s.modDram n f).clock = s.clock := (rfl)
@[simp] theorem State.clock_setFold (s : State) (f : Nat) (x : Fold) : (s.setFold f x).clock = s.clock := (rfl)
@[simp] theorem State.clock_modFold (s : State) (f : Nat) (g : Fold → Fold) : (s.modFold f g).clock = s.clock := (rfl)
@[simp] theorem State.clock_modEntry (s : State) (g : Nat) (f : Entry → Entry) : (s.modEntry g f).clock = s.clock := (rfl)
@[simp] theorem State.clock_modEndpoint (s : State) (e : Nat) (f : Endpoint → Endpoint) :
    (s.modEndpoint e f).clock = s.clock := (rfl)
@[simp] theorem State.clock_recordModule (s : State) : s.recordModule.clock = s.clock := (rfl)
@[simp] theorem State.clock_modModel (s : State) (h : Nat) (f : Model → Model) : (s.modModel h f).clock = s.clock := by
  unfold State.modModel
  split <;> simp
@[simp] theorem State.clock_modLink (s : State) (l : Nat) (f : Link → Link) : (s.modLink l f).clock = s.clock := (rfl)
@[simp] theorem State.clock_modPort (s : State) (p : Nat) (f : Port → Port) : (s.modPort p f).clock = s.clock := (rfl)
@[simp] theorem State.clock_modPower (s : State) (f : Power → Power) : (s.modPower f).clock = s.clock := (rfl)
@[simp] theorem State.clock_modThermal (s : State) (f : Thermal → Thermal) : (s.modThermal f).clock = s.clock := (rfl)
@[simp] theorem State.clock_modSec (s : State) (f : Sec → Sec) : (s.modSec f).clock = s.clock := (rfl)
@[simp] theorem State.clock_drew (s : State) : s.drew.clock = s.clock := (rfl)
@[simp] theorem State.clock_send (s : State) (o : Out) : (s.send o).clock = s.clock := (rfl)
@[simp] theorem State.clock_completes (s : State) (p : Path) (addr : Nat) (ok : Bool) :
    (s.completes p addr ok).clock = s.clock := (rfl)
@[simp] theorem State.clock_setFoldState (s : State) (f v : Nat) :
    (s.setFoldState f v).clock = s.clock := by simp [State.setFoldState]
@[simp] theorem State.clock_countDropped (s : State) (glob : Bool) (cap : Nat) (l : Log) :
    (s.countDropped glob cap l).clock = s.clock := by simp [State.countDropped]
@[simp] theorem State.clock_logRecord (s : State) (k : Source) (r : Rec) : (s.logRecord k r).clock = s.clock := by
  simp only [State.logRecord]
  split <;> simp
@[simp] theorem State.clock_report (s : State) (k : Source) (code p0 p1 : Nat) :
    (s.report k code p0 p1).clock = s.clock := by
  unfold State.report
  split <;> simp
@[simp] theorem State.clock_failItems (s : State) (f c st : Nat) :
    (s.failItems f c st).clock = s.clock := by simp [State.failItems]
@[simp] theorem State.clock_noteOverflow (s : State) (f c : Nat) :
    (s.noteOverflow f c).clock = s.clock := by simp [State.noteOverflow]
@[simp] theorem State.clock_failItems? (s : State) (f : Option Nat) (c st : Nat) :
    (s.failItems? f c st).clock = s.clock := by
  unfold State.failItems?
  split <;> simp
@[simp] theorem State.clock_failBatch (s : State) (f st : Nat) :
    (s.failBatch f st).clock = s.clock := by simp [State.failBatch]

/-! #### Issue -/

@[simp] theorem State.clock_readyAt (s : State) (c code x : Nat) :
    (s.readyAt c code x).clock = s.clock := by simp [State.readyAt]
@[simp] theorem State.clock_readyNoSooner (s : State) (c code x : Nat) :
    (s.readyNoSooner c code x).clock = s.clock := by simp [State.readyNoSooner]
@[simp] theorem State.clock_modFiles (s : State) (c : Nat) (f : Files → Files) :
    (s.modFiles c f).clock = s.clock := by simp [State.modFiles]
@[simp] theorem State.clock_putS (s : State) (c n : Nat) (v : Word) (lat : Nat) :
    (s.putS c n v lat).clock = s.clock := by simp [State.putS]
@[simp] theorem State.clock_putV (s : State) (c n : Nat) (v : Vec) (lat : Nat) :
    (s.putV c n v lat).clock = s.clock := by simp [State.putV]
@[simp] theorem State.clock_putP (s : State) (c n : Nat) (v : Word) (lat : Nat) :
    (s.putP c n v lat).clock = s.clock := by simp [State.putP]
@[simp] theorem State.clock_awaits (s : State) (c : Nat) (codes : List Nat) :
    (s.awaits c codes).clock = s.clock := by simp [State.awaits]
@[simp] theorem State.clock_landed (s : State) (c : Nat) (codes : List Nat) (x : Nat) :
    (s.landed c codes x).clock = s.clock := by simp [State.landed]
@[simp] theorem State.clock_arriveAt (s : State) (f id : Nat) : (s.arriveAt f id).clock = s.clock := by simp [State.arriveAt]
@[simp] theorem State.clock_arrive (s : State) (c : Nat) : (s.arrive c).clock = s.clock := by
  unfold State.arrive
  split <;> simp
@[simp] theorem State.clock_coreFault (s : State) (c slot cause : Nat) :
    (s.coreFault c slot cause).clock = s.clock := by
  simp only [State.coreFault]
  split <;> simp
@[simp] theorem State.clock_takeBubble (s : State) (c : Nat) : (s.takeBubble c).clock = s.clock := by simp [State.takeBubble]
@[simp] theorem State.clock_goOn (s : State) (c pc idle : Nat) : (s.goOn c pc idle).clock = s.clock := by simp [State.goOn]
@[simp] theorem State.clock_holdBack (s : State) (c : Nat) : (s.holdBack c).clock = s.clock := by simp [State.holdBack]
@[simp] theorem State.clock_issue (s : State) (c : Nat) (swathWait accepted : Bool) (spelt : BitVec 128 → Bool)
    (beside act : State → State) (hbeside : ∀ t, (beside t).clock = t.clock) (hact : ∀ t, (act t).clock = t.clock) :
    (s.issue c swathWait accepted spelt beside act).clock = s.clock := by
  unfold State.issue
  repeat' split
  all_goals simp [hbeside, hact]

/-! #### Leave -/

@[simp] theorem State.clock_setThrottle (s : State) (q : Nat) :
    (s.setThrottle q).clock = s.clock := by simp [State.setThrottle]
@[simp] theorem State.clock_modArb (s : State) (n : Nat) (f : Arbiter → Arbiter) :
    (s.modArb n f).clock = s.clock := by simp [State.modArb]
@[simp] theorem State.clock_enterReq (s : State) (r : LeaveReq) : (s.enterReq r).clock = s.clock := by simp [State.enterReq]
@[simp] theorem State.clock_askLeave (s : State) (cls q mask units span offset : Nat) (bank : Option Nat) :
    (s.askLeave cls q mask units span offset bank).clock = s.clock := by simp [State.askLeave]
@[simp] theorem State.clock_hardwareLeave (s : State) (c cls : Nat) (off : Bool) (op : Begin) :
    (s.hardwareLeave c cls off op).clock = s.clock := by simp [State.hardwareLeave]
@[simp] theorem State.clock_placeRequest (s : State) (n : Nat) : (s.placeRequest n).clock = s.clock := by
  unfold State.placeRequest
  split <;> simp
@[simp] theorem State.clock_startGrant (s : State) (n : Nat) (g : Grant) : (s.startGrant n g).clock = s.clock := by
  simp only [State.startGrant]
  repeat' split
  all_goals simp
@[simp] theorem State.clock_endSpan (s : State) (n : Nat) (g : Grant) :
    (s.endSpan n g).clock = s.clock := by simp [State.endSpan]
@[simp] theorem State.clock_dropGrants (s : State) (n : Nat) (p : Grant → Bool) :
    (s.dropGrants n p).clock = s.clock := by simp [State.dropGrants]

/-! #### Partition -/

@[simp] theorem State.clock_showPending (s : State) (q b : Nat) :
    (s.showPending q b).clock = s.clock := by simp [State.showPending]
@[simp] theorem State.clock_zeroBank (s : State) (q b : Nat) : (s.zeroBank q b).clock = s.clock := by simp [State.zeroBank]
@[simp] theorem State.clock_dropBank (s : State) (q b : Nat) : (s.dropBank q b).clock = s.clock := by simp [State.dropBank]
@[simp] theorem State.clock_powerBank (s : State) (q b : Nat) :
    (s.powerBank q b).clock = s.clock := by simp [State.powerBank]
@[simp] theorem State.clock_powerAgain (s : State) (q : Nat) : (s.powerAgain q).clock = s.clock := by simp [State.powerAgain]
@[simp] theorem State.clock_openPart (s : State) (q i : Nat) : (s.openPart q i).clock = s.clock := by
  have h := s.clock_setFld Fld.cluPartCfgGate q i 1
  unfold State.openPart
  generalize s.setFld Fld.cluPartCfgGate q i 1 = t at h ⊢
  simp [h]
@[simp] theorem State.clock_closePart (s : State) (q i : Nat) :
    (s.closePart q i).clock = s.clock := by simp [State.closePart]
@[simp] theorem State.clock_closureCheck (s : State) (q b : Nat) :
    (s.closureCheck q b).clock = s.clock := by simp [State.closureCheck]
@[simp] theorem State.clock_bankFilled (s : State) (q b : Nat) : (s.bankFilled q b).clock = s.clock := by
  unfold State.bankFilled
  split <;> simp
@[simp] theorem State.clock_partApply (s : State) (q i : Nat) (cfg : Bool) (v : Word) :
    (s.partApply q i cfg v).clock = s.clock := by
  unfold State.partApply
  extract_lets b0 c0 gate0 was old
  split
  extract_lets gate is s₁ s₂ s₃
  have h₁ : s₁.clock = s.clock := by rw [State.clock_setReg, State.clock_setReg]
  clear_value s₁
  have h₃ : s₃.clock = s.clock := by simp [s₃, s₂, h₁]
  clear_value s₃
  split <;> simp [h₃]
@[simp] theorem State.clock_tagWrite (s : State) (q a writer : Nat) : (s.tagWrite q a writer).clock = s.clock := by
  simp only [State.tagWrite]
  split <;> simp
@[simp] theorem State.clock_storeRow (s : State) (q a : Nat) (r : Row) :
    (s.storeRow q a r).clock = s.clock := by simp [State.storeRow]
@[simp] theorem State.clock_writeRow (s : State) (q a writer : Nat) (r : Row) :
    (s.writeRow q a writer r).clock = s.clock := by simp [State.writeRow]
@[simp] theorem State.clock_spRecord (s : State) (q a : Nat) (f : Option Nat) :
    (s.spRecord q a f).clock = s.clock := by simp [State.spRecord]
@[simp] theorem State.clock_spError (s : State) (q a : Nat) (f : Option Nat) (core : Nat) :
    (s.spError q a f core).clock = s.clock := by simp [State.spError]
@[simp] theorem State.clock_senseRow (s : State) (q a : Nat) : (s.senseRow q a).2.2.clock = s.clock := by
  unfold State.senseRow
  split <;> simp
@[simp] theorem State.clock_readRow (s : State) (q a : Nat) (f : Option Nat) (core : Nat) :
    (s.readRow q a f core).2.clock = s.clock := by
  simp only [State.readRow]
  split <;> simp
@[simp] theorem State.clock_gatedAccess (s : State) (q a writer : Nat) (f : Option Nat) (core : Nat) :
    (s.gatedAccess q a writer f core).clock = s.clock := by simp [State.gatedAccess]
@[simp] theorem State.clock_overrun (s : State) (q a kind src : Nat) :
    (s.overrun q a kind src).clock = s.clock := by simp [State.overrun]
@[simp] theorem State.clock_schedulerRow (s : State) (q a f : Nat) : (s.schedulerRow q a f).2.clock = s.clock := by
  simp only [State.schedulerRow]
  repeat' split
  all_goals simp
@[simp] theorem State.clock_schedulerRows (s : State) (q a f n : Nat) :
    (s.schedulerRows q a f n).2.clock = s.clock := by
  induction n generalizing s a with
  | zero => rfl
  | succ n ih => simp [State.schedulerRows, ih]
@[simp] theorem State.clock_stewardWrite (s : State) (q a : Nat) (r : Row) :
    (s.stewardWrite q a r).2.clock = s.clock := by simp [State.stewardWrite]
@[simp] theorem State.clock_stewardRow (s : State) (q a : Nat) (r : Row) :
    (s.stewardRow q a r).clock = s.clock := by simp [State.stewardRow]
@[simp] theorem State.clock_putRows (s : State) (q a : Nat) (l : List Row) : (s.putRows q a l).2.clock = s.clock := by
  induction l generalizing s a with
  | nil => rfl
  | cons r l ih => simp [State.putRows, ih]

/-! #### Dram -/

@[simp] theorem State.clock_dieError (s : State) (n row die : Nat) :
    (s.dieError n row die).clock = s.clock := by simp [State.dieError]
@[simp] theorem State.clock_stackError (s : State) (n a : Nat) (wclass : Bool) (dies : List Nat) (f : Option Nat) :
    (s.stackError n a wclass dies f).clock = s.clock := by simp [State.stackError]
@[simp] theorem State.clock_stackFixed (s : State) (n a : Nat) (wclass : Bool) (dies : List Nat) :
    (s.stackFixed n a wclass dies).clock = s.clock := by simp [State.stackFixed]
@[simp] theorem State.clock_stackRead (s : State) (n a : Nat) (f : Option Nat) :
    (s.stackRead n a f).2.clock = s.clock := by simp [State.stackRead]
@[simp] theorem State.clock_stackReads (s : State) (n a : Nat) (f : Option Nat) (k : Nat) :
    (s.stackReads n a f k).2.clock = s.clock := by
  induction k generalizing s a with
  | zero => rfl
  | succ k ih => simp [State.stackReads, ih]
@[simp] theorem State.clock_stackWrite (s : State) (n a : Nat) (r : Row) :
    (s.stackWrite n a r).clock = s.clock := by simp [State.stackWrite]
@[simp] theorem State.clock_stackWrites (s : State) (n a : Nat) (l : List Row) :
    (s.stackWrites n a l).clock = s.clock := by
  fun_induction State.stackWrites <;> simp_all
@[simp] theorem State.clock_agentStack (s : State) (n a : Nat) (f : Option Nat) :
    (s.agentStack n a f).2.clock = s.clock := by simp [State.agentStack]
@[simp] theorem State.clock_agentRead (s : State) (n a : Nat) (f : Option Nat) :
    (s.agentRead n a f).2.clock = s.clock := by
  have h := s.clock_agentStack n a f
  unfold State.agentRead
  split <;> simp_all
@[simp] theorem State.clock_agentWrite (s : State) (n a : Nat) (r : Row) (f : Option Nat) :
    (s.agentWrite n a r f).2.clock = s.clock := by
  have h := s.clock_agentStack n a f
  unfold State.agentWrite
  split <;> simp_all

/-! #### Matrix -/

@[simp] theorem State.clock_startMma (s : State) (c : Nat) : (s.startMma c).clock = s.clock := by
  simp only [State.startMma]
  repeat' split
  all_goals simp
@[simp] theorem State.clock_endMma (s : State) (c : Nat) : (s.endMma c).clock = s.clock := by
  unfold State.endMma
  split <;> simp

/-! #### Bank -/

@[simp] theorem State.clock_present (s : State) (q : Nat) (a : Access) :
    (s.present q a).clock = s.clock := by simp [State.present]
@[simp] theorem State.clock_modGroup (s : State) (q g : Nat) (f : Group → Group) :
    (s.modGroup q g f).clock = s.clock := by simp [State.modGroup]
@[simp] theorem State.clock_sendDone (s : State) (c : Nat) : (s.sendDone c).clock = s.clock := by simp [State.sendDone]
theorem State.clock_bulkLeave {s t : State} {c lo hi : Nat} {heavy off : Bool} {op : Begin}
    (h : s.bulkLeave c heavy off lo hi op = .wait t) : t.clock = s.clock := by
  simp only [State.bulkLeave] at h
  repeat' split at h
  all_goals cases h
  all_goals simp
theorem State.clock_moveLeave {s t : State} {o : CoreOp} {off : Bool} {e : Nat} (h : s.moveLeave o off e = .wait t) :
    t.clock = s.clock := State.clock_bulkLeave h

@[simp] theorem clock_rowMove (o : CoreOp) (f : Files) (s : State) (op : AccessOp) (after : State → State)
    (hafter : ∀ t, (after t).clock = t.clock) :
    (rowMove o f s op after).state.clock = s.clock := by
  simp only [rowMove]
  split
  · rfl
  · split
    next ht => exact State.clock_moveLeave ht
    next => simp [hafter]
@[simp] theorem clock_moveIdle (o : CoreOp) (f : Files) (s : State) (codes : List Nat) :
    (moveIdle o f s codes).state.clock = s.clock := by
  simp only [moveIdle]
  split
  · rfl
  · split
    next ht => exact State.clock_moveLeave ht
    next => simp
@[simp] theorem State.clock_writePart (s : State) (q i : Nat) (cfg : Bool) (v : Word) :
    (s.writePart q i cfg v).2.clock = s.clock := by simp [State.writePart]

/-! #### Port -/

@[simp] theorem State.clock_emit (s : State) (p l kind vc seq : Nat) (payload : List (BitVec 8)) :
    (s.emit p l kind vc seq payload).clock = s.clock := by simp [State.emit]
@[simp] theorem State.clock_pump (s : State) (p n : Nat) : (s.pump p n).clock = s.clock := by
  induction n generalizing s with
  | zero => rfl
  | succ n ih =>
    simp only [State.pump]
    repeat' split
    all_goals simp [ih]
@[simp] theorem State.clock_pumpAll (s : State) (p : Nat) : (s.pumpAll p).clock = s.clock := by simp [State.pumpAll]
@[simp] theorem State.clock_sendTx (s : State) (p : Nat) (tx : Tx) :
    (s.sendTx p tx).clock = s.clock := by simp [State.sendTx]
@[simp] theorem State.clock_deposit (s : State) (p n : Nat) (h : RowHeader) (r : Row) :
    (s.deposit p n h r).clock = s.clock := by simp [State.deposit]
@[simp] theorem State.clock_refuseHere (s : State) (h : RowHeader) :
    (s.refuseHere h).clock = s.clock := by simp [State.refuseHere]
@[simp] theorem State.clock_sendOn (s : State) (p vc : Nat) (l : List (RowHeader × Row)) :
    (s.sendOn p vc l).clock = s.clock := by simp [State.sendOn]
@[simp] theorem State.clock_sendPacket (s : State) (c vc : Nat) (h : RowHeader) (rows : List Row) :
    (s.sendPacket c vc h rows).clock = s.clock := by
  simp only [State.sendPacket]
  repeat' split
  all_goals simp

/-! #### Queue -/

@[simp] theorem State.clock_modQueue (s : State) (q k : Nat) (f : Queue → Queue) :
    (s.modQueue q k f).clock = s.clock := by simp [State.modQueue]
@[simp] theorem State.clock_openPort (s : State) (q id : Nat) (w : PortWork) (n : Nat) :
    (s.openPort q id w n).clock = s.clock := by simp [State.openPort]
@[simp] theorem State.clock_presentPort (s : State) (q id i row f core : Nat) (data : Option (Nat × Row)) :
    (s.presentPort q id i row f core data).clock = s.clock := by simp [State.presentPort]
@[simp] theorem State.clock_portRead (s : State) (q a f core : Nat) :
    (s.portRead q a f core).2.clock = s.clock := by simp [State.portRead]
@[simp] theorem State.clock_portReads (s : State) (q a f core n : Nat) :
    (s.portReads q a f core n).2.clock = s.clock := by
  induction n generalizing s a with
  | zero => rfl
  | succ n ih => simp [State.portReads, ih]
@[simp] theorem State.clock_reportArrival (s : State) (q row kind src f : Nat) (a : Arrived) :
    (s.reportArrival q row kind src f a).clock = s.clock := by
  unfold State.reportArrival
  split <;> simp
@[simp] theorem State.clock_refuseTarget (s : State) (q row kind src f core : Nat) (a : Arrived) :
    (s.refuseTarget q row kind src f core a).clock = s.clock := by simp [State.refuseTarget]
@[simp] theorem State.clock_inject (s : State) (p : Packet) : (s.inject p).clock = s.clock := by simp [State.inject]
@[simp] theorem State.clock_injectRows (s : State) (p : Packet) (i n : Nat) (l : List (Option Row)) :
    (s.injectRows p i n l).clock = s.clock := by
  fun_induction State.injectRows <;> simp_all
@[simp] theorem State.clock_respondRows (s : State) (src core k f tag x : Nat) (rows : List (Option Row)) :
    (s.respondRows src core k f tag x rows).clock = s.clock := by simp [State.respondRows]
@[simp] theorem State.clock_respond (s : State) (kind : PacketKind) (src core k f tag x : Nat) :
    (s.respond kind src core k f tag x).clock = s.clock := by simp [State.respond]
@[simp] theorem State.clock_sendWindow (s : State) (f : Nat) (r : QReq) : (s.sendWindow f r).clock = s.clock := by
  unfold State.sendWindow
  split <;> simp
@[simp] theorem State.clock_sendRequest (s : State) (f q k : Nat) (r : QReq) (dst first x : Nat) :
    (s.sendRequest f q k r dst first x).clock = s.clock := by simp [State.sendRequest]
@[simp] theorem State.clock_sendOut (s : State) (q k : Nat) (r : QReq) (x : Nat) :
    (s.sendOut q k r x).clock = s.clock := by
  simp only [State.sendOut]
  repeat' split
  all_goals simp
@[simp] theorem State.clock_sendWaiting (s : State) (q k x n : Nat) : (s.sendWaiting q k x n).clock = s.clock := by
  fun_induction State.sendWaiting <;> simp_all
@[simp] theorem State.clock_sendAll (s : State) (q k x : Nat) : (s.sendAll q k x).clock = s.clock := by simp [State.sendAll]
@[simp] theorem State.clock_enterRequest (s : State) (core k : Nat) (write : Bool) (addr : Word) (n : Nat)
    (data : List Row) (tag x : Nat) :
    (s.enterRequest core k write addr n data tag x).clock = s.clock := by simp [State.enterRequest]
@[simp] theorem State.clock_drawTag (s : State) : s.drawTag.clock = s.clock := by simp [State.drawTag]
@[simp] theorem clock_putIdle (o : CoreOp) (k : Nat) (room : Queue → Nat) (f : Files) (s : State) :
    (putIdle o k room f s).state.clock = s.clock := by simp [putIdle]
@[simp] theorem State.clock_endWait (s : State) (c dst : Nat) (v : Word) (f : Core → Core) :
    (s.endWait c dst v f).clock = s.clock := by simp [State.endWait]
@[simp] theorem State.clock_wakeCall (s : State) (core number st : Nat) :
    (s.wakeCall core number st).clock = s.clock := by
  simp only [State.wakeCall]
  split <;> simp
@[simp] theorem State.clock_wakeRows (s : State) (q k : Nat) : (s.wakeRows q k).clock = s.clock := by
  simp only [State.wakeRows]
  repeat' split
  all_goals simp
@[simp] theorem State.clock_wakeAcks (s : State) (q k core : Nat) : (s.wakeAcks q k core).clock = s.clock := by
  unfold State.wakeAcks
  split <;> simp
@[simp] theorem clock_waitIdle (o : CoreOp) (w : Option Wait) (s : State) : (waitIdle o w s).state.clock = s.clock := by
  unfold waitIdle
  split <;> simp
@[simp] theorem State.clock_earlyGet (s : State) (c k f : Nat) :
    (s.earlyGet c k f).clock = s.clock := by simp [State.earlyGet]
@[simp] theorem clock_qGetRun (o : CoreOp) (k : Nat) (d : GetDst) (f : Files) (s : State) :
    (qGetRun o k d f s).state.clock = s.clock := by
  unfold qGetRun
  repeat' split
  all_goals simp
@[simp] theorem clock_qGetIdle (o : CoreOp) (k : Nat) (d : GetDst) (f : Files) (s : State) :
    (qGetIdle o k d f s).state.clock = s.clock := by
  simp only [qGetIdle]
  repeat' split
  all_goals simp
@[simp] theorem State.clock_landRow (s : State) (q k : Nat) : (s.landRow q k).clock = s.clock := by
  simp only [State.landRow]
  repeat' split
  all_goals simp
@[simp] theorem State.clock_landAck (s : State) (q k : Nat) : (s.landAck q k).clock = s.clock := by
  simp only [State.landAck]
  split <;> simp
theorem State.clock_sendLeave {s t : State} {o : CoreOp} {off : Bool} {a b : Word}
    (h : s.sendLeave o off a b = .wait t) : t.clock = s.clock := State.clock_bulkLeave h

@[simp] theorem clock_slotSendIdle (o : CoreOp) (f : Files) (s : State) :
    (slotSendIdle o f s).state.clock = s.clock := by
  simp only [slotSendIdle]
  split
  · rfl
  · split
    next ht => exact State.clock_sendLeave ht
    next => simp
@[simp] theorem clock_slotSendRun (o : CoreOp) (f : Files) (s : State) : (slotSendRun o f s).state.clock = s.clock := by
  simp only [slotSendRun]
  split
  · rfl
  · split
    next ht => exact State.clock_sendLeave ht
    next => split <;> simp

/-! #### Transit -/

@[simp] theorem State.clock_answerOwn (s : State) (n : Nat) (h : RowHeader) (r : Row) :
    (s.answerOwn n h r).clock = s.clock := by
  simp only [State.answerOwn]
  split <;> simp
@[simp] theorem State.clock_setTransit (s : State) (tag : Nat) (t : Transit) :
    (s.setTransit tag t).clock = s.clock := by simp [State.setTransit]
@[simp] theorem State.clock_dropTransit (s : State) (tag : Nat) :
    (s.dropTransit tag).clock = s.clock := by simp [State.dropTransit]
@[simp] theorem State.clock_sendLinkRow (s : State) (tag : Nat) (t : Transit) (i : Nat) (r : Option Row) :
    (s.sendLinkRow tag t i r).clock = s.clock := by simp [State.sendLinkRow]
@[simp] theorem State.clock_respondLink (s : State) (kind : PacketKind) (src tag : Nat) :
    (s.respondLink kind src tag).clock = s.clock := by
  unfold State.respondLink
  split <;> simp
@[simp] theorem State.clock_respondLinkRows (s : State) (src tag x : Nat) (rows : List (Option Row)) :
    (s.respondLinkRows src tag x rows).clock = s.clock := by
  unfold State.respondLinkRows
  split <;> simp
@[simp] theorem State.clock_answerOut (s : State) (p n : Nat) (h : RowHeader) (r : Row) :
    (s.answerOut p n h r).clock = s.clock := by simp [State.answerOut]
@[simp] theorem State.clock_refuseBack (s : State) (p n cause : Nat) (h : RowHeader) :
    (s.refuseBack p n cause h).clock = s.clock := by simp [State.refuseBack]
@[simp] theorem State.clock_landLinkRow (s : State) (tag i : Nat) (row : Option Row) :
    (s.landLinkRow tag i row).clock = s.clock := by
  unfold State.landLinkRow
  split <;> simp
@[simp] theorem State.clock_landLinkEnd (s : State) (tag : Nat) (cause : Option Nat) :
    (s.landLinkEnd tag cause).clock = s.clock := by
  unfold State.landLinkEnd
  split <;> simp
@[simp] theorem State.clock_landRelay (s : State) (tag vc : Nat) (r : Option Row) :
    (s.landRelay tag vc r).clock = s.clock := by
  unfold State.landRelay
  split <;> simp
@[simp] theorem State.clock_refuseTransits (s : State) (mine : Nat → Bool) :
    (s.refuseTransits mine).clock = s.clock := by simp [State.refuseTransits]
@[simp] theorem State.clock_refuseLink (s : State) (q tag : Nat) (t : Transit) (a : Arrived) :
    (s.refuseLink q tag t a).clock = s.clock := by simp [State.refuseLink]
@[simp] theorem State.clock_endLink (s : State) (q tag x : Nat) (rows : List (Option Row)) :
    (s.endLink q tag x rows).clock = s.clock := by
  unfold State.endLink
  split <;> simp

/-! #### Access -/

@[simp] theorem State.clock_dropPort (s : State) (q id : Nat) : (s.dropPort q id).clock = s.clock := by simp [State.dropPort]
@[simp] theorem State.clock_endPut (s : State) (q id core k : Nat) (addr : Word) (j : PortJob) (x : Nat) :
    (s.endPut q id core k addr j x).clock = s.clock := by simp [State.endPut]
@[simp] theorem State.clock_endPuts (s : State) (q k x n : Nat) : (s.endPuts q k x n).clock = s.clock := by
  fun_induction State.endPuts <;> simp_all
@[simp] theorem State.clock_arrived (s : State) (q row : Nat) : (s.arrived q row).clock = s.clock := by simp [State.arrived]
@[simp] theorem State.clock_putOperand (s : State) (n core number : Nat) (addr : Word) (row : Option Row) :
    (s.putOperand n core number addr row).clock = s.clock := by simp [State.putOperand]
@[simp] theorem State.clock_sendOperand (s : State) (src n core number f : Nat) (addr : Word) (x : Nat)
    (row : Option Row) :
    (s.sendOperand src n core number f addr x row).clock = s.clock := by simp [State.sendOperand]
@[simp] theorem State.clock_releaseBlock (s : State) (q core number : Nat) :
    (s.releaseBlock q core number).clock = s.clock := by
  simp only [State.releaseBlock]
  repeat' split
  all_goals simp
@[simp] theorem State.clock_landResult (s : State) (q core number f a : Nat) (r : Row) (block : Bool) :
    (s.landResult q core number f a r block).clock = s.clock := by simp [State.landResult]
@[simp] theorem State.clock_endPort (s : State) (q id : Nat) (j : PortJob) (x : Nat) :
    (s.endPort q id j x).clock = s.clock := by
  simp only [State.endPort]
  repeat' split
  all_goals simp
@[simp] theorem State.clock_portRow (s : State) (q id i x : Nat) (r : Option Row) :
    (s.portRow q id i x r).clock = s.clock := by
  unfold State.portRow
  split <;> simp
@[simp] theorem State.clock_deliver (s : State) (q : Nat) (a : Access) (ends : Nat) (r : Option Row) :
    (s.deliver q a ends r).clock = s.clock := by
  simp only [State.deliver]
  repeat' split
  all_goals simp
@[simp] theorem State.clock_collectRow (s : State) (q g c code ends : Nat) :
    (s.collectRow q g c code ends).clock = s.clock := by
  unfold State.collectRow
  split <;> simp
@[simp] theorem State.clock_takeCycle (s : State) (q b ends : Nat) :
    (s.takeCycle q b ends).clock = s.clock := by simp [State.takeCycle]
@[simp] theorem State.clock_serve (s : State) (q : Nat) (a : Access) : (s.serve q a).clock = s.clock := by
  simp only [State.serve]
  repeat' split
  all_goals simp
@[simp] theorem State.clock_refuse (s : State) (q : Nat) (a : Access) : (s.refuse q a).clock = s.clock := by
  unfold State.refuse
  split <;> simp
@[simp] theorem State.clock_moveOn (s : State) (q : Nat) (late : Bool) (a : Access) :
    (s.moveOn q late a).clock = s.clock := by simp [State.moveOn]
@[simp] theorem State.clock_bankEdgeAt (s : State) (q b : Nat) : (s.bankEdgeAt q b).clock = s.clock := by
  simp only [State.bankEdgeAt]
  split <;> simp
@[simp] theorem State.clock_scrubRow (s : State) (q a : Nat) : (s.scrubRow q a).clock = s.clock := by
  simp only [State.scrubRow]
  split <;> simp
@[simp] theorem State.clock_scrub (s : State) (q a : Nat) : (s.scrub q a).clock = s.clock := by simp [State.scrub]

/-! #### ArrayCore -/

@[simp] theorem State.clock_collect (s : State) (o : CoreOp) (g fold row : Nat) (v : ArrVec) :
    (s.collect o g fold row v).clock = s.clock := by
  simp only [State.collect]
  split <;> simp

/-! #### Side -/

@[simp] theorem State.clock_modJob (s : State) (q id : Nat) (f : SideJob → SideJob) :
    (s.modJob q id f).clock = s.clock := by simp [State.modJob]
@[simp] theorem State.clock_openJob (s : State) (q : Nat) (j : SideJob) :
    (s.openJob q j).clock = s.clock := by simp [State.openJob]
@[simp] theorem State.clock_askShadow (s : State) (q : Nat) (j : SideJob) (i rpi : Nat) (addr : Word) :
    (s.askShadow q j i rpi addr).clock = s.clock := by simp [State.askShadow]
@[simp] theorem State.clock_refuseShadow (s : State) (q : Nat) (j : SideJob) (m row : Nat) :
    (s.refuseShadow q j m row).clock = s.clock := by simp [State.refuseShadow]
@[simp] theorem State.clock_fetchElem (s : State) (q : Nat) (j : SideJob) (i : Nat) :
    (s.fetchElem q j i).clock = s.clock := by
  simp only [State.fetchElem]
  split <;> simp
@[simp] theorem State.clock_startJob (s : State) (q id : Nat) (mode : SideMode) (z : List Nat) (e : Int)
    (elems : List Nat) :
    (s.startJob q id mode z e elems).clock = s.clock := by
  simp only [State.startJob]
  split <;> simp
@[simp] theorem State.clock_takeSideRow (s : State) (q : Nat) : (s.takeSideRow q).clock = s.clock := by
  simp only [State.takeSideRow]
  repeat' split
  all_goals simp
@[simp] theorem State.clock_decideJob (s : State) (q : Nat) (v : ArrVec) :
    (s.decideJob q v).clock = s.clock := by simp [State.decideJob]
@[simp] theorem State.clock_deliverJob (s : State) (q : Nat) : (s.deliverJob q).clock = s.clock := by
  unfold State.deliverJob
  split <;> simp

/-! #### Array -/

@[simp] theorem State.clock_modVec (s : State) (q g : Nat) (p : ArrVec → Bool) (f : ArrVec → ArrVec) :
    (s.modVec q g p f).clock = s.clock := by simp [State.modVec]
@[simp] theorem State.clock_setVec (s : State) (q g : Nat) (p : ArrVec → Bool) (v : ArrVec) :
    (s.setVec q g p v).clock = s.clock := by simp [State.setVec]
@[simp] theorem State.clock_acceptNow (s : State) (q g : Nat) (v : ArrVec) :
    (s.acceptNow q g v).clock = s.clock := by simp [State.acceptNow]
@[simp] theorem State.clock_askForVec (s : State) (q g : Nat) (v : ArrVec) :
    (s.askForVec q g v).clock = s.clock := by simp [State.askForVec]
@[simp] theorem State.clock_acceptVec (s : State) (q g : Nat) : (s.acceptVec q g).clock = s.clock := by
  unfold State.acceptVec
  repeat' split
  all_goals simp
@[simp] theorem State.clock_splitOverrun (s : State) (q g : Nat) (v : ArrVec) :
    (s.splitOverrun q g v).1.clock = s.clock := by simp [State.splitOverrun]
@[simp] theorem State.clock_enterPlanes (s : State) (q g : Nat) (v : ArrVec) :
    (s.enterPlanes q g v).clock = s.clock := by simp [State.enterPlanes]
@[simp] theorem State.clock_rotated (s : State) (q g : Nat) (v : ArrVec) (planeT late : Nat) :
    (s.rotated q g v planeT late).clock = s.clock := by simp [State.rotated]
@[simp] theorem State.clock_endRotation (s : State) (q g : Nat) : (s.endRotation q g).clock = s.clock := by
  unfold State.endRotation
  split <;> simp
@[simp] theorem State.clock_planeDone (s : State) (q g : Nat) (v : ArrVec) (p : SubPlane) (rest : List SubPlane) :
    (s.planeDone q g v p rest).clock = s.clock := by
  fun_cases State.planeDone s q g v p rest
  case case1 finish _ => simp [finish]
  case case2 finish _ _ _ _ _ _ _ x _ heq =>
    have hx : x.clock = s.clock := by
      rw [show x = (x, _).1 from rfl, ← heq, State.clock_splitOverrun, State.clock_bump, State.clock_drew]
    simp [finish, hx]
  case case3 finish _ _ s₁ _ _ _ _ s₂ => simp [finish, s₂, s₁]
  case case4 finish _ _ s₁ _ => simp [finish, s₁]
@[simp] theorem State.clock_arrayPlane (s : State) (q g : Nat) : (s.arrayPlane q g).clock = s.clock := by
  simp only [State.arrayPlane]
  repeat' split
  all_goals simp
@[simp] theorem State.clock_setNormSlot (s : State) (q i : Nat) (m : NormSlot) :
    (s.setNormSlot q i m).clock = s.clock := by simp [State.setNormSlot]
@[simp] theorem State.clock_watch (s : State) (q : Nat) (v : ArrVec) : (s.watch q v).1.clock = s.clock := by
  simp only [State.watch]
  repeat' split
  all_goals simp
@[simp] theorem State.clock_accumulate (s : State) (q g : Nat) : (s.accumulate q g).clock = s.clock := by
  unfold State.accumulate
  split <;> simp
@[simp] theorem State.clock_resultReady (s : State) (q g : Nat) : (s.resultReady q g).clock = s.clock := by
  unfold State.resultReady
  split <;> simp

/-! #### Calibrate -/

@[simp] theorem State.clock_entryRows (s : State) (q f row n : Nat) :
    (s.entryRows q f row n).2.clock = s.clock := by simp [State.entryRows]
@[simp] theorem State.clock_loadEntry (s : State) (q e : Nat) (num : Row) (scale : List Row) :
    (s.loadEntry q e num scale).clock = s.clock := by simp [State.loadEntry]
@[simp] theorem State.clock_writeLayer (s : State) (steward : Bool) (q e r : Nat) (v : Word) :
    (s.writeLayer steward q e r v).2.clock = s.clock := by
  simp only [State.writeLayer]
  repeat' split
  all_goals simp
@[simp] theorem State.clock_modArr (s : State) (q a : Nat) (f : Arr → Arr) :
    (s.modArr q a f).clock = s.clock := by simp [State.modArr]
@[simp] theorem State.clock_setArrState (s : State) (q a v : Nat) :
    (s.setArrState q a v).clock = s.clock := by simp [State.setArrState]
@[simp] theorem State.clock_recordCluster (s : State) (q : Nat) :
    (s.recordCluster q).clock = s.clock := by simp [State.recordCluster]
@[simp] theorem State.clock_retireArray (s : State) (q a : Nat) :
    (s.retireArray q a).clock = s.clock := by simp [State.retireArray]
@[simp] theorem State.clock_fitDone (s : State) (q a : Nat) (f : CalFit) :
    (s.fitDone q a f).clock = s.clock := by simp [State.fitDone]
@[simp] theorem State.clock_wearRow (s : State) (q a : Nat) : (s.wearRow q a).clock = s.clock := by simp [State.wearRow]
@[simp] theorem State.clock_programRow (s : State) (q a row : Nat) (w : BitVec 2048) (drifted : Bool)
    (stuck : List StuckCell) :
    (s.programRow q a row w drifted stuck).clock = s.clock := by simp [State.programRow]
@[simp] theorem State.clock_askCodec (s : State) (q : Nat) : (s.askCodec q).clock = s.clock := by simp [State.askCodec]
@[simp] theorem State.clock_askCodecs (s : State) (qs : List Nat) :
    (s.askCodecs qs).clock = s.clock := by simp [State.askCodecs]
@[simp] theorem State.clock_programRows (s : State) (q a r : Nat) (l : List (BitVec 2048)) :
    (s.programRows q a r l).clock = s.clock := by
  fun_induction State.programRows <;> simp_all

/-! #### Sync -/

@[simp] theorem clock_engCallRun (o : CoreOp) (f : Files) (s : State) :
    (engCallRun o f s).state.clock = s.clock := by simp [engCallRun]
@[simp] theorem State.clock_sendRecord (s : State) (c : Nat) : (s.sendRecord c).clock = s.clock := by
  simp only [State.sendRecord]
  split <;> simp

/-! #### Time -/

@[simp] theorem State.clock_setLock (s : State) (v : Nat) : (s.setLock v).clock = s.clock := by simp [State.setLock]
@[simp] theorem State.clock_stepTime (s : State) (ns : Nat) : (s.stepTime ns).clock = s.clock := by simp [State.stepTime]
@[simp] theorem State.clock_judgeOffset (s : State) (o : Int) : (s.judgeOffset o).clock = s.clock := by
  have h := s.clock_setFld Fld.timStatusOffsetNs 0 0 (offsetWord o)
  unfold State.judgeOffset
  generalize s.setFld Fld.timStatusOffsetNs 0 0 (offsetWord o) = t at h ⊢
  simp [h]
/-- The part of `ppsEdge` that follows the count of the second. -/
theorem State.clock_edgeStep (s : State) (n : Nat) :
    (let s := s.judgeOffset ((s.ns : Int) - (n : Int))
      let s := { s with time := { s.time with fresh := false, lastEdge := some s.now } }
      if s.time.mayStep then s.stepTime n else s).clock = s.clock := by
  extract_lets s₁ time s₂
  have h₁ : s₁.clock = s.clock := State.clock_judgeOffset _ _
  have h₂ : s₂.clock = s₁.clock := State.clock_congr rfl rfl
  rw [State.clock_ite, State.clock_stepTime, ite_self, h₂, h₁]

@[simp] theorem State.clock_ppsEdge (s : State) : s.ppsEdge.clock = s.clock := by
  have h : (if s.time.fresh then s else s.setReg .timPpsTai 0 0 (s.reg .timPpsTai 0 0 + 1)).clock = s.clock := by
    rw [State.clock_ite, State.clock_setReg, ite_self]
  exact (State.clock_edgeStep _ _).trans h
@[simp] theorem State.clock_ptpSync (s : State) (o : Int) : (s.ptpSync o).clock = s.clock := by
  have h := s.clock_judgeOffset o
  unfold State.ptpSync
  generalize s.judgeOffset o = t at h ⊢
  simp [h]
@[simp] theorem State.clock_toHoldover (s : State) : s.toHoldover.clock = s.clock := by simp [State.toHoldover]

/-! #### Serving -/

@[simp] theorem State.clock_modPool (s : State) (n i : Nat) (f : Pool → Pool) :
    (s.modPool n i f).clock = s.clock := by simp [State.modPool]
@[simp] theorem State.clock_countFrame (s : State) (n : Nat) (w : Word) (f : Nat → Nat) :
    (s.countFrame n w f).clock = s.clock := by
  unfold State.countFrame
  split <;> simp
theorem State.clock_takeFrame {s : State} {n i : Nat} {r : Word × State} (h : s.takeFrame n i = some r) :
    r.2.clock = s.clock := by
  unfold State.takeFrame at h
  split at h
  · cases h
  · split at h
    · cases h
    · cases h
      simp
@[simp] theorem State.clock_failEntry (s : State) (g st : Nat) :
    (s.failEntry g st).clock = s.clock := by simp [State.failEntry]
@[simp] theorem State.clock_walkerRead (s : State) (g : Nat) (w : Word) (i : Nat) :
    (s.walkerRead g w i).2.clock = s.clock := by
  have hrow := s.clock_schedulerRow (pteUnit w) (128 * pteFrame w + i) (s.entry g).fold
  have hread := s.clock_agentRead (pteUnit w) (128 * pteFrame w + i) (some (s.entry g).fold)
  simp only [State.walkerRead]
  repeat' split
  all_goals simp_all
@[simp] theorem State.clock_walkerWrite (s : State) (g : Nat) (w : Word) (i : Nat) (r : Row) :
    (s.walkerWrite g w i r).clock = s.clock := by
  have h := s.clock_agentWrite (pteUnit w) (128 * pteFrame w + i) r (some (s.entry g).fold)
  simp only [State.walkerWrite]
  repeat' split
  all_goals simp_all
@[simp] theorem State.clock_copyFrameRow (s : State) (g : Nat) (src dst : Word) (i : Nat) :
    (s.copyFrameRow g src dst i).clock = s.clock := by
  have h := s.clock_walkerRead g src i
  unfold State.copyFrameRow
  split <;> simp_all
@[simp] theorem State.clock_copyFrame (s : State) (g : Nat) (src dst : Word) :
    (s.copyFrame g src dst).clock = s.clock := by simp [State.copyFrame]
@[simp] theorem State.clock_dropLookaside (s : State) (g : Nat) :
    (s.dropLookaside g).clock = s.clock := by simp [State.dropLookaside]
@[simp] theorem State.clock_storePte (s : State) (g n : Nat) (w : Word) :
    (s.storePte g n w).clock = s.clock := by simp [State.storePte]
@[simp] theorem State.clock_setPage (s : State) (g n : Nat) (w : Word) :
    (s.setPage g n w).clock = s.clock := by simp [State.setPage]
@[simp] theorem State.clock_clearPage (s : State) (g n : Nat) :
    (s.clearPage g n).clock = s.clock := by simp [State.clearPage]
@[simp] theorem State.clock_releasePage (s : State) (g n : Nat) : (s.releasePage g n).clock = s.clock := by
  unfold State.releasePage
  split <;> simp
@[simp] theorem State.clock_trimTo (s : State) (g l : Nat) : (s.trimTo g l).clock = s.clock := by simp [State.trimTo]
theorem State.clock_extendPage {s t : State} {g n : Nat} (h : s.extendPage g n = some t) : t.clock = s.clock := by
  simp only [State.extendPage] at h
  split at h
  · obtain ⟨x, hx, rfl⟩ := Option.map_eq_some_iff.mp h
    simp [State.clock_takeFrame hx]
  · split at h
    · cases h
      rfl
    · obtain ⟨x, hx, rfl⟩ := Option.map_eq_some_iff.mp h
      simp [State.clock_takeFrame hx]
theorem clock_extendPages {s t : State} {g : Nat} {l : List Nat} (h : extendPages g l s = some t) :
    t.clock = s.clock := by
  induction l generalizing s with
  | nil =>
    cases h
    rfl
  | cons n l ih =>
    obtain ⟨x, hx, hl⟩ := Option.bind_eq_some_iff.mp h
    exact (ih hl).trans (State.clock_extendPage hx)
theorem State.clock_extendTo {s t : State} {g n : Nat} (h : s.extendTo g n = some t) : t.clock = s.clock := by
  simp only [State.extendTo] at h
  split at h
  · cases h
  · obtain ⟨x, hx, rfl⟩ := Option.map_eq_some_iff.mp h
    simp [clock_extendPages hx]
@[simp] theorem State.clock_countTok (s : State) (g tok pos : Nat) :
    (s.countTok g tok pos).clock = s.clock := by simp [State.countTok]
@[simp] theorem clock_countToks (g n : Nat) (l : List Nat) (s : State) : (countToks g n l s).clock = s.clock := by
  fun_induction countToks <;> simp_all
@[simp] theorem State.clock_writeEntry (s : State) (ep : Nat) (x : CEntry) :
    (s.writeEntry ep x).clock = s.clock := by simp [State.writeEntry]
@[simp] theorem State.clock_modItem (s : State) (ep seq : Nat) (f : Item → Item) :
    (s.modItem ep seq f).clock = s.clock := by simp [State.modItem]
@[simp] theorem State.clock_owe (s : State) (ep seq status swath : Nat) (handle : Option Nat) :
    (s.owe ep seq status swath handle).clock = s.clock := by simp [State.owe]
@[simp] theorem State.clock_finish (s : State) (ep seq : Nat) (replayed : Bool) :
    (s.finish ep seq replayed).clock = s.clock := by
  simp only [State.finish]
  repeat' split
  all_goals simp
@[simp] theorem State.clock_flushFinals (s : State) (ep : Nat) :
    (s.flushFinals ep).clock = s.clock := by simp [State.flushFinals]
@[simp] theorem State.clock_complete (s : State) (ep seq status swath : Nat) (handle : Option Nat) :
    (s.complete ep seq status swath handle).clock = s.clock := by simp [State.complete]
@[simp] theorem State.clock_failItem (s : State) (ep : Nat) (i : Item) :
    (s.failItem ep i).clock = s.clock := by simp [State.failItem]
@[simp] theorem State.clock_failLost (s : State) (g : Nat) : (s.failLost g).clock = s.clock := by simp [State.failLost]
@[simp] theorem State.clock_settleEntry (s : State) (g : Nat) :
    (s.settleEntry g).clock = s.clock := by simp [State.settleEntry]
@[simp] theorem State.clock_leaveSwath (s : State) (g : Nat) : (s.leaveSwath g).clock = s.clock := by simp [State.leaveSwath]
@[simp] theorem State.clock_freeEntry (s : State) (g : Nat) : (s.freeEntry g).clock = s.clock := by simp [State.freeEntry]
@[simp] theorem State.clock_loseEntry (s : State) (g : Nat) : (s.loseEntry g).clock = s.clock := by simp [State.loseEntry]

/-! #### Route -/

@[simp] theorem State.clock_reserve (s : State) (f : Nat) (c : CellAt) :
    (s.reserve f c).clock = s.clock := by simp [State.reserve]
@[simp] theorem State.clock_unreserve (s : State) (f : Nat) : (s.unreserve f).clock = s.clock := by simp [State.unreserve]

/-! #### Commit -/

@[simp] theorem State.clock_newTokens (s : State) (f : Nat) (im : Image) (i n : Nat) :
    (s.newTokens f im i n).2.clock = s.clock := by
  unfold State.newTokens
  split <;> simp
@[simp] theorem State.clock_syncDraft (s : State) (g : Nat) (commit : Option Nat) :
    (s.syncDraft g commit).clock = s.clock := by
  unfold State.syncDraft
  split <;> simp
@[simp] theorem State.clock_countInput (s : State) (g : Nat) (i : Item) (c k : Nat) :
    (s.countInput g i c k).clock = s.clock := by simp [State.countInput]
@[simp] theorem State.clock_stepTensor (s : State) (eta : Nat) (lambda : Int) (grad : Nat → Nat) (p : Placed)
    (old : List Row) :
    (s.stepTensor eta lambda grad p old).2.clock = s.clock := by
  unfold State.stepTensor
  split <;> simp
@[simp] theorem State.clock_readMasters (s : State) (f : Nat) (l : List (Nat × Placed)) :
    (s.readMasters f l).2.clock = s.clock := by
  induction l generalizing s with
  | nil => rfl
  | cons x l ih => simp [State.readMasters, ih]
@[simp] theorem State.clock_trainStep (s : State) (f : Nat) (h : Nat) (it : Item) (b : BatchItem) (st : Nat)
    (told : Bool) :
    (s.trainStep f h it b st told).2.clock = s.clock := by
  unfold State.trainStep
  split
  · rfl
  next m _ =>
    have h := fun t : State => t.clock_readMasters f m.cur.factors
    dsimp only
    split
    · simp
    · split
      · simp
      · split
        next hx => exact State.clock_of_snd hx (by simp)
        next hx =>
          refine (State.clock_foldl_snd _ (fun x a => ?_) _).trans (State.clock_of_snd hx (by simp))
          simp
@[simp] theorem State.clock_writeMirror (s : State) (f g : Nat) (i : Item) (st : Option Nat) (job : Option OutJob) :
    (s.writeMirror f g i st job).clock = s.clock := by simp [State.writeMirror]
@[simp] theorem State.clock_commitItem (s : State) (f : Nat) (im : Image) (rows : List (Except Nat Row)) (i : Nat)
    (b : BatchItem) :
    (s.commitItem f im rows i b).1.clock = s.clock := by
  unfold State.commitItem
  extract_lets g e
  split
  · rfl
  · split
    · rfl
    · split
      extract_lets k0 code long k
      split
      next read s₁ hread =>
      have h₁ : s₁.clock = s.clock := State.clock_of_snd hread (by split <;> simp)
      extract_lets b toks s₂ s₃ s₄ s₅ s₆ rated s₇
      have h₆ : s₆.clock = s.clock := by simp [s₆, s₅, s₄, s₃, s₂, h₁]
      have h₇ : s₇.clock = s.clock := by simp [s₇, h₆]
      clear_value rated s₇
      split
      next st s₈ hst =>
      have h₈ : s₈.clock = s.clock := by
        refine State.clock_of_snd hst ?_
        split
        · split <;> simp [h₆, h₇]
        · exact h₆
      clear hst
      extract_lets s₉
      have h₉ : s₉.clock = s.clock := by
        simp only [s₉]
        split <;> simp [h₈]
      clear_value s₉
      split
      extract_lets job s₁₀ s₁₁ s₁₂
      simp only [s₁₂, State.clock_writeMirror]
      split <;> simp [s₁₁, s₁₀, h₉]
@[simp] theorem clock_commitAll (f : Nat) (im : Image) (rows : List (Except Nat Row)) (i : Nat) (l : List BatchItem)
    (s : State) :
    (commitAll f im rows i l s).1.clock = s.clock := by
  induction l generalizing s i with
  | nil => rfl
  | cons b l ih => simp [commitAll, ih]
@[simp] theorem State.clock_commitBatch (s : State) (f : Nat) (im : Image) (l : List BatchItem) :
    (s.commitBatch f im l).1.clock = s.clock := by simp [State.commitBatch]
@[simp] theorem State.clock_writeStream (s : State) (g ep off : Nat) (data : List (BitVec 8)) :
    (s.writeStream g ep off data).clock = s.clock := by simp [State.writeStream]
@[simp] theorem State.clock_writeHeader (s : State) (g ep swath seq : Nat) :
    (s.writeHeader g ep swath seq).clock = s.clock := by simp [State.writeHeader]
@[simp] theorem State.clock_writeRing (s : State) (f ep : Nat) (jobs : List OutJob) :
    (s.writeRing f ep jobs).clock = s.clock := by simp [State.writeRing]
@[simp] theorem State.clock_writeOutput (s : State) (f : Nat) (batch : List BatchItem) (jobs : List OutJob) :
    (s.writeOutput f batch jobs).clock = s.clock := by simp [State.writeOutput]
@[simp] theorem State.clock_commitSwath (s : State) (f : Nat) : (s.commitSwath f).clock = s.clock := by
  unfold State.commitSwath
  split <;> simp
@[simp] theorem State.clock_failItemOf (s : State) (f : Nat) (st : Option Nat) (b : BatchItem) :
    (s.failItemOf f st b).clock = s.clock := by
  simp only [State.failItemOf]
  repeat' split
  all_goals simp
@[simp] theorem State.clock_failSwath (s : State) (f : Nat) (st : Option Nat) :
    (s.failSwath f st).clock = s.clock := by simp [State.failSwath]
@[simp] theorem State.clock_takeProfiles (s : State) (f : Nat) :
    (s.takeProfiles f).clock = s.clock := by simp [State.takeProfiles]
@[simp] theorem State.clock_copySwitch (s : State) (f : Nat) : (s.copySwitch f).clock = s.clock := by simp [State.copySwitch]
@[simp] theorem State.clock_sharePage (s : State) (g n : Nat) (w : Word) : (s.sharePage g n w).clock = s.clock := by
  simp only [State.sharePage]
  split
  · simp
  · split
    next hx => simp [State.clock_takeFrame hx]
    next => rfl
@[simp] theorem State.clock_sharePrefix (s : State) (g : Nat) : (s.sharePrefix g).clock = s.clock := by
  unfold State.sharePrefix
  split <;> simp
@[simp] theorem State.clock_judgeDeadline (s : State) (f g ns n : Nat) :
    (s.judgeDeadline f g ns n).clock = s.clock := by
  induction n generalizing s with
  | zero => rfl
  | succ n ih =>
    simp only [State.judgeDeadline]
    repeat' split
    all_goals simp [ih]
@[simp] theorem State.clock_judgeDeadlines (s : State) (f ns : Nat) :
    (s.judgeDeadlines f ns).clock = s.clock := by simp [State.judgeDeadlines]
@[simp] theorem State.clock_place (im : Image) (f : Nat) (acc : State × Forming) (x : Nat × Item) :
    (State.place im f acc x).1.clock = acc.1.clock := by
  simp only [State.place]
  repeat' split
  all_goals simp
@[simp] theorem State.clock_batchRow (s : State) (f : Nat) (g : Option Nat) (q a : Nat) (r : Row) :
    (s.batchRow f g q a r).clock = s.clock := by
  have h := s.clock_stewardWrite q a r
  unfold State.batchRow
  repeat' split
  all_goals simp_all
@[simp] theorem State.clock_writeBatch (s : State) (f : Nat) (im : Image) (swath : Nat) (batch : List BatchItem) :
    (s.writeBatch f im swath batch).clock = s.clock := by
  simp only [State.writeBatch]
  refine (State.clock_foldl _ (fun t x => ?_) _).trans (by simp)
  split <;> simp
@[simp] theorem State.clock_form (s : State) (f : Nat) : (s.form f).clock = s.clock := by
  simp only [State.form]
  split
  · rfl
  · simp
@[simp] theorem State.clock_tryForm (s : State) (f : Nat) : (s.tryForm f).clock = s.clock := by simp [State.tryForm]

/-! #### Swath -/

@[simp] theorem State.clock_sendMarkerOn (s : State) (ports : List Nat) (tag f kind id gen : Nat) :
    (s.sendMarkerOn ports tag f kind id gen).clock = s.clock := by simp [State.sendMarkerOn]
@[simp] theorem State.clock_sendMarker (s : State) (f kind id gen : Nat) :
    (s.sendMarker f kind id gen).clock = s.clock := by simp [State.sendMarker]
@[simp] theorem State.clock_closeWindows (s : State) (f : Nat) :
    (s.closeWindows f).clock = s.clock := by simp [State.closeWindows]
@[simp] theorem State.clock_openWindow (s : State) (f : Nat) (d : WinDecl) :
    (s.openWindow f d).clock = s.clock := by simp [State.openWindow]
@[simp] theorem State.clock_openWindows (s : State) (f : Nat) : (s.openWindows f).clock = s.clock := by
  unfold State.openWindows
  split <;> simp
@[simp] theorem State.clock_stopCores (s : State) (f : Nat) : (s.stopCores f).clock = s.clock := by
  refine State.clock_foldl _ (fun t q => ?_) s
  exact State.clock_congr rfl rfl
@[simp] theorem State.clock_dropTraffic (s : State) (f : Nat) :
    (s.dropTraffic f).clock = s.clock := by simp [State.dropTraffic]
@[simp] theorem State.clock_toIdle (s : State) (f : Nat) : (s.toIdle f).clock = s.clock := by simp [State.toIdle]
@[simp] theorem State.clock_mapGroup (s : State) (q named phys : Nat) :
    (s.mapGroup q named phys).clock = s.clock := by simp [State.mapGroup]
@[simp] theorem State.clock_switchGroup (s : State) (r : Rebuild) : (s.switchGroup r).clock = s.clock := by
  unfold State.switchGroup
  split <;> simp
@[simp] theorem State.clock_freqStep (s : State) (f q : Nat) : (s.freqStep f q).clock = s.clock := by simp [State.freqStep]
@[simp] theorem State.clock_openCluster (s : State) (f : Nat) (im : Image) (q : Nat) :
    (s.openCluster f im q).clock = s.clock := by simp [State.openCluster]
@[simp] theorem State.clock_openSwath (s : State) (f nb : Nat) (im : Image) :
    (s.openSwath f nb im).clock = s.clock := by simp [State.openSwath]
@[simp] theorem State.clock_stopFault (s : State) (f : Nat) (st : Option Nat) :
    (s.stopFault f st).clock = s.clock := by simp [State.stopFault]
@[simp] theorem State.clock_stoppedBoundary (s : State) (f : Nat) :
    (s.stoppedBoundary f).clock = s.clock := by simp [State.stoppedBoundary]
@[simp] theorem State.clock_boundaryStop (s : State) (f : Nat) :
    (s.boundaryStop f).clock = s.clock := by simp [State.boundaryStop]
@[simp] theorem State.clock_noteRelease (s : State) (f x : Nat) :
    (s.noteRelease f x).clock = s.clock := by simp [State.noteRelease]
@[simp] theorem State.clock_runStart (s : State) (f : Nat) : (s.runStart f).clock = s.clock := by simp [State.runStart]
@[simp] theorem State.clock_passStile (s : State) (f id : Nat) : (s.passStile f id).clock = s.clock := by
  simp only [State.passStile]
  repeat' split
  all_goals simp
@[simp] theorem State.clock_releaseStile (s : State) (f id x : Nat) :
    (s.releaseStile f id x).clock = s.clock := by simp [State.releaseStile]
@[simp] theorem State.clock_tellJoin (s : State) (f id : Nat) : (s.tellJoin f id).clock = s.clock := by simp [State.tellJoin]
@[simp] theorem State.clock_overrun65 (s : State) (f at_ : Nat) :
    (s.overrun65 f at_).clock = s.clock := by simp [State.overrun65]
@[simp] theorem State.clock_closeDrained (s : State) (f : Nat) :
    (s.closeDrained f).clock = s.clock := by simp [State.closeDrained]
@[simp] theorem State.clock_endDrain (s : State) (f at_ : Nat) :
    (s.endDrain f at_).clock = s.clock := by simp [State.endDrain]
@[simp] theorem State.clock_endDrainBlock (s : State) (f : Nat) : (s.endDrainBlock f).clock = s.clock := by
  unfold State.endDrainBlock
  split <;> simp
@[simp] theorem State.clock_drainHere (s : State) (f : Nat) : (s.drainHere f).clock = s.clock := by simp [State.drainHere]
@[simp] theorem State.clock_failOutput (s : State) (ep g : Nat) : (s.failOutput ep g).clock = s.clock := by
  unfold State.failOutput
  split <;> simp
@[simp] theorem State.clock_outputEntry (s : State) (f ep streams swath : Nat) (late : Bool) (bad : List Nat) :
    (s.outputEntry f ep streams swath late bad).clock = s.clock := by simp [State.outputEntry]

/-! #### Fabric -/

@[simp] theorem State.clock_modPacket (s : State) (id : Nat) (f : Packet → Packet) :
    (s.modPacket id f).clock = s.clock := by
  unfold State.modPacket
  split <;> simp
@[simp] theorem State.clock_removePacket (s : State) (id : Nat) :
    (s.removePacket id).clock = s.clock := by simp [State.removePacket]
@[simp] theorem State.clock_answer (s : State) (core k : Nat) (a : Answer) :
    (s.answer core k a).clock = s.clock := by simp [State.answer]
@[simp] theorem State.clock_landPacket (s : State) (p : Packet) : (s.landPacket p).clock = s.clock := by
  simp only [State.landPacket]
  repeat' split
  all_goals simp
@[simp] theorem State.clock_loseRow (s : State) (p : Packet) : (s.loseRow p).clock = s.clock := by
  unfold State.loseRow
  cases p.kind with
  | result e => cases e <;> simp
  | _ => simp
@[simp] theorem State.clock_refusePacket (s : State) (id : Nat) (p : Packet) :
    (s.refusePacket id p).clock = s.clock := by
  unfold State.refusePacket
  split <;> simp
@[simp] theorem State.clock_holdRow (s : State) (id o : Nat) (p : Packet) :
    (s.holdRow id o p).clock = s.clock := by simp [State.holdRow]
@[simp] theorem State.clock_leave (s : State) (id o : Nat) (p : Packet) : (s.leave id o p).clock = s.clock := by
  unfold State.leave
  split <;> simp
@[simp] theorem State.clock_routeFault (s : State) (id : Nat) (p : Packet) (e : Nat) :
    (s.routeFault id p e).clock = s.clock := by simp [State.routeFault]
@[simp] theorem State.clock_copies (s : State) (id : Nat) (p : Packet) (ports : List Nat) :
    (s.copies id p ports).clock = s.clock := by
  unfold State.copies
  split <;> simp
@[simp] theorem State.clock_forkRow (s : State) (id : Nat) (p : Packet) : (s.forkRow id p).clock = s.clock := by
  unfold State.forkRow
  split <;> simp
@[simp] theorem State.clock_forwardRow (s : State) (id : Nat) : (s.forwardRow id).clock = s.clock := by
  unfold State.forwardRow
  repeat' split
  all_goals simp
@[simp] theorem State.clock_answerSlot (s : State) (p : Packet) :
    (s.answerSlot p).clock = s.clock := by simp [State.answerSlot]
@[simp] theorem State.clock_refuseArrival (s : State) (q id : Nat) (p : Packet) (row : Nat) (a : Arrived) :
    (s.refuseArrival q id p row a).clock = s.clock := by simp [State.refuseArrival]
@[simp] theorem State.clock_timedArrival (s : State) (q id : Nat) (p : Packet) (r : Row) :
    (s.timedArrival q id p r).clock = s.clock := by
  unfold State.timedArrival
  split <;> simp
@[simp] theorem State.clock_linkArrival (s : State) (q : Nat) (p : Packet) : (s.linkArrival q p).clock = s.clock := by
  unfold State.linkArrival
  repeat' split
  all_goals simp
@[simp] theorem State.clock_portArrival (s : State) (q id : Nat) (p : Packet) :
    (s.portArrival q id p).clock = s.clock := by
  simp only [State.portArrival]
  repeat' split
  all_goals simp
@[simp] theorem State.clock_joinStack (s : State) (n : Nat) (x : StackReq) :
    (s.joinStack n x).clock = s.clock := by simp [State.joinStack]
@[simp] theorem State.clock_linkAtStack (s : State) (n : Nat) (p : Packet) : (s.linkAtStack n p).clock = s.clock := by
  unfold State.linkAtStack
  split <;> simp
@[simp] theorem State.clock_hubArrival (s : State) (n id : Nat) (p : Packet) :
    (s.hubArrival n id p).clock = s.clock := by
  simp only [State.hubArrival]
  repeat' split
  all_goals simp

/-! #### Stack -/

@[simp] theorem State.clock_answerEngine (s : State) (n m core number f : Nat) (addr : Word) (row : Option Row) :
    (s.answerEngine n m core number f addr row).clock = s.clock := by simp [State.answerEngine]
@[simp] theorem State.clock_refuseStackReq (s : State) (n : Nat) (x : StackReq) :
    (s.refuseStackReq n x).clock = s.clock := by
  unfold State.refuseStackReq
  split <;> simp
@[simp] theorem State.clock_ackStack (s : State) (n : Nat) (x : StackReq) : (s.ackStack n x).clock = s.clock := by
  unfold State.ackStack
  split <;> simp
@[simp] theorem State.clock_answerStack (s : State) (n : Nat) (x : StackReq) (rows : List (Option Row)) :
    (s.answerStack n x rows).clock = s.clock := by
  unfold State.answerStack
  split <;> simp
@[simp] theorem State.clock_serveStack (s : State) (n : Nat) (x : StackReq) :
    (s.serveStack n x).clock = s.clock := by simp [State.serveStack]
theorem State.clock_takeFrom {s : State} {n src : Nat} {r : StackReq × State} (h : s.takeFrom n src = some r) :
    r.2.clock = s.clock := by
  simp only [State.takeFrom] at h
  repeat' split at h
  all_goals cases h
  all_goals simp
theorem State.clock_nextRequest {s : State} {n k : Nat} {r : StackReq × State} (h : s.nextRequest n k = some r) :
    r.2.clock = s.clock := by
  induction k generalizing s with
  | zero => cases h
  | succ k ih =>
    simp only [State.nextRequest] at h
    split at h
    · simpa using ih h
    · split at h
      · simpa using ih h
      next hx =>
        cases h
        simpa using State.clock_takeFrom hx
@[simp] theorem State.clock_refreshRate (s : State) (n : Nat) (hottest : Nat) :
    (s.refreshRate n hottest).clock = s.clock := by simp [State.refreshRate]
@[simp] theorem State.clock_scrubStack (s : State) (n a : Nat) : (s.scrubStack n a).clock = s.clock := by
  have h := (s.modDram n (fun d => { d with scrubbed := a })).clock_stackRead n a none
  unfold State.scrubStack
  repeat' split
  all_goals simp_all
@[simp] theorem State.clock_refuseWaiting (s : State) (n : Nat) : (s.refuseWaiting n).clock = s.clock := by
  unfold State.refuseWaiting
  extract_lets s₁ d
  refine (State.clock_foldl _ (fun t x => t.clock_refuseStackReq n x) _).trans ?_
  rw [State.clock_modDram]
  refine State.clock_foldl _ (fun t i => ?_) s
  simp
@[simp] theorem State.clock_enterSelfRefresh (s : State) (n : Nat) :
    (s.enterSelfRefresh n).clock = s.clock := by simp [State.enterSelfRefresh]
@[simp] theorem State.clock_beginExit (s : State) (n : Nat) : (s.beginExit n).clock = s.clock := by simp [State.beginExit]
@[simp] theorem State.clock_writeRegion (s : State) (p : Path) (n i : Nat) (cfg : Bool) (v : Word) :
    (s.writeRegion p n i cfg v).2.clock = s.clock := by simp [State.writeRegion]

/-! #### Setup -/

@[simp] theorem State.clock_newSource (s : State) (old : Nat) : (s.newSource old).clock = s.clock := by
  unfold State.newSource
  have h : ((s.setLock lockFree).setFld Fld.timStatusOffsetNs 0 0 0).clock = s.clock := by simp
  generalize (s.setLock lockFree).setFld Fld.timStatusOffsetNs 0 0 0 = t at h ⊢
  simp [h]
@[simp] theorem State.clock_storeReg (s : State) (r : Reg) (u i : Nat) (v : Word) :
    (s.storeReg r u i v).clock = s.clock := by
  unfold State.storeReg
  split <;> simp
@[simp] theorem State.clock_recordEndpoint (s : State) (r : Reg) :
    (s.recordEndpoint r).clock = s.clock := by simp [State.recordEndpoint]
@[simp] theorem State.clock_writeWord (s : State) (p : Path) (r : Reg) (u i : Nat) (v : Word) :
    (s.writeWord p r u i v).2.clock = s.clock := by
  unfold State.writeWord
  split <;> simp
@[simp] theorem State.clock_writeImage (s : State) (a : Nat) (v : Word) : (s.writeImage a v).2.clock = s.clock := by
  unfold State.writeImage
  split
  next r u i _ =>
    have h := s.clock_writeWord .steward r u i v
    split
    · rfl
    · split
      · rfl
      · split <;> simp_all
  next => rfl
@[simp] theorem clock_writeImages (l : List (Nat × Word)) (s : State) : (writeImages l s).2.clock = s.clock := by
  induction l generalizing s with
  | nil => rfl
  | cons x l ih =>
    have h := s.clock_writeImage x.1 x.2
    unfold writeImages
    split <;> simp_all

/-! #### Wake -/

@[simp] theorem State.clock_setSupply (s : State) (v : Nat) : (s.setSupply v).clock = s.clock := by simp [State.setSupply]
@[simp] theorem State.clock_setLp (s : State) (v : Nat) : (s.setLp v).clock = s.clock := by simp [State.setLp]
@[simp] theorem State.clock_setThm (s : State) (v : Nat) : (s.setThm v).clock = s.clock := by simp [State.setThm]
@[simp] theorem State.clock_askPower (s : State) (q : Nat) : (s.askPower q).clock = s.clock := by simp [State.askPower]
@[simp] theorem State.clock_askFold (s : State) (f : Nat) : (s.askFold f).clock = s.clock := by simp [State.askFold]

/-! #### Arm -/

@[simp] theorem State.clock_foldMismatch (s : State) (f partner : Nat) :
    (s.foldMismatch f partner).clock = s.clock := by simp [State.foldMismatch]
@[simp] theorem State.clock_keepMarker (s : State) (f kind at0 : Nat) (m : Marker) :
    (s.keepMarker f kind at0 m).clock = s.clock := by simp [State.keepMarker]
@[simp] theorem State.clock_holdEarly (s : State) (kind : Nat) (m : Marker) :
    (s.holdEarly kind m).clock = s.clock := by simp [State.holdEarly]
@[simp] theorem State.clock_takeEarly (s : State) (f : Nat) : (s.takeEarly f).clock = s.clock := by simp [State.takeEarly]
@[simp] theorem State.clock_registerPool (s : State) (d : PoolDecl) : (s.registerPool d).clock = s.clock := by
  unfold State.registerPool
  split <;> simp
@[simp] theorem State.clock_loadCores (s : State) (qs : List Nat) :
    (s.loadCores qs).clock = s.clock := by simp [State.loadCores]
@[simp] theorem State.clock_becomeArmed (s : State) (f : Nat) (im : Image) :
    (s.becomeArmed f im).clock = s.clock := by simp [State.becomeArmed]
@[simp] theorem State.clock_configured (s : State) (f : Nat) (im : Image) (setup : Bool) :
    (s.configured f im setup).2.clock = s.clock := by simp [State.configured]
@[simp] theorem State.clock_arm (s : State) (f : Nat) (im : Image) (setup : Bool) :
    (s.arm f im setup).2.clock = s.clock := by
  simp only [State.arm]
  repeat' split
  all_goals simp
@[simp] theorem State.clock_rearmFold (s : State) (f : Nat) (setup : Bool) : (s.rearmFold f setup).clock = s.clock := by
  unfold State.rearmFold
  split <;> simp
@[simp] theorem State.clock_stopFold (s : State) (f : Nat) : (s.stopFold f).clock = s.clock := by
  simp only [State.stopFold]
  repeat' split
  all_goals simp
@[simp] theorem State.clock_writeFoldCfg (s : State) (f : Nat) (v : Word) : (s.writeFoldCfg f v).2.clock = s.clock := by
  unfold State.writeFoldCfg
  extract_lets old was
  split
  next x hx =>
    have h : x.clock = s.clock := State.clock_of_snd hx (by simp)
    split
    · split
      · exact h
      · split
        · split
          next hy => exact State.clock_of_snd hy (by simp [h])
          next hy => simp [State.clock_of_snd hy (State.clock_arm _ _ _ _), h]
        · rfl
    · split <;> simp [h]
  next => simp

/-! #### Engine -/

@[simp] theorem State.clock_modCalls (s : State) (n key : Nat) (f : List EngCall → List EngCall) :
    (s.modCalls n key f).clock = s.clock := by simp [State.modCalls]
@[simp] theorem State.clock_countCall (s : State) (n e core st : Nat) :
    (s.countCall n e core st).clock = s.clock := by simp [State.countCall]
@[simp] theorem State.clock_sendResult (s : State) (n : Nat) (c : EngCall) (a : Nat) (rows : List Row) (block : Bool) :
    (s.sendResult n c a rows block).clock = s.clock := by simp [State.sendResult]
@[simp] theorem State.clock_dropOperands (s : State) (n : Nat) (c : EngCall) :
    (s.dropOperands n c).clock = s.clock := by simp [State.dropOperands]
@[simp] theorem State.clock_endCall (s : State) (n : Nat) (c : EngCall) (r : EngReply) :
    (s.endCall n c r).clock = s.clock := by
  unfold State.endCall
  repeat' split
  all_goals simp
@[simp] theorem State.clock_completeCall (s : State) (n e : Nat) (parity : Bool) :
    (s.completeCall n e parity).clock = s.clock := by
  unfold State.completeCall
  split <;> simp
@[simp] theorem State.clock_callRead (s : State) (c : EngCall) (addr : Word) :
    (s.callRead c addr).2.clock = s.clock := by
  unfold State.callRead
  split <;> simp
@[simp] theorem State.clock_callReads (s : State) (c : EngCall) (a n : Nat) :
    (s.callReads c a n).2.clock = s.clock := by
  induction n generalizing s a with
  | zero => rfl
  | succ n ih => simp [State.callReads, ih]
@[simp] theorem State.clock_callRows (s : State) (c : EngCall) (a n : Nat) :
    (s.callRows c a n).2.clock = s.clock := by simp [State.callRows]
@[simp] theorem State.clock_askRow (s : State) (c : EngCall) (addr : Word) : (s.askRow c addr).clock = s.clock := by
  simp only [State.askRow]
  repeat' split
  all_goals simp
@[simp] theorem State.clock_admitCall (s : State) (n : Nat) (c : EngCall) (block : Option Row) :
    (s.admitCall n c block).clock = s.clock := by simp [State.admitCall]
@[simp] theorem State.clock_arriveCall (s : State) (n : Nat) (c : EngCall) : (s.arriveCall n c).clock = s.clock := by
  simp only [State.arriveCall]
  split <;> simp
@[simp] theorem State.clock_stopEngines (s : State) (n : Nat) :
    (s.stopEngines n).clock = s.clock := by simp [State.stopEngines]
@[simp] theorem State.clock_askRows (s : State) (n e : Nat) (c : EngCall) (l : List Word) :
    (s.askRows n e c l).clock = s.clock := by simp [State.askRows]
@[simp] theorem State.clock_serveCall (s : State) (n e fn : Nat) (run : EngCall → State → EngReply × State)
    (hrun : ∀ x t, (run x t).2.clock = t.clock) :
    (s.serveCall n e fn run).clock = s.clock := by
  simp only [State.serveCall]
  repeat' split
  all_goals simp [hrun]
@[simp] theorem EngCall.clock_giving (c : EngCall) (s : State) (st units : Nat) (bytes : List (BitVec 8)) :
    (c.giving s st units bytes).2.clock = s.clock := by simp [EngCall.giving]
@[simp] theorem clock_failCall (st : Nat) (s : State) : (failCall st s).2.clock = s.clock := by simp [failCall]

/-! #### Report -/

@[simp] theorem State.clock_restoreReport (s : State) (event cause scope beat0 defaulted rebuilt lost : Nat) :
    (s.restoreReport event cause scope beat0 defaulted rebuilt lost).clock = s.clock := by simp [State.restoreReport]
@[simp] theorem State.clock_noteReset (s : State) (cls cause : Nat) :
    (s.noteReset cls cause).clock = s.clock := by simp [State.noteReset]
@[simp] theorem State.clock_dropLoad (s : State) (ep seq : Nat) :
    (s.dropLoad ep seq).clock = s.clock := by simp [State.dropLoad]
@[simp] theorem State.clock_endLoads (s : State) (p : Item → Bool) (st : Nat) :
    (s.endLoads p st).clock = s.clock := by simp [State.endLoads]
@[simp] theorem State.clock_strike (s : State) (f : Nat) : (s.strike f).clock = s.clock := by simp [State.strike]
@[simp] theorem State.clock_rearmStruck (s : State) (f : Nat) (setup : Bool) :
    (s.rearmStruck f setup).clock = s.clock := by simp [State.rearmStruck]
@[simp] theorem State.clock_tryRearm (s : State) (f : Nat) : (s.tryRearm f).clock = s.clock := by simp [State.tryRearm]
@[simp] theorem State.clock_rearmAll (s : State) : s.rearmAll.clock = s.clock := by simp [State.rearmAll]
@[simp] theorem State.clock_strikeRearm (s : State) (f : Nat) :
    (s.strikeRearm f).clock = s.clock := by simp [State.strikeRearm]

/-! #### Links -/

@[simp] theorem State.clock_detach (s : State) (ep cls : Nat) : (s.detach ep cls).clock = s.clock := by simp [State.detach]
@[simp] theorem State.clock_detachLink (s : State) (l cls : Nat) :
    (s.detachLink l cls).clock = s.clock := by simp [State.detachLink]
@[simp] theorem State.clock_countLinks (s : State) (p : Nat) : (s.countLinks p).clock = s.clock := by simp [State.countLinks]
@[simp] theorem State.clock_portDown (s : State) (p l : Nat) : (s.portDown p l).clock = s.clock := by simp [State.portDown]
@[simp] theorem State.clock_linkLost (s : State) (p l : Nat) (was : Bool) : (s.linkLost p l was).clock = s.clock := by
  simp only [State.linkLost]
  repeat' split
  all_goals simp
@[simp] theorem State.clock_resetLink (s : State) (l cause : Nat) : (s.resetLink l cause).clock = s.clock := by
  unfold State.resetLink
  extract_lets old was s₁ mode trains s₂ s₃ bound s₄
  have h : s₄.clock = s.clock := by
    simp only [s₄, s₃, s₂, s₁, State.clock_linkLost, State.clock_detachLink, State.clock_setFld, State.clock_modLink,
      State.clock_clearRegs, State.clock_noteReset]
  clear_value s₄
  split <;> simp [h]
@[simp] theorem State.clock_askWake (s : State) (l : Nat) : (s.askWake l).clock = s.clock := by simp [State.askWake]
@[simp] theorem State.clock_wakeLink (s : State) (g : Grant) : (s.wakeLink g).clock = s.clock := by
  unfold State.wakeLink
  split <;> simp
@[simp] theorem State.clock_showPartner (s : State) (l : Nat) (r : Training) :
    (s.showPartner l r).clock = s.clock := by simp [State.showPartner]
@[simp] theorem State.clock_endLinkReset (s : State) (l : Nat) : (s.endLinkReset l).clock = s.clock := by
  unfold State.endLinkReset
  split <;> simp
@[simp] theorem State.clock_linkUp (s : State) (l : Nat) : (s.linkUp l).clock = s.clock := by
  have h := s.clock_setFld Fld.lnkStatusState l 0 lnkUp
  unfold State.linkUp
  generalize s.setFld Fld.lnkStatusState l 0 lnkUp = t at h ⊢
  simp [h]
@[simp] theorem State.clock_trainLink (s : State) (l : Nat) (r : Training) : (s.trainLink l r).clock = s.clock := by
  simp only [State.trainLink]
  split <;> simp
@[simp] theorem State.clock_resend (s : State) (p : Nat) : (s.resend p).clock = s.clock := by
  refine State.clock_foldl _ (fun t f => ?_) s
  split <;> simp
@[simp] theorem State.clock_takeNak (s : State) (p seq : Nat) : (s.takeNak p seq).clock = s.clock := by simp [State.takeNak]
@[simp] theorem State.clock_linkSlot (s : State) (p n : Nat) (h : RowHeader) (r : Row) :
    (s.linkSlot p n h r).clock = s.clock := by
  unfold State.linkSlot
  repeat' split
  all_goals simp
@[simp] theorem State.clock_takeFirmware (s : State) (h : RowHeader) : (s.takeFirmware h).clock = s.clock := by
  unfold State.takeFirmware
  split <;> simp
@[simp] theorem State.clock_relayOn (s : State) (n p vc : Nat) (h : RowHeader) (r : Row) :
    (s.relayOn n p vc h r).clock = s.clock := by
  unfold State.relayOn
  split <;> simp
@[simp] theorem State.clock_relayRequest (s : State) (p n owner : Nat) (h : RowHeader) (r : Row) :
    (s.relayRequest p n owner h r).clock = s.clock := by
  unfold State.relayRequest
  split <;> simp
@[simp] theorem State.clock_relayAnswer (s : State) (p n : Nat) (h : RowHeader) (r : Row) :
    (s.relayAnswer p n h r).clock = s.clock := by
  unfold State.relayAnswer
  split <;> simp
@[simp] theorem State.clock_takePacket (s : State) (p n : Nat) (h : RowHeader) (r : Row) :
    (s.takePacket p n h r).clock = s.clock := by
  simp only [State.takePacket]
  repeat' split
  all_goals simp
@[simp] theorem clock_takePackets (p n k : Nat) (l : List (BitVec 8)) (s : State) :
    (takePackets p n k l s).2.clock = s.clock := by
  fun_induction takePackets <;> simp_all
@[simp] theorem State.clock_takeData (s : State) (p l : Nat) (b : List (BitVec 8)) :
    (s.takeData p l b).clock = s.clock := by simp [State.takeData]
@[simp] theorem State.clock_takeAhead (s : State) (p n : Nat) : (s.takeAhead p n).clock = s.clock := by
  fun_induction State.takeAhead <;> simp_all
@[simp] theorem State.clock_nextFrame (s : State) (p : Nat) : (s.nextFrame p).clock = s.clock := by simp [State.nextFrame]
@[simp] theorem State.clock_dataFrame (s : State) (p l seq : Nat) (b : List (BitVec 8)) :
    (s.dataFrame p l seq b).clock = s.clock := by simp [State.dataFrame]
@[simp] theorem State.clock_badFrame (s : State) (p l : Nat) : (s.badFrame p l).clock = s.clock := by
  have h : ((s.bump Fld.lnkFecCrcFail l 0).bump Fld.lnkCntRetryCount l 0).clock = s.clock := by simp
  unfold State.badFrame
  generalize (s.bump Fld.lnkFecCrcFail l 0).bump Fld.lnkCntRetryCount l 0 = t at h ⊢
  simp [h]
@[simp] theorem State.clock_takeFrame256 (s : State) (l : Nat) (b : List (BitVec 8)) :
    (s.takeFrame256 l b).clock = s.clock := by simp [State.takeFrame256]
@[simp] theorem State.clock_tellBlock (s : State) (f why : Nat) :
    (s.tellBlock f why).clock = s.clock := by simp [State.tellBlock]
@[simp] theorem State.clock_stepMismatch (s : State) (f : Nat) (m : Marker) :
    (s.stepMismatch f m).clock = s.clock := by simp [State.stepMismatch]
@[simp] theorem State.clock_actMarker (s : State) (f kind : Nat) (m : Marker) :
    (s.actMarker f kind m).clock = s.clock := by simp [State.actMarker]
@[simp] theorem State.clock_takeMarker (s : State) (kind : Nat) (m : Marker) :
    (s.takeMarker kind m).clock = s.clock := by
  simp only [State.takeMarker]
  split <;> simp
@[simp] theorem State.clock_modWindow (s : State) (id : Nat) (f : Window → Window) :
    (s.modWindow id f).clock = s.clock := by
  unfold State.modWindow
  split <;> simp
@[simp] theorem State.clock_windowRequest (s : State) (x : Inbound) : (s.windowRequest x).clock = s.clock := by
  simp only [State.windowRequest]
  repeat' split
  all_goals simp
theorem State.clock_takeInbox {s : State} {f : Inbound → Bool} {r : Inbound × State} (h : s.takeInbox f = some r) :
    r.2.clock = s.clock := by
  obtain ⟨x, _, rfl⟩ := Option.map_eq_some_iff.mp h
  simp
@[simp] theorem State.clock_takeRefusal (s : State) (core k cause : Nat) (r : QReq) :
    (s.takeRefusal core k cause r).clock = s.clock := by simp [State.takeRefusal]
@[simp] theorem State.clock_endWindow (s : State) (id : Nat) : (s.endWindow id).clock = s.clock := by
  unfold State.endWindow
  split <;> simp

/-! #### Domain -/

@[simp] theorem State.clock_retainRows (s : State) (q : Nat) : (s.retainRows q).clock = s.clock := by simp [State.retainRows]
@[simp] theorem State.clock_loseRows (s : State) (q : Nat) : (s.loseRows q).clock = s.clock := by simp [State.loseRows]
@[simp] theorem State.clock_darken (s : State) (q state : Nat) (hold : Bool) :
    (s.darken q state hold).clock = s.clock := by simp [State.darken]
@[simp] theorem State.clock_goDark (s : State) (q : Nat) : (s.goDark q).clock = s.clock := by simp [State.goDark]
@[simp] theorem State.clock_darkenAll (s : State) : s.darkenAll.clock = s.clock := by simp [State.darkenAll]
@[simp] theorem State.clock_switchOff (s : State) (q : Nat) : (s.switchOff q).clock = s.clock := by simp [State.switchOff]
@[simp] theorem State.clock_askAll (s : State) : s.askAll.clock = s.clock := by simp [State.askAll]
@[simp] theorem State.clock_wantBanks (s : State) (q : Nat) : (s.wantBanks q).clock = s.clock := by simp [State.wantBanks]
@[simp] theorem State.clock_setOn (s : State) (q : Nat) : (s.setOn q).clock = s.clock := by simp [State.setOn]
@[simp] theorem State.clock_endRegionOff (s : State) (q : Nat) :
    (s.endRegionOff q).clock = s.clock := by simp [State.endRegionOff]
@[simp] theorem State.clock_idleLinks (s : State) : s.idleLinks.clock = s.clock := by simp [State.idleLinks]
@[simp] theorem State.clock_enterStandby (s : State) : s.enterStandby.clock = s.clock := by simp [State.enterStandby]
@[simp] theorem State.clock_rest (s : State) (f : Nat) : (s.rest f).clock = s.clock := by simp [State.rest]
@[simp] theorem State.clock_beginStandby (s : State) : s.beginStandby.clock = s.clock := by simp [State.beginStandby]
@[simp] theorem State.clock_beginReturn (s : State) : s.beginReturn.clock = s.clock := by simp [State.beginReturn]
@[simp] theorem State.clock_endReturn (s : State) : s.endReturn.clock = s.clock := by simp [State.endReturn]
@[simp] theorem State.clock_moveLp (s : State) : s.moveLp.clock = s.clock := by simp [State.moveLp]
@[simp] theorem State.clock_settleLp (s : State) : s.settleLp.clock = s.clock := by simp [State.settleLp]
@[simp] theorem State.clock_settle (s : State) : s.settle.clock = s.clock := by simp [State.settle]
@[simp] theorem State.clock_clusterOn (s : State) (q : Nat) : (s.clusterOn q).clock = s.clock := by simp [State.clusterOn]
@[simp] theorem State.clock_pauseFold (s : State) (f : Nat) : (s.pauseFold f).clock = s.clock := by simp [State.pauseFold]
@[simp] theorem State.clock_haltReplacing (s : State) : s.haltReplacing.clock = s.clock := by simp [State.haltReplacing]
@[simp] theorem State.clock_pauseAll (s : State) : s.pauseAll.clock = s.clock := by simp [State.pauseAll]
@[simp] theorem State.clock_quiesce (s : State) : s.quiesce.clock = s.clock := by simp [State.quiesce]

/-! #### Restart -/

@[simp] theorem State.clock_reportReset (s : State) (event cause scope beat0 : Nat) (was : Map Word)
    (defaulted rebuilt lost : Nat) :
    (s.reportReset event cause scope beat0 was defaulted rebuilt lost).clock = s.clock := by simp [State.reportReset]
@[simp] theorem State.clock_applySpares (s : State) (q : Nat) : (s.applySpares q).clock = s.clock := by
  unfold State.applySpares
  split <;> simp
@[simp] theorem State.clock_freeUnaligned (s : State) : s.freeUnaligned.clock = s.clock := by simp [State.freeUnaligned]
@[simp] theorem State.clock_keepLevels (old s : State) (cause : Nat) :
    (old.keepLevels s cause).clock = s.clock := by simp [State.keepLevels]
@[simp] theorem State.clock_stopEverything (s : State) : s.stopEverything.clock = s.clock := by simp [State.stopEverything]
theorem State.clock_spareAll (s : State) :
    (((List.range 1536).foldl (fun (s : State) q => s.applySpares q) s).freeUnaligned).clock = s.clock :=
  (State.clock_freeUnaligned _).trans (State.clock_foldl _ (fun t q => t.clock_applySpares q) s)
theorem State.clock_readBack (s : State) :
    ((Map.keys s.drams).foldl (fun (s : State) n => match (s.dram n).failedDies.getLast? with
    | some d => s.setFld Fld.hubStkStatusFailedDie n 0 d
    | none => s) s).clock = s.clock := by
  refine State.clock_foldl _ (fun t n => ?_) s
  split
  · exact State.clock_setFld ..
  · rfl
theorem State.clock_restore (s : State) (r : Restore) : ({ s with restore := r } : State).clock = s.clock := rfl


@[simp] theorem State.clock_resetModule (s : State) (p : Bool) (cause : Nat) (supply : Bool) :
    (s.resetModule p cause supply).clock = s.clock := by
  unfold State.resetModule
  extract_lets mask old s₁ s₂ s₃ s₄ was r s₅ s₆ tm pw th sc s₇ s₈ s₉ s₁₀
  have h₂ : s₂.clock = s.clock := State.clock_congr rfl rfl
  have h₃ : s₃.clock = s₂.clock := State.clock_stopEverything _
  have h₄ : s₄.clock = s₃.clock := by
    rw [State.clock_ite, State.clock_foldl _ (fun t g => t.clock_freeEntry g), ite_self]
  have h₆ : s₆.clock = s₄.clock := by
    rw [State.clock_noteReset, State.clock_keepLevels, State.clock_clearRegs]
  have h₇ : s₇.clock = s₆.clock := State.clock_congr rfl rfl
  have h₈ : s₈.clock = s₇.clock := State.clock_foldl _ (fun t q => State.clock_setFld t Fld.cluBankPendingPending q 0 0) _
  have h₉ : s₉.clock = s₈.clock := State.clock_readBack _
  have h₁₀ : s₁₀.clock = s₉.clock := State.clock_spareAll _
  have h : s₁₀.clock = s.clock := by rw [h₁₀, h₉, h₈, h₇, h₆, h₄, h₃, h₂]
  exact (State.clock_restore s₁₀ _).trans h
@[simp] theorem State.clock_abortCalls (s : State) (n : Nat) : (s.abortCalls n).clock = s.clock := by simp [State.abortCalls]
@[simp] theorem State.clock_zeroCores (s : State) (here : Nat → Bool) :
    (s.zeroCores here).clock = s.clock := by simp [State.zeroCores]
@[simp] theorem State.clock_dropLeave (s : State) (q : Nat) : (s.dropLeave q).clock = s.clock := by simp [State.dropLeave]
@[simp] theorem State.clock_clearShared (s : State) (n : Nat) :
    (s.clearShared n).clock = s.clock := by simp [State.clearShared]
@[simp] theorem State.clock_resetLea (s : State) (n cause : Nat) :
    (s.resetLea n cause).clock = s.clock := by simp [State.resetLea]
@[simp] theorem State.clock_resetCluster (s : State) (q cause : Nat) : (s.resetCluster q cause).clock = s.clock := by
  simp only [State.resetCluster]
  split <;> simp
@[simp] theorem State.clock_armAgain (s : State) (f : Nat) : (s.armAgain f).clock = s.clock := by simp [State.armAgain]
@[simp] theorem State.clock_clearFold (s : State) (f : Nat) (qs : List Nat) :
    (s.clearFold f qs).clock = s.clock := by simp [State.clearFold]
@[simp] theorem State.clock_resetFold (s : State) (f cause : Nat) : (s.resetFold f cause).clock = s.clock := by
  simp only [State.resetFold]
  repeat' split
  all_goals simp

/-! #### Place -/

@[simp] theorem State.clock_programArray (s : State) (q a : Nat) (rows : List (BitVec 2048)) :
    (s.programArray q a rows).clock = s.clock := by simp [State.programArray]
@[simp] theorem State.clock_programGroup (s : State) (c : Copy) (q named phys : Nat) :
    (s.programGroup c q named phys).clock = s.clock := by
  refine State.clock_foldl _ (fun t p => ?_) s
  repeat' split
  all_goals simp
theorem State.clock_placeGroups {c : Copy} {l : List (Nat × Nat × Nat)} {s t : State}
    (h : State.placeGroups c l s = some t) :
    t.clock = s.clock := by
  induction l generalizing s with
  | nil =>
    cases h
    rfl
  | cons x l ih =>
    simp only [State.placeGroups] at h
    split at h
    · cases h
    · simpa using ih h
@[simp] theorem State.clock_makeRegion (s : State) (n slot base count f : Nat) :
    (s.makeRegion n slot base count f).clock = s.clock := by simp [State.makeRegion]
theorem State.clock_makeRegions {f : Nat} {l : List (Nat × Nat)} {s : State} {r : List (Nat × Nat × Nat) × State}
    (h : State.makeRegions f l s = some r) :
    r.2.clock = s.clock := by
  induction l generalizing s r with
  | nil =>
    cases h
    rfl
  | cons x l ih =>
    simp only [State.makeRegions] at h
    split at h
    · obtain ⟨y, hy, rfl⟩ := Option.map_eq_some_iff.mp h
      simpa using ih hy
    · cases h
theorem State.clock_placeStacks {s : State} {c : Copy} {fixed : List Nat} {r : Copy × State}
    (h : s.placeStacks c fixed = some r) :
    r.2.clock = s.clock := by
  simp only [State.placeStacks] at h
  split at h
  · cases h
    rfl
  · obtain ⟨d, _, hd⟩ := Option.bind_eq_some_iff.mp h
    obtain ⟨m, hm, rfl⟩ := Option.map_eq_some_iff.mp hd
    simpa using State.clock_makeRegions hm
@[simp] theorem State.clock_readyBanks (s : State) (q : Nat) : (s.readyBanks q).clock = s.clock := by simp [State.readyBanks]
@[simp] theorem State.clock_stackCopy (s : State) (p : Placed) :
    (s.stackCopy p).2.clock = s.clock := by simp [State.stackCopy]
@[simp] theorem State.clock_putSome (s : State) (q a : Nat) (l : List (Option Row × Row)) :
    (s.putSome q a l).clock = s.clock := by
  fun_induction State.putSome <;> simp_all
@[simp] theorem State.clock_writeScratch (s : State) (c : Copy) (p : Placed) :
    (s.writeScratch c p).clock = s.clock := by
  simp only [State.writeScratch]
  repeat' split
  all_goals simp
theorem State.clock_configure {s t : State} {c : Copy} {im : Image} (h : s.configure c im = some t) :
    t.clock = s.clock := by
  unfold State.configure at h
  split at h
  · cases h
  next x hx =>
    have h₁ : x.clock = s.clock := State.clock_of_snd hx (clock_writeImages _ s)
    simp only at h
    split at h
    · cases h
    · split at h
      · cases h
      next y hy =>
        have h₂ : y.clock = x.clock := State.clock_of_snd hy (by simp)
        cases h
        simp [h₁, h₂]
theorem State.clock_admitFold {s x : State} {n t f : Nat} (h : s.admitFold n t f = some x) : x.clock = s.clock := by
  unfold State.admitFold at h
  split at h
  · cases h
    rfl
  · obtain ⟨i, _, rfl⟩ := Option.map_eq_some_iff.mp h
    simp
theorem State.clock_loadTable {s y : State} {n t f : Nat} {x : TokTable} (h : s.loadTable n t f x = some y) :
    y.clock = s.clock := by
  simp only [State.loadTable] at h
  split at h
  · cases h
  · simpa using State.clock_admitFold h
theorem clock_loadTables {f : Nat} {l : List (Nat × Nat × TokTable)} {s t : State} (h : loadTables f l s = some t) :
    t.clock = s.clock := by
  induction l generalizing s with
  | nil =>
    cases h
    rfl
  | cons x l ih =>
    obtain ⟨y, hy, hl⟩ := Option.bind_eq_some_iff.mp h
    exact (ih hl).trans (State.clock_loadTable hy)
@[simp] theorem State.clock_leaveTable (s : State) (n t f : Nat) :
    (s.leaveTable n t f).clock = s.clock := by simp [State.leaveTable]
@[simp] theorem State.clock_freeArrays (s : State) (c : Copy) :
    (s.freeArrays c).clock = s.clock := by simp [State.freeArrays]
@[simp] theorem State.clock_freeCluster (s : State) (f q : Nat) :
    (s.freeCluster f q).clock = s.clock := by simp [State.freeCluster]
@[simp] theorem State.clock_freeRoutes (s : State) (f : Nat) : (s.freeRoutes f).clock = s.clock := by simp [State.freeRoutes]
@[simp] theorem State.clock_freeRegion (s : State) (n i : Nat) :
    (s.freeRegion n i).clock = s.clock := by simp [State.freeRegion]
@[simp] theorem State.clock_freeRegions (s : State) (c : Copy) :
    (s.freeRegions c).clock = s.clock := by simp [State.freeRegions]
@[simp] theorem State.clock_freeFold (s : State) (c : Copy) (im : Image) :
    (s.freeFold c im).clock = s.clock := by simp [State.freeFold]
@[simp] theorem State.clock_releaseCopy (s : State) (adapter : Bool) (c : Copy) :
    (s.releaseCopy adapter c).clock = s.clock := by
  simp only [State.releaseCopy]
  repeat' split
  all_goals simp

/-! #### Mend -/

@[simp] theorem State.clock_mendTensor (s : State) (c : Copy) (p : Placed) : (s.mendTensor c p).clock = s.clock := by
  unfold State.mendTensor
  split
  · rfl
  · dsimp only
    split
    · rfl
    · refine (State.clock_foldl _ (fun t i => ?_) _).trans (by simp)
      split <;> simp
@[simp] theorem State.clock_mendRows (s : State) (f : Nat) : (s.mendRows f).clock = s.clock := by simp [State.mendRows]
@[simp] theorem State.clock_guardStart (s : State) (f : Nat) : (s.guardStart f).clock = s.clock := by simp [State.guardStart]

/-! #### Load -/

theorem State.clock_placeCopy {s : State} {c : Copy} {p : Package} {im : Option Image} {r : Copy × State}
    (h : s.placeCopy c p im = some r) :
    r.2.clock = s.clock := by
  obtain ⟨x, hx, h⟩ := Option.bind_eq_some_iff.mp h
  obtain ⟨y, hy, h⟩ := Option.bind_eq_some_iff.mp h
  have hxy : y.clock = s.clock := (State.clock_placeGroups hy).trans (State.clock_placeStacks hx)
  split at h
  · split at h
    · cases h
      simpa using hxy
    · cases h
  · obtain ⟨z, hz, h⟩ := Option.bind_eq_some_iff.mp h
    obtain ⟨t, ht, rfl⟩ := Option.map_eq_some_iff.mp h
    refine (clock_loadTables ht).trans ((State.clock_foldl _ (fun t i => ?_) _).trans ?_)
    · repeat' split
      all_goals simp
    · simpa using (State.clock_configure hz).trans (by simpa using hxy)
@[simp] theorem State.clock_undoArrays (s : State) (c : Copy) : (s.undoArrays c).clock = s.clock := by
  have h : ((State.placeGroups c c.groups s).getD s).clock = s.clock := by
    cases hp : State.placeGroups c c.groups s with
    | none => rfl
    | some t => exact State.clock_placeGroups hp
  simp [State.undoArrays, h]
theorem State.clock_runLoad (s : State) (a : LoadAsk) (p : Package) :
    (∀ x, s.runLoad a p = .error x → ∀ y, x.left = some y → y.clock = s.clock) ∧ ∀ r, s.runLoad a p = .ok r → r.2.clock = s.clock := by
  unfold State.runLoad
  constructor
  · intro x hx y hy
    repeat' split at hx
    all_goals cases hx
    all_goals cases hy
    exact s.clock_undoArrays _
  · intro r hr
    repeat' split at hr
    all_goals cases hr
    exact State.clock_placeCopy ‹_›
@[simp] theorem State.clock_loadDone (s : State) (ep seq : Nat) (a : LoadAsk) (p : Package) (c : Copy) :
    (s.loadDone ep seq a p c).clock = s.clock := by simp [State.loadDone]
theorem State.clock_loadFailed {s : State} (ep seq : Nat) {x : LoadFail}
    (hx : ∀ y, x.left = some y → y.clock = s.clock) :
    (s.loadFailed ep seq x).clock = s.clock := by
  simp only [State.loadFailed]
  split
  next y hy => simp [hx y hy]
  next => simp
@[simp] theorem State.clock_loadPackage (s : State) (ep : Nat) (i : Item) (p : Package) :
    (s.loadPackage ep i p).clock = s.clock := by
  unfold State.loadPackage
  extract_lets a qs
  split
  next x hx =>
    split
    · simp
    · exact State.clock_loadFailed _ _ ((s.clock_runLoad a p).1 x hx)
  next hx =>
    split
    · simp
    · split
      · simp [(s.clock_runLoad a p).2 _ hx]
      · rfl
@[simp] theorem State.clock_codecProgram (s : State) (q a row : Nat) (ws : List (BitVec 2048)) :
    (s.codecProgram q a row ws).clock = s.clock := by simp [State.codecProgram]
@[simp] theorem State.clock_codecWrite (s : State) (dest : ChunkDest) (unit row : Nat) (rows : List Row) :
    (s.codecWrite dest unit row rows).clock = s.clock := by
  unfold State.codecWrite
  split <;> simp
@[simp] theorem State.clock_shadowed (s : State) (c : Copy) : (s.shadowed c).2.clock = s.clock := by simp [State.shadowed]
@[simp] theorem State.clock_setRebuild (s : State) (q g : Nat) (phys : Option Nat) :
    (s.setRebuild q g phys).clock = s.clock := by simp [State.setRebuild]
@[simp] theorem State.clock_showWaiting (s : State) (h : Nat) :
    (s.showWaiting h).clock = s.clock := by simp [State.showWaiting]
@[simp] theorem State.clock_rebuild (s : State) (q g : Nat) : (s.rebuild q g).clock = s.clock := by
  simp only [State.rebuild]
  repeat' split
  all_goals simp
@[simp] theorem State.clock_freeSpares (s : State) (c : Copy) : (s.freeSpares c).clock = s.clock := by
  refine State.clock_foldl _ (fun t r => ?_) s
  split <;> simp
@[simp] theorem State.clock_retireCopy (s : State) (adapter : Bool) (c : Copy) :
    (s.retireCopy adapter c).clock = s.clock := by simp [State.retireCopy]
@[simp] theorem State.clock_copyRetire (s : State) (h : Nat) : (s.copyRetire h).clock = s.clock := by
  simp only [State.copyRetire]
  repeat' split
  all_goals simp

/-! #### Replace -/

@[simp] theorem State.clock_setPosition (s : State) (q v : Nat) :
    (s.setPosition q v).clock = s.clock := by simp [State.setPosition]
@[simp] theorem State.clock_reserveArrays (s : State) (q : Nat) :
    (s.reserveArrays q).clock = s.clock := by simp [State.reserveArrays]
@[simp] theorem State.clock_loseCluster (s : State) (q : Nat) :
    (s.loseCluster q).clock = s.clock := by simp [State.loseCluster]
@[simp] theorem State.clock_loseState (s : State) (g code : Nat) :
    (s.loseState g code).clock = s.clock := by simp [State.loseState]
@[simp] theorem State.clock_loseStates (s : State) (l : Lost) (code : Nat) :
    (s.loseStates l code).clock = s.clock := by simp [State.loseStates]
@[simp] theorem State.clock_setReplacing (s : State) (f : Nat) (r : Option Replacing) :
    (s.setReplacing f r).clock = s.clock := by simp [State.setReplacing]
@[simp] theorem State.clock_countWaiting (s : State) : s.countWaiting.clock = s.clock := by simp [State.countWaiting]
@[simp] theorem State.clock_readyPick (s : State) (q : Nat) : (s.readyPick q).clock = s.clock := by simp [State.readyPick]
@[simp] theorem State.clock_tryReplace (s : State) (f : Nat) : (s.tryReplace f).clock = s.clock := by
  simp only [State.tryReplace]
  repeat' split
  all_goals simp
@[simp] theorem State.clock_tryWaiting (s : State) : s.tryWaiting.clock = s.clock := by simp [State.tryWaiting]
@[simp] theorem State.clock_strikeFold (s : State) (l : Lost) (code f : Nat) :
    (s.strikeFold l code f).clock = s.clock := by simp [State.strikeFold]
@[simp] theorem State.clock_fillExposed (s : State) (lost : List Nat) :
    (s.fillExposed lost).clock = s.clock := by simp [State.fillExposed]
@[simp] theorem State.clock_exposeFor (s : State) (q : Nat) (old : Option Nat) :
    (s.exposeFor q old).clock = s.clock := by
  simp only [State.exposeFor]
  repeat' split
  all_goals simp
@[simp] theorem State.clock_retryWaiting (s : State) : s.retryWaiting.clock = s.clock := by simp [State.retryWaiting]
@[simp] theorem State.clock_strikeLoss (s : State) (l : Lost) (code : Nat) (part : State → State)
    (hpart : ∀ t, (part t).clock = t.clock) :
    (s.strikeLoss l code part).clock = s.clock := by
  unfold State.strikeLoss
  all_goals simp [hpart]
@[simp] theorem State.clock_carryRows (s : State) (f q : Nat) : (s.carryRows f q).2.clock = s.clock := by
  refine State.clock_foldl_snd _ (fun x a => ?_) _
  have h := x.2.clock_schedulerRow q a f
  split <;> simp_all
@[simp] theorem State.clock_landRows (s : State) (f q : Nat) (l : List (Nat × Option Row)) :
    (s.landRows f q l).clock = s.clock := by
  refine State.clock_foldl _ (fun t x => ?_) s
  repeat' split
  all_goals simp
theorem State.clock_moveFold {s t : State} {f : Nat} {m : Moves} {im : Image} {lost : List Nat}
    (h : s.moveFold f m im lost = some t) :
    t.clock = s.clock := by
  unfold State.moveFold at h
  dsimp only at h
  split at h
  · cases h
  next x hx =>
    have h₁ : x.clock = s.clock := State.clock_of_snd hx (by simp)
    obtain ⟨y, hy, h⟩ := Option.bind_eq_some_iff.mp h
    have h₂ : y.clock = s.clock :=
      (State.clock_foldl_bind (fun t c z hz => by simpa using State.clock_placeGroups hz) hy).trans (by simp [h₁])
    split at h
    · cases h
    next z hz =>
      have h₃ : z.clock = y.clock := State.clock_of_snd hz (by simp)
      cases h
      simp [h₃, h₂]
@[simp] theorem State.clock_replaceDone (s : State) (f : Nat) (r : Replacing) (im : Image) :
    (s.replaceDone f r im).clock = s.clock := by
  unfold State.replaceDone
  dsimp only
  split
  · simp
  next x hx => simp [State.clock_moveFold hx]
@[simp] theorem State.clock_spareTest (s : State) (q f : Nat) (pass : Bool) :
    (s.spareTest q f pass).clock = s.clock := by simp [State.spareTest]

/-! #### Faults -/

@[simp] theorem State.clock_heartbeat (s : State) (x : Nat) : (s.heartbeat x).clock = s.clock := by
  simp only [State.heartbeat]
  repeat' split
  all_goals simp
@[simp] theorem State.clock_failCluster (s : State) (q cause : Nat) :
    (s.failCluster q cause).clock = s.clock := by simp [State.failCluster]
@[simp] theorem State.clock_clusterReset (s : State) (q cause : Nat) :
    (s.clusterReset q cause).clock = s.clock := by simp [State.clusterReset]
@[simp] theorem State.clock_failCore (s : State) (q j : Nat) : (s.failCore q j).clock = s.clock := by simp [State.failCore]
@[simp] theorem State.clock_loseLinks (s : State) (n : Nat) : (s.loseLinks n).clock = s.clock := by simp [State.loseLinks]
@[simp] theorem State.clock_killRouter (s : State) (x : Nat) : (s.killRouter x).clock = s.clock := by simp [State.killRouter]
@[simp] theorem State.clock_dropLea (s : State) (n : Nat) (all : Bool) :
    (s.dropLea n all).clock = s.clock := by simp [State.dropLea]
@[simp] theorem State.clock_failLea (s : State) (n cause : Nat) :
    (s.failLea n cause).clock = s.clock := by simp [State.failLea]
@[simp] theorem State.clock_holdLea (s : State) (n : Nat) : (s.holdLea n).clock = s.clock := by simp [State.holdLea]
@[simp] theorem State.clock_leaReset (s : State) (n cause : Nat) :
    (s.leaReset n cause).clock = s.clock := by simp [State.leaReset]
@[simp] theorem State.clock_failRouter (s : State) (x reporter : Nat) : (s.failRouter x reporter).clock = s.clock := by
  unfold State.failRouter
  split <;> simp
@[simp] theorem State.clock_addOverride (s : State) (r : Nat × Nat × Nat) :
    (s.addOverride r).clock = s.clock := by simp [State.addOverride]
@[simp] theorem State.clock_routesDone (s : State) (routes : List (Nat × Nat × Nat)) :
    (s.routesDone routes).clock = s.clock := by simp [State.routesDone]
@[simp] theorem State.clock_rebaseShadow (s : State) (old new : Placed) :
    (s.rebaseShadow old new).clock = s.clock := by simp [State.rebaseShadow]
@[simp] theorem State.clock_moveCopy (s : State) (n : Nat) (c : Copy) : (s.moveCopy n c).2.clock = s.clock := by
  unfold State.moveCopy
  extract_lets ix mine
  split
  · rfl
  · split
    · rfl
    next dealt made t hx =>
      have ht : t.clock = s.clock := by
        obtain ⟨d, _, hd⟩ := Option.bind_eq_some_iff.mp hx
        obtain ⟨m, hm, he⟩ := Option.map_eq_some_iff.mp hd
        cases he
        exact State.clock_makeRegions hm
      extract_lets step r c' s₁
      have hstep : ∀ (x : List Placed × Bool × State) a, (step x a).2.2.clock = x.2.2.clock := fun x a => by
        simp only [step]
        repeat' split
        all_goals simp
      have hr : r.2.2.clock = s.clock :=
        (State.clock_foldl_proj ix (fun x : List Placed × Bool × State => x.2.2) hstep _).trans ht
      refine (State.clock_foldl _ (fun u p => ?_) _).trans hr
      split <;> simp
@[simp] theorem State.clock_moveModel (s : State) (n : Nat) (h : Nat) : (s.moveModel n h).clock = s.clock := by
  simp only [State.moveModel]
  repeat' split
  all_goals simp
@[simp] theorem State.clock_dropStack (s : State) (n : Nat) : (s.dropStack n).clock = s.clock := by simp [State.dropStack]
@[simp] theorem State.clock_failStack (s : State) (n : Nat) : (s.failStack n).clock = s.clock := by simp [State.failStack]
@[simp] theorem State.clock_ackTimeout (s : State) (p : Nat) (f : Frame) :
    (s.ackTimeout p f).clock = s.clock := by simp [State.ackTimeout]
@[simp] theorem State.clock_setUnsent (s : State) (l n : Nat) :
    (s.setUnsent l n).clock = s.clock := by simp [State.setUnsent]
@[simp] theorem State.clock_sendRecords (s : State) (l : Nat) :
    (s.sendRecords l).clock = s.clock := by simp [State.sendRecords]

/-! #### Power -/

@[simp] theorem State.clock_measureRef (s : State) : s.measureRef.clock = s.clock := by simp [State.measureRef]
@[simp] theorem State.clock_throttleAll (s : State) : s.throttleAll.clock = s.clock := by simp [State.throttleAll]
@[simp] theorem State.clock_unsteady (s : State) (p : Nat → Cluster → Bool) :
    (s.unsteady p).clock = s.clock := by simp [State.unsteady]
@[simp] theorem State.clock_setInput (s : State) (dv : Nat) : (s.setInput dv).clock = s.clock := by simp [State.setInput]
@[simp] theorem State.clock_setHv (s : State) (on : Bool) : (s.setHv on).clock = s.clock := by simp [State.setHv]
@[simp] theorem State.clock_monitorBeat (s : State) (hvDv : Nat) (hvDa auxDv auxDa : Nat) :
    (s.monitorBeat hvDv hvDa auxDv auxDa).clock = s.clock := by
  unfold State.monitorBeat
  extract_lets w s₁ s₂ s₃ s₄ old v s₅ s₆ s₇ s₈
  have h₁ : s₁.clock = s.clock := by rw [State.clock_setInput, State.clock_modPower]
  clear_value s₁
  have h₄ : s₄.clock = s.clock := by simp [s₄, s₃, s₂, h₁]
  clear_value s₄
  have h₈ : s₈.clock = s.clock := by simp [s₈, s₇, s₆, s₅, h₄]
  clear_value s₈
  split <;> simp [h₈]
@[simp] theorem State.clock_overdrawCheck (s : State) (q ma : Nat) :
    (s.overdrawCheck q ma).clock = s.clock := by simp [State.overdrawCheck]
@[simp] theorem State.clock_noteVoltage (s : State) (q mv : Nat) :
    (s.noteVoltage q mv).clock = s.clock := by simp [State.noteVoltage]
@[simp] theorem State.clock_reservoir (s : State) (q mv : Nat) :
    (s.reservoir q mv).clock = s.clock := by simp [State.reservoir]
@[simp] theorem State.clock_droop (s : State) (q mv : Nat) : (s.droop q mv).clock = s.clock := by simp [State.droop]
@[simp] theorem State.clock_rearmVmin (s : State) (q mv : Nat) :
    (s.rearmVmin q mv).clock = s.clock := by simp [State.rearmVmin]
@[simp] theorem State.clock_currentSample (s : State) (domain ma10 : Nat) :
    (s.currentSample domain ma10).clock = s.clock := by simp [State.currentSample]
@[simp] theorem State.clock_setSegs (s : State) (dv : Nat) (segs : List Nat) :
    (s.setSegs dv segs).clock = s.clock := by simp [State.setSegs]
@[simp] theorem State.clock_freeze (s : State) (dv : Nat) (segs : List Nat) :
    (s.freeze dv segs).clock = s.clock := by simp [State.freeze]
@[simp] theorem State.clock_keepFrozen (s : State) : s.keepFrozen.clock = s.clock := by simp [State.keepFrozen]
@[simp] theorem State.clock_thaw (s : State) : s.thaw.clock = s.clock := by simp [State.thaw]
@[simp] theorem State.clock_supplyQuiesce (s : State) : s.supplyQuiesce.clock = s.clock := by
  simp only [State.supplyQuiesce, State.clock_report, State.clock_bump, State.clock_modPower, State.clock_setSupply,
    State.clock_quiesce]
@[simp] theorem State.clock_supplyResume (s : State) : s.supplyResume.clock = s.clock := by simp [State.supplyResume]
@[simp] theorem State.clock_segsOff (s : State) : s.segsOff.clock = s.clock := by simp [State.segsOff]
@[simp] theorem State.clock_noInput (s : State) (dv : Nat) : (s.noInput dv).clock = s.clock := by simp [State.noInput]
@[simp] theorem State.clock_loseAll (s : State) : s.loseAll.clock = s.clock := by simp [State.loseAll]
@[simp] theorem State.clock_loseInput (s : State) (cause dv : Nat) :
    (s.loseInput cause dv).clock = s.clock := by simp [State.loseInput]
@[simp] theorem State.clock_failCheck (s : State) (cond : Nat) :
    (s.failCheck cond).clock = s.clock := by simp [State.failCheck]
@[simp] theorem State.clock_startCheck (s : State) : s.startCheck.clock = s.clock := by
  unfold State.startCheck
  split <;> simp
@[simp] theorem State.clock_precharge (s : State) (dv : Nat) : (s.precharge dv).clock = s.clock := by simp [State.precharge]
@[simp] theorem State.clock_turnOn (s : State) : s.turnOn.clock = s.clock := by simp [State.turnOn]
@[simp] theorem State.clock_endCheck (s : State) (inlet outlet : Int) : (s.endCheck inlet outlet).clock = s.clock := by
  unfold State.endCheck
  split <;> simp
/-- The part of `powerOff` that follows the loss of the links. -/
theorem State.clock_losePower (s : State) :
    (let s := { s with drams := Map.mapOn Stack.reset s.drams (fun _ => true) (Stack.restart true) }
      let s := { s with restore := { s.restore with inReset := true } }
      (s.segsOff.setSupply supStandby).modPower (fun p => { p with frozenAt := none, quietAt := none })).clock =
      s.clock := by
  rw [State.clock_modPower, State.clock_setSupply, State.clock_segsOff]
  exact State.clock_congr (s := s) rfl rfl

@[simp] theorem State.clock_powerOff (s : State) :
    s.powerOff.clock = s.clock := (State.clock_losePower _).trans (State.clock_foldl _ (fun t n => by simp) s)
@[simp] theorem State.clock_sliceFail (s : State) (q i : Nat) :
    (s.sliceFail q i).clock = s.clock := by simp [State.sliceFail]
@[simp] theorem State.clock_phaseFail (s : State) (n i : Nat) :
    (s.phaseFail n i).clock = s.clock := by simp [State.phaseFail]
@[simp] theorem State.clock_senseOpen (s : State) (n : Nat) (ao : Bool) :
    (s.senseOpen n ao).clock = s.clock := by simp [State.senseOpen]
@[simp] theorem State.clock_segmentFail (s : State) (g bus : Nat) :
    (s.segmentFail g bus).clock = s.clock := by simp [State.segmentFail]

/-! #### Thermal -/

@[simp] theorem State.clock_trayReport (s : State) (flow : Nat) (inlet : Int) :
    (s.trayReport flow inlet).clock = s.clock := by
  simp only [State.trayReport, State.clock_modThermal, State.clock_setFld]
@[simp] theorem State.clock_traySilent (s : State) : s.traySilent.clock = s.clock := by simp [State.traySilent]
@[simp] theorem State.clock_showMeas (s : State) : s.showMeas.clock = s.clock := by simp [State.showMeas]
@[simp] theorem State.clock_countDerated (s : State) : s.countDerated.clock = s.clock := by simp [State.countDerated]
@[simp] theorem State.clock_enterHold (s : State) : s.enterHold.clock = s.clock := by simp [State.enterHold]
@[simp] theorem State.clock_allowanceUpdate (s : State) :
    s.allowanceUpdate.clock = s.clock := by simp [State.allowanceUpdate]
@[simp] theorem State.clock_exitHold (s : State) : s.exitHold.clock = s.clock := by simp [State.exitHold]
@[simp] theorem State.clock_revokeAll (s : State) : s.revokeAll.clock = s.clock := by simp [State.revokeAll]
@[simp] theorem State.clock_settleFold (s : State) (f : Nat) : (s.settleFold f).clock = s.clock := by simp [State.settleFold]
@[simp] theorem State.clock_thermalStop (s : State) (cause : Nat) (reading : Int) (causes : List Sensor) :
    (s.thermalStop cause reading causes).clock = s.clock := by
  unfold State.thermalStop
  extract_lets s₁ s₂ s₃ s₄ s₅ s₆
  have h₁ : s₁.clock = s.clock := State.clock_foldl _ State.clock_settleFold s
  have h₂ : s₂.clock = s₁.clock := by
    rw [State.clock_revokeAll, State.clock_endLoads, State.clock_haltReplacing]
  have h₃ : s₃.clock = s₂.clock := State.clock_foldl _ (fun t n => by simp) _
  rw [State.clock_report, State.clock_modThermal, State.clock_setFld, State.clock_bump, State.clock_setFld, State.clock_settle,
    State.clock_setThm, State.clock_darkenAll, h₃, h₂, h₁]
@[simp] theorem State.clock_judgeSensor (s : State) (k : Sensor) :
    (s.judgeSensor k).clock = s.clock := by simp [State.judgeSensor]
@[simp] theorem State.clock_noteDrivers (s : State) (q : Nat) :
    (s.noteDrivers q).clock = s.clock := by simp [State.noteDrivers]
@[simp] theorem State.clock_noteLea (s : State) (n : Nat) : (s.noteLea n).clock = s.clock := by simp [State.noteLea]
@[simp] theorem State.clock_setSensor (s : State) (k : Sensor) (v : Int) (dead : Bool) :
    (s.setSensor k v dead).clock = s.clock := by
  unfold State.setSensor
  split <;> simp
@[simp] theorem State.clock_failSensor (s : State) (k : Sensor) : (s.failSensor k).clock = s.clock := by
  simp only [State.failSensor]
  split <;> simp
@[simp] theorem State.clock_noteSensor (s : State) (k : Sensor) : (s.noteSensor k).clock = s.clock := by
  unfold State.noteSensor
  split <;> simp
@[simp] theorem State.clock_sensorRead (s : State) (k : Sensor) (r : Option Int) :
    (s.sensorRead k r).clock = s.clock := by
  unfold State.sensorRead
  split <;> simp
@[simp] theorem State.clock_hotStep (s : State) (q : Nat) : (s.hotStep q).clock = s.clock := by simp [State.hotStep]
@[simp] theorem State.clock_replaceAfter (s : State) (f q code : Nat) :
    (s.replaceAfter f q code).clock = s.clock := by simp [State.replaceAfter]
@[simp] theorem State.clock_regionHotOff (s : State) (q : Nat) : (s.regionHotOff q).clock = s.clock := by
  simp only [State.regionHotOff]
  split <;> simp
@[simp] theorem State.clock_hotReturn (s : State) (q : Nat) : (s.hotReturn q).clock = s.clock := by simp [State.hotReturn]
@[simp] theorem State.clock_flowLossN (s : State) (level : Bool) :
    (s.flowLossN level).clock = s.clock := by simp [State.flowLossN]
@[simp] theorem State.clock_clearStop (s : State) : s.clearStop.clock = s.clock := by simp [State.clearStop]
@[simp] theorem State.clock_governorStep (s : State) : s.governorStep.clock = s.clock := by simp [State.governorStep]

/-! #### Boot -/

@[simp] theorem State.clock_reportFaults (s : State) : s.reportFaults.clock = s.clock := by
  refine State.clock_foldl _ (fun t b => ?_) s
  repeat' split
  all_goals simp
@[simp] theorem State.clock_raiseAttempts (s : State) (b : Bool) :
    (s.raiseAttempts b).clock = s.clock := by simp [State.raiseAttempts]
@[simp] theorem State.clock_runImage (s : State) (b : Bool) (i : FwImage) :
    (s.runImage b i).clock = s.clock := by simp [State.runImage]
@[simp] theorem State.clock_haltBoot (s : State) (step : Nat) : (s.haltBoot step).clock = s.clock := by simp [State.haltBoot]
@[simp] theorem State.clock_takeRecords (s : State) (found : BootFindings) :
    (s.takeRecords found).clock = s.clock := by simp [State.takeRecords]
@[simp] theorem State.clock_resumeSigning (s : State) : s.resumeSigning.clock = s.clock := by simp [State.resumeSigning]
@[simp] theorem State.clock_rebuildIdentity (s : State) (found : BootFindings) :
    (s.rebuildIdentity found).clock = s.clock := by simp [State.rebuildIdentity]
@[simp] theorem State.clock_arrayFound (s : State) (x : Nat × Nat) (failed : Bool) :
    (s.arrayFound x failed).clock = s.clock := by simp [State.arrayFound]
@[simp] theorem State.clock_selfTest (s : State) (found : BootFindings) :
    (s.selfTest found).clock = s.clock := by simp [State.selfTest]
@[simp] theorem State.clock_repairMap (s : State) (found : BootFindings) :
    (s.repairMap found).clock = s.clock := by simp [State.repairMap]
@[simp] theorem State.clock_alignLeas (s : State) (found : BootFindings) :
    (s.alignLeas found).clock = s.clock := by simp [State.alignLeas]
@[simp] theorem State.clock_trainLinks (s : State) : s.trainLinks.clock = s.clock := by simp [State.trainLinks]
@[simp] theorem State.clock_restoreRecords (s : State) : s.restoreRecords.clock = s.clock := by
  refine State.clock_foldl _ (fun t e => ?_) s
  repeat' split
  all_goals simp
@[simp] theorem clock_writeLoose (l : List (Nat × Word)) (s : State) :
    (writeLoose l s).clock = s.clock := by simp [writeLoose]
@[simp] theorem State.clock_fillCopy (s : State) (c : Copy) : (s.fillCopy c).clock = s.clock := by
  simp only [State.fillCopy]
  split <;> simp
@[simp] theorem State.clock_replaceImage (s : State) (c : Copy) (stands : Bool) :
    (s.replaceImage c stands).clock = s.clock := by
  unfold State.replaceImage
  split <;> simp
@[simp] theorem State.clock_replaceCopies (s : State) : s.replaceCopies.clock = s.clock := by simp [State.replaceCopies]
@[simp] theorem State.clock_rebuildShadow (s : State) (p : Placed) :
    (s.rebuildShadow p).clock = s.clock := by simp [State.rebuildShadow]
@[simp] theorem State.clock_revalidate (s : State) : s.revalidate.clock = s.clock := by simp [State.revalidate]
@[simp] theorem State.clock_dropBanks (s : State) : s.dropBanks.clock = s.clock := by simp [State.dropBanks]
@[simp] theorem State.clock_dueArrays (s : State) : s.dueArrays.clock = s.clock := by simp [State.dueArrays]
@[simp] theorem State.clock_moveRecords (s : State) : s.moveRecords.clock = s.clock := by simp [State.moveRecords]
@[simp] theorem State.clock_powerExposed (s : State) : s.powerExposed.clock = s.clock := by simp [State.powerExposed]
@[simp] theorem State.clock_rearmBooted (s : State) (f : Nat) :
    (s.rearmBooted f).clock = s.clock := by simp [State.rearmBooted]
@[simp] theorem State.clock_newDbKey (s : State) : s.newDbKey.clock = s.clock := by simp [State.newDbKey]
@[simp] theorem State.clock_reachReady (s : State) : s.reachReady.clock = s.clock := by simp [State.reachReady]
@[simp] theorem State.clock_bringUp (s : State) (found : BootFindings) :
    (s.bringUp found).clock = s.clock := by simp [State.bringUp]
@[simp] theorem State.clock_bringModels (s : State) : s.bringModels.clock = s.clock := by simp [State.bringModels]
@[simp] theorem State.clock_boot (s : State) (found : BootFindings) : (s.boot found).clock = s.clock := by
  simp only [State.boot]
  split <;> simp

/-! #### Security -/

@[simp] theorem State.clock_result (s : State) (v : Nat) : (s.result v).clock = s.clock := by simp [State.result]
@[simp] theorem State.clock_setKeybuf (s : State) (b : List (BitVec 8)) :
    (s.setKeybuf b).clock = s.clock := by simp [State.setKeybuf]
@[simp] theorem State.clock_command (s : State) (p : Path) (f : State → State) (hf : ∀ t, (f t).clock = t.clock) :
    (s.command p f).clock = s.clock := by
  simp only [State.command]
  repeat' split
  all_goals simp [hf]
@[simp] theorem State.clock_secAccess (s : State) (p : Path) (f : State → State) (hf : ∀ t, (f t).clock = t.clock) :
    (s.secAccess p f).clock = s.clock := by
  unfold State.secAccess
  all_goals simp [hf]
@[simp] theorem State.clock_unsealed (s : State) (f : State → State) (hf : ∀ t, (f t).clock = t.clock) :
    (s.unsealed f).clock = s.clock := by
  simp only [State.unsealed]
  repeat' split
  all_goals simp [hf]
@[simp] theorem State.clock_setSigner (s : State) (slot : Nat) (k : Option (List (BitVec 8))) :
    (s.setSigner slot k).clock = s.clock := by simp [State.setSigner]
@[simp] theorem State.clock_installSigner (s : State) (slot : Nat) :
    (s.installSigner slot).clock = s.clock := by simp [State.installSigner]
@[simp] theorem State.clock_eraseSigner (s : State) (slot : Nat) :
    (s.eraseSigner slot).clock = s.clock := by simp [State.eraseSigner]
@[simp] theorem State.clock_installSetupKey (s : State) (slot : Nat) : (s.installSetupKey slot).clock = s.clock := by
  unfold State.installSetupKey
  split <;> simp
@[simp] theorem State.clock_exportKeys (s : State) : s.exportKeys.clock = s.clock := by simp [State.exportKeys]
@[simp] theorem State.clock_reserveIndex (s : State) : s.reserveIndex.clock = s.clock := by simp [State.reserveIndex]
@[simp] theorem State.clock_takeTree (s : State) : s.takeTree.clock = s.clock := by simp [State.takeTree]
@[simp] theorem State.clock_sendAttest (s : State) (nonce : List (BitVec 8)) :
    (s.sendAttest nonce).clock = s.clock := by simp [State.sendAttest]
@[simp] theorem State.clock_attest (s : State) : s.attest.clock = s.clock := by simp [State.attest]
@[simp] theorem State.clock_buildTree (s : State) : s.buildTree.clock = s.clock := by
  simp only [State.buildTree]
  split <;> simp
@[simp] theorem State.clock_commitSvn (s : State) : s.commitSvn.clock = s.clock := by simp [State.commitSvn]
@[simp] theorem State.clock_setSeal (s : State) : s.setSeal.clock = s.clock := by simp [State.setSeal]
@[simp] theorem State.clock_startUpdate (s : State) : s.startUpdate.clock = s.clock := by simp [State.startUpdate]
@[simp] theorem State.clock_takeImage (s : State) (b : Bool) (img : FwImage) :
    (s.takeImage b img).clock = s.clock := by simp [State.takeImage]
@[simp] theorem State.clock_verifyUpdate (s : State) (b : Bool) (img : FwImage) :
    (s.verifyUpdate b img).clock = s.clock := by
  unfold State.verifyUpdate
  split <;> simp
@[simp] theorem State.clock_applyUpdate (s : State) (b : Bool) :
    (s.applyUpdate b).clock = s.clock := by simp [State.applyUpdate]

/-! #### Resets -/

@[simp] theorem State.clock_holdStop (s : State) : s.holdStop.clock = s.clock := by simp [State.holdStop]
@[simp] theorem State.clock_writeLp (s : State) (p : Path) (v : Word) : (s.writeLp p v).2.clock = s.clock := by
  have h := s.clock_writeWord p .glbLpCtl 0 0 v
  unfold State.writeLp
  repeat' split
  all_goals simp_all
@[simp] theorem State.clock_ended (p : Path) (addr : Nat) (w : Written × State) :
    (State.ended p addr w).clock = w.2.clock := by
  simp [State.ended]
@[simp] theorem State.clock_writeLpOff (s : State) (p : Path) (n : Nat) (v : Word) :
    (s.writeLpOff p n v).2.clock = s.clock := by
  have h := s.clock_writeWord p .glbLpOff 0 n v
  simp only [State.writeLpOff]
  split <;> simp_all
@[simp] theorem State.clock_auxIn (s : State) : s.auxIn.clock = s.clock := by simp [State.auxIn]
@[simp] theorem State.clock_auxOut (s : State) : s.auxOut.clock = s.clock := by simp [State.auxOut]
@[simp] theorem State.clock_fetchRows (s : State) (p : Placed) : (s.fetchRows p).clock = s.clock := by simp [State.fetchRows]
@[simp] theorem State.clock_fetchGroup (s : State) (c : Copy) (x : Nat × Nat × Nat) :
    (s.fetchGroup c x).clock = s.clock := by
  simp only [State.fetchGroup]
  repeat' split
  all_goals simp
@[simp] theorem State.clock_modelRevalidated (s : State) (h : Nat) (m : Model) :
    (s.modelRevalidated h m).clock = s.clock := by simp [State.modelRevalidated]
@[simp] theorem State.clock_secCommand (s : State) (op slot : Nat) : (s.secCommand op slot).clock = s.clock := by
  unfold State.secCommand
  split <;> simp
theorem State.clock_resetCommand {s t : State} {op x : Nat} (h : s.resetCommand op x = some t) : t.clock = s.clock := by
  unfold State.resetCommand at h
  split at h
  case h_7 => cases h
  all_goals
    split at h
    · simp [← Option.some.inj h]
    · cases h
theorem State.clock_andThen {w : Written × State} {f : State → Written × State} {c : List Instr × Nat}
    (hw : w.2.clock = c) (hf : ∀ x, x.clock = c → (f x).2.clock = c) :
    (State.andThen w f).2.clock = c := by
  unfold State.andThen
  split
  · exact hf _ hw
  · exact hw
theorem State.clock_orRefuse {s : State} {r : Option State} {c : List Instr × Nat} (hs : s.clock = c)
    (hr : ∀ x, r = some x → x.clock = c) :
    (s.orRefuse r).2.clock = c := by
  unfold State.orRefuse
  split
  next x => exact hr x rfl
  next => exact hs
@[simp] theorem State.clock_writeReg (s : State) (p : Path) (r : Reg) (u i : Nat) (v : Word) :
    (s.writeReg p r u i v).2.clock = s.clock := by
  unfold State.writeReg
  have hw := s.clock_writeWord p r u i v
  split
  case h_1 => simp
  case h_2 => simp
  case h_3 => simp
  case h_6 =>
    exact State.clock_andThen hw (fun x hx => State.clock_orRefuse rfl (fun y hy => (State.clock_resetCommand hy).trans hx))
  case h_7 =>
    refine State.clock_andThen hw (fun x hx => ?_)
    split
    · refine State.clock_orRefuse rfl (fun y hy => ?_)
      split at hy
      · simp [← Option.some.inj hy, hx]
      · cases hy
    · exact hx
  case h_12 => exact hw
  all_goals
    refine State.clock_andThen hw (fun x hx => ?_)
    simp [hx]
@[simp] theorem State.clock_writeSetup (s : State) (p : Path) (addr width : Nat) (v : Word) :
    (s.writeSetup p addr width v).2.clock = s.clock := by
  unfold State.writeSetup
  split <;> simp

/-! #### Client -/

@[simp] theorem State.clock_connect (s : State) (ep link : Nat) :
    (s.connect ep link).clock = s.clock := by simp [State.connect]
@[simp] theorem State.clock_badDoorbell (s : State) (ep : Nat) (v : Word) : (s.badDoorbell ep v).clock = s.clock := by
  simp only [State.badDoorbell]
  split <;> simp
@[simp] theorem State.clock_inPage (s : State) (ep : Nat) (key : BitVec 32) (ok : Bool) (f : State → State)
    (hf : ∀ t, (f t).clock = t.clock) :
    (s.inPage ep key ok f).clock = s.clock := by
  simp only [State.inPage]
  repeat' split
  all_goals simp [hf]
@[simp] theorem State.clock_doorbell (s : State) (ep : Nat) (v : Word) :
    (s.doorbell ep v).clock = s.clock := by simp [State.doorbell]
@[simp] theorem State.clock_freeClosed (s : State) (ep : Nat) (head : Nat) :
    (s.freeClosed ep head).clock = s.clock := by
  refine State.clock_foldl _ (fun t e => ?_) s
  dsimp only
  split <;> simp
@[simp] theorem State.clock_takeHead (s : State) (ep : Nat) (v : Word) :
    (s.takeHead ep v).clock = s.clock := by simp [State.takeHead]
@[simp] theorem State.clock_replayOutput (s : State) (ep f swath : Nat) (late : Bool) :
    (s.replayOutput ep f swath late).clock = s.clock := by simp [State.replayOutput]
@[simp] theorem State.clock_replayItem (s : State) (ep : Nat) (i : Item) : (s.replayItem ep i).clock = s.clock := by
  simp only [State.replayItem]
  repeat' split
  all_goals simp
@[simp] theorem State.clock_replay (s : State) (ep : Nat) (v : Word) : (s.replay ep v).clock = s.clock := by
  simp only [State.replay]
  split <;> simp
@[simp] theorem State.clock_headWrite (s : State) (ep : Nat) (v : Word) :
    (s.headWrite ep v).clock = s.clock := by simp [State.headWrite]
@[simp] theorem State.clock_replayDone (s : State) (ep : Nat) (bad : List Nat) :
    (s.replayDone ep bad).clock = s.clock := by simp [State.replayDone]
@[simp] theorem State.clock_takeCredit (s : State) (ep g : Nat) (v : Word) :
    (s.takeCredit ep g v).clock = s.clock := by simp [State.takeCredit]
@[simp] theorem State.clock_creditWrite (s : State) (ep slot : Nat) (v : Word) :
    (s.creditWrite ep slot v).clock = s.clock := by
  unfold State.creditWrite
  split <;> simp
@[simp] theorem State.clock_pageWrite (s : State) (ep off : Nat) (v : Word) :
    (s.pageWrite ep off v).clock = s.clock := by simp [State.pageWrite]
@[simp] theorem State.clock_startLoad (s : State) (ep : Nat) (i : Item) : (s.startLoad ep i).clock = s.clock := by
  simp only [State.startLoad]
  split <;> simp
@[simp] theorem State.clock_afterAccept (s : State) (ep : Nat) (i : Item) :
    (s.afterAccept ep i).clock = s.clock := by simp [State.afterAccept]
@[simp] theorem State.clock_acceptDesc (s : State) (ep : Nat) (d : BitVec 512) :
    (s.acceptDesc ep d).clock = s.clock := by simp [State.acceptDesc]
@[simp] theorem State.clock_rejectDesc (s : State) (ep : Nat) (d : BitVec 512) (st : Nat) :
    (s.rejectDesc ep d st).clock = s.clock := by simp [State.rejectDesc]
@[simp] theorem State.clock_carry (s : State) (ep : Nat) (i : Item) : (s.carry ep i).clock = s.clock := by
  simp only [State.carry]
  split <;> simp

/-! #### EngineAttend -/

@[simp] theorem State.clock_translate (s : State) (n : Nat) (c : EngCall) (page : Nat) :
    (s.translate n c page).2.clock = s.clock := by
  unfold State.translate
  extract_lets g gen mine
  split
  · simp
  · split
    split
    next hx => exact State.clock_of_snd hx (by simp)
    next hx => simp [State.clock_of_snd hx (State.clock_callRead _ _ _)]
@[simp] theorem State.clock_frameRows (s : State) (c : EngCall) (w : Word) (i k : Nat) :
    (s.frameRows c w i k).2.clock = s.clock := by
  induction k generalizing s i with
  | zero => rfl
  | succ k ih => simp [State.frameRows, ih]
@[simp] theorem State.clock_readKv (s : State) (n : Nat) (c : EngCall) (p : Nat) :
    (s.readKv n c p).2.clock = s.clock := by
  have h := s.clock_translate n c (p / (s.copyOf c.entry).ppp * (s.copyOf c.entry).g +
    c.attention.head / c.attention.headsPer (s.copyOf c.entry))
  simp only [State.readKv]
  split
  next => simp_all
  next hx =>
    repeat' split
    all_goals simp [State.clock_of_snd hx h]
@[simp] theorem State.clock_readKvs (s : State) (n : Nat) (c : EngCall) (p k : Nat) :
    (s.readKvs n c p k).2.clock = s.clock := by
  induction k generalizing s p with
  | zero => rfl
  | succ k ih => simp [State.readKvs, ih]
@[simp] theorem clock_runAttend (n : Nat) (c : EngCall) (s : State) : (runAttend n c s).2.clock = s.clock := by
  simp only [runAttend]
  repeat' split
  all_goals simp
@[simp] theorem clock_runScores (n : Nat) (c : EngCall) (s : State) : (runScores n c s).2.clock = s.clock := by
  simp only [runScores]
  repeat' split
  all_goals simp

/-! #### EngineCrypto -/

@[simp] theorem EngCall.clock_sameRows (c : EngCall) (s : State) (data : List (BitVec 8)) (tag : Option Nat) :
    (c.sameRows s data tag).2.clock = s.clock := by simp [EngCall.sameRows]
@[simp] theorem clock_runDecrypt (n : Nat) (c : EngCall) (s : State) : (runDecrypt n c s).2.clock = s.clock := by
  have h := s.clock_callRows c c.input c.inputs
  unfold runDecrypt
  repeat' split
  all_goals simp_all
@[simp] theorem clock_runEncrypt (n : Nat) (c : EngCall) (s : State) : (runEncrypt n c s).2.clock = s.clock := by
  have h := s.clock_callRows c c.input c.inputs
  unfold runEncrypt
  repeat' split
  all_goals simp_all
@[simp] theorem clock_runSha (c : EngCall) (s : State) : (runSha c s).2.clock = s.clock := by
  simp only [runSha]
  repeat' split
  all_goals simp
@[simp] theorem State.clock_stewardCall (s : State) (n fn : Nat) (ok : Bool) :
    (s.stewardCall n fn ok).clock = s.clock := by simp [State.stewardCall]
@[simp] theorem State.clock_serveNorm (s : State) (q fn : Nat) (run : EngCall → State → EngReply × State)
    (hrun : ∀ x t, (run x t).2.clock = t.clock) :
    (s.serveNorm q fn run).clock = s.clock := by
  simp only [State.serveNorm]
  repeat' split
  all_goals simp [hrun]
@[simp] theorem clock_runNormSet (c : EngCall) (s : State) : (runNormSet c s).2.clock = s.clock := by simp [runNormSet]
@[simp] theorem clock_runNormSubmit (c : EngCall) (s : State) :
    (runNormSubmit c s).2.clock = s.clock := by simp [runNormSubmit]

/-! #### EngineSample -/

@[simp] theorem State.clock_countDrawn (s : State) (g token pos : Nat) :
    (s.countDrawn g token pos).clock = s.clock := by simp [State.countDrawn]
@[simp] theorem clock_runSample (c : EngCall) (s : State) : (runSample c s).2.clock = s.clock := by
  simp only [runSample]
  repeat' split
  all_goals simp
@[simp] theorem State.clock_verifyFrom (s : State) (c : EngCall) (rows : List Row) (v pos0 n i k : Nat) :
    (s.verifyFrom c rows v pos0 n i k).2.2.clock = s.clock := by
  induction k generalizing s i with
  | zero => rfl
  | succ k ih =>
    simp only [State.verifyFrom]
    split <;> simp [ih]
@[simp] theorem clock_runVerify (c : EngCall) (s : State) : (runVerify c s).2.clock = s.clock := by
  simp only [runVerify]
  repeat' split
  all_goals simp
@[simp] theorem clock_translateAll (n : Nat) (c : EngCall) (k p : Nat) (s : State) :
    (translateAll n c k p s).2.clock = s.clock := by
  induction k generalizing s p with
  | zero => rfl
  | succ k ih => simp [translateAll, ih]
@[simp] theorem clock_runTranslate (n : Nat) (c : EngCall) (s : State) :
    (runTranslate n c s).2.clock = s.clock := by simp [runTranslate]
@[simp] theorem clock_runExtend (c : EngCall) (s : State) : (runExtend c s).2.clock = s.clock := by
  unfold runExtend
  split
  next hx => exact State.clock_extendTo hx
  next => simp
@[simp] theorem clock_runTrim (c : EngCall) (s : State) : (runTrim c s).2.clock = s.clock := by simp [runTrim]

/-! #### EngineText -/

@[simp] theorem clock_runFeatures (c : EngCall) (s : State) : (runFeatures c s).2.clock = s.clock := by
  simp only [runFeatures]
  repeat' split
  all_goals simp
@[simp] theorem clock_runEncode (n : Nat) (c : EngCall) (s : State) : (runEncode n c s).2.clock = s.clock := by
  have h := s.clock_callRows c c.input c.inputs
  unfold runEncode
  repeat' split
  all_goals simp_all
@[simp] theorem clock_runDecode (n : Nat) (c : EngCall) (s : State) : (runDecode n c s).2.clock = s.clock := by
  simp only [runDecode]
  repeat' split
  all_goals simp

/-! #### Requests -/

@[simp] theorem State.clock_serveItem (s : State) (ep op : Nat) (f : Item → State → State)
    (hf : ∀ x t, (f x t).clock = t.clock) :
    (s.serveItem ep op f).clock = s.clock := by
  simp only [State.serveItem]
  repeat' split
  all_goals simp [hf]
@[simp] theorem State.clock_endItem (s : State) (ep : Nat) (i : Item) (st : Nat) :
    (s.endItem ep i st).clock = s.clock := by simp [State.endItem]
@[simp] theorem State.clock_startItem (s : State) (ep : Nat) (i : Item) (n : Nat) (data : List (BitVec 32)) :
    (s.startItem ep i n data).clock = s.clock := by simp [State.startItem]
@[simp] theorem State.clock_writeProfile (s : State) (n i : Nat) (p : Profile) :
    (s.writeProfile n i p).clock = s.clock := by simp [State.writeProfile]
theorem State.clock_allocate {s : State} {ep : Nat} {i : Item} {m : Model} {n : Nat} {draft : Option Nat}
    {r : Nat × State} (h : s.allocate ep i m n draft = some r) :
    r.2.clock = s.clock := by
  unfold State.allocate at h
  extract_lets f at h
  split at h
  · cases h
  · extract_lets g d s₁ at h
    split at h
    · cases h
    · obtain ⟨x, hx, hr⟩ := Option.map_eq_some_iff.mp h
      have hx₁ : x.2.clock = s.clock := (State.clock_takeFrame hx).trans (State.clock_modEntry s g _)
      rw [← hr]
      dsimp only
      cases draft with
      | none => simp [hx₁]
      | some dm => cases d <;> simp [hx₁]
theorem State.clock_openProfile {s t : State} {i : Item} {n : Nat} {profile : Option (BitVec 256)}
    (h : s.openProfile i n profile = .ok t) :
    t.clock = s.clock := by
  unfold State.openProfile at h
  repeat' split at h
  all_goals cases h
  all_goals simp
@[simp] theorem State.clock_openStream (s : State) (ep : Nat) (profile : Option (BitVec 256)) (i : Item) :
    (s.openStream ep profile i).clock = s.clock := by
  unfold State.openStream
  extract_lets fail st
  have hfail : ∀ st, (fail st).clock = s.clock := fun st => by simp [fail]
  split
  · exact hfail _
  · split
    · exact hfail _
    · split
      · split
        · exact hfail _
        · split
          · exact hfail _
          next hx =>
            split
            · exact hfail _
            next hy => simp [State.clock_allocate hy, State.clock_openProfile hx]
      · exact hfail _
@[simp] theorem State.clock_appendText (s : State) (ep : Nat) (i : Item) (bytes : List (BitVec 8)) :
    (s.appendText ep i bytes).clock = s.clock := by simp [State.appendText]
@[simp] theorem State.clock_append (s : State) (ep : Nat) (data : Option (List (BitVec 8))) (i : Item) :
    (s.append ep data i).clock = s.clock := by
  unfold State.append
  split <;> simp
@[simp] theorem State.clock_takeWords (s : State) (ep k : Nat) (data : Option (List (BitVec 32))) (i : Item) :
    (s.takeWords ep k data i).clock = s.clock := by
  simp only [State.takeWords]
  repeat' split
  all_goals simp
@[simp] theorem State.clock_release (s : State) (g : Nat) : (s.release g).clock = s.clock := by simp [State.release]
@[simp] theorem State.clock_closeStream (s : State) (ep : Nat) (i : Item) : (s.closeStream ep i).clock = s.clock := by
  simp only [State.closeStream]
  split <;> simp
@[simp] theorem State.clock_takePackage (s : State) (ep : Nat) (i : Item) (pkg : Option Package) :
    (s.takePackage ep i pkg).clock = s.clock := by
  simp only [State.takePackage]
  repeat' split
  all_goals simp
@[simp] theorem State.clock_loadModel (s : State) (ep : Nat) (i : Item) (pkg : Option Package) :
    (s.loadModel ep i pkg).clock = s.clock := by simp [State.loadModel]
@[simp] theorem State.clock_stopBuild (s : State) (h : Nat) : (s.stopBuild h).clock = s.clock := by
  unfold State.stopBuild
  split <;> simp
@[simp] theorem State.clock_dropNext (s : State) (h : Nat) : (s.dropNext h).clock = s.clock := by
  unfold State.dropNext
  split <;> simp
@[simp] theorem State.clock_forceOut (s : State) (h : Nat) (adapter : Bool) :
    (s.forceOut h adapter).clock = s.clock := by simp [State.forceOut]
@[simp] theorem State.clock_unloadModel (s : State) (ep : Nat) (i : Item) : (s.unloadModel ep i).clock = s.clock := by
  simp only [State.unloadModel]
  split <;> simp
@[simp] theorem State.clock_answerItem (s : State) (ep : Nat) (i : Item) (bytes : List (BitVec 8)) :
    (s.answerItem ep i bytes).clock = s.clock := by simp [State.answerItem]
@[simp] theorem State.clock_query (s : State) (ep : Nat) (bufferOk : Bool) (i : Item) :
    (s.query ep bufferOk i).clock = s.clock := by
  unfold State.query
  split <;> simp
@[simp] theorem State.clock_setupRead (s : State) (ep : Nat) (bufferOk : Bool) (i : Item) :
    (s.setupRead ep bufferOk i).clock = s.clock := by
  unfold State.setupRead
  split <;> simp
@[simp] theorem State.clock_setupWrite (s : State) (ep : Nat) (i : Item) :
    (s.setupWrite ep i).clock = s.clock := by simp [State.setupWrite]

/-! ### The instructions of the compute core -/

/-- An operation of the compute core that writes neither the queue of commands nor the tick. -/
structure Op.KeepsClock (op : Op) : Prop where
  run : ∀ f s, (op.run f s).state.clock = s.clock
  idle : ∀ f s, (op.idle f s).state.clock = s.clock

section
variable {o a b : CoreOp} {op opA opB : Op}

theorem CoreOp.clock_act (h : op.KeepsClock) (o : CoreOp) (f : Files) (s : State) : (o.act op f s).state.clock = s.clock := by
  simp only [CoreOp.act, Done.state_ite, State.clock_ite, Done.state_fault, h.run, h.idle, ite_self]

theorem CoreOp.clock_alone (h : op.KeepsClock) (o : CoreOp) (s : State) : (o.alone op s).clock = s.clock := by
  have hact := CoreOp.clock_act h o (s.files o.core) s
  unfold CoreOp.alone
  generalize o.act op (s.files o.core) s = x at hact ⊢
  cases x <;> simpa using hact

theorem CoreOp.clock_both (hA : opA.KeepsClock) (hB : opB.KeepsClock) (a b : CoreOp) (s : State) :
    (a.both opA b opB s).clock = s.clock := by
  have hfirst := fun t => CoreOp.clock_act hA a (s.files b.core) t
  have hsecond := CoreOp.clock_act hB b (s.files b.core) s
  unfold CoreOp.both
  dsimp only
  generalize b.act opB (s.files b.core) s = x at hsecond ⊢
  split
  · simp
  · cases x with
    | stall t => exact hsecond
    | fault _ t | ok t | jump t _ _ =>
      refine Eq.trans ?_ hsecond
      have h := hfirst t
      dsimp only
      generalize a.act opA (s.files b.core) t = y at h ⊢
      cases y <;> simpa using h

theorem CoreOp.clock_besideBad (h : op.KeepsClock) (o : CoreOp) (s : State) : (o.besideBad op s).clock = s.clock := by
  have hact := CoreOp.clock_act h o (s.files o.core) s
  unfold CoreOp.besideBad
  generalize o.act op (s.files o.core) s = x at hact ⊢
  cases x <;> simpa using hact

theorem CoreOp.clock_beside (h : op.KeepsClock) (o : CoreOp) (s : State) : (o.beside op s).clock = s.clock := by
  unfold CoreOp.beside
  split
  · exact CoreOp.clock_besideBad h o s
  · rfl
end
@[simp] theorem nopOp_keepsClock : nopOp.KeepsClock := ⟨fun _ _ => rfl, fun _ _ => rfl⟩

section
variable (o : CoreOp)
@[simp] theorem scalarOp_keepsClock (fn : Nat) (srcs : List Nat) (lat : Nat) (val : Files → Word) :
    (scalarOp o fn srcs lat val).KeepsClock := ⟨fun _ _ => by simp [scalarOp], fun _ _ => by simp [scalarOp]⟩
@[simp] theorem cmpOp_keepsClock (r : Rel) : (cmpOp o r).KeepsClock :=
  ⟨fun _ _ => by simp [cmpOp], fun _ _ => by simp [cmpOp]⟩
@[simp] theorem sysRdOp_keepsClock (s : State) : (sysRdOp o s).KeepsClock :=
  ⟨fun _ _ => by simp [sysRdOp, scalarOp], fun _ _ => by simp [sysRdOp, scalarOp]⟩
/-- A branch is never gated off whole, and its gated-off effect is that of NOP. -/
theorem branchOp_keepsClock {fn : Nat} {dst : Option Nat} {srcs : List Nat} {legal : Bool} {run : Files → State → Done}
    (h : ∀ f s, (run f s).state.clock = s.clock) : (branchOp fn dst srcs legal run).KeepsClock := ⟨h, fun _ _ => rfl⟩
@[simp] theorem brOp_keepsClock : (brOp o).KeepsClock := branchOp_keepsClock (fun _ _ => rfl)
@[simp] theorem brPOp_keepsClock : (brPOp o).KeepsClock := branchOp_keepsClock (fun _ _ => by simp)
@[simp] theorem loopOp_keepsClock : (loopOp o).KeepsClock := branchOp_keepsClock (fun _ _ => by simp)
@[simp] theorem jalOp_keepsClock : (jalOp o).KeepsClock := branchOp_keepsClock (fun _ _ => by simp)
@[simp] theorem jrOp_keepsClock : (jrOp o).KeepsClock := branchOp_keepsClock (fun _ _ => rfl)
@[simp] theorem vecOp_keepsClock (n : Nat) (ty : LaneType) (srcs : List Nat) (legal : Bool) (lat : Nat) (new : Files → Nat → Nat) :
    (vecOp o n ty srcs legal lat new).KeepsClock := ⟨fun _ _ => by simp [vecOp], fun _ _ => rfl⟩
@[simp] theorem vCmpOp_keepsClock (r : VRel) (ty : LaneType) : (vCmpOp o r ty).KeepsClock :=
  ⟨fun _ _ => by simp [vCmpOp], fun _ _ => rfl⟩
@[simp] theorem vSelOp_keepsClock (ty : LaneType) : (vSelOp o ty).KeepsClock := ⟨fun _ _ => by simp [vSelOp], fun _ _ => rfl⟩
@[simp] theorem vCvtOp_keepsClock (ty : LaneType) : (vCvtOp o ty).KeepsClock := by
  unfold vCvtOp
  dsimp only
  split <;> apply vecOp_keepsClock
@[simp] theorem vExp2Op_keepsClock (k : VFun) (ty : LaneType) : (vExp2Op o k ty).KeepsClock := by
  unfold vExp2Op
  split <;> apply vecOp_keepsClock
@[simp] theorem vBcastOp_keepsClock (ty : LaneType) : (vBcastOp o ty).KeepsClock :=
  ⟨fun _ _ => by simp [vBcastOp, vecOp], fun _ _ => rfl⟩
@[simp] theorem vInsOp_keepsClock (ty : LaneType) : (vInsOp o ty).KeepsClock :=
  ⟨fun _ _ => by simp [vInsOp, vecOp], fun _ _ => rfl⟩
@[simp] theorem vExtOp_keepsClock (ty : LaneType) : (vExtOp o ty).KeepsClock :=
  ⟨fun _ _ => by simp [vExtOp], fun _ _ => by simp [vExtOp]⟩
@[simp] theorem mmaOp_keepsClock (kind : MmaKind) (hiA hiB : Bool) (s : State) : (mmaOp o kind hiA hiB s).KeepsClock :=
  ⟨fun _ _ => by simp [mmaOp], fun _ _ => by simp [mmaOp]⟩
@[simp] theorem accClrOp_keepsClock (s : State) : (accClrOp o s).KeepsClock :=
  ⟨fun _ _ => by simp [accClrOp], fun _ _ => by simp [accClrOp]⟩
@[simp] theorem accMvOp_keepsClock (s : State) : (accMvOp o s).KeepsClock :=
  ⟨fun _ _ => by simp [accMvOp], fun _ _ => by simp [accMvOp]⟩
@[simp] theorem rowLdOp_keepsClock (tile : Bool) (s : State) : (rowLdOp o tile s).KeepsClock :=
  ⟨fun _ _ => by simp [rowLdOp], fun _ _ => by simp [rowLdOp]⟩
@[simp] theorem rowStOp_keepsClock (tile : Bool) : (rowStOp o tile).KeepsClock :=
  ⟨fun _ _ => by simp [rowStOp], fun _ _ => by simp [rowStOp]⟩
@[simp] theorem qPutRdOp_keepsClock (k : Nat) : (qPutRdOp o k).KeepsClock := by
  refine ⟨fun f s => ?_, fun _ _ => by simp [qPutRdOp, putOp]⟩
  simp only [qPutRdOp, putOp]
  split <;> simp
@[simp] theorem qPutWrOp_keepsClock (k : Nat) : (qPutWrOp o k).KeepsClock := by
  refine ⟨fun f s => ?_, fun _ _ => by simp [qPutWrOp, putOp]⟩
  simp only [qPutWrOp, putOp]
  split <;> simp
@[simp] theorem qGetOp_keepsClock (k : Nat) (d : GetDst) (s : State) : (qGetOp o k d s).KeepsClock :=
  ⟨fun _ _ => by simp [qGetOp], fun _ _ => by simp [qGetOp]⟩
@[simp] theorem qWaitOp_keepsClock (k : Nat) : (qWaitOp o k).KeepsClock :=
  ⟨fun _ _ => by simp [qWaitOp, waitOp], fun _ _ => by simp [qWaitOp, waitOp]⟩
@[simp] theorem qWaitWrOp_keepsClock (k : Nat) : (qWaitWrOp o k).KeepsClock :=
  ⟨fun _ _ => by simp [qWaitWrOp, waitOp], fun _ _ => by simp [qWaitWrOp, waitOp]⟩
@[simp] theorem slotSendOp_keepsClock : (slotSendOp o).KeepsClock :=
  ⟨fun _ _ => by simp [slotSendOp], fun _ _ => by simp [slotSendOp]⟩
@[simp] theorem arrIssueOp_keepsClock (g : Nat) (s : State) : (arrIssueOp o g s).KeepsClock :=
  ⟨fun _ _ => by simp [arrIssueOp], fun _ _ => rfl⟩
@[simp] theorem arrCollectOp_keepsClock (g : Nat) : (arrCollectOp o g).KeepsClock := by
  constructor
  all_goals
    intro f s
    simp only [arrCollectOp]
    split <;> simp
@[simp] theorem leaveReqOp_keepsClock (s : State) : (leaveReqOp o s).KeepsClock :=
  ⟨fun _ _ => by simp [leaveReqOp], fun _ _ => rfl⟩
@[simp] theorem leaveWaitOp_keepsClock : (leaveWaitOp o).KeepsClock := by
  refine ⟨fun f s => ?_, fun _ _ => by simp [leaveWaitOp]⟩
  simp only [leaveWaitOp]
  split <;> simp
@[simp] theorem stileOp_keepsClock : (stileOp o).KeepsClock :=
  ⟨fun _ _ => by simp [stileOp], fun _ _ => by simp [stileOp]⟩
@[simp] theorem swathWaitOp_keepsClock : (swathWaitOp o).KeepsClock :=
  ⟨fun _ _ => by simp [swathWaitOp], fun _ _ => by simp [swathWaitOp]⟩
@[simp] theorem engCallOp_keepsClock : (engCallOp o).KeepsClock :=
  ⟨fun _ _ => by simp [engCallOp], fun _ _ => by simp [engCallOp]⟩
@[simp] theorem engWaitOp_keepsClock : (engWaitOp o).KeepsClock := by
  refine ⟨fun f s => ?_, fun _ _ => by simp [engWaitOp]⟩
  simp only [engWaitOp]
  split
  · rfl
  · split <;> simp
@[simp] theorem recEmitOp_keepsClock (s : State) : (recEmitOp o s).KeepsClock :=
  ⟨fun _ _ => by simp [recEmitOp], fun _ _ => rfl⟩
end
theorem coreOp_keepsClock {i : Instr} {o : CoreOp} {op : State → Op} (h : coreOp i = some (o, op)) (s : State) :
    (op s).KeepsClock := by
  unfold coreOp at h
  split at h
  all_goals cases h
  all_goals simp [addOp, shiftOp, minOp, mulOp, liOp, luiOp, vAddOp, vAndOp, vMulOp, vRedOp, vShufOp]

theorem CoreOp.clock_command {op : State → Op} (h : ∀ s, (op s).KeepsClock) (o : CoreOp) (i : Instr) (s : State) :
    (o.command i op s).clock = s.clock := by
  have hbeside := CoreOp.clock_beside (h s) o
  have halone := CoreOp.clock_alone (h s) o
  unfold CoreOp.command
  dsimp only
  split
  · rfl
  · split
    · split
      · rfl
      · exact State.clock_issue _ _ _ _ _ _ _ hbeside halone
    · split
      · split
        · exact State.clock_issue _ _ _ _ _ _ _ hbeside (fun _ => rfl)
        · split <;> simp
      · split
        next a opA hheld =>
          obtain ⟨j, _, hj⟩ := Option.bind_eq_some_iff.mp hheld
          exact State.clock_issue _ _ _ _ _ _ _ (fun _ => rfl) (CoreOp.clock_both (coreOp_keepsClock hj s) (h s) a o)
        · rfl

/-! ### Commands -/

@[simp] theorem State.clock_at (s : State) (t : Nat) : (s.at t).clock = (s.pending, Nat.max s.now t) := (rfl)

end Sys2Proof.Machine

namespace Sys2Proof

open Machine

/-- What O2 and O3 need of a command: on the units of a W1 it leaves the queue and moves time by its own tick. -/
def Instr.Runs (i : Instr) (s : State) : Prop :=
  ∃ s', exec i s = onUnit i.wf s' ∧ s'.clock = (s.pending, Nat.max s.now i.tick)

end Sys2Proof

namespace Sys2Proof.Machine

/-! ### The instructions of the compute core -/

/-- A core instruction is well formed when its core exists, and the unit that its mnemonic names. -/
theorem exec_core {i : Instr} {o : CoreOp} {op : State → Op} (h : coreOp i = some (o, op)) :
    ∃ k, (validCore o.core && k) = i.wf ∧ ∀ s, exec i s = o.exec i i.tick k op s := by
  unfold coreOp at h
  split at h
  all_goals cases h
  all_goals
    refine ⟨_, ?_, fun _ => rfl⟩
    simp only [validCore, Instr.wf, CoreOp.coreOk, coreOk, below, Bool.and_true]

theorem runs_of_core {i : Instr} {o : CoreOp} {op : State → Op} (h : coreOp i = some (o, op)) (s : State) : Instr.Runs i s := by
  obtain ⟨k, hk, hex⟩ := exec_core h
  refine ⟨_, (hex s).trans (by rw [CoreOp.exec, hk]), ?_⟩
  rw [CoreOp.clock_command (coreOp_keepsClock h), State.clock_at]

/-! ### The commands whose effect depends on what they find -/

section
variable (t : Nat) (s : State)

theorem foldArm_runs (p : Path) (f : Nat) (img : Option Image) : Instr.Runs (.foldArm t p f img) s := by
  refine ⟨_, rfl, ?_⟩
  dsimp only [Instr.tick]
  split <;> simp

theorem swathOpen_runs (f : Nat) : Instr.Runs (.swathOpen t f) s := by
  refine ⟨_, rfl, ?_⟩
  dsimp only [Instr.tick]
  repeat' split
  all_goals simp

theorem clock_releaseFrom (f id : Nat) : (match s.releaseTick f id with
    | some x => if x ≤ s.now then s.releaseStile f id x else s
    | none => s).clock = s.clock := by
  split <;> simp

theorem stileRelease_runs (f id : Nat) : Instr.Runs (.stileRelease t f id) s := by
  refine ⟨_, rfl, (clock_whenever _ _ _ (fun u => ?_)).trans (s.clock_at t)⟩
  split
  · exact (clock_releaseFrom _ f id).trans (u.clock_tellJoin f id)
  · simp

theorem outputEntry_runs (f : Nat) (a : Acked) : Instr.Runs (.outputEntry t f a) s := by
  refine ⟨_, rfl, ?_⟩
  dsimp only [Instr.tick]
  split <;> simp

theorem grantStart_runs (n g : Nat) : Instr.Runs (.grantStart t n g) s := by
  refine ⟨_, rfl, ?_⟩
  dsimp only [Instr.tick]
  split <;> simp

theorem grantSpanEnd_runs (n g : Nat) : Instr.Runs (.grantSpanEnd t n g) s := by
  refine ⟨_, rfl, ?_⟩
  dsimp only [Instr.tick]
  split <;> simp

theorem slotLaunch_runs (pkt : Nat) : Instr.Runs (.slotLaunch t pkt) s := by
  refine ⟨_, rfl, ?_⟩
  dsimp only [Instr.tick]
  split <;> simp

theorem routerRow_runs (pkt : Nat) : Instr.Runs (.routerRow t pkt) s := by
  refine ⟨_, rfl, ?_⟩
  dsimp only [Instr.tick]
  split <;> simp

theorem timedRowArrival_runs (pkt : Nat) : Instr.Runs (.timedRowArrival t pkt) s := by
  refine ⟨_, rfl, ?_⟩
  dsimp only [Instr.tick]
  repeat' split
  all_goals simp

theorem routerPortArrival_runs (pkt : Nat) : Instr.Runs (.routerPortArrival t pkt) s := by
  refine ⟨_, rfl, ?_⟩
  dsimp only [Instr.tick]
  split
  · refine (clock_whenever _ _ _ (fun u => ?_)).trans (s.clock_at t)
    split <;> simp
  · simp

theorem stackRequestAdmit_runs (n : Nat) : Instr.Runs (.stackRequestAdmit t n) s := by
  refine ⟨_, rfl, ?_⟩
  dsimp only [Instr.tick]
  split
  · simp
  · split
    next hx => simpa using State.clock_nextRequest hx
    next => simp

theorem engineCallAdmit_runs (n e : Nat) : Instr.Runs (.engineCallAdmit t n e) s := by
  refine ⟨_, rfl, ?_⟩
  dsimp only [Instr.tick]
  split <;> simp

theorem weightCodecChunk_runs (n : Nat) (dest : ChunkDest) (unit row coding : Nat) (data : List (BitVec 8)) :
    Instr.Runs (.weightCodecChunk t n dest unit row coding data) s := by
  cases dest with
  | stack | scratch =>
    refine ⟨_, rfl, ?_⟩
    dsimp only [Instr.tick]
    split <;> simp
  | array a =>
    have hwf : (validLea n && (validArray unit a && unit / 24 == n)) =
        (Instr.weightCodecChunk t n (.array a) unit row coding data).wf := by
      simp only [validLea, validArray, validCluster, Instr.wf, leaOk, clusterOk, below, Bool.and_assoc]
      rw [Bool.and_comm (decide (a < 32))]
    refine ⟨_, congrArg (onUnit · _) hwf, ?_⟩
    dsimp only [Instr.tick]
    split <;> simp

theorem accept_runs (ep : Nat) : Instr.Runs (.accept t ep) s := by
  refine ⟨_, rfl, ?_⟩
  dsimp only [Instr.tick]
  split <;> simp

theorem reject_runs (ep : Nat) : Instr.Runs (.reject t ep) s := by
  refine ⟨_, rfl, ?_⟩
  dsimp only [Instr.tick]
  split <;> simp

theorem carriedAccept_runs (ep : Nat) : Instr.Runs (.carriedAccept t ep) s := by
  refine ⟨_, rfl, ?_⟩
  dsimp only [Instr.tick]
  split <;> simp

theorem close_runs (ep : Nat) : Instr.Runs (.close t ep) s := by
  refine ⟨_, rfl, ?_⟩
  dsimp only [Instr.tick]
  split <;> simp

theorem loadModel_runs (ep : Nat) (pkg : Option Package) : Instr.Runs (.loadModel t ep pkg) s := by
  refine ⟨_, rfl, ?_⟩
  dsimp only [Instr.tick]
  split <;> simp

theorem ackTimeout_runs (port : Nat) : Instr.Runs (.ackTimeout t port) s := by
  refine ⟨_, rfl, ?_⟩
  dsimp only [Instr.tick]
  split <;> simp

theorem windowRequest_runs (h : RowHeader) (row : Row) : Instr.Runs (.windowRequest t h row) s := by
  refine ⟨_, rfl, ?_⟩
  dsimp only [Instr.tick]
  split
  next hx => simpa using State.clock_takeInbox hx
  next => simp

theorem refusal_runs (tag cause : Nat) : Instr.Runs (.refusal t tag cause) s := by
  refine ⟨_, rfl, ?_⟩
  dsimp only [Instr.tick]
  split
  next hx =>
    have h := State.clock_takeInbox hx
    repeat' split
    all_goals simpa using h
  next => simp

theorem clusterFail_runs (q cause : Nat) (core : Option Nat) : Instr.Runs (.clusterFail t q cause core) s := by
  refine ⟨_, rfl, (clock_whenever _ _ _ (fun u => ?_)).trans (s.clock_at t)⟩
  split <;> simp

theorem heartbeatLost_runs (router : Bool) (unit reporter : Nat) :
    Instr.Runs (.heartbeatLost t router unit reporter) s := by
  cases router <;> exact ⟨_, rfl, by simp [Instr.tick]⟩

theorem spareTestEnd_runs (q : Nat) (pass : Bool) : Instr.Runs (.spareTestEnd t q pass) s := by
  refine ⟨_, rfl, ?_⟩
  dsimp only [Instr.tick]
  split <;> simp

theorem replaceDone_runs (f : Nat) : Instr.Runs (.replaceDone t f) s := by
  refine ⟨_, rfl, ?_⟩
  dsimp only [Instr.tick]
  split <;> simp

theorem recordStreamSend_runs (log : Nat) : Instr.Runs (.recordStreamSend t log) s := by
  have hwf : decide (log ≤ 64) = (Instr.recordStreamSend t log).wf := decide_eq_decide.mpr Nat.lt_succ_iff.symm
  exact ⟨_, congrArg (onUnit · _) hwf, by simp [Instr.tick]⟩

theorem verifyComplete_runs (img : FwImage) : Instr.Runs (.verifyComplete t img) s := by
  refine ⟨_, rfl, ?_⟩
  dsimp only [Instr.tick]
  split <;> simp

theorem applyComplete_runs : Instr.Runs (.applyComplete t) s := by
  refine ⟨_, rfl, ?_⟩
  dsimp only [Instr.tick]
  split <;> simp

theorem modelRevalidated_runs (handle : Nat) : Instr.Runs (.modelRevalidated t handle) s := by
  refine ⟨_, rfl, ?_⟩
  dsimp only [Instr.tick]
  split <;> simp

end

/-! ### Every command -/

theorem instr_runs (i : Instr) (s : State) : i.Runs s := by
  cases h : coreOp i with
  | some x => exact runs_of_core h s
  | none =>
    cases i
    all_goals simp only [coreOp, reduceCtorEq] at h
    case foldArm t p f img => exact foldArm_runs t s p f img
    case swathOpen t f => exact swathOpen_runs t s f
    case stileRelease t f id => exact stileRelease_runs t s f id
    case outputEntry t f a => exact outputEntry_runs t s f a
    case grantStart t n g => exact grantStart_runs t s n g
    case grantSpanEnd t n g => exact grantSpanEnd_runs t s n g
    case slotLaunch t pkt => exact slotLaunch_runs t s pkt
    case routerRow t pkt => exact routerRow_runs t s pkt
    case timedRowArrival t pkt => exact timedRowArrival_runs t s pkt
    case routerPortArrival t pkt => exact routerPortArrival_runs t s pkt
    case stackRequestAdmit t n => exact stackRequestAdmit_runs t s n
    case engineCallAdmit t n e => exact engineCallAdmit_runs t s n e
    case weightCodecChunk t n dest unit row coding data => exact weightCodecChunk_runs t s n dest unit row coding data
    case accept t ep => exact accept_runs t s ep
    case reject t ep => exact reject_runs t s ep
    case carriedAccept t ep => exact carriedAccept_runs t s ep
    case close t ep => exact close_runs t s ep
    case loadModel t ep pkg => exact loadModel_runs t s ep pkg
    case ackTimeout t port => exact ackTimeout_runs t s port
    case windowRequest t hd row => exact windowRequest_runs t s hd row
    case refusal t tag cause => exact refusal_runs t s tag cause
    case clusterFail t q cause core => exact clusterFail_runs t s q cause core
    case heartbeatLost t router unit reporter => exact heartbeatLost_runs t s router unit reporter
    case spareTestEnd t q pass => exact spareTestEnd_runs t s q pass
    case replaceDone t f => exact replaceDone_runs t s f
    case recordStreamSend t log => exact recordStreamSend_runs t s log
    case verifyComplete t img => exact verifyComplete_runs t s img
    case applyComplete t => exact applyComplete_runs t s
    case modelRevalidated t handle => exact modelRevalidated_runs t s handle
    all_goals exact ⟨_, rfl, by simp [Instr.tick]⟩

end Sys2Proof.Machine

namespace Sys2Proof

open Machine

/-- Settles O2: the dispatch gives every command one outcome, which its well-formedness decides. -/
theorem wellFormedAnswersNext : Obligations.WellFormedAnswersNext := by
  intro i s
  obtain ⟨s', hexec, _⟩ := instr_runs i s
  exact ⟨fun hwf => ⟨s', by rw [hexec, hwf, onUnit, if_pos rfl]⟩,
    fun hwf => by rw [hexec, hwf, onUnit, if_neg Bool.false_ne_true]⟩

/-- Settles O3: a step takes the front of the queue off, and its command leaves the rest and the clock as `Instr.Runs` says. -/
theorem stepKeepsQueueWellFormed : Obligations.StepKeepsQueueWellFormed := by
  intro s hall
  cases hq : s.pending with
  | nil => exact ⟨s, by rw [step, hq], hq, hall, rfl⟩
  | cons c rest =>
    rw [hq, List.all_cons, Bool.and_eq_true] at hall
    obtain ⟨hc, hrest⟩ := hall
    obtain ⟨s', hexec, hclock⟩ := instr_runs c { s with pending := rest }
    obtain ⟨hpending, hnow⟩ := Prod.mk.inj hclock
    refine ⟨s', ?_, hpending, by rw [hpending, hrest], hnow⟩
    rw [step, hq]
    exact hexec.trans (by rw [hc, onUnit, if_pos rfl])

end Sys2Proof
end

section
/-! FOLD_ARM and FOLD_STOP: which operations leave the images of the folds, what arming and stopping do to a fold and its cores,
and from them O27. -/

namespace Sys2Proof.Machine

/-! ### The images of the folds -/

/-- The image of each fold in a list of folds. -/
def imagesIn (m : Map Fold) (f : Nat) : Option Image := (Map.get Fold.reset m f).image

/-- The image that each fold holds. Only arming, the placing of a copy and the return of a fold write it. -/
def State.images (s : State) : Nat → Option Image := imagesIn s.folds

@[simp] theorem State.images_mk x0 x1 x2 x3 x4 x5 x6 x7 x8 x9 x10 x11 x12 x13 x14 x15 x16 x17 x18 x19 x20 x21 x22 x23 x24
    x25 x26 x27 x28 x29 x30 x31 x32 x33 x34 x35 x36 x37 :
    State.images ⟨x0, x1, x2, x3, x4, x5, x6, x7, x8, x9, x10, x11, x12, x13, x14, x15, x16, x17, x18, x19, x20, x21, x22,
      x23, x24, x25, x26, x27, x28, x29, x30, x31, x32, x33, x34, x35, x36, x37⟩ = imagesIn x14 := (rfl)

@[simp] theorem State.imagesIn_folds (s : State) : imagesIn s.folds = s.images := (rfl)

theorem State.image_of_images {s t : State} (h : t.images = s.images) (f : Nat) : (t.fold f).image = (s.fold f).image :=
  congrFun h f

theorem State.foldClusters_of_images {s t : State} (h : t.images = s.images) (f : Nat) :
    t.foldClusters f = s.foldClusters f := by
  rw [State.foldClusters, State.foldClusters, State.image_of_images h]

@[simp] theorem State.images_ite (c : Prop) [Decidable c] (s t : State) :
    (if c then s else t).images = if c then s.images else t.images := apply_ite _ _ _ _

@[simp] theorem State.images_foldl {α : Type} {g : State → α → State} (h : ∀ s a, (g s a).images = s.images)
    (l : List α) (s : State) : (l.foldl g s).images = s.images :=
  List.foldlRecOn (motive := fun t => t.images = s.images) l g rfl (fun t ht a _ => (h t a).trans ht)

@[simp] theorem State.images_setReg (s : State) (r : Reg) (u i : Nat) (w : Word) : (s.setReg r u i w).images = s.images := (rfl)
@[simp] theorem State.images_setFld (s : State) (x : Fld) (u i v : Nat) : (s.setFld x u i v).images = s.images := (rfl)
@[simp] theorem State.images_bump (s : State) (x : Fld) (u i : Nat) : (s.bump x u i).images = s.images := (rfl)
@[simp] theorem State.images_setBit (s : State) (x : Fld) (u i b : Nat) (on : Bool) :
    (s.setBit x u i b on).images = s.images := (rfl)
@[simp] theorem State.images_modCore (s : State) (c : Nat) (g : Core → Core) : (s.modCore c g).images = s.images := (rfl)
@[simp] theorem State.images_modCluster (s : State) (q : Nat) (g : Cluster → Cluster) :
    (s.modCluster q g).images = s.images := (rfl)
@[simp] theorem State.images_modHub (s : State) (n : Nat) (g : Hub → Hub) : (s.modHub n g).images = s.images := (rfl)
@[simp] theorem State.images_modDram (s : State) (n : Nat) (g : Stack → Stack) : (s.modDram n g).images = s.images := (rfl)
@[simp] theorem State.images_modEntry (s : State) (e : Nat) (g : Entry → Entry) : (s.modEntry e g).images = s.images := (rfl)
@[simp] theorem State.images_modEndpoint (s : State) (e : Nat) (g : Endpoint → Endpoint) :
    (s.modEndpoint e g).images = s.images := (rfl)
@[simp] theorem State.images_modPort (s : State) (p : Nat) (g : Port → Port) : (s.modPort p g).images = s.images := (rfl)
@[simp] theorem State.images_recordModule (s : State) : s.recordModule.images = s.images := (rfl)
@[simp] theorem State.images_drew (s : State) : s.drew.images = s.images := (rfl)
@[simp] theorem State.images_send (s : State) (o : Out) : (s.send o).images = s.images := (rfl)

theorem State.images_modFold_eq (s : State) (f : Nat) (g : Fold → Fold) :
    (s.modFold f g).images = Function.update s.images f (g (s.fold f)).image := by
  funext x
  rw [Function.update_apply]
  unfold State.images imagesIn State.modFold State.setFold
  rw [Map.get_set, apply_ite Fold.image]

/-- A change of a fold that leaves its image. -/
@[simp] theorem State.images_modFold (s : State) (f : Nat) {g : Fold → Fold} (h : ∀ x, (g x).image = x.image) :
    (s.modFold f g).images = s.images := by
  rw [State.images_modFold_eq, h]
  exact Function.update_eq_self f s.images

@[simp] theorem State.images_modArb (s : State) (n : Nat) (f : Arbiter → Arbiter) :
    (s.modArb n f).images = s.images := by simp [State.modArb]
@[simp] theorem State.images_enterReq (s : State) (r : LeaveReq) : (s.enterReq r).images = s.images := by simp [State.enterReq]
@[simp] theorem State.images_askLeave (s : State) (cls q mask units span offset : Nat) (bank : Option Nat) :
    (s.askLeave cls q mask units span offset bank).images = s.images := by simp [State.askLeave]
@[simp] theorem State.images_countDropped (s : State) (glob : Bool) (cap : Nat) (l : Log) :
    (s.countDropped glob cap l).images = s.images := by simp [State.countDropped]
@[simp] theorem State.images_logRecord (s : State) (k : Source) (r : Rec) : (s.logRecord k r).images = s.images := by
  simp only [State.logRecord]
  split <;> simp
@[simp] theorem State.images_report (s : State) (k : Source) (code p0 p1 : Nat) :
    (s.report k code p0 p1).images = s.images := by
  unfold State.report
  split <;> simp
@[simp] theorem State.images_failItems (s : State) (f c st : Nat) :
    (s.failItems f c st).images = s.images := by simp [State.failItems]
@[simp] theorem State.images_failItems? (s : State) (f : Option Nat) (c st : Nat) :
    (s.failItems? f c st).images = s.images := by
  unfold State.failItems?
  split <;> simp
@[simp] theorem State.images_setNormSlot (s : State) (q i : Nat) (m : NormSlot) :
    (s.setNormSlot q i m).images = s.images := by simp [State.setNormSlot]
@[simp] theorem State.images_showPending (s : State) (q b : Nat) :
    (s.showPending q b).images = s.images := by simp [State.showPending]
@[simp] theorem State.images_zeroBank (s : State) (q b : Nat) : (s.zeroBank q b).images = s.images := by simp [State.zeroBank]
@[simp] theorem State.images_dropBank (s : State) (q b : Nat) : (s.dropBank q b).images = s.images := by simp [State.dropBank]
@[simp] theorem State.images_powerBank (s : State) (q b : Nat) :
    (s.powerBank q b).images = s.images := by simp [State.powerBank]
@[simp] theorem State.images_openPart (s : State) (q i : Nat) : (s.openPart q i).images = s.images := by
  have h := s.images_setFld Fld.cluPartCfgGate q i 1
  unfold State.openPart
  generalize s.setFld Fld.cluPartCfgGate q i 1 = t at h ⊢
  simp [h]
@[simp] theorem State.images_closePart (s : State) (q i : Nat) :
    (s.closePart q i).images = s.images := by simp [State.closePart]
@[simp] theorem State.images_partApply (s : State) (q i : Nat) (cfg : Bool) (v : Word) :
    (s.partApply q i cfg v).images = s.images := by
  unfold State.partApply
  extract_lets b0 c0 gate0 was old
  split
  extract_lets gate is s₁ s₂ s₃
  have h₁ : s₁.images = s.images := by rw [State.images_setReg, State.images_setReg]
  clear_value s₁
  have h₃ : s₃.images = s.images := by simp [s₃, s₂, h₁]
  clear_value s₃
  split <;> simp [h₃]
@[simp] theorem State.images_writePart (s : State) (q i : Nat) (cfg : Bool) (v : Word) :
    (s.writePart q i cfg v).2.images = s.images := by simp [State.writePart]
@[simp] theorem State.images_spRecord (s : State) (q a : Nat) (f : Option Nat) :
    (s.spRecord q a f).images = s.images := by simp [State.spRecord]
@[simp] theorem State.images_spError (s : State) (q a : Nat) (f : Option Nat) (core : Nat) :
    (s.spError q a f core).images = s.images := by simp [State.spError]
@[simp] theorem State.images_senseRow (s : State) (q a : Nat) : (s.senseRow q a).2.2.images = s.images := by
  unfold State.senseRow
  split <;> simp
@[simp] theorem State.images_readRow (s : State) (q a : Nat) (f : Option Nat) (core : Nat) :
    (s.readRow q a f core).2.images = s.images := by
  simp only [State.readRow]
  split <;> simp
@[simp] theorem State.images_gatedAccess (s : State) (q a writer : Nat) (f : Option Nat) (core : Nat) :
    (s.gatedAccess q a writer f core).images = s.images := by simp [State.gatedAccess]
@[simp] theorem State.images_portRead (s : State) (q a f core : Nat) :
    (s.portRead q a f core).2.images = s.images := by simp [State.portRead]
@[simp] theorem State.images_portReads (s : State) (q a f core n : Nat) :
    (s.portReads q a f core n).2.images = s.images := by
  induction n generalizing s a with
  | zero => rfl
  | succ n ih => simp [State.portReads, ih]
@[simp] theorem State.images_entryRows (s : State) (q f row n : Nat) :
    (s.entryRows q f row n).2.images = s.images := by simp [State.entryRows]
@[simp] theorem State.images_loadEntry (s : State) (q e : Nat) (num : Row) (scale : List Row) :
    (s.loadEntry q e num scale).images = s.images := by simp [State.loadEntry]
@[simp] theorem State.images_writeLayer (s : State) (steward : Bool) (q e r : Nat) (v : Word) :
    (s.writeLayer steward q e r v).2.images = s.images := by
  simp only [State.writeLayer]
  repeat' split
  all_goals simp
@[simp] theorem State.images_writeRegion (s : State) (p : Path) (n i : Nat) (cfg : Bool) (v : Word) :
    (s.writeRegion p n i cfg v).2.images = s.images := by simp [State.writeRegion]
@[simp] theorem State.images_setLock (s : State) (v : Nat) : (s.setLock v).images = s.images := by simp [State.setLock]
@[simp] theorem State.images_newSource (s : State) (old : Nat) : (s.newSource old).images = s.images := by
  unfold State.newSource
  have h : ((s.setLock lockFree).setFld Fld.timStatusOffsetNs 0 0 0).images = s.images := by simp
  generalize (s.setLock lockFree).setFld Fld.timStatusOffsetNs 0 0 0 = t at h ⊢
  simp [h]
@[simp] theorem State.images_storeReg (s : State) (r : Reg) (u i : Nat) (v : Word) :
    (s.storeReg r u i v).images = s.images := by
  unfold State.storeReg
  split <;> simp
@[simp] theorem State.images_recordEndpoint (s : State) (r : Reg) :
    (s.recordEndpoint r).images = s.images := by simp [State.recordEndpoint]
@[simp] theorem State.images_writeWord (s : State) (p : Path) (r : Reg) (u i : Nat) (v : Word) :
    (s.writeWord p r u i v).2.images = s.images := by
  unfold State.writeWord
  split <;> simp
@[simp] theorem State.images_writeImage (s : State) (a : Nat) (v : Word) : (s.writeImage a v).2.images = s.images := by
  unfold State.writeImage
  split
  next r u i _ =>
    have h := s.images_writeWord .steward r u i v
    split
    · rfl
    · split
      · rfl
      · split <;> simp_all
  next => rfl
@[simp] theorem images_writeImages (l : List (Nat × Word)) (s : State) : (writeImages l s).2.images = s.images := by
  induction l generalizing s with
  | nil => rfl
  | cons x l ih =>
    have h := s.images_writeImage x.1 x.2
    unfold writeImages
    split <;> simp_all
@[simp] theorem State.images_emit (s : State) (p l kind vc seq : Nat) (payload : List (BitVec 8)) :
    (s.emit p l kind vc seq payload).images = s.images := by simp [State.emit]
@[simp] theorem State.images_pump (s : State) (p n : Nat) : (s.pump p n).images = s.images := by
  induction n generalizing s with
  | zero => rfl
  | succ n ih =>
    simp only [State.pump]
    repeat' split
    all_goals simp [ih]
@[simp] theorem State.images_pumpAll (s : State) (p : Nat) : (s.pumpAll p).images = s.images := by simp [State.pumpAll]
@[simp] theorem State.images_sendTx (s : State) (p : Nat) (tx : Tx) :
    (s.sendTx p tx).images = s.images := by simp [State.sendTx]
@[simp] theorem State.images_stackWrite (s : State) (n a : Nat) (r : Row) :
    (s.stackWrite n a r).images = s.images := by simp [State.stackWrite]
@[simp] theorem State.images_modPool (s : State) (n i : Nat) (f : Pool → Pool) :
    (s.modPool n i f).images = s.images := by simp [State.modPool]
@[simp] theorem State.images_countFrame (s : State) (n : Nat) (w : Word) (f : Nat → Nat) :
    (s.countFrame n w f).images = s.images := by
  unfold State.countFrame
  split <;> simp
@[simp] theorem State.images_dropLookaside (s : State) (g : Nat) :
    (s.dropLookaside g).images = s.images := by simp [State.dropLookaside]
@[simp] theorem State.images_storePte (s : State) (g n : Nat) (w : Word) :
    (s.storePte g n w).images = s.images := by simp [State.storePte]
@[simp] theorem State.images_clearPage (s : State) (g n : Nat) :
    (s.clearPage g n).images = s.images := by simp [State.clearPage]
@[simp] theorem State.images_releasePage (s : State) (g n : Nat) : (s.releasePage g n).images = s.images := by
  unfold State.releasePage
  split <;> simp
@[simp] theorem State.images_trimTo (s : State) (g l : Nat) : (s.trimTo g l).images = s.images := by simp [State.trimTo]
@[simp] theorem State.images_modItem (s : State) (ep seq : Nat) (f : Item → Item) :
    (s.modItem ep seq f).images = s.images := by simp [State.modItem]
@[simp] theorem State.images_owe (s : State) (ep seq status swath : Nat) (handle : Option Nat) :
    (s.owe ep seq status swath handle).images = s.images := by simp [State.owe]
@[simp] theorem State.images_writeEntry (s : State) (ep : Nat) (x : CEntry) :
    (s.writeEntry ep x).images = s.images := by simp [State.writeEntry]
@[simp] theorem State.images_finish (s : State) (ep seq : Nat) (replayed : Bool) :
    (s.finish ep seq replayed).images = s.images := by
  simp only [State.finish]
  repeat' split
  all_goals simp
@[simp] theorem State.images_flushFinals (s : State) (ep : Nat) :
    (s.flushFinals ep).images = s.images := by simp [State.flushFinals]
@[simp] theorem State.images_complete (s : State) (ep seq status swath : Nat) (handle : Option Nat) :
    (s.complete ep seq status swath handle).images = s.images := by simp [State.complete]
@[simp] theorem State.images_failItem (s : State) (ep : Nat) (i : Item) :
    (s.failItem ep i).images = s.images := by simp [State.failItem]
@[simp] theorem State.images_failLost (s : State) (g : Nat) : (s.failLost g).images = s.images := by simp [State.failLost]
@[simp] theorem State.images_settleEntry (s : State) (g : Nat) :
    (s.settleEntry g).images = s.images := by simp [State.settleEntry]
@[simp] theorem State.images_leaveSwath (s : State) (g : Nat) : (s.leaveSwath g).images = s.images := by simp [State.leaveSwath]
@[simp] theorem State.images_syncDraft (s : State) (g : Nat) (commit : Option Nat) :
    (s.syncDraft g commit).images = s.images := by
  unfold State.syncDraft
  split <;> simp
@[simp] theorem State.images_failItemOf (s : State) (f : Nat) (st : Option Nat) (b : BatchItem) :
    (s.failItemOf f st b).images = s.images := by
  simp only [State.failItemOf]
  repeat' split
  all_goals simp
@[simp] theorem State.images_registerPool (s : State) (d : PoolDecl) : (s.registerPool d).images = s.images := by
  unfold State.registerPool
  split <;> simp
@[simp] theorem State.images_keepMarker (s : State) (f kind at0 : Nat) (m : Marker) :
    (s.keepMarker f kind at0 m).images = s.images := by simp [State.keepMarker]
@[simp] theorem State.images_takeEarly (s : State) (f : Nat) : (s.takeEarly f).images = s.images := by simp [State.takeEarly]
@[simp] theorem State.images_failSwath (s : State) (f : Nat) (st : Option Nat) :
    (s.failSwath f st).images = s.images := by simp [State.failSwath]

@[simp] theorem State.images_loadCores (s : State) (qs : List Nat) : (s.loadCores qs).images = s.images := by
  simp [State.loadCores]

/-- The steward's writes and the markers that waited leave the fold with the image that it arms with. -/
theorem State.image_configured (s : State) (f : Nat) (im : Image) :
    (((s.configured f im true).2.takeEarly f).fold f).image = some im := by
  have h : (((s.configured f im true).2.takeEarly f)).images = (s.modFold f (fun x => { x with image := some im })).images := by
    simp [State.configured]
  rw [State.image_of_images h, State.fold_of_modFold, if_pos rfl]

/-! ### Loops -/

/-- What one element of a list brings about and no element undoes holds when the loop ends. -/
theorem foldl_reaches {α β : Type} {P : β → Prop} {g : β → α → β} {l : List α} {a : α} (ha : a ∈ l)
    (hg : ∀ b, P (g b a)) (hkeep : ∀ b x, P b → P (g b x)) (b : β) : P (l.foldl g b) := by
  obtain ⟨l₁, l₂, rfl⟩ := List.append_of_mem ha
  rw [List.foldl_append, List.foldl_cons]
  exact List.foldlRecOn l₂ g (hg _) (fun b hb x _ => hkeep b x hb)

theorem Map.find_of_not_mem {α : Type} {m : Map α} {k : Nat} (h : k ∉ Map.keys m) : Map.find m k = none := by
  induction m with
  | nil => rfl
  | cons e r ih =>
    rw [Map.keys, List.map_cons, List.mem_cons, not_or] at h
    obtain ⟨hne, hr⟩ := h
    rw [Map.find, if_neg hne]
    exact ih hr

section
variable {α : Type} [DecidableEq α] {d : α} {m : Map α} {p : Nat → Bool} {g : α → α} {Q : α → Prop} {k : Nat}

theorem Map.get_mapOn_keeps (hg : ∀ x, Q (g x)) (hk : Q (Map.get d m k)) : Q (Map.get d (Map.mapOn d m p g) k) := by
  refine List.foldlRecOn (motive := fun acc => Q (Map.get d acc k)) m _ hk (fun acc hacc e _ => ?_)
  split
  · rw [Map.get_set]
    split
    · exact hg _
    · exact hacc
  · exact hacc

/-- A change of every value that a test names, whose result and whose default have a property. -/
theorem Map.get_mapOn_of (hp : p k = true) (hg : ∀ x, Q (g x)) (hd : Q d) : Q (Map.get d (Map.mapOn d m p g) k) := by
  by_cases h : k ∈ Map.keys m
  · obtain ⟨e, he, rfl⟩ := List.mem_map.mp h
    refine foldl_reaches (P := fun acc => Q (Map.get d acc e.1)) he (fun acc => ?_) (fun acc x hacc => ?_) m
    · rw [if_pos hp, Map.get_set, if_pos rfl]
      exact hg _
    · split
      · rw [Map.get_set]
        split
        · exact hg _
        · exact hacc
      · exact hacc
  · refine Map.get_mapOn_keeps hg ?_
    rw [Map.get, Map.find_of_not_mem h]
    exact hd

end

/-! ### Cores -/

/-- A core that is to issue its first bundle. -/
def Core.AtStart (k : Core) : Prop := k.pc = 0 ∧ k.wait = .none ∧ k.faulted = false ∧ k.issueAt = 0

theorem State.atStart_loadCores {qs : List Nat} {q j : Nat} (hq : q ∈ qs) (hj : j < 48) (s : State) :
    ((s.loadCores qs).core (coreAddr q j)).AtStart := by
  have hstep : ∀ (t : State) (c : Nat), (t.core (coreAddr q j)).AtStart ∨ c = coreAddr q j →
      ((t.modCore c (fun k => { k with
        pc := 0, entry := 0, issueAt := 0, wait := .none, waitOff := false, held := none, faulted := false })).core
          (coreAddr q j)).AtStart := by
    intro t c h
    rw [State.core_of_modCore]
    split
    · exact ⟨rfl, rfl, rfl, rfl⟩
    next hne => exact h.resolve_right (fun hc => hne hc.symm)
  refine foldl_reaches (P := fun t : State => (t.core (coreAddr q j)).AtStart) hq (fun t => ?_) (fun t x ht => ?_) s
  · exact foldl_reaches (P := fun t : State => (t.core (coreAddr q j)).AtStart) (List.mem_range.mpr hj)
      (fun t => hstep t _ (.inr rfl)) (fun t y ht => hstep t _ (.inl ht)) t
  · exact List.foldlRecOn (motive := fun t : State => (t.core (coreAddr q j)).AtStart) _ _ ht
      (fun t ht y _ => hstep t _ (.inl ht))

/-- A core that waits for nothing and runs no MMA. -/
def Core.Stopped (k : Core) : Prop := k.wait = .none ∧ k.mmaRun = none

theorem State.stopped_stopCores {s : State} {f c : Nat} (hc : clusterOf c ∈ s.foldClusters f) :
    ((s.stopCores f).core c).Stopped := by
  unfold State.stopCores
  refine foldl_reaches (P := fun t : State => (t.core c).Stopped) hc (fun t => ?_) (fun t q ht => ?_) s
  · dsimp only [State.core]
    exact Map.get_mapOn_of (p := fun x => clusterOf x == clusterOf c) (beq_self_eq_true _) (fun _ => ⟨rfl, rfl⟩) ⟨rfl, rfl⟩
  · dsimp only [State.core]
    exact Map.get_mapOn_keeps (Q := Core.Stopped) (fun _ => ⟨rfl, rfl⟩) ht

/-! ### What arming and stopping leave of the folds -/

/-- The cores, the folds and the time stand, and of the registers all that lie below the first lea. -/
structure KeepsFolds (s t : State) : Prop where
  cores : t.cores = s.cores
  folds : t.folds = s.folds
  time : t.time = s.time
  regs : ∀ a, a < leaBase 0 → Map.find t.regs a = Map.find s.regs a

namespace KeepsFolds
variable {s t u : State}

theorem refl (s : State) : KeepsFolds s s := ⟨rfl, rfl, rfl, fun _ _ => rfl⟩

theorem trans (h : KeepsFolds s t) (h' : KeepsFolds t u) : KeepsFolds s u :=
  ⟨h'.cores.trans h.cores, h'.folds.trans h.folds, h'.time.trans h.time, fun a ha => (h'.regs a ha).trans (h.regs a ha)⟩

theorem foldl {α : Type} {g : State → α → State} (hg : ∀ t a, KeepsFolds t (g t a)) (l : List α) (s : State) :
    KeepsFolds s (l.foldl g s) :=
  List.foldlRecOn (motive := KeepsFolds s) l g (refl s) (fun t ht a _ => ht.trans (hg t a))

theorem ite {c : Prop} [Decidable c] (ht : KeepsFolds s t) (hu : KeepsFolds s u) : KeepsFolds s (if c then t else u) := by
  split
  · exact ht
  · exact hu

theorem core (h : KeepsFolds s t) (c : Nat) : t.core c = s.core c := by rw [State.core, State.core, h.cores]

theorem fold (h : KeepsFolds s t) (f : Nat) : t.fold f = s.fold f := by rw [State.fold, State.fold, h.folds]

theorem fld (h : KeepsFolds s t) {g : Fld} {i : Nat} (hg : g.reg.addr 0 i < leaBase 0) : t.fld g 0 i = s.fld g 0 i := by
  rw [State.fld, State.fld, State.reg, State.reg, Map.get, Map.get, h.regs _ hg]

end KeepsFolds

/-- The registers of a router lie in the blocks of the leas. -/
theorem leaBase_le_router (r : Reg) (hr : r.place.scope = .router) (u i : Nat) : leaBase 0 ≤ r.addr u i := by
  have h : leaBase 0 ≤ Scope.router.origin u := by
    simp only [Scope.origin, leaBase]
    split <;> omega
  rw [Reg.addr, hr]
  omega

theorem keepsFolds_setReg_router (s : State) {r : Reg} (hr : r.place.scope = .router) (u i : Nat) (w : Word) :
    KeepsFolds s (s.setReg r u i w) :=
  ⟨rfl, rfl, rfl, fun _ ha => State.find_setReg s r u i w _ (Nat.ne_of_lt (Nat.lt_of_lt_of_le ha (leaBase_le_router r hr u i)))⟩

theorem keepsFolds_reserve (s : State) (f : Nat) (c : CellAt) : KeepsFolds s (s.reserve f c) :=
  ((keepsFolds_setReg_router s (r := .cluRtrRsv) rfl _ _ _).trans (keepsFolds_setReg_router _ (r := .cluRtrOwner) rfl _ _ _)).trans
    (keepsFolds_setReg_router _ (r := .cluRtrOwner) rfl _ _ _)

theorem keepsFolds_reserveAll (s : State) (f : Nat) (l : List Flow) :
    KeepsFolds s (l.foldl (fun (s : State) fl => fl.cells.foldl (fun (s : State) c => s.reserve f c) s) s) :=
  .foldl (fun t (fl : Flow) => .foldl (fun t c => keepsFolds_reserve t f c) fl.cells t) l s

theorem keepsFolds_unreserve (s : State) (f : Nat) : KeepsFolds s (s.unreserve f) :=
  .foldl (fun _ _ => .ite ((KeepsFolds.foldl (fun t _ => keepsFolds_setReg_router t rfl _ _ _) _ _).trans
    (keepsFolds_setReg_router _ rfl _ _ _)) (.refl _)) _ s

theorem keepsFolds_modPort (s : State) (p : Nat) (g : Port → Port) : KeepsFolds s (s.modPort p g) :=
  ⟨rfl, rfl, rfl, fun _ _ => rfl⟩

theorem keepsFolds_emit (s : State) (p l kind vc seq : Nat) (payload : List (BitVec 8)) :
    KeepsFolds s (s.emit p l kind vc seq payload) := ⟨rfl, rfl, rfl, fun _ _ => rfl⟩

theorem keepsFolds_pump (s : State) (p n : Nat) : KeepsFolds s (s.pump p n) := by
  induction n generalizing s with
  | zero => exact .refl s
  | succ n ih =>
    simp only [State.pump]
    split
    · split
      · exact .refl s
      · exact ((keepsFolds_modPort s p _).trans (keepsFolds_emit _ _ _ _ _ _ _)).trans (ih _)
    · exact .refl s

theorem keepsFolds_sendTx (s : State) (p : Nat) (tx : Tx) : KeepsFolds s (s.sendTx p tx) :=
  (keepsFolds_modPort s p (fun x => { x with waiting := x.waiting ++ [tx] })).trans (keepsFolds_pump _ p _)

theorem keepsFolds_send (s : State) (o : Out) : KeepsFolds s (s.send o) := ⟨rfl, rfl, rfl, fun _ _ => rfl⟩

theorem keepsFolds_sendMarker (s : State) (f kind id gen : Nat) : KeepsFolds s (s.sendMarker f kind id gen) :=
  (keepsFolds_send s _).trans (.foldl (fun t p => keepsFolds_sendTx t p _) _ _)

theorem keepsFolds_openWindow (s : State) (f : Nat) (d : WinDecl) : KeepsFolds s (s.openWindow f d) := by
  simp only [State.openWindow]
  split <;> exact ⟨rfl, rfl, rfl, fun _ _ => rfl⟩

theorem keepsFolds_openWindows (s : State) (f : Nat) : KeepsFolds s (s.openWindows f) := by
  unfold State.openWindows
  split
  · exact .foldl (fun t d => keepsFolds_openWindow t f d) _ s
  · exact .refl s

theorem keepsFolds_askPower (s : State) (q : Nat) : KeepsFolds s (s.askPower q) :=
  .ite ⟨rfl, rfl, rfl, fun _ _ => rfl⟩ (.refl s)

theorem keepsFolds_askFold (s : State) (f : Nat) : KeepsFolds s (s.askFold f) := .foldl keepsFolds_askPower _ s

/-! ### The fold's own registers -/

theorem State.foldState_setFoldState (s : State) (f v : Nat) (hv : v < 8) : (s.setFoldState f v).foldState f = v := by
  rw [State.foldState, State.setFoldState, State.fld_setFld _ _ _ _ _ (by decide)]
  exact Nat.mod_eq_of_lt hv

/-- The registers of the folds lie below the first lea. -/
theorem timFold_addr_lt {f : Nat} (hf : f < 256) :
    Reg.timFoldCfg.addr 0 f < leaBase 0 ∧ Reg.timFoldStat.addr 0 f < leaBase 0 := by
  simp only [Reg.addr, Reg.place, Scope.origin, leaBase]
  omega

theorem timFoldCfg_addr_ne_stat (f : Nat) : Reg.timFoldCfg.addr 0 f ≠ Reg.timFoldStat.addr 0 f := by
  simp only [Reg.addr, Reg.place, Scope.origin]
  omega

theorem State.foldState_setFld_enable (s : State) (f v : Nat) :
    (s.setFld Fld.timFoldCfgEnable 0 f v).foldState f = s.foldState f :=
  State.fld_setFld_ne _ _ _ _ _ _ _ _ (timFoldCfg_addr_ne_stat f).symm

theorem State.enable_setFoldState (s : State) (f v : Nat) :
    (s.setFoldState f v).fld Fld.timFoldCfgEnable 0 f = s.fld Fld.timFoldCfgEnable 0 f :=
  State.fld_setFld_ne _ _ _ _ _ _ _ _ (timFoldCfg_addr_ne_stat f)

theorem State.fld_enable_setFld (s : State) (f v : Nat) :
    (s.setFld Fld.timFoldCfgEnable 0 f v).fld Fld.timFoldCfgEnable 0 f = v % 2 :=
  State.fld_setFld _ _ _ _ _ (by decide)

/-! ### `State.becomeArmed` -/

/-- The part of `becomeArmed` that changes the fold and its registers. -/
def State.startFold (s : State) (f : Nat) (g : Fold → Fold) : State :=
  ((s.modFold f g).setFld Fld.timFoldCfgEnable 0 f 1).setFoldState f foldArmed

/-- The part of `becomeArmed` that follows: the cells, the windows, the power, the time and the marker. -/
def State.announceFold (s : State) (f : Nat) (im : Image) : State :=
  let s := if s.foldExact f then im.flows.foldl (fun (s : State) fl => fl.cells.foldl (fun (s : State) c => s.reserve f c) s) s
    else s
  let s := (s.openWindows f).askFold f
  let s := { s with time := { s.time with mayStep := false } }
  if s.multi f then s.sendMarker f 2 0 0 else s

theorem State.becomeArmed_eq (s : State) (f : Nat) (im : Image) : ∃ g : Fold → Fold,
    (∀ x, (g x).image = x.image ∧ (g x).phase = .idle) ∧
    s.becomeArmed f im = ((s.loadCores im.clusters).startFold f g).announceFold f im := by
  refine ⟨_, ?_, rfl⟩
  exact fun _ => ⟨rfl, rfl⟩

theorem State.keepsFolds_announceFold (s : State) (f : Nat) (im : Image) :
    KeepsFolds { s with time := { s.time with mayStep := false } } (s.announceFold f im) := by
  unfold State.announceFold
  extract_lets was s₁ s₂ time s₃
  have h₂ : KeepsFolds s s₂ := KeepsFolds.trans (.ite (keepsFolds_reserveAll s f im.flows) (.refl s))
    ((keepsFolds_openWindows s₁ f).trans (keepsFolds_askFold _ f))
  have h₃ : KeepsFolds s₃ (if s₃.multi f then s₃.sendMarker f 2 0 0 else s₃) :=
    .ite (keepsFolds_sendMarker _ _ _ _ _) (.refl _)
  exact ⟨h₃.cores.trans h₂.cores, h₃.folds.trans h₂.folds,
    h₃.time.trans (congrArg (fun x : Time => { x with mayStep := false }) h₂.time),
    fun a ha => (h₃.regs a ha).trans (h₂.regs a ha)⟩

section
variable (s : State) (f : Nat) (im : Image)

theorem State.fold_announceFold (k : Nat) : (s.announceFold f im).fold k = s.fold k :=
  (s.keepsFolds_announceFold f im).fold k

theorem State.core_announceFold (c : Nat) : (s.announceFold f im).core c = s.core c :=
  (s.keepsFolds_announceFold f im).core c

theorem State.fld_announceFold {x : Fld} {i : Nat} (hx : x.reg.addr 0 i < leaBase 0) :
    (s.announceFold f im).fld x 0 i = s.fld x 0 i :=
  (s.keepsFolds_announceFold f im).fld hx

theorem State.mayStep_announceFold : (s.announceFold f im).time.mayStep = false :=
  congrArg Time.mayStep (s.keepsFolds_announceFold f im).time

end

section
variable (s : State) (f : Nat) (g : Fold → Fold)

theorem State.fold_startFold : (s.startFold f g).fold f = g (s.fold f) := by
  rw [State.startFold, State.setFoldState, State.fold_of_setFld, State.fold_of_setFld, State.fold_of_modFold, if_pos rfl]

theorem State.core_startFold (c : Nat) : (s.startFold f g).core c = s.core c := by
  rw [State.startFold, State.setFoldState, State.core_of_setFld, State.core_of_setFld, State.core_of_modFold]

theorem State.foldState_startFold : (s.startFold f g).foldState f = foldArmed :=
  State.foldState_setFoldState _ _ _ (by decide)

theorem State.enable_startFold : (s.startFold f g).fld Fld.timFoldCfgEnable 0 f = 1 :=
  (State.enable_setFoldState _ _ _).trans (State.fld_enable_setFld _ _ _)

end

/-- What FOLD_ARM promises of a fold that it arms. -/
structure State.Armed (s : State) (f : Nat) (im : Image) : Prop where
  state : s.foldState f = foldArmed
  image : (s.fold f).image = some im
  phase : (s.fold f).phase = .idle
  enable : s.fld Fld.timFoldCfgEnable 0 f = 1
  time : s.time.mayStep = false
  cores : ∀ q j, q ∈ im.clusters → j < 48 → (s.core (coreAddr q j)).AtStart

theorem State.armed_becomeArmed {s : State} {f : Nat} {im : Image} (hf : f < 256) (him : (s.fold f).image = some im) :
    (s.becomeArmed f im).Armed f im := by
  obtain ⟨hcfg, hstat⟩ := timFold_addr_lt hf
  obtain ⟨g, hg, heq⟩ := s.becomeArmed_eq f im
  obtain ⟨himage, hphase⟩ := hg ((s.loadCores im.clusters).fold f)
  have hcore := fun q j hq hj => State.atStart_loadCores (qs := im.clusters) (q := q) (j := j) hq hj s
  have him' : ((s.loadCores im.clusters).fold f).image = some im :=
    (State.image_of_images (s.images_loadCores im.clusters) f).trans him
  rw [heq]
  generalize s.loadCores im.clusters = s₁ at himage hphase hcore him'
  have hfold : ((s₁.startFold f g).announceFold f im).fold f = g (s₁.fold f) := by
    rw [State.fold_announceFold, State.fold_startFold]
  exact {
    state := (State.fld_announceFold _ f im hstat).trans (s₁.foldState_startFold f g)
    image := by rw [hfold, himage, him']
    phase := by rw [hfold, hphase]
    enable := (State.fld_announceFold _ f im hcfg).trans (s₁.enable_startFold f g)
    time := State.mayStep_announceFold _ f im
    cores := fun q j hq hj => by
      rw [State.core_announceFold, State.core_startFold]
      exact hcore q j hq hj }

theorem State.Armed.completes {s : State} {f : Nat} {im : Image} (h : s.Armed f im) (p : Path) (a : Nat) (ok : Bool) :
    (s.completes p a ok).Armed f im := ⟨h.state, h.image, h.phase, h.enable, h.time, h.cores⟩

theorem State.access_mem_completes (s : State) (p : Path) (a : Nat) (ok : Bool) :
    Out.access p a ok ∈ (s.completes p a ok).out := List.mem_cons_self

/-! ### `State.arm`, condition by condition -/

section
variable {s : State} {f : Nat} {im : Image}

theorem State.arm_of_busy (setup : Bool) (h : s.foldState f ≠ foldIdle) : s.arm f im setup = (false, s) := by
  rw [State.arm, if_pos h]

theorem State.arm_of_idle {x : State} {ok : Bool} (hidle : s.foldState f = foldIdle) (hcfg : s.configured f im true = (ok, x)) :
    s.arm f im true =
      if ¬ ok ∨ ¬ s.shapeOk im ∨ ¬ (x.takeEarly f).exactOk f im ∨ ¬ (x.takeEarly f).blockOk f im then (false, s)
      else match (if (x.takeEarly f).multi f then (x.takeEarly f).mismatch f else none) with
        | some partner => (false, (s.foldMismatch f partner).sendMarkerOn ((x.takeEarly f).blockPorts f)
            ((x.takeEarly f).blockTag f) f 2 0 0)
        | none => (true, (x.takeEarly f).becomeArmed f im) := by
  rw [State.arm, if_neg (not_not.mpr hidle), hcfg] <;> rfl

theorem State.arm_of_refused {x : State} {ok : Bool} (hidle : s.foldState f = foldIdle)
    (hcfg : s.configured f im true = (ok, x)) (h : ok = false ∨ s.shapeOk im = false ∨ (x.takeEarly f).exactOk f im = false ∨
      (x.takeEarly f).blockOk f im = false) : s.arm f im true = (false, s) := by
  rw [State.arm_of_idle hidle hcfg, if_pos (by simpa using h)]

theorem State.arm_of_met {x : State} (hidle : s.foldState f = foldIdle) (hcfg : s.configured f im true = (true, x))
    (hshape : s.shapeOk im = true) (hexact : (x.takeEarly f).exactOk f im = true)
    (hblock : (x.takeEarly f).blockOk f im = true) : s.arm f im true =
      match (if (x.takeEarly f).multi f then (x.takeEarly f).mismatch f else none) with
      | some partner => (false, (s.foldMismatch f partner).sendMarkerOn ((x.takeEarly f).blockPorts f)
          ((x.takeEarly f).blockTag f) f 2 0 0)
      | none => (true, (x.takeEarly f).becomeArmed f im) := by
  rw [State.arm_of_idle hidle hcfg, if_neg (by simp [hshape, hexact, hblock])]

end

/-! ### The two commands -/

theorem exec_foldArm_of_none {t f : Nat} {img : Option Image} {s : State} (p : Path) (hf : f < 256)
    (h : (s.at t).armImage f img = none) :
    exec (.foldArm t p f img) s = .next ((s.at t).completes p (Reg.timFoldCfg.addr 0 f) false) := by
  simp [exec, execFoldArm, h, onUnit, validFold, hf]

theorem exec_foldArm_of_some {t f : Nat} {img : Option Image} {im : Image} {s x : State} {ok : Bool} (p : Path) (hf : f < 256)
    (h : (s.at t).armImage f img = some im) (harm : (s.at t).arm f im true = (ok, x)) :
    exec (.foldArm t p f img) s = .next (x.completes p (Reg.timFoldCfg.addr 0 f) ok) := by
  simp [exec, execFoldArm, h, harm, onUnit, validFold, hf]

theorem exec_foldStop {t f : Nat} (p : Path) (s : State) (hf : f < 256) :
    exec (.foldStop t p f) s = .next (((s.at t).stopFold f).completes p (Reg.timFoldCfg.addr 0 f) true) := by
  simp [exec, execFoldStop, onUnit, validFold, hf]

/-! ### `State.stopFold` -/

theorem keepsFolds_modCluster (s : State) (q : Nat) (g : Cluster → Cluster) : KeepsFolds s (s.modCluster q g) :=
  ⟨rfl, rfl, rfl, fun _ _ => rfl⟩

theorem keepsFolds_closeWindows (s : State) (f : Nat) : KeepsFolds s (s.closeWindows f) := ⟨rfl, rfl, rfl, fun _ _ => rfl⟩

/-- A fold that has returned to IDLE, the cores of its clusters stopped. -/
structure State.Idled (s : State) (f : Nat) (qs : List Nat) : Prop where
  state : s.foldState f = foldIdle
  phase : (s.fold f).phase = .idle
  cores : ∀ c, clusterOf c ∈ qs → (s.core c).Stopped

theorem State.Idled.completes {s : State} {f : Nat} {qs : List Nat} (h : s.Idled f qs) (p : Path) (a : Nat) (ok : Bool) :
    (s.completes p a ok).Idled f qs := ⟨h.state, h.phase, h.cores⟩

theorem State.idled_toIdle (s : State) (f : Nat) : (s.toIdle f).Idled f (s.foldClusters f) := by
  unfold State.toIdle
  extract_lets s₁ s₂
  have h : KeepsFolds (s.stopCores f) s₂ :=
    ((keepsFolds_unreserve _ f).trans (keepsFolds_closeWindows _ f)).trans
      (.foldl (fun t q => keepsFolds_modCluster t q (fun c => { c with arrivals := [] })) _ s₁)
  clear_value s₂
  refine ⟨State.foldState_setFoldState _ _ _ (by decide), ?_, fun c hc => ?_⟩
  · rw [State.setFoldState, State.fold_of_setFld, State.fold_of_modFold, if_pos rfl]
  · rw [State.setFoldState, State.core_of_setFld, State.core_of_modFold, h.core]
    exact State.stopped_stopCores hc

section
variable {s : State} {f : Nat}

theorem State.stopFold_of_armed (h : s.foldState f = foldArmed) :
    s.stopFold f = (s.setFld Fld.timFoldCfgEnable 0 f 0).toIdle f := by
  rw [State.stopFold]
  exact if_pos ((s.foldState_setFld_enable f 0).trans h)

theorem State.stopFold_of_running (h : s.foldState f = foldRunning) : s.stopFold f =
    if (s.fold f).drained then ((s.setFld Fld.timFoldCfgEnable 0 f 0).failSwath f none).toIdle f
    else (s.setFld Fld.timFoldCfgEnable 0 f 0).setFoldState f foldStopping := by
  have hrun := (s.foldState_setFld_enable f 0).trans h
  rw [State.stopFold]
  rw [hrun, if_neg (by decide), if_pos rfl, State.fold_of_setFld]

theorem State.setFld_setFoldState_frame (s : State) (x : Fld) (i v f w : Nat) : (s.setFld x 0 i v).setFoldState f w =
    { s with regs := ((s.setFld x 0 i v).setFoldState f w).regs } := rfl

/-- An ARMED fold, and a RUNNING one that has drained, go IDLE with the cores of their clusters stopped. -/
theorem State.stopFold_idle (h : s.foldState f = foldArmed ∨ (s.foldState f = foldRunning ∧ (s.fold f).drained = true)) :
    (s.stopFold f).Idled f (s.foldClusters f) := by
  rcases h with harmed | ⟨hrun, hdrained⟩
  · rw [State.stopFold_of_armed harmed,
      ← State.foldClusters_of_images (s.images_setFld Fld.timFoldCfgEnable 0 f 0)]
    exact State.idled_toIdle _ f
  · rw [State.stopFold_of_running hrun, if_pos hdrained,
      ← State.foldClusters_of_images ((State.images_failSwath _ f none).trans (s.images_setFld Fld.timFoldCfgEnable 0 f 0))]
    exact State.idled_toIdle _ f

end

/-! ### The clauses of O27 -/

section
variable {t f : Nat} {p : Path} {img : Option Image} {im : Image} {s : State}

theorem exec_foldArm_busy (hf : f < 256) (h : (s.at t).foldState f ≠ foldIdle ∨ (s.at t).armImage f img = none) :
    exec (.foldArm t p f img) s = .next ((s.at t).completes p (Reg.timFoldCfg.addr 0 f) false) := by
  cases himg : (s.at t).armImage f img with
  | none => exact exec_foldArm_of_none p hf himg
  | some im' =>
    have hbusy := h.resolve_right (by simp [himg])
    exact exec_foldArm_of_some p hf himg (State.arm_of_busy true hbusy)

theorem exec_foldArm_armed {x : State} (hf : f < 256) (himg : (s.at t).armImage f img = some im)
    (harm : (s.at t).arm f im true = (true, x)) (hx : x.Armed f im) :
    ∃ s', exec (.foldArm t p f img) s = .next s' ∧ .access p (Reg.timFoldCfg.addr 0 f) true ∈ s'.out ∧ s'.Armed f im :=
  ⟨_, exec_foldArm_of_some p hf himg harm, State.access_mem_completes _ _ _ _, hx.completes _ _ _⟩

theorem exec_foldStop_idle (hf : f < 256)
    (h : (s.at t).foldState f = foldArmed ∨ ((s.at t).foldState f = foldRunning ∧ ((s.at t).fold f).drained = true)) :
    ∃ s', exec (.foldStop t p f) s = .next s' ∧ s'.Idled f ((s.at t).foldClusters f) :=
  ⟨_, exec_foldStop p s hf, (State.stopFold_idle h).completes _ _ _⟩

theorem exec_foldStop_stopping (hf : f < 256) (hrun : (s.at t).foldState f = foldRunning)
    (hdrained : ((s.at t).fold f).drained = false) :
    ∃ s' : State, exec (.foldStop t p f) s = .next (s'.completes p (Reg.timFoldCfg.addr 0 f) true) ∧
      s' = { s.at t with regs := s'.regs } ∧ s'.foldState f = foldStopping ∧ s'.fld Fld.timFoldCfgEnable 0 f = 0 := by
  have hexec := exec_foldStop (t := t) p s hf
  rw [State.stopFold_of_running hrun, if_neg (Bool.eq_false_iff.mp hdrained)] at hexec
  exact ⟨_, hexec, State.setFld_setFoldState_frame _ _ _ _ _ _, State.foldState_setFoldState _ _ _ (by decide),
    (State.enable_setFoldState _ _ _).trans (State.fld_enable_setFld _ _ _)⟩

end

end Sys2Proof.Machine

namespace Sys2Proof
open Machine

/-- Settles O27: arming condition by condition, stopping state by state. -/
theorem foldArmsAndStops : Obligations.FoldArmsAndStops := by
  intro t f p img im s hf u x cfg
  refine ⟨exec_foldArm_busy hf, fun hidle himg h => ?_, fun partner hidle himg hok hshape hexact hblock hmulti hmis => ?_,
    fun hidle himg hok hshape hexact hblock hmis => ?_, fun h => ?_, exec_foldStop_stopping hf⟩
  case refine_1 => exact exec_foldArm_of_some p hf himg (State.arm_of_refused hidle rfl h)
  case refine_2 =>
    have harm := State.arm_of_met hidle (Prod.ext hok rfl) hshape hexact hblock
    rw [if_pos hmulti, hmis] at harm
    exact exec_foldArm_of_some p hf himg harm
  case refine_3 =>
    have harm := State.arm_of_met hidle (Prod.ext hok rfl) hshape hexact hblock
    have hnone : (if x.multi f then x.mismatch f else none) = none := by
      split
      next hmulti => exact hmis hmulti
      next => rfl
    rw [hnone] at harm
    obtain ⟨s', hexec, hout, hstate, himage, hphase, henable, htime, hcores⟩ :=
      exec_foldArm_armed (p := p) hf himg harm (State.armed_becomeArmed hf (u.image_configured f im))
    exact ⟨s', hexec, hout, hstate, himage, hphase, henable, htime, hcores⟩
  case refine_4 =>
    obtain ⟨s', hexec, hstate, hphase, hcores⟩ := exec_foldStop_idle (p := p) hf h
    exact ⟨s', hexec, hstate, hphase, hcores⟩

end Sys2Proof
end

section
/-! The queue (O1) and external time (R45 to R52, R610): what judging an offset does, what each command of external time does, and
O26. -/

namespace Sys2Proof.Machine

/-! ### An offset is judged (R49) -/

/-- The span of good offsets after an offset that is measured now. -/
def State.goodAfter (s : State) (o : Int) : Option Nat :=
  if o.natAbs ≤ 100 then some (s.time.goodSince.getD s.now) else none

/-- The lock state after an offset (R49, R50). -/
def State.lockAfter (s : State) (o : Int) : Nat :=
  if 1000 < o.natAbs ∧ (s.lock = lockLocked ∨ ¬ s.time.mayStep) then lockHoldover
  else if s.lock = lockFree then lockAcquiring else s.lock

/-- TIM_STATUS shows an offset, and the span of good offsets is `g`. -/
def State.shows (s : State) (v : Nat) (g : Option Nat) : State :=
  { s.setFld Fld.timStatusOffsetNs 0 0 v with time := { s.time with goodSince := g } }

/-- The part of `judgeOffset` before the lock state. -/
def State.measured (s : State) (o : Int) : State := s.shows (offsetWord o) (s.goodAfter o)

theorem State.reg_of_regs {s t : State} (h : t.regs = s.regs) (r : Reg) (u i : Nat) : t.reg r u i = s.reg r u i := by
  rw [State.reg, State.reg, h]

theorem State.fld_of_regs {s t : State} (h : t.regs = s.regs) (f : Fld) (u i : Nat) : t.fld f u i = s.fld f u i := by
  rw [State.fld, State.fld, State.reg_of_regs h]

theorem State.setFld_eq (s : State) (f : Fld) (u i v : Nat) : ∃ m, s.setFld f u i v = { s with regs := m } := ⟨_, rfl⟩

section
variable (s : State) (v : Nat) (g : Option Nat)

theorem State.regs_shows : (s.shows v g).regs = (s.setFld Fld.timStatusOffsetNs 0 0 v).regs := rfl

theorem State.time_shows : (s.shows v g).time = { s.time with goodSince := g } := rfl

theorem State.shows_eq : ∃ m, s.shows v g = { s with regs := m, time := { s.time with goodSince := g } } := by
  obtain ⟨m, hm⟩ := s.setFld_eq Fld.timStatusOffsetNs 0 0 v
  exact ⟨m, by rw [State.shows, hm]⟩

theorem State.time_setLock (n : Nat) : (s.setLock n).time = s.time := rfl

end

theorem offsetWord_lt (o : Int) : offsetWord o < 2 ^ 32 := by
  unfold offsetWord ofSigned
  omega

theorem State.lock_setLock (s : State) {v : Nat} (hv : v < 8) : (s.setLock v).lock = v := by
  rw [State.lock, State.setLock, State.fld_setFld _ _ _ _ _ (by decide)]
  exact Nat.mod_eq_of_lt hv

theorem State.offset_setLock (s : State) (v : Nat) :
    (s.setLock v).fld Fld.timStatusOffsetNs 0 0 = s.fld Fld.timStatusOffsetNs 0 0 :=
  State.fld_setFld_beside _ _ _ _ _ _ rfl (by decide) (by decide)

/-- A write of TIM_STATUS leaves every other register. -/
theorem State.find_setFld_status (s : State) {f : Fld} (hf : f.reg = .timStatus) (v : Nat) {a : Nat}
    (ha : a ≠ Reg.timStatus.addr 0 0) : Map.find (s.setFld f 0 0 v).regs a = Map.find s.regs a :=
  State.find_setReg s f.reg 0 0 _ a (hf ▸ ha)

section
variable (s : State) (o : Int)

theorem State.lock_measured : (s.measured o).lock = s.lock :=
  (State.fld_of_regs (State.regs_shows _ _ _) _ _ _).trans (State.fld_setFld_beside s _ _ 0 0 _ rfl (by decide) (by decide))

theorem State.offset_measured : (s.measured o).fld Fld.timStatusOffsetNs 0 0 = offsetWord o := by
  rw [State.measured, State.fld_of_regs (State.regs_shows _ _ _), State.fld_setFld _ _ _ _ _ (by decide)]
  exact Nat.mod_eq_of_lt (offsetWord_lt o)

/-- Judging an offset: it is measured, and the lock state follows. -/
theorem State.judgeOffset_eq : s.judgeOffset o = s.measured o ∧ s.lockAfter o = s.lock ∨
    s.judgeOffset o = (s.measured o).setLock (s.lockAfter o) ∧ s.lockAfter o < 8 := by
  have h : s.judgeOffset o =
      if 1000 < o.natAbs ∧ ((s.measured o).lock = lockLocked ∨ ¬ s.time.mayStep) then (s.measured o).setLock lockHoldover
      else if (s.measured o).lock = lockFree then (s.measured o).setLock lockAcquiring else s.measured o := by
    obtain ⟨m, hm⟩ := s.setFld_eq Fld.timStatusOffsetNs 0 0 (offsetWord o)
    rw [State.judgeOffset, State.measured, State.shows, hm]
    rfl
  rw [h, State.lockAfter, s.lock_measured o]
  split_ifs
  · exact .inr ⟨rfl, by decide⟩
  · exact .inr ⟨rfl, by decide⟩
  · exact .inl ⟨rfl, rfl⟩

/-- What an offset leaves in every state that differs from the judged one in its time alone. -/
structure State.Judged (s t : State) (o : Int) : Prop where
  frame : t = { s with regs := t.regs, time := t.time }
  offset : t.fld Fld.timStatusOffsetNs 0 0 = offsetWord o
  good : t.time.goodSince = s.goodAfter o
  lock : t.lock = s.lockAfter o

theorem State.time_judgeOffset : (s.judgeOffset o).time = { s.time with goodSince := s.goodAfter o } := by
  obtain ⟨heq, _⟩ | ⟨heq, _⟩ := s.judgeOffset_eq o
  · rw [heq, State.measured, State.time_shows]
  · rw [heq, State.time_setLock, State.measured, State.time_shows]

theorem State.judgeOffset_frame : s.judgeOffset o = { s with regs := (s.judgeOffset o).regs, time := (s.judgeOffset o).time } := by
  obtain ⟨m, hm⟩ := s.shows_eq (offsetWord o) (s.goodAfter o)
  obtain ⟨heq, _⟩ | ⟨heq, _⟩ := s.judgeOffset_eq o
  · rw [heq, State.measured, hm]
  · obtain ⟨n, hn⟩ := (s.measured o).setFld_eq Fld.timStatusLockState 0 0 (s.lockAfter o)
    rw [heq, State.setLock, hn, State.measured, hm]

theorem State.now_judgeOffset : (s.judgeOffset o).now = s.now := by rw [s.judgeOffset_frame o]

theorem State.judged_judgeOffset : s.Judged (s.judgeOffset o) o where
  frame := s.judgeOffset_frame o
  good := congrArg Time.goodSince (s.time_judgeOffset o)
  offset := by
    obtain ⟨heq, _⟩ | ⟨heq, _⟩ := s.judgeOffset_eq o
    · rw [heq, State.offset_measured]
    · rw [heq, State.offset_setLock, State.offset_measured]
  lock := by
    obtain ⟨heq, hlock⟩ | ⟨heq, hlock⟩ := s.judgeOffset_eq o
    · rw [heq, State.lock_measured, hlock]
    · rw [heq, State.lock_setLock _ hlock]

theorem State.find_judgeOffset {a : Nat} (ha : a ≠ Reg.timStatus.addr 0 0) :
    Map.find (s.judgeOffset o).regs a = Map.find s.regs a := by
  have hm : Map.find (s.measured o).regs a = Map.find s.regs a := by
    rw [State.measured, State.regs_shows, State.find_setFld_status s rfl _ ha]
  obtain ⟨heq, _⟩ | ⟨heq, _⟩ := s.judgeOffset_eq o
  · rw [heq, hm]
  · rw [heq]
    exact (State.find_setFld_status _ rfl _ ha).trans hm

theorem State.reg_judgeOffset {r : Reg} {i : Nat} (hr : r.addr 0 i ≠ Reg.timStatus.addr 0 0) :
    (s.judgeOffset o).reg r 0 i = s.reg r 0 i := by
  rw [State.reg, State.reg, Map.get, Map.get, s.find_judgeOffset o hr]

theorem State.lockAfter_eq : s.lockAfter o =
    if 1000 < o.natAbs ∧ (s.lock = lockLocked ∨ s.time.mayStep = false) then lockHoldover
    else if s.lock = lockFree then lockAcquiring else s.lock := by
  simp [State.lockAfter]

end

namespace State.Judged
variable {s t : State} {o : Int}

/-- A change of the time that leaves the span of good offsets. -/
theorem retime (h : s.Judged t o) {x : Time} (hx : x.goodSince = t.time.goodSince) : s.Judged { t with time := x } o where
  frame := by rw [h.frame]
  offset := h.offset
  good := hx.trans h.good
  lock := h.lock

/-- A register beside TIM_STATUS that was written before the offset was judged. -/
theorem of_setReg {r : Reg} {w : Word} (hr : r.addr 0 0 ≠ Reg.timStatus.addr 0 0)
    (h : (s.setReg r 0 0 w).Judged t o) : s.Judged t o where
  frame := h.frame
  offset := h.offset
  good := h.good
  lock := by
    have hlock : (s.setReg r 0 0 w).lock = s.lock :=
      congrArg (fun w => getBits w _ _) (State.reg_setReg_ne s r 0 0 w .timStatus 0 0 hr.symm)
    rw [h.lock, State.lockAfter, State.lockAfter, hlock]
    rfl

end State.Judged

/-! ### The time in nanoseconds -/

theorem State.ns_stepTime (s : State) (n : Nat) : (s.stepTime n).ns = n := by
  show n + (s.now - s.now) * 1000 / (s.stepTime n).beatTicks = n
  rw [Nat.sub_self, Nat.zero_mul, Nat.zero_div, Nat.add_zero]

/-- The time does not move while its last correction and the grade stand. -/
theorem State.ns_congr {s t : State} (hnow : t.now = s.now) (htick : t.time.atTick = s.time.atTick)
    (hns : t.time.atNs = s.time.atNs) (hgrade : t.reg .glbNumericProfile 0 0 = s.reg .glbNumericProfile 0 0) : t.ns = s.ns := by
  have hbeat : t.beatTicks = s.beatTicks := by
    rw [State.beatTicks, State.beatTicks, State.gradeB, State.gradeB, State.fld, State.fld]
    exact congrArg (fun w => if (getBits w _ _ == 0xB) = true then 3200 else 3600) hgrade
  rw [State.ns, State.ns, State.nsAt, State.nsAt, hnow, htick, hns, hbeat]

/-! ### The time follows an offset (R48, R50) -/

/-- The offset is judged, and the time notes the event. -/
def State.noted (s : State) (o : Int) (g : Time → Time) : State := { s.judgeOffset o with time := g (s.judgeOffset o).time }

/-- What an edge and a Sync have in common: the offset is judged, the time notes the event, and it is stepped where that is
allowed. -/
def State.follow (s : State) (o : Int) (g : Time → Time) (n : Nat) : State :=
  if (s.noted o g).time.mayStep then (s.noted o g).stepTime n else s.noted o g

/-- An event that the time notes without a change of what offsets and the present time rest on. -/
structure Time.Notes (g : Time → Time) : Prop where
  good : ∀ x, (g x).goodSince = x.goodSince
  step : ∀ x, (g x).mayStep = x.mayStep
  tick : ∀ x, (g x).atTick = x.atTick
  ns : ∀ x, (g x).atNs = x.atNs

section
variable (s : State) (o : Int) {g : Time → Time} (n : Nat)

theorem State.reg_follow {r : Reg} (hr : r.addr 0 0 ≠ Reg.timStatus.addr 0 0) : (s.follow o g n).reg r 0 0 = s.reg r 0 0 := by
  rw [← s.reg_judgeOffset o hr]
  unfold State.follow
  split <;> rfl

/-- Beside its correction the time is as the event leaves it. -/
theorem State.time_follow : ∃ tick ns,
    (s.follow o g n).time = { g (s.judgeOffset o).time with atTick := tick, atNs := ns } := by
  unfold State.follow
  split <;> exact ⟨_, _, rfl⟩

variable (hg : Time.Notes g)
include hg

theorem State.judged_follow : s.Judged (s.follow o g n) o := by
  have h := (s.judged_judgeOffset o).retime (hg.good _)
  unfold State.follow
  split
  · exact h.retime rfl
  · exact h

theorem State.ns_noted : (s.noted o g).ns = s.ns := by
  refine State.ns_congr (s.now_judgeOffset o) ((hg.tick _).trans ?_) ((hg.ns _).trans ?_)
    (s.reg_judgeOffset o (r := .glbNumericProfile) (by decide))
  · rw [s.time_judgeOffset o]
  · rw [s.time_judgeOffset o]

theorem State.mayStep_noted : (s.noted o g).time.mayStep = s.time.mayStep :=
  (hg.step _).trans (by rw [s.time_judgeOffset o])

theorem State.ns_follow : (s.follow o g n).ns = if s.time.mayStep then n else s.ns := by
  rw [State.follow, s.mayStep_noted o hg]
  split
  · exact State.ns_stepTime _ n
  · exact s.ns_noted o hg

end

/-- What the time notes of an edge, and of a Sync. -/
def Time.edge (now : Nat) (x : Time) : Time := { x with fresh := false, lastEdge := some now }
def Time.sync (now : Nat) (x : Time) : Time := { x with lastSync := some now }

theorem Time.notes_edge (now : Nat) : Time.Notes (Time.edge now) := ⟨fun _ => rfl, fun _ => rfl, fun _ => rfl, fun _ => rfl⟩
theorem Time.notes_sync (now : Nat) : Time.Notes (Time.sync now) := ⟨fun _ => rfl, fun _ => rfl, fun _ => rfl, fun _ => rfl⟩

theorem State.ptpSync_eq (s : State) (o : Int) :
    s.ptpSync o = s.follow o (Time.sync s.now) ((s.ns : Int) - o).toNat := by
  have h : s.ptpSync o =
      if (s.noted o (Time.sync (s.judgeOffset o).now)).time.mayStep then
        (s.noted o (Time.sync (s.judgeOffset o).now)).stepTime
          (((s.noted o (Time.sync (s.judgeOffset o).now)).ns : Int) - o).toNat
      else s.noted o (Time.sync (s.judgeOffset o).now) := rfl
  rw [h, s.now_judgeOffset, s.ns_noted o (Time.notes_sync _), State.follow]

/-- R48: TIM_PPS_TAI holds the TAI second of the present edge. -/
def State.numbered (s : State) : State :=
  if s.time.fresh then s else s.setReg .timPpsTai 0 0 (s.reg .timPpsTai 0 0 + 1)

/-- R48: that second. -/
def State.edgeSecond (s : State) : Word := if s.time.fresh then s.reg .timPpsTai 0 0 else s.reg .timPpsTai 0 0 + 1

section
variable (s : State)

theorem State.reg_numbered : s.numbered.reg .timPpsTai 0 0 = s.edgeSecond := by
  unfold State.numbered State.edgeSecond
  split
  · rfl
  · exact State.reg_setReg _ _ _ _ _

theorem State.ns_numbered : s.numbered.ns = s.ns := by
  unfold State.numbered
  split
  · rfl
  · exact State.ns_congr rfl rfl rfl (State.reg_setReg_ne _ _ _ _ _ _ _ _ (by decide))

theorem State.now_numbered : s.numbered.now = s.now := by
  unfold State.numbered
  split <;> rfl

theorem State.mayStep_numbered : s.numbered.time.mayStep = s.time.mayStep := by
  unfold State.numbered
  split <;> rfl

theorem State.Judged.of_numbered {s t : State} {o : Int} (h : s.numbered.Judged t o) : s.Judged t o := by
  unfold State.numbered at h
  split at h
  · exact h
  · exact h.of_setReg (by decide)

/-- How far the time is from the second of the edge. -/
def State.edgeOffset (s : State) : Int := (s.ns : Int) - (s.edgeSecond.toNat * 1000000000 : Nat)

/-- An edge follows its offset from the second that it numbers. -/
theorem State.ppsEdge_eq :
    s.ppsEdge = s.numbered.follow s.edgeOffset (Time.edge s.now) (s.edgeSecond.toNat * 1000000000) := by
  have h : ∀ n, n = (s.numbered.reg .timPpsTai 0 0).toNat * 1000000000 → ∀ o, o = (s.numbered.ns : Int) - (n : Int) →
      s.ppsEdge =
        if (s.numbered.noted o (Time.edge (s.numbered.judgeOffset o).now)).time.mayStep then
          (s.numbered.noted o (Time.edge (s.numbered.judgeOffset o).now)).stepTime n
        else s.numbered.noted o (Time.edge (s.numbered.judgeOffset o).now) := by
    rintro _ rfl _ rfl
    rfl
  rw [h (s.edgeSecond.toNat * 1000000000) (by rw [s.reg_numbered]) s.edgeOffset (by rw [s.ns_numbered, State.edgeOffset]),
    State.now_judgeOffset, s.now_numbered, State.follow]

end

/-! ### The commands -/

/-- An event whose condition holds comes about. -/
theorem whenever_of_true {c : Bool} (h : c = true) (f : State → State) (s : State) : whenever c f s = f s := if_pos h

/-- An event whose condition does not hold does not. -/
theorem whenever_of_false {c : Bool} (h : c = false) (f : State → State) (s : State) : whenever c f s = s :=
  if_neg (Bool.eq_false_iff.mp h)

section
variable {t : Nat} {s : State}

theorem exec_ppsEdge (h : (s.at t).timeSrc = 0) : exec (.ppsEdge t) s = .next (s.at t).ppsEdge :=
  congrArg Host.Outcome.next (whenever_of_true (by rw [h]; rfl) _ _)

theorem exec_ptpSync {o : Int} (h : (s.at t).timeSrc = 1)
    (hup : (s.at t).ethernetUp ((s.at t).fld Fld.timSrcCtlPtpLink 0 0) = true) :
    exec (.ptpSync t o) s = .next ((s.at t).ptpSync o) :=
  congrArg Host.Outcome.next (whenever_of_true (by rw [h, hup]; rfl) _ _)

theorem exec_ptpSync_of_down {o : Int} (hup : (s.at t).ethernetUp ((s.at t).fld Fld.timSrcCtlPtpLink 0 0) = false) :
    exec (.ptpSync t o) s = .next (s.at t) :=
  congrArg Host.Outcome.next (whenever_of_false (by rw [hup, Bool.and_false]) _ _)

theorem exec_timeLocked (h : (s.at t).mayLock = true) : exec (.timeLocked t) s = .next ((s.at t).setLock lockLocked) :=
  congrArg Host.Outcome.next (whenever_of_true h _ _)

theorem exec_holdover (h : (s.at t).sourceMissing = true) (hl : (s.at t).lock ≠ lockFree) :
    exec (.holdover t) s = .next (s.at t).toHoldover :=
  congrArg Host.Outcome.next (whenever_of_true (by simp [h, hl]) _ _)

theorem exec_referenceClockLoss (h : (s.at t).timeSrc = 0) (hb : (s.at t).time.onBoard = false) :
    exec (.referenceClockLoss t) s =
      .next (State.toHoldover { s.at t with time := { (s.at t).time with onBoard := true } }) :=
  congrArg Host.Outcome.next (whenever_of_true (by rw [h, hb]; rfl) _ _)

end

theorem State.mayLock_of {s : State} {x : Nat} (hsrc : s.timeSrc ≠ 2) (hlock : s.lock ≠ lockLocked)
    (hmiss : s.sourceMissing = false) (hgood : s.time.goodSince = some x) (hx : x + 8 * s.second ≤ s.now) :
    s.mayLock = true := by
  rw [State.mayLock, hmiss, hgood, bne_iff_ne.mpr hsrc, bne_iff_ne.mpr hlock, Option.any_some, decide_eq_true hx]
  rfl

theorem State.onlyReg_setLock (s : State) (v : Nat) : OnlyReg (Reg.timStatus.addr 0 0) s (s.setLock v) :=
  onlyReg_setReg s .timStatus 0 0 _

theorem State.lock_toHoldover (s : State) : s.toHoldover.lock = lockHoldover :=
  (State.fld_of_regs (s := s.setLock lockHoldover) rfl _ _ _).trans (s.lock_setLock (by decide))

theorem State.toHoldover_frame (s : State) :
    s.toHoldover = { s with regs := s.toHoldover.regs, time := { s.time with goodSince := none } } := by
  obtain ⟨m, hm⟩ := s.setFld_eq Fld.timStatusLockState 0 0 lockHoldover
  rw [State.toHoldover, State.setLock, hm]

end Sys2Proof.Machine

namespace Sys2Proof
open Machine

/-- Settles O1: `step` takes the front of the queue off and runs it. -/
theorem stepRunsFront : Obligations.StepRunsFront := fun _ _ _ => ⟨rfl, rfl⟩

/-- Settles O26: an edge and a Sync follow their offset; the other commands write the lock state. -/
theorem timeFollowsItsSource : Obligations.TimeFollowsItsSource := by
  intro t s u judged
  have hjudged : ∀ o s', u.Judged s' o → judged o s' := by
    rintro o s' ⟨hframe, hoffset, hgood, hlock⟩
    exact ⟨hframe, hoffset, hgood, hlock.trans (u.lockAfter_eq o)⟩
  refine ⟨fun hsrc => ?_, fun hsrc hup o => ?_, fun hsrc hup o => ?_, fun x hsrc hlock hmiss hgood hx => ?_,
    fun hmiss hlock => ?_, fun hsrc hboard => ?_⟩
  case refine_1 =>
    obtain ⟨tick, ns, htime⟩ := u.numbered.time_follow u.edgeOffset (g := Time.edge u.now) (u.edgeSecond.toNat * 1000000000)
    refine ⟨u.ppsEdge, exec_ppsEdge hsrc, ?_⟩
    rw [u.ppsEdge_eq]
    refine ⟨hjudged _ _ (State.judged_follow _ _ _ (Time.notes_edge _)).of_numbered,
      (State.reg_follow _ _ _ (by decide)).trans u.reg_numbered, by rw [htime]; rfl, by rw [htime]; rfl, ?_⟩
    have hns := u.numbered.ns_follow u.edgeOffset (u.edgeSecond.toNat * 1000000000) (Time.notes_edge u.now)
    rw [u.mayStep_numbered, u.ns_numbered] at hns
    split
    next hstep => exact hns.trans (if_pos hstep)
    next hstep => exact hns.trans (if_neg hstep)
  case refine_2 =>
    exact exec_ptpSync_of_down hup
  case refine_3 =>
    obtain ⟨tick, ns, htime⟩ := u.time_follow o (g := Time.sync u.now) ((u.ns : Int) - o).toNat
    refine ⟨u.ptpSync o, exec_ptpSync hsrc hup, ?_⟩
    rw [u.ptpSync_eq]
    exact ⟨hjudged _ _ (State.judged_follow _ _ _ (Time.notes_sync _)), by rw [htime]; rfl,
      State.ns_follow _ _ _ (Time.notes_sync _)⟩
  case refine_4 =>
    exact ⟨_, exec_timeLocked (State.mayLock_of hsrc hlock hmiss hgood hx), u.onlyReg_setLock lockLocked, u.lock_setLock (by decide)⟩
  case refine_5 =>
    refine ⟨_, exec_holdover hmiss hlock, u.lock_toHoldover, ?_, ?_⟩
    · rw [u.toHoldover_frame]
    · rw [u.toHoldover_frame]
  case refine_6 =>
    refine ⟨_, exec_referenceClockLoss hsrc hboard, State.lock_toHoldover _, ?_, ?_⟩
    · rw [State.toHoldover_frame]
    · rw [State.toHoldover_frame]

end Sys2Proof
end

section
/-! What the schedule of a fold rests on: the registers below the leas, the time and the fold itself; the readings of two states
that share them; and loops over cores and clusters. -/

namespace Sys2Proof.Machine

/-! ### Loops -/

section
variable {α : Type}

theorem State.proj_foldl {β : Type} (π : State → β) {g : State → α → State} (h : ∀ s a, π (g s a) = π s) (l : List α)
    (s : State) : π (l.foldl g s) = π s :=
  List.foldlRecOn (motive := fun t => π t = π s) l g rfl (fun t ht a _ => (h t a).trans ht)

end

section
variable {g : Core → Core} {l : List Nat} {c : Nat}

theorem State.core_foldl_modCore_of_not_mem (hc : c ∉ l) (s : State) :
    (l.foldl (fun (s : State) x => s.modCore x g) s).core c = s.core c :=
  List.foldlRecOn (motive := fun t : State => t.core c = s.core c) l _ rfl (fun t ht x hx => by
    rw [State.core_of_modCore, if_neg (ne_of_mem_of_not_mem hx hc).symm, ht])

/-- A loop that changes each core of a list once. -/
theorem State.core_foldl_modCore_of_nodup (hl : l.Nodup) (hc : c ∈ l) (s : State) :
    (l.foldl (fun (s : State) x => s.modCore x g) s).core c = g (s.core c) := by
  induction l generalizing s with
  | nil => cases hc
  | cons x l ih =>
    obtain ⟨hx, hl⟩ := List.nodup_cons.mp hl
    rw [List.foldl_cons]
    rcases List.mem_cons.mp hc with rfl | hc
    · rw [State.core_foldl_modCore_of_not_mem hx, State.core_of_modCore, if_pos rfl]
    · rw [ih hl hc, State.core_of_modCore, if_neg (ne_of_mem_of_not_mem hc hx)]

/-- A loop of changes that a second one adds nothing to. -/
theorem State.core_foldl_modCore (hg : ∀ k, g (g k) = g k) (l : List Nat) (s : State) (c : Nat) :
    (l.foldl (fun (s : State) x => s.modCore x g) s).core c = if c ∈ l then g (s.core c) else s.core c := by
  induction l generalizing s with
  | nil => rfl
  | cons x l ih =>
    rw [List.foldl_cons, ih, State.core_of_modCore]
    by_cases hx : c = x
    · subst hx
      simp [hg]
    · simp [hx]

end

section
variable {g : Cluster → Cluster} {l : List Nat} {q : Nat}

theorem State.cluster_foldl_modCluster (hl : l.Nodup) (s : State) (q : Nat) :
    (l.foldl (fun (s : State) x => s.modCluster x g) s).cluster q = if q ∈ l then g (s.cluster q) else s.cluster q := by
  induction l generalizing s with
  | nil => rfl
  | cons x l ih =>
    obtain ⟨hx, hl⟩ := List.nodup_cons.mp hl
    rw [List.foldl_cons, ih hl, State.cluster_of_modCluster]
    by_cases hq : q = x
    · subst hq
      simp [hx]
    · simp [hq]

end

theorem State.row_of_clusters {s t : State} (h : t.clusters = s.clusters) (q a : Nat) : t.row q a = s.row q a := by
  rw [State.row, State.row, State.cluster, State.cluster, h]

theorem SameRows.of_clusters {s t : State} (h : t.clusters = s.clusters) : SameRows s t := State.row_of_clusters h

theorem SameRows.refl (s : State) : SameRows s s := fun _ _ => rfl

theorem SameRows.trans {s t u : State} (h : SameRows s t) (h' : SameRows t u) : SameRows s u :=
  fun q a => (h' q a).trans (h q a)

theorem sameRows_modCluster (s : State) (q : Nat) {g : Cluster → Cluster} (h : ∀ c, (g c).rows = c.rows) :
    SameRows s (s.modCluster q g) := by
  intro p a
  rw [State.row, State.row, State.cluster_of_modCluster]
  split
  next hp => rw [h, hp]
  next => rfl

/-! ### Cores of clusters -/

theorem clusterOf_coreAddr {q j : Nat} (hj : j < 48) : clusterOf (coreAddr q j) = q := by
  unfold clusterOf coreAddr
  omega

theorem coreAddr_inj {q j k : Nat} (h : coreAddr q j = coreAddr q k) : j = k := by
  unfold coreAddr at h
  omega

/-- The cores of some clusters. -/
def coresOf (qs : List Nat) : List Nat := qs.flatMap (fun q => (List.range 48).map (coreAddr q))

theorem mem_coresOf {qs : List Nat} {q j : Nat} (hq : q ∈ qs) (hj : j < 48) : coreAddr q j ∈ coresOf qs :=
  List.mem_flatMap.mpr ⟨q, hq, List.mem_map.mpr ⟨j, List.mem_range.mpr hj, rfl⟩⟩

theorem nodup_coresOf {qs : List Nat} (h : qs.Nodup) : (coresOf qs).Nodup := by
  refine List.nodup_flatMap.mpr ⟨fun q _ => List.nodup_range.map_on (fun j _ k _ => coreAddr_inj), ?_⟩
  refine h.imp (fun {p q} hne c hp hq => hne ?_)
  obtain ⟨j, hj, rfl⟩ := List.mem_map.mp hp
  obtain ⟨k, hk, heq⟩ := List.mem_map.mp hq
  rw [← clusterOf_coreAddr (q := p) (List.mem_range.mp hj), ← heq, clusterOf_coreAddr (List.mem_range.mp hk)]

/-! ### What the schedule rests on -/

/-- The addresses of the registers that the time and the schedule of a fold rest on: the module's own below those of the client
interface, and those of the torus. -/
def scheduled (a : Nat) : Prop := a < 0x50000 ∨ (0x160000 ≤ a ∧ a < leaBase 0)

/-- Those of them that show how far a fold has come, and its counters. -/
def counted (a : Nat) : Prop := (0x11000 ≤ a ∧ a < 0x13000 ∧ (a % 32 = 8 ∨ a % 32 = 16)) ∨ a = 0x162010

/-- The time stands, and so do the registers of the schedule that only the host writes. -/
structure SameGrid (s t : State) : Prop where
  time : t.time = s.time
  grid : ∀ a, scheduled a → ¬ counted a → Map.find t.regs a = Map.find s.regs a

/-- The time and the registers of the schedule stand. -/
structure SameTimes (s t : State) : Prop extends SameGrid s t where
  regs : ∀ a, scheduled a → Map.find t.regs a = Map.find s.regs a

/-- The registers of fold `f` lie there. -/
theorem scheduled_timFold {f : Nat} (hf : f < 256) : scheduled (Reg.timFoldStat.addr 0 f) ∧
    scheduled (Reg.timFoldCnt.addr 0 f) := by
  simp only [scheduled, Reg.addr, Reg.place, Scope.origin, leaBase]
  omega

theorem scheduled_timFoldCfg {f : Nat} (hf : f < 256) :
    scheduled (Reg.timFoldCfg.addr 0 f) ∧ ¬ counted (Reg.timFoldCfg.addr 0 f) := by
  simp only [scheduled, counted, Reg.addr, Reg.place, Scope.origin, leaBase]
  omega

theorem scheduled_lnkFold {f : Nat} (hf : f < 256) :
    scheduled (Reg.lnkFold.addr 0 f) ∧ ¬ counted (Reg.lnkFold.addr 0 f) := by
  simp only [scheduled, counted, Reg.addr, Reg.place, Scope.origin, leaBase]
  omega

namespace SameGrid
variable {s t u : State}

theorem refl (s : State) : SameGrid s s := ⟨rfl, fun _ _ _ => rfl⟩

theorem trans (h : SameGrid s t) (h' : SameGrid t u) : SameGrid s u :=
  ⟨h'.time.trans h.time, fun a ha hc => (h'.grid a ha hc).trans (h.grid a ha hc)⟩

theorem of_eq (ht : t.time = s.time) (hr : t.regs = s.regs) : SameGrid s t := ⟨ht, fun _ _ _ => by rw [hr]⟩

theorem setFld (s : State) {x : Fld} {u i : Nat} (hx : counted (x.reg.addr u i)) (v : Nat) : SameGrid s (s.setFld x u i v) := by
  have hregs : ∀ a, scheduled a → ¬ counted a → Map.find (s.setFld x u i v).regs a = Map.find s.regs a := fun a _ hc =>
    Map.find_set_ne _ _ _ _ _ (fun heq => hc (heq ▸ hx))
  obtain ⟨m, hm⟩ := s.setFld_eq x u i v
  rw [hm] at hregs ⊢
  exact ⟨rfl, hregs⟩

theorem fld (h : SameGrid s t) {x : Fld} {i : Nat} (hx : scheduled (x.reg.addr 0 i) ∧ ¬ counted (x.reg.addr 0 i)) :
    t.fld x 0 i = s.fld x 0 i := by
  rw [State.fld, State.fld, State.reg, State.reg, Map.get, Map.get, h.grid _ hx.1 hx.2]

theorem gradeB (h : SameGrid s t) : t.gradeB = s.gradeB := by
  rw [State.gradeB, State.gradeB, h.fld (by unfold scheduled counted; decide)]

theorem beatTicks (h : SameGrid s t) : t.beatTicks = s.beatTicks := by
  rw [State.beatTicks, State.beatTicks, h.gradeB]

theorem nsAt (h : SameGrid s t) (x : Nat) : t.nsAt x = s.nsAt x := by
  rw [State.nsAt, State.nsAt, h.time, h.beatTicks]

theorem tickOfNs (h : SameGrid s t) (x : Nat) : t.tickOfNs x = s.tickOfNs x := by
  rw [State.tickOfNs, State.tickOfNs, h.time, h.beatTicks]

theorem edgeTick (h : SameGrid s t) (b : Nat) : t.edgeTick b = s.edgeTick b := by
  rw [State.edgeTick, State.edgeTick, h.time, h.beatTicks]

theorem frameUp (h : SameGrid s t) (x : Nat) : t.frameUp x = s.frameUp x := by
  have hoffset : ∀ b, t.frameOffset b = s.frameOffset b := fun b => by
    rw [State.frameOffset, State.frameOffset, h.gradeB]
  simp only [State.frameUp, h.nsAt, h.edgeTick, hoffset]

theorem beatFrom (h : SameGrid s t) (x : Nat) : t.beatFrom x = s.beatFrom x := by
  simp only [State.beatFrom, h.nsAt, h.edgeTick]

theorem ownCoord (h : SameGrid s t) : t.ownCoord = s.ownCoord := by
  have hx : scheduled (Reg.lnkTorus.addr 0 0) ∧ ¬ counted (Reg.lnkTorus.addr 0 0) := by unfold scheduled counted; decide
  rw [State.ownCoord, State.ownCoord, h.fld (x := Fld.lnkTorusX) hx, h.fld (x := Fld.lnkTorusY) hx,
    h.fld (x := Fld.lnkTorusZ) hx]

theorem lpState (h : SameGrid s t) : t.lpState = s.lpState := h.fld (by unfold scheduled counted; decide)

section
variable (h : SameGrid s t) {f : Nat} (hf : f < 256)
include h hf

theorem cfg {x : Fld} (hx : x.reg = .timFoldCfg) : t.fld x 0 f = s.fld x 0 f :=
  h.fld (by rw [hx]; exact scheduled_timFoldCfg hf)

theorem period : t.period f = s.period f := h.cfg hf rfl

theorem guardBeats : t.guardBeats f = s.guardBeats f := h.cfg hf rfl

theorem boundaryFrom (b : Nat) : t.boundaryFrom f b = s.boundaryFrom f b := by
  rw [State.boundaryFrom, State.boundaryFrom, State.foldPhase, State.foldPhase, h.cfg hf rfl, h.period hf]

theorem swathNumber (b : Nat) : t.swathNumber f b = s.swathNumber f b := by
  rw [State.swathNumber, State.swathNumber, h.cfg hf rfl, h.cfg hf rfl]

theorem multi : t.multi f = s.multi f := by
  rw [State.multi, State.multi, h.fld (scheduled_lnkFold hf)]

theorem nominalGuard (hbeat : (t.fold f).edgeBeat = (s.fold f).edgeBeat) : t.nominalGuard f = s.nominalGuard f := by
  rw [State.nominalGuard, State.nominalGuard, hbeat, h.period hf, h.guardBeats hf, h.edgeTick]

theorem partners (himage : (t.fold f).image = (s.fold f).image) : t.partners f = s.partners f := by
  rw [State.partners, State.partners, himage, h.multi hf, h.ownCoord]

theorem markersOf (himage : (t.fold f).image = (s.fold f).image) (hmarkers : (t.fold f).markers = (s.fold f).markers)
    (kind : Nat) (ok : Marker → Bool) : t.markersOf f kind ok = s.markersOf f kind ok := by
  rw [State.markersOf, State.markersOf, hmarkers, h.partners hf himage]

end

end SameGrid

namespace SameTimes
variable {s t u : State}

theorem of_regs (ht : t.time = s.time) (hr : ∀ a, scheduled a → Map.find t.regs a = Map.find s.regs a) : SameTimes s t :=
  ⟨⟨ht, fun a ha _ => hr a ha⟩, hr⟩

theorem of_eq (ht : t.time = s.time) (hr : t.regs = s.regs) : SameTimes s t := of_regs ht (fun _ _ => by rw [hr])

theorem refl (s : State) : SameTimes s s := of_eq rfl rfl

theorem trans (h : SameTimes s t) (h' : SameTimes t u) : SameTimes s u :=
  of_regs (h'.time.trans h.time) (fun a ha => (h'.regs a ha).trans (h.regs a ha))

theorem fldAt (h : SameTimes s t) {x : Fld} {i : Nat} (hx : scheduled (x.reg.addr 0 i)) : t.fld x 0 i = s.fld x 0 i := by
  rw [State.fld, State.fld, State.reg, State.reg, Map.get, Map.get, h.regs _ hx]

section
variable (h : SameTimes s t) {f : Nat} (hf : f < 256)
include h hf

theorem stat {x : Fld} (hx : x.reg = .timFoldStat) : t.fld x 0 f = s.fld x 0 f :=
  h.fldAt (by rw [hx]; exact (scheduled_timFold hf).1)

theorem cnt {x : Fld} (hx : x.reg = .timFoldCnt) : t.fld x 0 f = s.fld x 0 f :=
  h.fldAt (by rw [hx]; exact (scheduled_timFold hf).2)

theorem foldState : t.foldState f = s.foldState f := h.stat hf rfl

end

end SameTimes

section
variable {s t : State} {f : Nat}

theorem State.foldClusters_of_image (h : (t.fold f).image = (s.fold f).image) : t.foldClusters f = s.foldClusters f := by
  rw [State.foldClusters, State.foldClusters, h]

theorem State.rootLea_of_image (h : (t.fold f).image = (s.fold f).image) : t.rootLea f = s.rootLea f := by
  rw [State.rootLea, State.rootLea, State.foldClusters_of_image h]

theorem State.stileSet_of_image (h : (t.fold f).image = (s.fold f).image) (id : Nat) : t.stileSet f id = s.stileSet f id := by
  rw [State.stileSet, State.stileSet, State.foldClusters_of_image h, h]

theorem State.stileHops_of_image (h : (t.fold f).image = (s.fold f).image) (id : Nat) : t.stileHops f id = s.stileHops f id := by
  rw [State.stileHops, State.stileHops, State.stileSet_of_image h, State.rootLea_of_image h]

end

/-! ### What goes out on the ports -/

/-- `t` is `s` after something was sent: its ports alone differ, and what left the module since. -/
structure State.Sends (s t : State) : Prop where
  frame : t = { s with ports := t.ports, out := t.out }
  out : s.out <:+ t.out

namespace State.Sends
variable {s t u : State}

theorem refl (s : State) : s.Sends s := ⟨rfl, List.suffix_refl _⟩

theorem trans (h : s.Sends t) (h' : t.Sends u) : s.Sends u :=
  ⟨by rw [h'.frame, h.frame], h.out.trans h'.out⟩

theorem foldl {α : Type} {g : State → α → State} (hg : ∀ (t : State) a, t.Sends (g t a)) (l : List α) (s : State) :
    s.Sends (l.foldl g s) :=
  List.foldlRecOn (motive := s.Sends) l g (refl s) (fun t ht a _ => ht.trans (hg t a))

theorem sameTimes (h : s.Sends t) : SameTimes s t := by
  rw [h.frame]
  exact .of_eq rfl rfl

theorem cores (h : s.Sends t) : t.cores = s.cores := by rw [h.frame]

theorem clusters (h : s.Sends t) : t.clusters = s.clusters := by rw [h.frame]

theorem folds (h : s.Sends t) : t.folds = s.folds := by rw [h.frame]

theorem regs (h : s.Sends t) : t.regs = s.regs := by rw [h.frame]

theorem now (h : s.Sends t) : t.now = s.now := by rw [h.frame]

theorem fold (h : s.Sends t) (f : Nat) : t.fold f = s.fold f := by rw [State.fold, State.fold, h.folds]

end State.Sends

theorem State.sends_send (s : State) (o : Out) : s.Sends (s.send o) := ⟨rfl, List.suffix_cons _ _⟩

theorem State.sends_modPort (s : State) (p : Nat) (g : Port → Port) : s.Sends (s.modPort p g) := ⟨rfl, List.suffix_refl _⟩

theorem State.sends_emit (s : State) (p l kind vc seq : Nat) (payload : List (BitVec 8)) :
    s.Sends (s.emit p l kind vc seq payload) := (s.sends_modPort p _).trans (State.sends_send _ _)

theorem State.sends_pump (s : State) (p n : Nat) : s.Sends (s.pump p n) := by
  induction n generalizing s with
  | zero => exact .refl s
  | succ n ih =>
    simp only [State.pump]
    split
    · split
      · exact .refl s
      · exact ((s.sends_modPort p _).trans (State.sends_emit _ _ _ _ _ _ _)).trans (ih _)
    · exact .refl s

theorem State.sends_sendTx (s : State) (p : Nat) (tx : Tx) : s.Sends (s.sendTx p tx) :=
  (s.sends_modPort p _).trans (State.sends_pump _ p _)

theorem State.sends_sendMarker (s : State) (f kind id gen : Nat) : s.Sends (s.sendMarker f kind id gen) :=
  (s.sends_send _).trans (.foldl (fun t p => t.sends_sendTx p _) _ _)

/-- The marker itself leaves. -/
theorem State.marker_mem_sendMarker (s : State) (f kind id gen : Nat) :
    Out.marker f kind id gen (s.fold f).swath s.ns ∈ (s.sendMarker f kind id gen).out :=
  (State.Sends.foldl (fun t p => t.sends_sendTx p _) _ _).out.subset List.mem_cons_self

end Sys2Proof.Machine
end

section
/-! SWATH_RUN_START and STILE_RELEASE (R62, R69, R70, R86, R470): what each leaves of the fold, its cores and its clusters. -/

namespace Sys2Proof.Machine

/-! ### `State.noteRelease` -/

section
variable (s : State) (f x : Nat)

theorem State.cores_noteRelease : (s.noteRelease f x).cores = s.cores := by
  unfold State.noteRelease
  refine State.proj_foldl State.cores (fun _ _ => ?_) _ _
  rfl

theorem State.clusters_noteRelease : (s.noteRelease f x).clusters = s.clusters := by
  unfold State.noteRelease
  refine State.proj_foldl State.clusters (fun _ _ => ?_) _ _
  rfl

theorem State.fold_noteRelease : (s.noteRelease f x).fold f = { s.fold f with release := x } := by
  have h : (s.noteRelease f x).folds = (s.modFold f (fun y => { y with release := x })).folds := by
    unfold State.noteRelease
    refine State.proj_foldl State.folds (fun _ _ => ?_) _ _
    rfl
  rw [State.fold, h]
  exact (s.fold_of_modFold f _ f).trans (if_pos rfl)

theorem State.core_noteRelease (c : Nat) : (s.noteRelease f x).core c = s.core c := by
  rw [State.core, State.core, s.cores_noteRelease]

theorem State.cluster_noteRelease (q : Nat) : (s.noteRelease f x).cluster q = s.cluster q := by
  rw [State.cluster, State.cluster, s.clusters_noteRelease]

end

/-! ### The run begins -/

section
variable (s : State) (f : Nat)

/-- The cores of the fold at tick 12. -/
def State.startCores (s : State) (f : Nat) : State :=
  (coresOf (s.foldClusters f)).foldl (fun (s' : State) c =>
    s'.modCore c (fun k => k.startSwath ((s.fold f).tick0 + 12) (s.fold f).swath ((s.fold f).guardEnd != 0))) s

theorem State.runStart_eq : s.runStart f =
    ((s.startCores f).modFold f (fun x => { x with phase := .run })).noteRelease f ((s.fold f).tick0 + 12) := by
  simp only [State.runStart, State.startCores, coresOf, List.foldl_flatMap, List.foldl_map]

theorem State.fold_runStart :
    (s.runStart f).fold f = { s.fold f with phase := .run, release := (s.fold f).tick0 + 12 } := by
  have h : (s.startCores f).folds = s.folds := by
    unfold State.startCores
    refine State.proj_foldl State.folds (fun _ _ => ?_) _ s
    rfl
  rw [State.runStart_eq, State.fold_noteRelease, State.fold_of_modFold, if_pos rfl, State.fold, h, State.fold]

theorem State.clusters_runStart : (s.runStart f).clusters = s.clusters := by
  rw [State.runStart_eq, State.clusters_noteRelease]
  show (s.startCores f).clusters = _
  unfold State.startCores
  refine State.proj_foldl State.clusters (fun _ _ => ?_) _ s
  rfl

theorem State.core_runStart (hs : (s.foldClusters f).Nodup) {q j : Nat} (hq : q ∈ s.foldClusters f) (hj : j < 48) :
    (s.runStart f).core (coreAddr q j) =
      (s.core (coreAddr q j)).startSwath ((s.fold f).tick0 + 12) (s.fold f).swath ((s.fold f).guardEnd != 0) := by
  rw [State.runStart_eq, State.core_noteRelease, State.core_of_modFold]
  exact State.core_foldl_modCore_of_nodup (nodup_coresOf hs) (mem_coresOf hq hj) s

theorem exec_swathRunStart {t f : Nat} {s : State} (hf : f < 256) (hphase : ((s.at t).fold f).phase = .opened)
    (htick : ((s.at t).fold f).tick0 + 12 ≤ (s.at t).now) :
    exec (.swathRunStart t f) s = .next ((s.at t).runStart f) := by
  show onUnit (validFold f) (whenever _ _ _) = _
  rw [whenever_of_true (by rw [hphase, decide_eq_true htick]; rfl), onUnit, validFold, if_pos (decide_eq_true hf)]

end

/-! ### A complete generation is told to the block (R470) -/

/-- What telling the block leaves: of the fold itself the list of the markers sent alone differs. -/
structure State.Told (f : Nat) (s t : State) : Prop where
  times : SameTimes s t
  now : t.now = s.now
  cores : t.cores = s.cores
  clusters : t.clusters = s.clusters
  fold : t.fold f = { s.fold f with relayed := (t.fold f).relayed }

theorem State.told_tellJoin (s : State) (f id : Nat) : s.Told f (s.tellJoin f id) := by
  unfold State.tellJoin
  extract_lets gen key
  split
  · have h := s.sends_sendMarker f 0 id gen
    refine ⟨h.sameTimes.trans (.of_eq rfl rfl), h.now, h.cores, h.clusters, ?_⟩
    rw [State.fold_of_modFold, if_pos rfl, h.fold]
  · exact ⟨.refl s, rfl, rfl, rfl, rfl⟩

section
variable {s t : State} {f : Nat}

theorem State.Told.core (h : s.Told f t) (c : Nat) : t.core c = s.core c := by rw [State.core, State.core, h.cores]

theorem State.Told.cluster (h : s.Told f t) (q : Nat) : t.cluster q = s.cluster q := by
  rw [State.cluster, State.cluster, h.clusters]

theorem State.Told.image (h : s.Told f t) : (t.fold f).image = (s.fold f).image := by rw [h.fold]

theorem State.Told.stileSet (h : s.Told f t) (id : Nat) : t.stileSet f id = s.stileSet f id :=
  State.stileSet_of_image h.image id

theorem State.Told.releaseTick (h : s.Told f t) (hf : f < 256) (id : Nat) : t.releaseTick f id = s.releaseTick f id := by
  have hgens : (t.fold f).gens = (s.fold f).gens := by rw [h.fold]
  have hjoin : (t.fold f).lastJoin = (s.fold f).lastJoin := by rw [h.fold]
  have hswath : (t.fold f).swath = (s.fold f).swath := by rw [h.fold]
  have hmarkers : (t.fold f).markers = (s.fold f).markers := by rw [h.fold]
  simp only [State.releaseTick, State.releaseAfter, h.times.multi hf, h.times.frameUp, h.times.markersOf hf h.image hmarkers,
    State.stileHops_of_image h.image, hgens, hjoin, hswath]

end

/-! ### The release -/

section
variable (s : State) (f id x : Nat)

/-- A participant at its release. -/
def Core.release (x : Nat) (k : Core) : Core := if k.faulted then k else { k with wait := .none, issueAt := x }

theorem Core.release_release (x : Nat) (k : Core) : (k.release x).release x = k.release x := by
  unfold Core.release
  split_ifs <;> rfl

/-- The participants of a stile go on. -/
def State.releaseCores (s : State) (f id x : Nat) : State :=
  (s.stileSet f id).foldl (fun (s : State) c => s.modCore c (Core.release x)) s

/-- The agents of their clusters count the release (R172). -/
def State.countRelease (s : State) (qs : List Nat) : State :=
  qs.foldl (fun (s : State) q => s.modCluster q (fun c => { c with count := Nat.min 65535 (c.count + 1) })) s

/-- The fold after the release. -/
def Fold.released (y : Fold) (id : Nat) : Fold :=
  { y with gens := Map.put y.gens id (Map.get 0 y.gens id + 1), phase := if id = 0 then .drain else y.phase }

theorem State.releaseStile_eq : s.releaseStile f id x =
    (((s.releaseCores f id x).countRelease ((s.stileSet f id).map clusterOf).dedup).modFold f
      (fun y => { y with gens := Map.put y.gens id (Map.get 0 (s.fold f).gens id + 1),
                         phase := if id = 0 then .drain else y.phase })).noteRelease f x := rfl

theorem State.folds_countRelease (qs : List Nat) : ((s.releaseCores f id x).countRelease qs).folds = s.folds :=
  (State.proj_foldl (g := fun (s : State) q => s.modCluster q _) State.folds (fun _ _ => rfl) qs _).trans
    (State.proj_foldl (g := fun (s : State) c => s.modCore c _) State.folds (fun _ _ => rfl) _ s)

theorem State.fold_releaseStile : (s.releaseStile f id x).fold f = { (s.fold f).released id with release := x } := by
  rw [State.releaseStile_eq, State.fold_noteRelease, State.fold_of_modFold, if_pos rfl, State.fold, State.folds_countRelease]
  rfl

theorem State.core_releaseStile (c : Nat) : (s.releaseStile f id x).core c =
    if c ∈ s.stileSet f id ∧ (s.core c).faulted = false then { s.core c with wait := .none, issueAt := x } else s.core c := by
  have hcount : ∀ (t : State) qs, (t.countRelease qs).core c = t.core c := fun t qs =>
    State.proj_foldl (g := fun (s : State) q => s.modCluster q _) (State.core · c) (fun _ _ => rfl) qs t
  rw [State.releaseStile_eq, State.core_noteRelease, State.core_of_modFold, hcount, State.releaseCores,
    State.core_foldl_modCore (Core.release_release x)]
  cases hk : (s.core c).faulted <;> simp [Core.release, hk]

theorem State.cluster_releaseStile (q : Nat) : (s.releaseStile f id x).cluster q =
    if q ∈ (s.stileSet f id).map clusterOf then
      { s.cluster q with count := Nat.min 65535 ((s.cluster q).count + 1) } else s.cluster q := by
  have hcores : (s.releaseCores f id x).cluster q = s.cluster q :=
    State.proj_foldl (g := fun (s : State) c => s.modCore c _) (State.cluster · q) (fun _ _ => rfl) _ s
  rw [State.releaseStile_eq, State.cluster_noteRelease, State.cluster_of_modFold, State.countRelease,
    State.cluster_foldl_modCluster (List.nodup_dedup _), hcores]
  simp only [List.mem_dedup]

theorem State.sameRows_releaseStile : SameRows s (s.releaseStile f id x) := by
  intro q a
  rw [State.row, State.row, State.cluster_releaseStile]
  split <;> rfl

end

/-! ### The command -/

section
variable {t f id : Nat} {s : State}

theorem exec_stileRelease (hf : f < 256) (hid : id < 16) (hphase : ((s.at t).fold f).phase = .run) :
    exec (.stileRelease t f id) s = .next (
      if (s.at t).stileJoined f id then
        match ((s.at t).tellJoin f id).releaseTick f id with
        | some x => if x ≤ ((s.at t).tellJoin f id).now then ((s.at t).tellJoin f id).releaseStile f id x
            else (s.at t).tellJoin f id
        | none => (s.at t).tellJoin f id
      else (s.at t).passStile f id) := by
  show onUnit (validFold f && decide (id < 16)) (whenever _ _ _) = _
  rw [whenever_of_true (by rw [hphase]; rfl), onUnit, validFold, decide_eq_true hf, decide_eq_true hid,
    Bool.and_self, if_pos rfl] <;> rfl

theorem exec_stileRelease_of_due (hf : f < 256) (hid : id < 16) (hphase : ((s.at t).fold f).phase = .run)
    (hjoined : (s.at t).stileJoined f id = true) {x : Nat} (hx : (s.at t).releaseTick f id = some x) (hnow : x ≤ (s.at t).now) :
    exec (.stileRelease t f id) s = .next (((s.at t).tellJoin f id).releaseStile f id x) := by
  have h := (s.at t).told_tellJoin f id
  rw [exec_stileRelease hf hid hphase, if_pos hjoined, h.releaseTick hf, hx]
  dsimp only
  rw [if_pos (h.now.symm ▸ hnow)]

theorem exec_stileRelease_of_ahead (hf : f < 256) (hid : id < 16) (hphase : ((s.at t).fold f).phase = .run)
    (hjoined : (s.at t).stileJoined f id = true)
    (hx : (s.at t).releaseTick f id = none ∨ ∃ x, (s.at t).releaseTick f id = some x ∧ (s.at t).now < x) :
    exec (.stileRelease t f id) s = .next ((s.at t).tellJoin f id) := by
  have h := (s.at t).told_tellJoin f id
  rw [exec_stileRelease hf hid hphase, if_pos hjoined, h.releaseTick hf]
  obtain hx | ⟨x, hx, hnow⟩ := hx
  · rw [hx]
  · rw [hx]
    dsimp only
    rw [if_neg (h.now.symm ▸ Nat.not_le.mpr hnow)]

theorem exec_stileRelease_of_waiting (hf : f < 256) (hid : id < 16) (hphase : ((s.at t).fold f).phase = .run)
    (hjoined : (s.at t).stileJoined f id = false) :
    exec (.stileRelease t f id) s = .next ((s.at t).passStile f id) := by
  rw [exec_stileRelease hf hid hphase, if_neg (by rw [hjoined]; decide)]

end

/-! ### Gated-off waits (R85, log entry 108) -/

section
variable {s : State} {f id x : Nat}

/-- The gated-off cores go on. -/
def State.passCores (s : State) (l : List Nat) (x : Nat) : State :=
  l.foldl (fun (s : State) c => s.modCore c (fun k => { k with wait := .none, waitOff := false, issueAt := x })) s

theorem State.passStile_of_due
    (hx : s.releaseAfter f id (((s.offWaits f id).map Prod.snd).foldl Nat.max (Map.get 0 (s.fold f).lastJoin id)) = some x)
    (hnow : x ≤ s.now) : s.passStile f id = s.passCores ((s.offWaits f id).map Prod.fst) x := by
  rw [List.foldl_map] at hx
  simp only [State.passStile, State.passCores, List.foldl_map, hx, if_pos hnow]
  split
  next hempty => rw [List.isEmpty_iff.mp hempty, List.foldl_nil]
  next => rfl

theorem State.passCores_frame (s : State) (l : List Nat) (x : Nat) :
    s.passCores l x = { s with cores := (s.passCores l x).cores } :=
  List.foldlRecOn (motive := fun t : State => t = { s with cores := t.cores }) l _ rfl (fun t ht c _ => by
    rw [ht]
    rfl)

theorem State.core_passCores (s : State) (l : List Nat) (x c : Nat) : (s.passCores l x).core c =
    if c ∈ l then { s.core c with wait := .none, waitOff := false, issueAt := x } else s.core c :=
  State.core_foldl_modCore (g := fun k => { k with wait := .none, waitOff := false, issueAt := x }) (fun _ => rfl) l s c

end

end Sys2Proof.Machine
end

section
/-! What the scheduler's work (R363 to R373) leaves of the schedule: the time and its registers, the cores, the arrays, the sensors, and of
each fold all but its batch and what was reported. What left the module before has left it after. -/

namespace Sys2Proof.Machine

/-- A fold without its batch and the events recorded of its swath. -/
def Fold.bare (x : Fold) : Fold := { x with batch := [], formed := false, recorded := [] }

/-- A cluster without its rows. -/
def Cluster.bare (c : Cluster) : Cluster := { c with rows := [], err := [], coded := [], spoiled := [], tags := [] }

/-- The addresses of the registers that the schedule rests on, and of those of the partitions and banks of the clusters. -/
def keptAddr (a : Nat) : Prop := scheduled a ∨ (0x2000 ≤ a % 2 ^ 20 ∧ a % 2 ^ 20 < 0x2408)

/-- `t` is `b` after work of the scheduler. -/
structure State.Grows (b t : State) : Prop where
  time : t.time = b.time
  now : t.now = b.now
  regs : ∀ a, keptAddr a → Map.find t.regs a = Map.find b.regs a
  cores : t.cores = b.cores
  clusters : ∀ q, (t.cluster q).bare = (b.cluster q).bare
  folds : ∀ g, (t.fold g).bare = (b.fold g).bare
  recorded : ∀ g, (b.fold g).recorded ⊆ (t.fold g).recorded
  out : b.out <:+ t.out

/-- What is left where neither the registers nor the clusters nor the folds are touched, and nothing is sent. -/
def State.ground (s : State) : Time × Nat × Map Word × Map Core × Map Cluster × Map Fold × List Out :=
  (s.time, s.now, s.regs, s.cores, s.clusters, s.folds, s.out)

/-- The registers of hubs, clusters and routers lie above those of the schedule. -/
theorem not_scheduled_of_scope {r : Reg} (h : r.place.scope = .hub ∨ r.place.scope = .cluster) (u i : Nat) :
    ¬ scheduled (r.addr u i) := by
  unfold scheduled Reg.addr
  rcases h with h | h <;> rw [h] <;> simp only [Scope.origin, leaBase] <;> omega

/-- Of the registers of hubs and clusters, those beyond the partitions' are not among them. -/
theorem not_kept {r : Reg} (h : r.place.scope = .hub ∨ r.place.scope = .cluster) (hbase : 0x2408 ≤ r.place.base)
    (hlt : r.place.base < 2 ^ 20) (u : Nat) : ¬ keptAddr (r.addr u 0) := by
  refine not_or.mpr ⟨not_scheduled_of_scope h u 0, ?_⟩
  unfold Reg.addr
  rcases h with h | h <;> rw [h] <;> simp only [Scope.origin, leaBase] <;> omega

theorem not_kept_srvStat : ¬ keptAddr (Reg.srvStat.addr 0 0) := by unfold keptAddr scheduled; decide

theorem not_kept_wgtStat : ¬ keptAddr (Reg.wgtStat.addr 0 0) := by unfold keptAddr scheduled; decide

theorem not_kept_fltStreamStat : ¬ keptAddr (Reg.fltStreamStat.addr 0 0) := by unfold keptAddr scheduled; decide

namespace State.Grows
variable {b s t : State}

theorem refl (s : State) : s.Grows s := ⟨rfl, rfl, fun _ _ => rfl, rfl, fun _ => rfl, fun _ => rfl, fun _ => List.Subset.refl _, List.suffix_refl _⟩

theorem trans (h : b.Grows s) (h' : s.Grows t) : b.Grows t where
  time := h'.time.trans h.time
  now := h'.now.trans h.now
  regs a ha := (h'.regs a ha).trans (h.regs a ha)
  cores := h'.cores.trans h.cores
  clusters q := (h'.clusters q).trans (h.clusters q)
  folds g := (h'.folds g).trans (h.folds g)
  recorded g := List.Subset.trans (h.recorded g) (h'.recorded g)
  out := h.out.trans h'.out

theorem ite {c : Prop} [Decidable c] (h : b.Grows s) (h' : b.Grows t) : b.Grows (if c then s else t) := by
  split
  · exact h
  · exact h'

theorem foldl {α : Type} {g : State → α → State} {l : List α} (h : b.Grows s) (hg : ∀ s a, b.Grows s → b.Grows (g s a)) :
    b.Grows (l.foldl g s) :=
  List.foldlRecOn (motive := b.Grows) l g h (fun t ht a _ => hg t a ht)

theorem foldl_fst {α β : Type} {g : State × β → α → State × β} {l : List α} {x : State × β} (h : b.Grows x.1)
    (hg : ∀ x a, b.Grows x.1 → b.Grows (g x a).1) : b.Grows (l.foldl g x).1 :=
  List.foldlRecOn (motive := fun x => b.Grows x.1) l g h (fun x hx a _ => hg x a hx)

theorem foldl_snd {α β : Type} {g : β × State → α → β × State} {l : List α} {x : β × State} (h : b.Grows x.2)
    (hg : ∀ x a, b.Grows x.2 → b.Grows (g x a).2) : b.Grows (l.foldl g x).2 :=
  List.foldlRecOn (motive := fun x => b.Grows x.2) l g h (fun x hx a _ => hg x a hx)

/-- The state of a result that a match has taken apart. -/
theorem of_snd {α : Type} {x : α × State} {a : α} (h : b.Grows x.2) (hx : x = (a, t)) : b.Grows t := by
  subst hx
  exact h

theorem times (h : b.Grows s) : SameTimes b s := .of_regs h.time (fun a ha => h.regs a (.inl ha))

theorem sensor (h : b.Grows s) (q : Nat) : (s.cluster q).sensor = (b.cluster q).sensor :=
  show (s.cluster q).bare.sensor = (b.cluster q).bare.sensor by rw [h.clusters q]

theorem arrays (h : b.Grows s) (q : Nat) : (s.cluster q).arrays = (b.cluster q).arrays :=
  show (s.cluster q).bare.arrays = (b.cluster q).bare.arrays by rw [h.clusters q]

/-- What does not rest on the batch and the events recorded. -/
theorem field {β : Type} (h : b.Grows s) {π : Fold → β} (hπ : ∀ x : Fold, π x = π x.bare) (g : Nat) :
    π (s.fold g) = π (b.fold g) := by
  rw [hπ, h.folds g, ← hπ]

theorem core (h : b.Grows s) (c : Nat) : s.core c = b.core c := by rw [State.core, State.core, h.cores]

/-! ### Operations on the state -/

variable (h : b.Grows s)
include h

theorem same (ht : t.ground = s.ground) : b.Grows t := by
  simp only [State.ground, Prod.mk.injEq] at ht
  obtain ⟨htime, hnow, hregs, hcores, hclusters, hfolds, hout⟩ := ht
  have hcluster : ∀ q, t.cluster q = s.cluster q := fun q => by rw [State.cluster, State.cluster, hclusters]
  have hfold : ∀ g, t.fold g = s.fold g := fun g => by rw [State.fold, State.fold, hfolds]
  exact h.trans ⟨htime, hnow, fun _ _ => by rw [hregs], hcores, fun q => by rw [hcluster], fun g => by rw [hfold],
    fun g => by rw [hfold]; exact List.Subset.refl _, by rw [hout]⟩

theorem setFld {x : Fld} {u i : Nat} (hx : ¬ keptAddr (x.reg.addr u i)) (v : Nat) : b.Grows (s.setFld x u i v) := by
  have hregs : ∀ a, keptAddr a → Map.find (s.setFld x u i v).regs a = Map.find s.regs a := fun a ha =>
    Map.find_set_ne _ _ _ _ _ (fun heq => hx (heq ▸ ha))
  obtain ⟨m, hm⟩ := s.setFld_eq x u i v
  rw [hm] at hregs ⊢
  exact h.trans ⟨rfl, rfl, hregs, rfl, fun _ => rfl, fun _ => rfl, fun _ => List.Subset.refl _, List.suffix_refl _⟩

theorem bump {x : Fld} {u i : Nat} (hx : ¬ keptAddr (x.reg.addr u i)) : b.Grows (s.bump x u i) := h.setFld hx _

theorem send (o : Out) : b.Grows (s.send o) :=
  h.trans ⟨rfl, rfl, fun _ _ => rfl, rfl, fun _ => rfl, fun _ => rfl, fun _ => List.Subset.refl _, List.suffix_cons _ _⟩

theorem modCluster (q : Nat) {g : Cluster → Cluster} (hg : ∀ c, (g c).bare = c.bare) : b.Grows (s.modCluster q g) := by
  have hcluster : ∀ p, (s.modCluster q g).cluster p = s.cluster p ∨ (s.modCluster q g).cluster p = g (s.cluster p) := fun p => by
    rw [State.cluster_of_modCluster]
    split
    next hp => exact .inr (by rw [hp])
    next => exact .inl rfl
  refine h.trans ⟨rfl, rfl, fun _ _ => rfl, rfl, fun p => ?_, fun _ => rfl, fun _ => List.Subset.refl _, List.suffix_refl _⟩
  rcases hcluster p with hp | hp <;> rw [hp]
  exact hg _

theorem modFold (f : Nat) {g : Fold → Fold} (hbare : ∀ x, (g x).bare = x.bare) (hrec : ∀ x, x.recorded ⊆ (g x).recorded) :
    b.Grows (s.modFold f g) := by
  have hfold : ∀ y, (s.modFold f g).fold y = s.fold y ∨ (s.modFold f g).fold y = g (s.fold y) := fun y => by
    rw [State.fold_of_modFold]
    split
    next hy => exact .inr (by rw [hy])
    next => exact .inl rfl
  refine h.trans ⟨rfl, rfl, fun _ _ => rfl, rfl, fun _ => rfl, fun y => ?_, fun y => ?_, List.suffix_refl _⟩
  · rcases hfold y with hy | hy <;> rw [hy]
    exact hbare _
  · rcases hfold y with hy | hy <;> rw [hy]
    · exact List.Subset.refl _
    · exact hrec _

/-- The batch of a fold changes. -/
theorem modBatch (f : Nat) (g : Fold → List BatchItem) : b.Grows (s.modFold f (fun x => { x with batch := g x })) :=
  h.modFold f (fun _ => rfl) (fun _ => List.Subset.refl _)

theorem modModel (k : Nat) (g : Model → Model) : b.Grows (s.modModel k g) := by
  unfold State.modModel
  split
  · exact h.same rfl
  · exact h

/-! ### Events -/

theorem countDropped (glob : Bool) (cap : Nat) (l : Log) : b.Grows (s.countDropped glob cap l) :=
  .ite (h.bump not_kept_fltStreamStat) h

theorem logRecord (k : Source) (r : Rec) : b.Grows (s.logRecord k r) := by
  unfold State.logRecord
  extract_lets counted s'
  have h' : b.Grows s' := ite ((h.countDropped true 16384 s.globalLog).same rfl) h
  clear_value s'
  split
  next n _ => exact .ite ((h'.countDropped false 4096 (s'.hub n).log).same rfl) h'
  · exact h'

theorem report (k : Source) (code p0 p1 : Nat) : b.Grows (s.report k code p0 p1) := by
  unfold State.report
  extract_lets r
  split
  next f _ _ =>
    have h' : b.Grows (s.modFold f (fun x => { x with recorded := (code, k.kind, k.src) :: x.recorded })) :=
      h.modFold f (fun _ => rfl) (fun _ => List.subset_cons_self _ _)
    exact .ite h (h'.logRecord k r)
  next => exact h.logRecord k r

theorem failItems (f c st : Nat) : b.Grows (s.failItems f c st) := h.modBatch f _

theorem failItems? (f : Option Nat) (c st : Nat) : b.Grows (s.failItems? f c st) := by
  unfold State.failItems?
  split
  · exact h.failItems _ c st
  · exact h

theorem failBatch (f st : Nat) : b.Grows (s.failBatch f st) := h.modBatch f _

/-! ### Rows of the scratchpads -/

theorem tagWrite (q a writer : Nat) : b.Grows (s.tagWrite q a writer) := by
  unfold State.tagWrite
  extract_lets c f s'
  refine modCluster ?_ q (fun _ => rfl)
  show b.Grows s'
  dsimp only [s']
  split
  · exact .ite ((h.bump (not_kept (.inr rfl) (by decide) (by decide) _)).report _ _ _ _) h
  · exact h

theorem storeRow (q a : Nat) (r : Row) : b.Grows (s.storeRow q a r) := h.modCluster q (fun _ => rfl)

theorem writeRow (q a writer : Nat) (r : Row) : b.Grows (s.writeRow q a writer r) := (h.tagWrite q a writer).storeRow q a r

theorem spRecord (q a : Nat) (f : Option Nat) : b.Grows (s.spRecord q a f) := by
  have hecc : ¬ keptAddr (Reg.cluSpEcc.addr q 0) := not_kept (.inr rfl) (by decide) (by decide) q
  unfold State.spRecord
  extract_lets s₁
  have h₁ : b.Grows s₁ := h.modCluster q (fun _ => rfl)
  exact (((h₁.bump hecc).setFld hecc _).setFld
    hecc _).report _ _ _ _

theorem senseRow (q a : Nat) : b.Grows (s.senseRow q a).2.2 := by
  unfold State.senseRow
  split
  · exact h
  · exact h
  · exact h
  · exact h.same rfl
  · exact h.same rfl

theorem gatedAccess (q a writer : Nat) (f : Option Nat) (core : Nat) : b.Grows (s.gatedAccess q a writer f core) :=
  ((h.bump (not_kept (.inr rfl) (by decide) (by decide) _)).report _ _ _ _).failItems? f core _

theorem overrun (q a kind src : Nat) : b.Grows (s.overrun q a kind src) := h.report _ _ _ _

theorem schedulerRow (q a f : Nat) : b.Grows (s.schedulerRow q a f).2 := by
  have hsense := h.senseRow q a
  unfold State.schedulerRow
  split
  · exact h.overrun _ _ _ _
  · split
    · exact h.gatedAccess q a 50 none 0
    · dsimp only
      split
      · exact .ite (hsense.bump (not_kept (.inr rfl) (by decide) (by decide) _)) hsense
      · exact hsense.spRecord _ _ _

theorem schedulerRows (q a f n : Nat) : b.Grows (s.schedulerRows q a f n).2 := by
  induction n generalizing s a with
  | zero => exact h
  | succ n ih => exact ih (h.schedulerRow q a f) (a + 1)

theorem stewardWrite (q a : Nat) (r : Row) : b.Grows (s.stewardWrite q a r).2 := by
  unfold State.stewardWrite
  split
  · exact h.overrun _ _ _ _
  · split
    · exact h.gatedAccess q a 50 none 0
    · exact h.writeRow _ _ _ _

theorem putRows (q a : Nat) (l : List Row) : b.Grows (s.putRows q a l).2 := by
  induction l generalizing s a with
  | nil => exact h
  | cons r l ih => exact ih (h.stewardWrite q a r) (a + 1)

/-! ### Rows of the stacks -/

theorem dieError (n row die : Nat) : b.Grows (s.dieError n row die) := by
  unfold State.dieError
  extract_lets keep all s'
  have h' : b.Grows s' := h.same rfl
  exact .ite ((setFld (h'.same (t := (s'.modDram n _).recordModule) rfl) (not_kept (.inl rfl) (by decide) (by decide) _) _).report
    _ _ _ _) h'

theorem stackError (n a : Nat) (wclass : Bool) (dies : List Nat) (f : Option Nat) : b.Grows (s.stackError n a wclass dies f) := by
  have hecc : ¬ keptAddr (Reg.hubStkEcc.addr n 0) := not_kept (.inl rfl) (by decide) (by decide) n
  have herr : ¬ keptAddr (Reg.hubStkLastErr.addr n 0) := not_kept (.inl rfl) (by decide) (by decide) n
  unfold State.stackError
  have h' := ((((h.bump (x := .hubStkEccUncorrectedCount) hecc).setFld (x := .hubStkLastErrValid) herr 1).setFld
    (x := .hubStkLastErrDie) herr (dieField dies)).setFld (x := .hubStkLastErrRow) herr a).report (srcHub n f) 0x3002 n a
  exact .ite h' (h'.foldl fun _ _ h => h.dieError _ _ _)

theorem stackFixed (n a : Nat) (wclass : Bool) (dies : List Nat) : b.Grows (s.stackFixed n a wclass dies) := by
  have h' := h.bump (x := .hubStkEccCorrectedCount) (not_kept (.inl rfl) (by decide) (by decide) n)
  exact .ite (h'.foldl fun _ _ h => h.dieError _ _ _) h'

theorem stackRead (n a : Nat) (f : Option Nat) : b.Grows (s.stackRead n a f).2 := by
  unfold State.stackRead
  extract_lets k w
  split
  · exact h.stackError _ _ _ _ _
  · split
    · split
      · exact (h.same (t := s.drew) rfl).stackError _ _ _ _ _
      · exact (h.same (t := s.drew) rfl).stackFixed _ _ _ _
    · exact .ite h (h.stackFixed _ _ _ _)

theorem stackReads (n a : Nat) (f : Option Nat) (k : Nat) : b.Grows (s.stackReads n a f k).2 := by
  induction k generalizing s a with
  | zero => exact h
  | succ k ih => exact ih (h.stackRead n a f) (a + 1)

theorem agentStack (n a : Nat) (f : Option Nat) : b.Grows (s.agentStack n a f).2 := by
  unfold State.agentStack
  split
  · exact h
  · split
    · exact h.report (srcHub n f) 0x3003 n a
    · exact h

theorem agentRead (n a : Nat) (f : Option Nat) : b.Grows (s.agentRead n a f).2 := by
  unfold State.agentRead
  split
  next hx => exact ((h.agentStack n a f).of_snd hx).stackRead n a f
  next hx => exact (h.agentStack n a f).of_snd hx

theorem agentWrite (n a : Nat) (r : Row) (f : Option Nat) : b.Grows (s.agentWrite n a r f).2 := by
  unfold State.agentWrite
  split
  next hx => exact ((h.agentStack n a f).of_snd hx).same rfl
  next hx => exact (h.agentStack n a f).of_snd hx

end State.Grows

end Sys2Proof.Machine
end

section
/-! What serving the streams leaves of the schedule: pages, items and their finals, the states of the entries (R374 to R382, R431 to R436). -/

namespace Sys2Proof.Machine.State.Grows
variable {b s t : State}

theorem takeFrame {n i : Nat} {w : Word} (h : b.Grows s) (ht : s.takeFrame n i = some (w, t)) : b.Grows t := by
  unfold State.takeFrame at ht
  split at ht
  · cases ht
  · split at ht
    · cases ht
    · cases ht
      exact h.same rfl

variable (h : b.Grows s)
include h

/-! ### Pages -/

theorem countFrame (n : Nat) (w : Word) (f : Nat → Nat) : b.Grows (s.countFrame n w f) := by
  unfold State.countFrame
  split
  · exact h.same rfl
  · exact h

theorem failEntry (g st : Nat) : b.Grows (s.failEntry g st) := h.modBatch _ _

theorem walkerRead (g : Nat) (w : Word) (i : Nat) : b.Grows (s.walkerRead g w i).2 := by
  unfold State.walkerRead
  extract_lets a f
  split
  · split
    next hx => exact (h.schedulerRow _ a f).of_snd hx
    next hx => exact ((h.schedulerRow _ a f).of_snd hx).failEntry g _
  · split
    next hx => exact (h.agentRead _ a (some f)).of_snd hx
    next hx => exact ((h.agentRead _ a (some f)).of_snd hx).failEntry g _

theorem walkerWrite (g : Nat) (w : Word) (i : Nat) (r : Row) : b.Grows (s.walkerWrite g w i r) := by
  unfold State.walkerWrite
  extract_lets a q
  split
  · split
    · exact (h.overrun q a 1 _).failEntry g _
    · split
      · exact (h.gatedAccess q a 49 none 0).failEntry g _
      · exact h.writeRow q a 49 r
  · split
    next hx => exact (h.agentWrite q a r _).of_snd hx
    next hx => exact ((h.agentWrite q a r _).of_snd hx).failEntry g _

theorem copyFrameRow (g : Nat) (src dst : Word) (i : Nat) : b.Grows (s.copyFrameRow g src dst i) := by
  unfold State.copyFrameRow
  split
  next hx => exact ((h.walkerRead g src i).of_snd hx).walkerWrite g dst i _
  next hx => exact (h.walkerRead g src i).of_snd hx

theorem copyFrame (g : Nat) (src dst : Word) : b.Grows (s.copyFrame g src dst) :=
  h.foldl fun _ _ h => h.copyFrameRow g src dst _

theorem setPage (g n : Nat) (w : Word) : b.Grows (s.setPage g n w) := h.same rfl

theorem releasePage (g n : Nat) : b.Grows (s.releasePage g n) := by
  unfold State.releasePage
  split
  · exact (h.countFrame _ _ _).same rfl
  · exact h

theorem trimTo (g l : Nat) : b.Grows (s.trimTo g l) :=
  (h.same (t := s.dropLookaside g) rfl).foldl fun _ _ h => h.releasePage g _

theorem countTok (g tok pos : Nat) : b.Grows (s.countTok g tok pos) := .ite h (h.same rfl)

theorem countToks (g n : Nat) (l : List Nat) : b.Grows (countToks g n l s) := by
  induction l generalizing s n with
  | nil => exact h
  | cons x l ih => exact ih (h.countTok g x n) (n + 1)

/-! ### Items and their finals -/

theorem writeEntry (ep : Nat) (x : CEntry) : b.Grows (s.writeEntry ep x) := (h.same (t := s.modEndpoint ep _) rfl).send _

theorem modItem (ep seq : Nat) (f : Item → Item) : b.Grows (s.modItem ep seq f) := h.same rfl

theorem finish (ep seq : Nat) (replayed : Bool) : b.Grows (s.finish ep seq replayed) := by
  unfold State.finish
  split
  · exact h
  · split
    · exact h
    · split
      · exact h
      · have h' := (h.same (t := s.modEndpoint ep (fun e => { e with items := e.items.filter (fun j => j.seq != seq) })) rfl)
        exact .ite ((h'.writeEntry ep _).same rfl) (h'.writeEntry ep _)

theorem flushFinals (ep : Nat) : b.Grows (s.flushFinals ep) := h.foldl fun _ _ h => .ite h (h.finish ep _ false)

theorem complete (ep seq status swath : Nat) (handle : Option Nat) : b.Grows (s.complete ep seq status swath handle) :=
  .ite ((h.modItem ep seq _).flushFinals ep) (h.modItem ep seq _)

theorem failItem (ep : Nat) (i : Item) : b.Grows (s.failItem ep i) := h.complete _ _ _ _ _

theorem failLost (g : Nat) : b.Grows (s.failLost g) := .ite (h.foldl fun _ _ h => h.failItem _ _) h

theorem settleEntry (g : Nat) : b.Grows (s.settleEntry g) := (h.failLost g).same rfl

theorem leaveSwath (g : Nat) : b.Grows (s.leaveSwath g) := (h.same (t := s.modEntry g _) rfl).settleEntry g

theorem loseEntry (g : Nat) : b.Grows (s.loseEntry g) :=
  .ite h (((h.failEntry g stStateLost).same (t := (s.failEntry g stStateLost).modEntry g _) rfl).settleEntry g)

end Sys2Proof.Machine.State.Grows
end

section
/-! What the commit of a swath, its failure and the forming of a batch leave of the schedule (R363 to R373). -/

namespace Sys2Proof.Machine.State.Grows
variable {b s t : State}

section
variable (h : b.Grows s)
include h

/-! ### The commit of an item -/

theorem newTokens (f : Nat) (im : Image) (i n : Nat) : b.Grows (s.newTokens f im i n).2 := by
  unfold State.newTokens
  split
  · exact h.schedulerRows _ _ f _
  · exact h

theorem syncDraft (g : Nat) (commit : Option Nat) : b.Grows (s.syncDraft g commit) := by
  unfold State.syncDraft
  split
  · exact h
  next d _ => exact (h.same (t := s.modEntry d _) rfl).trimTo d _

theorem countInput (g : Nat) (i : Item) (c k : Nat) : b.Grows (s.countInput g i c k) := .ite (h.countToks _ _ _) h

theorem stepTensor (eta : Nat) (lambda : Int) (grad : Nat → Nat) (p : Placed) (old : List Row) :
    b.Grows (s.stepTensor eta lambda grad p old).2 := by
  unfold State.stepTensor
  split
  · exact (h.putRows _ _ _).putRows _ _ _
  · exact h

theorem readMasters (f : Nat) (l : List (Nat × Placed)) : b.Grows (s.readMasters f l).2 := by
  induction l generalizing s with
  | nil => exact h
  | cons x l ih => exact ih (h.schedulerRows _ _ f _)

theorem trainStep (f k : Nat) (it : Item) (x : BatchItem) (st : Nat) (told : Bool) :
    b.Grows (s.trainStep f k it x st told).2 := by
  unfold State.trainStep
  split
  · exact h
  next m _ =>
    have h' : ∀ bad, b.Grows (s.drew.modModel k (Model.scaled bad)) := fun bad => (h.same (t := s.drew) rfl).modModel k _
    dsimp only
    split
    · exact h' _
    · split
      · exact h' _
      · split
        next hx => exact ((h' _).readMasters f _).of_snd hx
        next hx => exact (((h' _).readMasters f _).of_snd hx).foldl_snd fun _ _ h => h.stepTensor _ _ _ _ _

theorem commitItem (f : Nat) (im : Image) (rows : List (Except Nat Row)) (i : Nat) (x : BatchItem) :
    b.Grows (s.commitItem f im rows i x).1 := by
  unfold State.commitItem
  extract_lets g e
  split
  · exact h
  · split
    · exact h
    · split
      extract_lets k0 code long k
      split
      next read s₁ hread =>
      have h₁ : b.Grows s₁ := of_snd (by
        split
        · exact h
        · exact h.newTokens f im i _) hread
      extract_lets x toks s₂ s₃ s₄ s₅ s₆ rated s₇
      have h₂ : b.Grows s₂ := ite (h₁.bump not_kept_srvStat) h₁
      have h₃ : b.Grows s₃ := (h₂.same (t := s₂.modEntry g _) rfl).trimTo g _
      have h₆ : b.Grows s₆ := ((h₃.syncDraft g _).countInput g _ _ k).modItem _ _ _
      have h₇ : b.Grows s₇ := h₆.modItem _ _ _
      clear_value rated s₇
      split
      next st s₈ hst =>
      have h₈ : b.Grows s₈ := by
        refine of_snd ?_ hst
        split
        · split
          · exact h₇.trainStep _ _ _ _ _ _
          · exact h₆
        · exact h₆
      clear hst
      extract_lets s₉
      have h₉ : b.Grows s₉ := by
        dsimp only [s₉]
        split
        · exact h₈.modItem _ _ _
        · exact h₈
      clear_value s₉
      split
      extract_lets job s₁₀ s₁₁ s₁₂
      have h₁₀ : b.Grows s₁₀ := h₉.same rfl
      clear_value s₁₀
      have h₁₁ : b.Grows s₁₁ := h₁₀.leaveSwath g
      clear_value s₁₁
      have h₁₂ : b.Grows s₁₂ := by
        dsimp only [s₁₂]
        split
        · exact h₁₁.leaveSwath _
        · exact h₁₁
      exact h₁₂.same rfl

theorem commitAll (f : Nat) (im : Image) (rows : List (Except Nat Row)) (i : Nat) (l : List BatchItem) :
    b.Grows (commitAll f im rows i l s).1 := by
  induction l generalizing s i with
  | nil => exact h
  | cons x l ih => exact ih (h.commitItem f im rows i x) (i + 1)

theorem commitBatch (f : Nat) (im : Image) (l : List BatchItem) : b.Grows (s.commitBatch f im l).1 :=
  (h.schedulerRows _ _ f _).commitAll f im _ 0 l

/-! ### A swath that fails -/

theorem failItemOf (f : Nat) (st : Option Nat) (x : BatchItem) : b.Grows (s.failItemOf f st x) := by
  unfold State.failItemOf
  extract_lets g s₁ s₂ own s₃ s₄
  have h₁ : b.Grows s₁ := (h.same (t := s.modEntry g (fun e => { e with tent := 0 })) rfl).trimTo g _
  have h₂ : b.Grows s₂ := h₁.syncDraft g none
  have h₃ : b.Grows s₃ := by
    dsimp only [s₃]
    split
    · exact h₂.complete _ _ _ _ _
    · exact h₂
  have h₄ : b.Grows s₄ := h₃.leaveSwath g
  split
  · exact h
  · split
    · exact h₄.leaveSwath _
    · exact h₄

theorem failSwath (f : Nat) (st : Option Nat) : b.Grows (s.failSwath f st) := by
  unfold State.failSwath
  refine modFold ?_ f (fun _ => rfl) (fun _ => List.Subset.refl _)
  exact h.foldl fun _ x h => h.failItemOf f st x

/-! ### Output -/

theorem writeStream (g ep off : Nat) (data : List (BitVec 8)) : b.Grows (s.writeStream g ep off data) := by
  unfold State.writeStream
  extract_lets e d at_ first rest s'
  have h' : b.Grows s' := ite h (h.send _)
  exact .ite h' (h'.send _)

theorem writeRing (f ep : Nat) (jobs : List OutJob) : b.Grows (s.writeRing f ep jobs) :=
  (h.foldl fun _ _ h => h.writeStream _ ep _ _).foldl fun _ _ h => h.send _

/-! ### Forming a batch -/

theorem takeProfiles (f : Nat) : b.Grows (s.takeProfiles f) := h.foldl fun _ _ h => h.same rfl

theorem copySwitch (f : Nat) : b.Grows (s.copySwitch f) :=
  h.foldl fun s e h => .ite
    (((h.modModel e.1 Model.switched).same (t := (s.modModel e.1 Model.switched).recordModule) rfl).bump not_kept_wgtStat) h

theorem sharePage (g n : Nat) (w : Word) : b.Grows (s.sharePage g n w) := by
  unfold State.sharePage
  extract_lets k
  split
  · exact (h.countFrame k w _).setPage g n w
  · split
    next x s' hx => exact ((h.takeFrame hx).copyFrame g w x).setPage g n x
    next => exact h

theorem sharePrefix (g : Nat) : b.Grows (s.sharePrefix g) := by
  unfold State.sharePrefix
  split
  · exact h
  next p l _ =>
    dsimp only
    split
    · exact (h.same (t := s.modEntry g (fun e => { e with parent := none })) rfl).loseEntry g
    · split
      · exact h
      · have h' : b.Grows (((s.entry (p % 65536)).pages.filter (fun e => decide ((s.copyOf g).firstPos e.1 < l))).foldl
            (fun (s : State) e => s.sharePage g e.1 e.2) s) := h.foldl fun _ x h => h.sharePage g x.1 x.2
        exact h'.same rfl

theorem judgeDeadline (f g ns n : Nat) : b.Grows (s.judgeDeadline f g ns n) := by
  induction n generalizing s with
  | zero => exact h
  | succ n ih =>
    unfold State.judgeDeadline
    split
    · split
      · exact ih (((h.bump not_kept_srvStat).complete _ _ _ _ _).settleEntry g)
      · exact h
    · exact h

theorem judgeDeadlines (f ns : Nat) : b.Grows (s.judgeDeadlines f ns) := h.foldl fun _ _ h => h.judgeDeadline f _ ns _

theorem batchRow (f : Nat) (g : Option Nat) (q a : Nat) (r : Row) : b.Grows (s.batchRow f g q a r) := by
  unfold State.batchRow
  split
  next hx => exact (h.stewardWrite q a r).of_snd hx
  next hx =>
    split
    · exact ((h.stewardWrite q a r).of_snd hx).failEntry _ _
    · exact ((h.stewardWrite q a r).of_snd hx).failBatch f _

theorem writeBatch (f : Nat) (im : Image) (swath : Nat) (batch : List BatchItem) : b.Grows (s.writeBatch f im swath batch) := by
  unfold State.writeBatch
  split
  extract_lets recs s₁ s₂ s₃
  have h₁ : b.Grows s₁ := h.batchRow _ _ _ _ _
  have h₂ : b.Grows s₂ := h₁.foldl fun _ _ h => h.batchRow _ _ _ _ _
  have h₃ : b.Grows s₃ := h₂.foldl fun _ _ h => h.batchRow _ _ _ _ _
  refine h₃.foldl fun _ _ h => ?_
  split
  · exact h.batchRow _ _ _ _ _
  · exact h

end

theorem place (im : Image) (f : Nat) {acc : State × Forming} (x : Nat × Item) (h : b.Grows acc.1) :
    b.Grows (State.place im f acc x).1 := by
  unfold State.place
  obtain ⟨s, fm⟩ := acc
  obtain ⟨g, i⟩ := x
  dsimp only
  split
  · exact h
  · split
    · exact ((h.bump not_kept_srvStat).complete _ _ _ _ _).settleEntry g
    · split
      · exact h
      · have h' := h.same (t := s.modEntry g (fun e => { e with state := eRunning, deadline := i.deadline })) rfl
        split
        · exact h'.same rfl
        · exact h'

theorem form (h : b.Grows s) (f : Nat) : b.Grows (s.form f) := by
  unfold State.form
  split
  · exact h
  next im _ =>
    extract_lets s₁ s₂ s₃
    split
    next s₄ fm hx =>
    have h₃ : b.Grows s₃ := (((h.takeProfiles f).copySwitch f).foldl fun _ _ h => h.sharePrefix _).judgeDeadlines f _
    have h₄ : b.Grows s₄ := by
      have hplaced : b.Grows ((s₃.candidates f).foldl (State.place im f) (s₃, { batch := [], taken := [] })).1 :=
        h₃.foldl_fst fun _ x h => place im f x h
      rw [hx] at hplaced
      exact hplaced
    extract_lets s₅ s₆ s₇ gone now
    have h₅ : b.Grows s₅ := h₄.modFold f (fun _ => rfl) (fun _ => List.Subset.refl _)
    have h₇ : b.Grows s₇ := (h₅.writeBatch f im _ _).foldl fun _ _ h => h.modItem _ _ _
    exact h₇.same rfl

theorem tryForm (h : b.Grows s) (f : Nat) : b.Grows (s.tryForm f) := .ite (h.form f) h

end Sys2Proof.Machine.State.Grows
end

section
/-! SWATH_OPEN (R61, R172, R203, R207, R403, R405, R472): the fold and its clusters at tick 0. -/

namespace Sys2Proof.Machine

/-! ### The time, the registers of the schedule and the folds -/

/-- The time, the registers of the schedule and the folds stand. -/
structure SamePlan (s t : State) : Prop extends SameTimes s t where
  folds : t.folds = s.folds

namespace SamePlan
variable {s t u : State}

theorem refl (s : State) : SamePlan s s := ⟨.refl s, rfl⟩

theorem trans (h : SamePlan s t) (h' : SamePlan t u) : SamePlan s u :=
  ⟨h.toSameTimes.trans h'.toSameTimes, h'.folds.trans h.folds⟩

theorem of_eq (ht : t.time = s.time) (hr : t.regs = s.regs) (hf : t.folds = s.folds) : SamePlan s t := ⟨.of_eq ht hr, hf⟩

theorem foldl {α : Type} {g : State → α → State} (hg : ∀ s a, SamePlan s (g s a)) (l : List α) (s : State) :
    SamePlan s (l.foldl g s) :=
  List.foldlRecOn (motive := SamePlan s) l g (.refl s) (fun t ht a _ => ht.trans (hg t a))

theorem setFld (s : State) {x : Fld} {u i : Nat} (hx : ¬ scheduled (x.reg.addr u i)) (v : Nat) : SamePlan s (s.setFld x u i v) := by
  have hregs : ∀ a, scheduled a → Map.find (s.setFld x u i v).regs a = Map.find s.regs a := fun a ha =>
    Map.find_set_ne _ _ _ _ _ (fun heq => hx (heq ▸ ha))
  obtain ⟨m, hm⟩ := s.setFld_eq x u i v
  rw [hm] at hregs ⊢
  exact ⟨.of_regs rfl hregs, rfl⟩

theorem fold (h : SamePlan s t) (f : Nat) : t.fold f = s.fold f := by rw [State.fold, State.fold, h.folds]

theorem of_keepsFolds (h : KeepsFolds s t) : SamePlan s t := by
  refine ⟨.of_regs h.time (fun a ha => h.regs a ?_), h.folds⟩
  rcases ha with ha | ⟨_, ha⟩
  · exact ha.trans (by decide)
  · exact ha

end SamePlan

/-! ### Values of a map -/

section
variable {α : Type} [DecidableEq α] {d : α}

theorem Map.find_of_mem {m : Map α} {lo : Option Nat} (h : Map.wfFrom d lo m = true) {e : Nat × α} (he : e ∈ m) :
    Map.find m e.1 = some e.2 ∧ ∀ l, lo = some l → l < e.1 := by
  induction m generalizing lo with
  | nil => cases he
  | cons x r ih =>
    obtain ⟨a, v⟩ := x
    simp only [Map.wfFrom, Bool.and_eq_true] at h
    obtain ⟨⟨hlo, _⟩, hr⟩ := h
    have hlow : ∀ l, lo = some l → l < a := fun l hl => by simpa [hl] using hlo
    rcases List.mem_cons.mp he with rfl | he
    · exact ⟨if_pos rfl, hlow⟩
    · obtain ⟨hfind, hlt⟩ := ih hr he
      have hae : a < e.1 := hlt a rfl
      exact ⟨by rw [Map.find, if_neg hae.ne', hfind], fun l hl => (hlow l hl).trans hae⟩

/-- A change of every value. -/
theorem Map.get_mapOn {m : Map α} (h : Map.wf d m = true) {g : α → α} (hd : g d = d) (k : Nat) :
    Map.get d (Map.mapOn d m (fun _ => true) g) k = g (Map.get d m k) := by
  have hloop : ∀ (l : List (Nat × α)) (acc : Map α), (∀ e ∈ l, Map.get d m e.1 = e.2) →
      Map.get d (l.foldl (fun acc e => if true then Map.set d acc e.1 (g e.2) else acc) acc) k =
        if k ∈ l.map Prod.fst then g (Map.get d m k) else Map.get d acc k := by
    intro l
    induction l with
    | nil => intro acc _; simp
    | cons e l ih =>
      intro acc hl
      rw [List.foldl_cons, ih _ (fun x hx => hl x (List.mem_cons_of_mem _ hx)), if_pos rfl, Map.get_set]
      by_cases hk : k = e.1
      · have he := hl e List.mem_cons_self
        simp [hk, he]
      · simp only [List.map_cons, List.mem_cons, hk, false_or, if_false]
  refine (hloop m m (fun e he => ?_)).trans ?_
  · rw [Map.get, (Map.find_of_mem h he).1, Option.getD_some]
  · split
    next => rfl
    next hk => rw [Map.get, Map.find_of_not_mem hk, Option.getD_none, hd]

end

/-! ### A cluster up to tick 0 -/

/-- The sensor of a cluster and the calibration words of its arrays, in force and staged, stand. -/
structure Cluster.SameWords (c d : Cluster) : Prop where
  sensor : d.sensor = c.sensor
  wf : Map.wf Arr.reset c.arrays = true → Map.wf Arr.reset d.arrays = true
  words : ∀ a, (Map.get Arr.reset d.arrays a).words = (Map.get Arr.reset c.arrays a).words
  staged : ∀ a, (Map.get Arr.reset d.arrays a).staged = (Map.get Arr.reset c.arrays a).staged

namespace Cluster.SameWords

theorem of_eq {c d : Cluster} (hs : d.sensor = c.sensor) (ha : d.arrays = c.arrays) : c.SameWords d :=
  ⟨hs, fun h => ha ▸ h, fun _ => by rw [ha], fun _ => by rw [ha]⟩

theorem refl (c : Cluster) : c.SameWords c := of_eq rfl rfl

theorem trans {c d e : Cluster} (h : c.SameWords d) (h' : d.SameWords e) : c.SameWords e :=
  ⟨h'.sensor.trans h.sensor, fun hc => h'.wf (h.wf hc), fun a => (h'.words a).trans (h.words a),
    fun a => (h'.staged a).trans (h.staged a)⟩

end Cluster.SameWords

/-- The words that are staged come into force. -/
def Arr.takeStaged (a : Arr) : Arr := match a.staged with
  | some w => { a with words := w, staged := none }
  | none => a

theorem Arr.words_takeStaged (a : Arr) : a.takeStaged.words = a.staged.getD a.words := by
  unfold Arr.takeStaged
  split
  next h => rw [h, Option.getD_some]
  next h => rw [h, Option.getD_none]

theorem Arr.staged_takeStaged (a : Arr) : a.takeStaged.staged = none := by
  unfold Arr.takeStaged
  split
  next => rfl
  next h => exact h

/-- A cluster `d` at tick 0, which was `c` before. -/
structure Cluster.Opened (c d : Cluster) : Prop where
  count : d.count = 0
  tags : d.tags = []
  tSwath : d.tSwath = c.sensor / 8
  words : Map.wf Arr.reset c.arrays = true → ∀ a,
    (Map.get Arr.reset d.arrays a).words = (Map.get Arr.reset c.arrays a).staged.getD (Map.get Arr.reset c.arrays a).words
  staged : Map.wf Arr.reset c.arrays = true → ∀ a, (Map.get Arr.reset d.arrays a).staged = none

theorem Cluster.Opened.of_sameWords {c d e : Cluster} (h : c.SameWords d) (h' : d.Opened e) : c.Opened e where
  count := h'.count
  tags := h'.tags
  tSwath := by rw [h'.tSwath, h.sensor]
  words hwf a := by rw [h'.words (h.wf hwf), h.words, h.staged]
  staged hwf a := h'.staged (h.wf hwf) a

/-! ### `State.switchGroup` -/

/-- The plan and the calibration words stand. -/
structure State.Switches (s t : State) : Prop extends SamePlan s t where
  words : ∀ q, (s.cluster q).SameWords (t.cluster q)

namespace State.Switches
variable {s t u : State}

theorem of_clusters (h : SamePlan s t) (hc : t.clusters = s.clusters) : s.Switches t :=
  ⟨h, fun q => by rw [State.cluster, State.cluster, hc]; exact .refl _⟩

theorem refl (s : State) : s.Switches s := of_clusters (.refl s) rfl

theorem trans (h : s.Switches t) (h' : t.Switches u) : s.Switches u :=
  ⟨h.toSamePlan.trans h'.toSamePlan, fun q => (h.words q).trans (h'.words q)⟩

theorem foldl {α : Type} {g : State → α → State} (hg : ∀ (s : State) a, s.Switches (g s a)) (l : List α) (s : State) :
    s.Switches (l.foldl g s) :=
  List.foldlRecOn (motive := s.Switches) l g (refl s) (fun t ht a _ => ht.trans (hg t a))

theorem setFld (s : State) {x : Fld} {u i : Nat} (hx : ¬ scheduled (x.reg.addr u i)) (v : Nat) : s.Switches (s.setFld x u i v) :=
  of_clusters (.setFld s hx v) rfl

theorem modArr (s : State) (q a : Nat) {g : Arr → Arr} (hw : ∀ x, (g x).words = x.words) (hs : ∀ x, (g x).staged = x.staged) :
    s.Switches (s.modArr q a g) := by
  refine ⟨.of_eq rfl rfl rfl, fun p => ?_⟩
  unfold State.modArr
  rw [State.cluster_of_modCluster]
  split
  next hp =>
    subst hp
    refine ⟨rfl, Map.wf_set, fun k => ?_, fun k => ?_⟩
    · dsimp only
      rw [Map.get_set]
      split
      next hk => rw [hw, hk]
      next => rfl
    · dsimp only
      rw [Map.get_set]
      split
      next hk => rw [hs, hk]
      next => rfl
  next => exact .refl _

end State.Switches

theorem State.switches_retireArray (s : State) (q a : Nat) : s.Switches (s.retireArray q a) := by
  unfold State.retireArray
  split
  · exact (Switches.setFld s (x := .cluArrStateState) (not_scheduled_of_scope (.inr rfl) q a) _).trans
      (.modArr _ q a (fun _ => rfl) (fun _ => rfl))
  · exact .refl s

theorem State.switches_switchGroup (s : State) (r : Rebuild) : s.Switches (s.switchGroup r) := by
  unfold State.switchGroup
  extract_lets old
  split
  · exact .refl s
  next phys _ =>
    split
    · exact .refl s
    · extract_lets s₁ s₂
      have h₁ : s.Switches s₁ := .setFld s (not_scheduled_of_scope (.inr rfl) _ _) _
      have h₂ : s₁.Switches s₂ :=
        (Switches.foldl (fun t a => t.switches_retireArray r.q a) _ _).trans (.of_clusters (.of_eq rfl rfl rfl) rfl)
      have h₃ : s₂.Switches { s₂ with rebuilds := s₂.rebuilds.filter (fun x => x != r) } := .of_clusters (.of_eq rfl rfl rfl) rfl
      exact ((h₁.trans h₂).trans h₃).trans (.setFld _ (fun h => not_kept_wgtStat (.inl h)) _)

/-! ### `State.openCluster` -/

theorem State.freqStep_eq (s : State) (f q : Nat) : ∃ v, s.freqStep f q = s.setFld Fld.cluThmFreqStep q 0 v := by
  unfold State.freqStep
  split_ifs <;> exact ⟨_, rfl⟩

section
variable (s : State) (f : Nat) (im : Image) (q : Nat)

theorem State.samePlan_freqStep : SamePlan s (s.freqStep f q) := by
  obtain ⟨v, hv⟩ := s.freqStep_eq f q
  rw [hv]
  exact .setFld s (not_scheduled_of_scope (.inr rfl) _ _) v

theorem State.clusters_freqStep : (s.freqStep f q).clusters = s.clusters := by
  obtain ⟨v, hv⟩ := s.freqStep_eq f q
  obtain ⟨m, hm⟩ := s.setFld_eq Fld.cluThmFreqStep q 0 v
  rw [hv, hm]

theorem State.samePlan_openCluster : SamePlan s (s.openCluster f im q) := by
  unfold State.openCluster
  extract_lets t0 s₁ s₂
  have h₂ : SamePlan s s₂ := .of_eq rfl rfl rfl
  exact (h₂.trans (s₂.samePlan_freqStep f q)).trans (.of_eq rfl rfl rfl)

theorem State.cluster_openCluster (p : Nat) : (s.openCluster f im q).cluster p = if p = q then
    { s.cluster q with
      tags := [], count := 0, tSwath := (s.cluster q).sensor / 8, steady := true
      arrays := Map.mapOn Arr.reset (s.cluster q).arrays (fun _ => true) Arr.takeStaged
      arrivals := if s.foldExact f then im.arrivalsAt q (s.fold f).tick0 else [] } else s.cluster p := by
  unfold State.openCluster
  extract_lets t0 s₁ s₂
  have h₁ : ∀ p, s₁.cluster p = if p = q then _ else s.cluster p := fun p => s.cluster_of_modCluster q _ p
  have h₂ : ∀ p, (s₂.freqStep f q).cluster p = s₁.cluster p := fun p => by
    rw [State.cluster, State.clusters_freqStep, State.cluster]
  rw [State.cluster_of_modCluster, h₂, h₂, h₁, h₁, if_pos rfl]
  clear_value s₁
  split
  · rfl
  · rfl

theorem State.opened_openCluster : (s.cluster q).Opened ((s.openCluster f im q).cluster q) := by
  rw [State.cluster_openCluster, if_pos rfl]
  exact {
    count := rfl
    tags := rfl
    tSwath := rfl
    words := fun hwf a => by rw [Map.get_mapOn hwf rfl, Arr.words_takeStaged]
    staged := fun hwf a => by rw [Map.get_mapOn hwf rfl, Arr.staged_takeStaged] }

end

/-- A loop over clusters in which each iteration leaves the other clusters. -/
theorem State.cluster_foldl_of_nodup {g : State → Nat → State} (hg : ∀ s q p, p ≠ q → (g s q).cluster p = s.cluster p)
    {l : List Nat} (hl : l.Nodup) {q : Nat} (hq : q ∈ l) (s : State) :
    ∃ t, t.cluster q = s.cluster q ∧ (l.foldl g s).cluster q = (g t q).cluster q := by
  have hskip : ∀ (l : List Nat), q ∉ l → ∀ s, (l.foldl g s).cluster q = s.cluster q := by
    intro l hl s
    refine List.foldlRecOn (motive := fun t => t.cluster q = s.cluster q) l g rfl (fun t ht a ha => ?_)
    exact (hg t a q (fun h => hl (h ▸ ha))).trans ht
  obtain ⟨l₁, l₂, rfl⟩ := List.append_of_mem hq
  rw [List.nodup_middle, List.nodup_cons, List.mem_append, not_or] at hl
  obtain ⟨⟨h₁, h₂⟩, _⟩ := hl
  exact ⟨l₁.foldl g s, hskip l₁ h₁ s, by rw [List.foldl_append, List.foldl_cons, hskip l₂ h₂]⟩

/-! ### `State.openSwath` -/

theorem State.clusters_openWindows (s : State) (f : Nat) : (s.openWindows f).clusters = s.clusters := by
  unfold State.openWindows
  split
  · refine State.proj_foldl State.clusters (fun t d => ?_) _ s
    simp only [State.openWindow]
    split <;> rfl
  · rfl

/-- The fold at tick 0. -/
def Fold.opened (x : Fold) (n b tick0 : Nat) : Fold := { x with
    phase := .opened, swath := n, edgeBeat := b, tick0 := tick0, late := false, failed := false,
    drained := false, formed := false, gens := [], lastJoin := [], recorded := [],
    relayed := x.relayed.filter (fun k => k.2.1 == 2 || !seqLt k.2.2.1 x.swath),
    frozen := 0, lateFor := none, markers := x.markers.filter (fun m => m.1 != 2 && !seqLt m.2.2.swath n) }

section
variable (s : State) (f nb : Nat) (im : Image)

/-- The clusters of the fold at tick 0. -/
def State.openClusters : State :=
  im.clusters.foldl (fun (s : State) q => s.openCluster f im q)
    ((s.rebuilds.filter (fun r => im.clusters.contains r.q)).foldl (fun (s : State) r => s.switchGroup r) s)

/-- The fold runs, its windows open, and its tick 0 is shown outside. -/
def State.announceSwath : State :=
  let s := (if s.foldState f = foldArmed then s.setFoldState f foldRunning else s).openWindows f
  if s.fld Fld.glbSwathOutEnable 0 0 = 1 ∧ s.fld Fld.glbSwathOutFold 0 0 = f then s.send (.swathOut f (s.fold f).tick0)
  else s

/-- The batch is formed, the fold and its clusters come to tick 0, and the swath is announced. -/
theorem State.openSwath_eq : ∃ t b, (SameTimes s t ∧ ∀ q, (s.cluster q).SameWords (t.cluster q)) ∧
    s.openSwath f nb im = ((t.modFold f (fun x => x.opened (t.swathNumber f ((s.fold f).lateFor.getD nb)) b
      (t.frameUp (t.edgeTick nb)))).openClusters f im).announceSwath f := by
  have h : ∀ g t, (s.modFold f g).Grows t → SameTimes s t ∧ ∀ q, (s.cluster q).SameWords (t.cluster q) := fun g t h =>
    ⟨(SameTimes.of_eq (s := s) (t := s.modFold f g) rfl rfl).trans h.times, fun q => .of_eq (h.sensor q) (h.arrays q)⟩
  exact ⟨_, _, h _ _ (.ite (.refl _) ((Grows.refl _).form f)), rfl⟩

theorem State.samePlan_openClusters : SamePlan s (s.openClusters f im) :=
  (Switches.foldl (fun t r => t.switches_switchGroup r) _ s).toSamePlan.trans
    (.foldl (fun t q => t.samePlan_openCluster f im q) _ _)

theorem State.opened_openClusters (him : im.clusters.Nodup) {q : Nat} (hq : q ∈ im.clusters) :
    (s.cluster q).Opened ((s.openClusters f im).cluster q) := by
  have hswitch := (Switches.foldl (fun t r => t.switches_switchGroup r)
    (s.rebuilds.filter (fun r => im.clusters.contains r.q)) s).words q
  obtain ⟨t, ht, heq⟩ := State.cluster_foldl_of_nodup (g := fun (s : State) q => s.openCluster f im q)
    (fun s q p hp => (s.cluster_openCluster f im q p).trans (if_neg hp)) him hq _
  have hopen := t.opened_openCluster f im q
  rw [ht] at hopen
  rw [State.openClusters, heq]
  exact hopen.of_sameWords hswitch

theorem State.setFoldState_frame (v : Nat) : s.setFoldState f v = { s with regs := (s.setFoldState f v).regs } := by
  obtain ⟨m, hm⟩ := s.setFld_eq Fld.timFoldStatState 0 f v
  rw [State.setFoldState, hm]

theorem State.fold_announceSwath : (s.announceSwath f).fold f = s.fold f := by
  refine congrArg (fun m => Map.get Fold.reset m f) ?_
  unfold State.announceSwath
  extract_lets t
  have ht : t.folds = s.folds := (keepsFolds_openWindows _ f).folds.trans (by split <;> [rw [State.setFoldState_frame]; rfl])
  clear_value t
  split <;> exact ht

theorem State.cluster_announceSwath (q : Nat) : (s.announceSwath f).cluster q = s.cluster q := by
  refine congrArg (fun m => Map.get Cluster.reset m q) ?_
  unfold State.announceSwath
  extract_lets t
  have ht : t.clusters = s.clusters := (State.clusters_openWindows _ f).trans (by split <;> [rw [State.setFoldState_frame]; rfl])
  clear_value t
  split <;> exact ht

theorem State.foldState_announceSwath (hf : f < 256) (h : s.foldState f = foldArmed ∨ s.foldState f = foldRunning) :
    (s.announceSwath f).foldState f = foldRunning := by
  have hrun : (if s.foldState f = foldArmed then s.setFoldState f foldRunning else s).foldState f = foldRunning := by
    split
    next => exact State.foldState_setFoldState _ _ _ (by decide)
    next hne => exact h.resolve_left hne
  unfold State.announceSwath
  extract_lets t
  have ht : t.foldState f = foldRunning := ((SamePlan.of_keepsFolds (keepsFolds_openWindows _ f)).foldState hf).trans hrun
  clear_value t
  split <;> exact ht

/-- What the swath opens with. -/
theorem State.fold_openSwath (hf : f < 256) : ∃ x b, (s.openSwath f nb im).fold f =
    Fold.opened x (s.swathNumber f ((s.fold f).lateFor.getD nb)) b (s.frameUp (s.edgeTick nb)) := by
  obtain ⟨t, b, ⟨htimes, _⟩, heq⟩ := s.openSwath_eq f nb im
  refine ⟨t.fold f, b, ?_⟩
  rw [heq, State.fold_announceSwath, (State.samePlan_openClusters _ f im).fold, State.fold_of_modFold, if_pos rfl,
    htimes.swathNumber hf, htimes.edgeTick, htimes.frameUp]

theorem State.foldState_openSwath (hf : f < 256) (h : s.foldState f = foldArmed ∨ s.foldState f = foldRunning) :
    (s.openSwath f nb im).foldState f = foldRunning := by
  obtain ⟨t, b, ⟨htimes, _⟩, heq⟩ := s.openSwath_eq f nb im
  have hopen : ∀ g, ((t.modFold f g).openClusters f im).foldState f = s.foldState f := fun g =>
    ((State.samePlan_openClusters (t.modFold f g) f im).foldState hf).trans (htimes.foldState hf)
  rw [heq]
  refine State.foldState_announceSwath _ f hf ?_
  rwa [hopen]

theorem State.opened_openSwath (him : im.clusters.Nodup) {q : Nat} (hq : q ∈ im.clusters) :
    (s.cluster q).Opened ((s.openSwath f nb im).cluster q) := by
  obtain ⟨t, b, ⟨_, hwords⟩, heq⟩ := s.openSwath_eq f nb im
  have hopen := (t.modFold f (fun x => x.opened (t.swathNumber f ((s.fold f).lateFor.getD nb)) b
    (t.frameUp (t.edgeTick nb)))).opened_openClusters f im him hq
  rw [heq, State.cluster_announceSwath]
  exact hopen.of_sameWords (hwords q)

end

theorem exec_swathOpen {t f nb : Nat} {im : Image} {s : State} (hf : f < 256) (him : ((s.at t).fold f).image = some im)
    (hplaced : ((s.at t).fold f).replacing = none) (hnb : (s.at t).openBeat f = some nb)
    (hstate : (s.at t).foldState f ≠ foldStopped) (hmay : (s.at t).mayOpen f = true)
    (hnow : (s.at t).frameUp ((s.at t).edgeTick nb) ≤ (s.at t).now) :
    exec (.swathOpen t f) s = .next ((s.at t).openSwath f nb im) := by
  show onUnit (validFold f) (if _ then _ else if _ then _ else _) = _
  rw [if_neg hstate, hplaced, if_neg (by decide), him, hnb]
  dsimp only
  rw [whenever_of_true (by rw [hmay, decide_eq_true hnow]; rfl), onUnit, validFold, if_pos (decide_eq_true hf)]

theorem State.state_of_mayOpen {s : State} {f : Nat} (h : s.mayOpen f = true) :
    s.foldState f = foldArmed ∨ s.foldState f = foldRunning := by
  simp only [State.mayOpen, Bool.or_eq_true, Bool.and_eq_true, beq_iff_eq] at h
  rcases h with ⟨⟨h, _⟩, _⟩ | ⟨⟨h, _⟩, _⟩
  · exact .inl h
  · exact .inr h

end Sys2Proof.Machine
end

section
/-! SWATH_GUARD_START (R62, R65, R158): the guard, and the rows that are written again in it. -/

namespace Sys2Proof.Machine

/-- What one element of a list brings about and no element undoes holds when the loop ends, with an invariant of the loop. -/
theorem foldl_reaches_of {α β : Type} {I P : β → Prop} {g : β → α → β} {l : List α} {a : α} (ha : a ∈ l)
    (hI : ∀ b x, x ∈ l → I b → I (g b x)) (hg : ∀ b, I b → P (g b a)) (hkeep : ∀ b x, I b → P b → P (g b x)) {b : β} (hb : I b) :
    P (l.foldl g b) := by
  obtain ⟨l₁, l₂, rfl⟩ := List.append_of_mem ha
  rw [List.foldl_append, List.foldl_cons]
  have h₁ : I (l₁.foldl g b) := List.foldlRecOn l₁ g hb (fun b hb x hx => hI b x (List.mem_append_left _ hx) hb)
  refine (List.foldlRecOn (motive := fun b => I b ∧ P b) l₂ g ⟨hI _ a (by simp) h₁, hg _ h₁⟩ (fun b hb x hx => ?_)).2
  obtain ⟨hb, hp⟩ := hb
  exact ⟨hI b x (by simp [hx]) hb, hkeep b x hb hp⟩

/-! ### What leaves the clusters as they are -/

theorem State.countDropped_frame (s : State) (glob : Bool) (cap : Nat) (l : Log) :
    ∃ m, s.countDropped glob cap l = { s with regs := m } := by
  unfold State.countDropped
  split
  · exact s.setFld_eq _ _ _ _
  · exact ⟨s.regs, rfl⟩

theorem State.logRecord_frame (s : State) (k : Source) (r : Rec) :
    ∃ m log hubs, s.logRecord k r = { s with regs := m, globalLog := log, hubs := hubs } := by
  unfold State.logRecord
  extract_lets counted s'
  have hcounted : ∃ m, counted = { s with regs := m } := s.countDropped_frame true 16384 s.globalLog
  obtain ⟨m₀, hcounted⟩ := hcounted
  have h' : ∃ m log, s' = { s with regs := m, globalLog := log } := by
    dsimp only [s']
    clear_value counted
    subst hcounted
    split
    · exact ⟨m₀, _, rfl⟩
    · exact ⟨s.regs, s.globalLog, rfl⟩
  obtain ⟨m, log, h'⟩ := h'
  clear_value s'
  subst h'
  split
  next n _ =>
    split
    · obtain ⟨m', hm'⟩ := State.countDropped_frame { s with regs := m, globalLog := log } false 4096 (s.hub n).log
      exact ⟨m', log, _, congrArg (State.modHub · n (fun h => { h with log := h.log.push 4096 r })) hm'⟩
    · exact ⟨m, log, s.hubs, rfl⟩
  next => exact ⟨m, log, s.hubs, rfl⟩

/-- An event changes registers, logs and what the folds have recorded. -/
theorem State.report_frame (s : State) (k : Source) (code p0 p1 : Nat) :
    ∃ m folds log hubs, s.report k code p0 p1 = { s with regs := m, folds := folds, globalLog := log, hubs := hubs } := by
  unfold State.report
  extract_lets r
  split
  · split
    · exact ⟨s.regs, s.folds, s.globalLog, s.hubs, rfl⟩
    · obtain ⟨m, log, hubs, h⟩ := State.logRecord_frame (s.modFold _ _) k r
      exact ⟨m, _, log, hubs, h⟩
  · obtain ⟨m, log, hubs, h⟩ := s.logRecord_frame k r
    exact ⟨m, s.folds, log, hubs, h⟩

theorem State.batch_report (s : State) (k : Source) (code p0 p1 f : Nat) :
    ((s.report k code p0 p1).fold f).batch = (s.fold f).batch := by
  have hlog : ∀ (t : State) r, (t.logRecord k r).fold f = t.fold f := fun t r => by
    obtain ⟨m, log, hubs, h⟩ := t.logRecord_frame k r
    rw [h]
    rfl
  unfold State.report
  extract_lets r
  split
  · split
    · rfl
    · rw [hlog, State.fold_of_modFold]
      split
      next h => rw [h]
      next => rfl
  · rw [hlog]

theorem State.clusters_setFld (s : State) (x : Fld) (u i v : Nat) : (s.setFld x u i v).clusters = s.clusters := by
  obtain ⟨m, hm⟩ := s.setFld_eq x u i v
  rw [hm]

theorem State.clusters_bump (s : State) (x : Fld) (u i : Nat) : (s.bump x u i).clusters = s.clusters :=
  s.clusters_setFld x u i _

theorem State.clusters_report (s : State) (k : Source) (code p0 p1 : Nat) :
    (s.report k code p0 p1).clusters = s.clusters := by
  obtain ⟨m, folds, log, hubs, h⟩ := s.report_frame k code p0 p1
  rw [h]

theorem State.clusters_gatedAccess (s : State) (q a writer core : Nat) :
    (s.gatedAccess q a writer none core).clusters = s.clusters :=
  (State.clusters_report _ _ _ _ _).trans (s.clusters_bump _ _ _)

theorem State.clusters_dieError (s : State) (n row die : Nat) : (s.dieError n row die).clusters = s.clusters := by
  unfold State.dieError
  extract_lets keep all s'
  split
  · rw [State.clusters_report, State.clusters_setFld]
    rfl
  · rfl

theorem State.clusters_foldl_dieError (s : State) (n row : Nat) (l : List Nat) :
    (l.foldl (fun (s : State) d => s.dieError n row d) s).clusters = s.clusters :=
  State.proj_foldl State.clusters (fun t d => t.clusters_dieError n row d) l s

theorem State.clusters_stackError (s : State) (n a : Nat) (wclass : Bool) (dies : List Nat) (f : Option Nat) :
    (s.stackError n a wclass dies f).clusters = s.clusters := by
  unfold State.stackError
  extract_lets s₁ s₂ s₃ s₄ s₅
  have h₂ : s₂.clusters = s.clusters := (s₁.clusters_setFld _ _ _ _).trans (s.clusters_bump _ _ _)
  have h₄ : s₄.clusters = s₂.clusters := (s₃.clusters_setFld _ _ _ _).trans (s₂.clusters_setFld _ _ _ _)
  have h₅ : s₅.clusters = s.clusters := (s₄.clusters_report _ _ _ _).trans (h₄.trans h₂)
  clear_value s₅
  split
  · exact h₅
  · exact (s₅.clusters_foldl_dieError n a dies).trans h₅

theorem State.clusters_stackFixed (s : State) (n a : Nat) (wclass : Bool) (dies : List Nat) :
    (s.stackFixed n a wclass dies).clusters = s.clusters := by
  unfold State.stackFixed
  extract_lets s₁
  have h₁ : s₁.clusters = s.clusters := s.clusters_bump _ _ _
  clear_value s₁
  split
  · exact (s₁.clusters_foldl_dieError n a dies).trans h₁
  · exact h₁

theorem State.clusters_stackRead (s : State) (n a : Nat) (f : Option Nat) : (s.stackRead n a f).2.clusters = s.clusters := by
  have hdrew : s.drew.clusters = s.clusters := rfl
  unfold State.stackRead
  extract_lets k w
  split
  · exact s.clusters_stackError _ _ _ _ _
  · split
    · split
      · exact (State.clusters_stackError _ _ _ _ _ _).trans hdrew
      · exact (State.clusters_stackFixed _ _ _ _ _).trans hdrew
    · dsimp only
      split
      · rfl
      · exact s.clusters_stackFixed _ _ _ _

theorem State.clusters_stackReads (s : State) (n a : Nat) (f : Option Nat) (k : Nat) :
    (s.stackReads n a f k).2.clusters = s.clusters := by
  induction k generalizing s a with
  | zero => rfl
  | succ k ih => exact (ih _ (a + 1)).trans (s.clusters_stackRead n a f)

/-! ### The steward's write of a row -/

section
variable (s : State) (q a p b : Nat) (r : Row)

theorem State.cluster_tagWrite (writer : Nat) :
    ((s.tagWrite q a writer).cluster p).rows = (s.cluster p).rows ∧
    ((s.tagWrite q a writer).cluster p).spoiled = (s.cluster p).spoiled := by
  unfold State.tagWrite
  extract_lets c f s'
  have h' : s'.cluster p = s.cluster p := by
    have hc : s'.clusters = s.clusters := by
      dsimp only [s']
      split
      · split
        · exact (State.clusters_report _ _ _ _ _).trans (s.clusters_bump _ _ _)
        · rfl
      · rfl
    rw [State.cluster, State.cluster, hc]
  clear_value s'
  rw [State.cluster_of_modCluster]
  split
  next hp =>
    subst hp
    exact ⟨by rw [h'], by rw [h']⟩
  next => exact ⟨by rw [h'], by rw [h']⟩

/-- Whether the steward may write a row. -/
def State.takesRow : Bool := (s.partOf q a).isSome && !s.rowRefused q a

theorem State.stewardRow_of_taken (h : s.takesRow q a = true) : s.stewardRow q a r = s.writeRow q a 50 r := by
  simp only [State.takesRow, Bool.and_eq_true, Bool.not_eq_true'] at h
  obtain ⟨hpart, hopen⟩ := h
  simp [State.stewardRow, State.stewardWrite, Option.isSome_iff_ne_none.mp hpart, hopen]

theorem State.clusters_stewardRow_of_refused (h : s.takesRow q a = false) : (s.stewardRow q a r).clusters = s.clusters := by
  unfold State.stewardRow State.stewardWrite
  split
  · exact s.clusters_report _ _ _ _
  next hpart =>
    split
    · exact s.clusters_gatedAccess _ _ _ _
    next hopen => simp_all [State.takesRow]

theorem State.row_stewardRow : (s.stewardRow q a r).row p b = if p = q ∧ b = a ∧ s.takesRow q a then r else s.row p b := by
  cases h : s.takesRow q a
  · rw [State.row_of_clusters (s.clusters_stewardRow_of_refused q a r h), if_neg (by simp)]
  · rw [State.stewardRow_of_taken s q a r h, State.writeRow, State.storeRow, State.row, State.cluster_of_modCluster]
    obtain ⟨hrows, _⟩ := s.cluster_tagWrite q a p 50
    by_cases hp : p = q
    · subst hp
      rw [if_pos rfl, Map.get_set, hrows]
      by_cases hb : b = a
      · simp [hb]
      · simp [hb, State.row]
    · rw [if_neg hp, if_neg (fun h => hp h.1), hrows, State.row]

theorem State.spoiled_stewardRow : ((s.stewardRow q a r).cluster p).spoiled.contains b =
    ((s.cluster p).spoiled.contains b && !(decide (p = q) && decide (b = a) && s.takesRow q a)) := by
  cases h : s.takesRow q a
  · rw [State.cluster, s.clusters_stewardRow_of_refused q a r h]
    simp [State.cluster]
  · rw [State.stewardRow_of_taken s q a r h, State.writeRow, State.storeRow, State.cluster_of_modCluster]
    obtain ⟨_, hspoiled⟩ := s.cluster_tagWrite q a p 50
    by_cases hp : p = q
    · subst hp
      rw [if_pos rfl]
      dsimp only
      rw [hspoiled, Bool.eq_iff_iff]
      simp
    · rw [if_neg hp, hspoiled]
      simp [hp]

end

/-! ### What the scheduler's work leaves of the partitions -/

namespace State.Grows
variable {s t : State} (h : s.Grows t)
include h

theorem reg {r : Reg} {u i : Nat} (hr : keptAddr (r.addr u i)) : t.reg r u i = s.reg r u i := by
  rw [State.reg, State.reg, Map.get, Map.get, h.regs _ hr]

theorem partReg (q : Nat) {i : Nat} (hi : i < 64) : t.reg .cluPartBanks q i = s.reg .cluPartBanks q i ∧
    t.reg .cluPartCfg q i = s.reg .cluPartCfg q i := by
  refine ⟨h.reg (.inr ?_), h.reg (.inr ?_)⟩ <;> simp only [Reg.addr, Reg.place, Scope.origin, leaBase] <;> omega

theorem partCfg (q : Nat) {i : Nat} (hi : i < 64) {x : Fld} (hx : x.reg = .cluPartCfg) : t.fld x q i = s.fld x q i := by
  rw [State.fld, State.fld, hx, (h.partReg q hi).2]

theorem partOf (q a : Nat) : t.partOf q a = s.partOf q a := by
  unfold State.partOf
  refine List.find?_congr (fun i hi => ?_)
  have hi := List.mem_range.mp hi
  obtain ⟨hbanks, hcfg⟩ := h.partReg q hi
  rw [State.partCovers, State.partCovers, State.partValid, State.partValid, h.partCfg q hi rfl, hbanks, hcfg]

theorem rowWclass (q a : Nat) : t.rowWclass q a = s.rowWclass q a := by
  unfold State.rowWclass
  rw [h.partOf]
  cases hpart : s.partOf q a with
  | none => rfl
  | some i =>
    have hi := List.mem_range.mp (List.mem_of_find?_eq_some hpart)
    rw [Option.any_some, Option.any_some, State.partWclass, State.partWclass, h.partCfg q hi rfl]

theorem rowRefused (q a : Nat) : t.rowRefused q a = s.rowRefused q a := by
  have hbank : keptAddr (Fld.cluBankPowerPowered.reg.addr q 0) := by
    show keptAddr (Reg.cluBankPower.addr q 0)
    refine .inr ?_
    simp only [Reg.addr, Reg.place, Scope.origin, leaBase]
    omega
  have hpower : ∀ b, t.bankPowered q b = s.bankPowered q b := fun b => by
    rw [State.bankPowered, State.bankPowered, State.bit, State.bit, State.fld, State.fld, h.reg hbank]
  have hopens : (t.cluster q).opens = (s.cluster q).opens :=
    show (t.cluster q).bare.opens = (s.cluster q).bare.opens by rw [h.clusters q]
  have hclosing : (t.cluster q).closing = (s.cluster q).closing :=
    show (t.cluster q).bare.closing = (s.cluster q).bare.closing by rw [h.clusters q]
  unfold State.rowRefused
  rw [h.partOf]
  cases hpart : s.partOf q a with
  | none => rfl
  | some i =>
    have hi := List.mem_range.mp (List.mem_of_find?_eq_some hpart)
    have hopen : t.partOpen q i = s.partOpen q i := by
      rw [State.partOpen, State.partOpen, h.partCfg q hi rfl]
    have hmask : t.reg Fld.cluPartBanksBankMask.reg q i = s.reg Fld.cluPartBanksBankMask.reg q i := (h.partReg q hi).1
    have hbanks : t.banksOf q i = s.banksOf q i := by
      rw [State.banksOf, State.banksOf, State.partMask, State.partMask, State.fld, State.fld, hmask]
    simp only [hopen, hbanks, hpower, hopens, hclosing, h.now]

theorem takesRow (q a : Nat) : t.takesRow q a = s.takesRow q a := by
  rw [State.takesRow, State.takesRow, h.partOf, h.rowRefused]

end State.Grows

/-! ### `State.mendRows` -/

/-- `t` is `b` after rows that stood uncorrectable in it were written again: the others stand. -/
structure State.Mends (b t : State) : Prop extends b.Grows t where
  rows : ∀ q a, (b.cluster q).spoiled.contains a = false → t.row q a = b.row q a
  spoiled : ∀ q a, (b.cluster q).spoiled.contains a = false → (t.cluster q).spoiled.contains a = false

namespace State.Mends
variable {b s t : State}

theorem of_clusters (h : b.Grows t) (hc : t.clusters = b.clusters) : b.Mends t :=
  ⟨h, fun q a _ => State.row_of_clusters hc q a, fun q a hq => by rw [State.cluster, hc]; exact hq⟩

theorem refl (s : State) : s.Mends s := of_clusters (.refl s) rfl

theorem trans (h : b.Mends s) (h' : s.Mends t) : b.Mends t where
  toGrows := h.toGrows.trans h'.toGrows
  rows q a hq := (h'.rows q a (h.spoiled q a hq)).trans (h.rows q a hq)
  spoiled q a hq := h'.spoiled q a (h.spoiled q a hq)

theorem foldl {α : Type} {g : State → α → State} {l : List α} (hg : ∀ (s : State), ∀ a ∈ l, b.Mends s → b.Mends (g s a))
    (h : b.Mends s) : b.Mends (l.foldl g s) :=
  List.foldlRecOn (motive := b.Mends) l g h (fun t ht a ha => hg t a ha ht)

theorem stewardRow (h : b.Mends s) {q a : Nat} (r : Row) (hq : (b.cluster q).spoiled.contains a = true) :
    b.Mends (s.stewardRow q a r) where
  toGrows := h.toGrows.stewardWrite q a r
  rows p x hx := by
    rw [State.row_stewardRow, if_neg, h.rows p x hx]
    rintro ⟨rfl, rfl, _⟩
    rw [hq] at hx
    cases hx
  spoiled p x hx := by rw [State.spoiled_stewardRow, h.spoiled p x hx, Bool.false_and]

end State.Mends

section
variable (s : State) (c : Copy) (p : Placed)

/-- The rows of a tensor that stand uncorrectable. -/
def State.lostRows (a : Nat) : List Nat := (List.range p.data.length).filter (fun i =>
  (s.cluster p.cluster).spoiled.contains (a + i) && s.rowWclass p.cluster (a + i))

/-- One row of a tensor is written again, where its stack copy was delivered. -/
def State.mendRow (a : Nat) (l : List (Option Row)) (i : Nat) : State :=
  match l[i]?, (c.scratchRows p (l.map (·.getD 0)))[i]? with
  | some (some _), some r => s.stewardRow p.cluster (a + i) r
  | _, _ => s

theorem State.mendTensor_of_some {a : Nat} (ha : p.scratch = some a) : s.mendTensor c p =
    if (s.lostRows p a).isEmpty then s
    else (s.lostRows p a).foldl (fun (t : State) i => t.mendRow c p a (s.stackCopy p).1 i) (s.stackCopy p).2 := by
  unfold State.mendTensor
  rw [ha]
  rfl

theorem State.mends_stackCopy : s.Mends (s.stackCopy p).2 :=
  .of_clusters ((Grows.refl s).stackReads _ _ _ _) (s.clusters_stackReads _ _ _ _)

theorem State.mends_mendRow {b : State} (h : b.Mends s) {a i : Nat} (hi : i ∈ b.lostRows p a) (l : List (Option Row)) :
    b.Mends (s.mendRow c p a l i) := by
  obtain ⟨_, hi⟩ := List.mem_filter.mp hi
  obtain ⟨hspoiled, _⟩ := Bool.and_eq_true_iff.mp hi
  unfold State.mendRow
  split
  · exact h.stewardRow _ hspoiled
  · exact h

theorem State.mends_mendTensor : s.Mends (s.mendTensor c p) := by
  cases ha : p.scratch with
  | none =>
    rw [State.mendTensor, ha]
    exact .refl s
  | some a =>
    rw [s.mendTensor_of_some c p ha]
    split
    · exact .refl s
    · exact .foldl (fun t i hi ht => t.mends_mendRow c p ht hi _) (s.mends_stackCopy p)

theorem State.mends_mendRows (f : Nat) : s.Mends (s.mendRows f) :=
  .foldl (fun _ c _ ht => .foldl (fun t p _ ht => ht.trans (t.mends_mendTensor c p)) ht) (.refl s)

/-- Without uncorrectable rows nothing is written. -/
theorem State.mendTensor_of_sound (h : ∀ q, (s.cluster q).spoiled = []) : s.mendTensor c p = s := by
  cases ha : p.scratch with
  | none => rw [State.mendTensor, ha]
  | some a =>
    rw [s.mendTensor_of_some c p ha, if_pos]
    simp [State.lostRows, h]

theorem State.mendRows_of_sound (f : Nat) (h : ∀ q, (s.cluster q).spoiled = []) : s.mendRows f = s :=
  List.foldlRecOn (motive := (· = s)) _ _ rfl (fun _ ht c _ =>
    List.foldlRecOn (motive := (· = s)) _ _ ht (fun _ ht p _ => ht ▸ s.mendTensor_of_sound c p h))

/-- A row of a weight-class partition that stood uncorrectable, was delivered from the stack copy and may be written. -/
theorem State.row_mendTensor {a i : Nat} {w r : Row} (ha : p.scratch = some a) (hi : i < p.data.length)
    (hspoiled : (s.cluster p.cluster).spoiled.contains (a + i) = true) (hclass : s.rowWclass p.cluster (a + i) = true)
    (hopen : s.rowRefused p.cluster (a + i) = false) (hw : (s.stackCopy p).1[i]? = some (some w))
    (hr : (c.scratchRows p ((s.stackCopy p).1.map (·.getD 0)))[i]? = some r) :
    (s.mendTensor c p).row p.cluster (a + i) = r ∧
      ((s.mendTensor c p).cluster p.cluster).spoiled.contains (a + i) = false := by
  have hlost : i ∈ s.lostRows p a := List.mem_filter.mpr ⟨List.mem_range.mpr hi, by rw [hspoiled, hclass]; rfl⟩
  have hnone : (s.lostRows p a).isEmpty ≠ true := fun h => by
    rw [List.isEmpty_iff.mp h] at hlost
    cases hlost
  have htake : s.takesRow p.cluster (a + i) = true := by
    rw [State.takesRow, hopen]
    cases hpart : s.partOf p.cluster (a + i) with
    | none =>
      rw [State.rowWclass, hpart] at hclass
      cases hclass
    | some k => rfl
  have hmend : ∀ t : State, t.mendRow c p a (s.stackCopy p).1 i = t.stewardRow p.cluster (a + i) r := fun t => by
    rw [State.mendRow, hw, hr]
  rw [s.mendTensor_of_some c p ha, if_neg hnone]
  refine foldl_reaches_of (I := fun t => s.Mends t)
    (P := fun t => t.row p.cluster (a + i) = r ∧ (t.cluster p.cluster).spoiled.contains (a + i) = false) hlost
    (fun t x hx ht => t.mends_mendRow c p ht hx _) (fun t ht => ?_) (fun t x ht hP => ?_) (s.mends_stackCopy p)
  · rw [hmend, State.row_stewardRow, State.spoiled_stewardRow, ht.takesRow, htake]
    simp
  · obtain ⟨hrow, hsound⟩ := hP
    by_cases hx : x = i
    · subst hx
      rw [hmend, State.row_stewardRow, State.spoiled_stewardRow, hsound, hrow]
      simp
    · unfold State.mendRow
      split
      · rw [State.row_stewardRow, State.spoiled_stewardRow, hsound, hrow, if_neg (fun h => hx (by omega))]
        exact ⟨rfl, rfl⟩
      · exact ⟨hrow, hsound⟩

end

/-! ### The command -/

/-- The fold in its guard. -/
def State.guarded (s : State) (f : Nat) : State := s.modFold f (fun x => { x with
  phase := .guard, guardEnd := Nat.max x.drainAt (s.nominalGuard f) + s.guardBeats f * s.beatTicks })

theorem exec_swathGuardStart {t f : Nat} {s : State} (hf : f < 256) (hstate : (s.at t).foldState f = foldRunning)
    (hphase : ((s.at t).fold f).phase = .drain) (hdrained : ((s.at t).fold f).drained = true)
    (hnow : Nat.max ((s.at t).fold f).drainAt ((s.at t).nominalGuard f) ≤ (s.at t).now) :
    exec (.swathGuardStart t f) s = .next (((s.at t).guarded f).mendRows f) := by
  show onUnit (validFold f) (whenever _ _ _) = _
  rw [whenever_of_true (by rw [hstate, hphase, hdrained, decide_eq_true hnow]; rfl), onUnit, validFold,
    if_pos (decide_eq_true hf)]
  rfl

theorem State.fold_mendGuarded (s : State) (f : Nat) : (((s.guarded f).mendRows f).fold f).phase = .guard ∧
    (((s.guarded f).mendRows f).fold f).guardEnd =
      Nat.max (s.fold f).drainAt (s.nominalGuard f) + s.guardBeats f * s.beatTicks := by
  have hfold : (s.guarded f).fold f = _ := (s.fold_of_modFold f _ f).trans (if_pos rfl)
  have hmends := ((s.guarded f).mends_mendRows f).toGrows
  rw [hmends.field (π := Fold.phase) (fun _ => rfl), hmends.field (π := Fold.guardEnd) (fun _ => rfl), hfold]
  exact ⟨rfl, rfl⟩

/-- Where one tensor alone runs in the fold. -/
theorem State.mendRows_of_single {s : State} {f : Nat} {c : Copy} {p : Placed} (hc : s.foldCopies f = [c])
    (hp : c.tensors = [p]) : s.mendRows f = s.mendTensor c p := by
  rw [State.mendRows, hc, List.foldl_cons, List.foldl_nil, hp, List.foldl_cons, List.foldl_nil]

end Sys2Proof.Machine

namespace Sys2Proof
open Machine

/-- Settles O28: the opening through what forming a batch leaves, the run and its releases core by core, and the guard through what the
steward's writes leave. -/
theorem swathOpensAndRuns : Obligations.SwathOpensAndRuns := by
  intro t f s hf u shaped
  refine ⟨fun im nb him hplaced hnb hstate hmay hnow => ?opens, fun hphase htick => ?runs, fun id x hid hphase hjoined hx hnow => ?due,
    fun id hid hphase hjoined hx => exec_stileRelease_of_ahead hf hid hphase hjoined hx,
    fun id x hid hphase hjoined hx hnow => ?pass, fun hstate hphase hdrained hnow => ?guard⟩
  case opens =>
    obtain ⟨x, b, hfold⟩ := u.fold_openSwath f nb im hf
    refine ⟨_, exec_swathOpen hf him hplaced hnb hstate hmay hnow, by rw [hfold]; rfl, fun hshaped _ => ?_⟩
    have hnodup : im.clusters.Nodup := by
      have h := hshaped.1
      rwa [State.foldClusters, him] at h
    refine ⟨by rw [hfold]; rfl, by rw [hfold]; rfl, by rw [hfold]; rfl, by rw [hfold]; rfl,
      u.foldState_openSwath f nb im hf (State.state_of_mayOpen hmay), fun q hq => ?_⟩
    have hopened := u.opened_openSwath f nb im hnodup hq
    exact ⟨hopened.count, hopened.tags, hopened.tSwath, fun a _ hwf => ⟨hopened.words hwf a, hopened.staged hwf a⟩⟩
  case runs =>
    refine ⟨_, exec_swathRunStart hf hphase htick, ?_, ?_, .of_clusters (u.clusters_runStart f), fun hshaped q j hq hj =>
      u.core_runStart f hshaped.1 hq hj⟩
    · rw [u.fold_runStart f]
    · rw [u.fold_runStart f]
  case due =>
    have htold := u.told_tellJoin f id
    refine ⟨_, exec_stileRelease_of_due hf hid hphase hjoined hx hnow,
      (SameRows.of_clusters htold.clusters).trans (State.sameRows_releaseStile _ f id x), ?_, ?_, ?_, fun _ => ⟨fun c => ?_, fun q => ?_⟩⟩
    · rw [State.fold_releaseStile, htold.fold, Fold.released]
      dsimp only
      rw [hphase]
    · rw [State.fold_releaseStile]
    · rw [State.fold_releaseStile, htold.fold, Fold.released]
      simp [Map.get]
    · rw [State.core_releaseStile, htold.stileSet, htold.core]
    · rw [State.cluster_releaseStile, htold.stileSet, htold.cluster]
      split <;> rfl
  case pass =>
    refine ⟨_, (exec_stileRelease_of_waiting hf hid hphase hjoined).trans (congrArg _ (State.passStile_of_due hx hnow)),
      State.passCores_frame _ _ _, State.core_passCores _ _ _⟩
  case guard =>
    have hmends := (u.guarded f).mends_mendRows f
    obtain ⟨hguard, hend⟩ := u.fold_mendGuarded f
    refine ⟨_, exec_swathGuardStart hf hstate hphase hdrained hnow, hmends.cores, hguard, hend,
      State.mendRows_of_sound (u.guarded f) f, hmends.rows, fun _ c p a i w r hc hp ha hi hspoiled hclass hopen hw hr => ?_⟩
    rw [State.mendRows_of_single (s := u.guarded f) hc hp]
    exact State.row_mendTensor (u.guarded f) c p ha hi hspoiled hclass hopen hw hr

end Sys2Proof
end

section
/-! SWATH_DRAIN_END (R64 to R66, R162, R363, R471, R472). -/

namespace Sys2Proof.Machine

theorem SameTimes.of_modFold {s t : State} {f : Nat} {g : Fold → Fold} (h : SameTimes (s.modFold f g) t) : SameTimes s t :=
  .of_regs h.time h.regs

/-! ### The commit of a swath leaves OUTPUT entries owed -/

/-- `t` is `s` after work of the scheduler, and fold `f` owes other OUTPUT entries. -/
def State.Closes (f : Nat) (s t : State) : Prop := ∃ o, (s.modFold f (fun x => { x with owed := o })).Grows t

namespace State.Closes
variable {s t u : State} {f : Nat}

theorem of_grows (h : s.Grows t) : s.Closes f t := by
  have hfold : ∀ y, (s.modFold f (fun x => { x with owed := (s.fold f).owed })).fold y = s.fold y := fun y => by
    rw [State.fold_of_modFold]
    split
    next hy => rw [hy]
    next => rfl
  exact ⟨(s.fold f).owed, h.time, h.now, h.regs, h.cores, h.clusters, fun y => (h.folds y).trans (by rw [hfold]),
    fun y => by rw [hfold]; exact h.recorded y, h.out⟩

theorem trans_grows (h : s.Closes f t) (h' : t.Grows u) : s.Closes f u := h.imp fun _ h => h.trans h'

theorem times (h : s.Closes f t) : SameTimes s t := by
  obtain ⟨o, h⟩ := h
  exact .of_regs h.time (fun a ha => h.regs a (.inl ha))

theorem field {β : Type} (h : s.Closes f t) {π : Fold → β} (hπ : ∀ x : Fold, π x = π { x.bare with owed := [] }) :
    π (t.fold f) = π (s.fold f) := by
  obtain ⟨o, h⟩ := h
  have hfold := h.folds f
  rw [State.fold_of_modFold, if_pos rfl] at hfold
  rw [hπ, hfold, hπ (s.fold f)]
  rfl

/-- What the fold owes changes. -/
theorem modOwed (h : s.Closes f t) (g : Fold → List (Nat × Nat × Nat × Bool)) :
    s.Closes f (t.modFold f (fun x => { x with owed := g x })) := by
  obtain ⟨o, h⟩ := h
  refine ⟨g (t.fold f), h.time, h.now, h.regs, h.cores, h.clusters, fun y => ?_, fun y => ?_, h.out⟩
  · have hy := h.folds y
    rw [State.fold_of_modFold] at hy ⊢
    rw [State.fold_of_modFold]
    split
    next heq =>
      rw [if_pos heq, heq] at hy
      exact congrArg (fun x : Fold => { x with owed := g (t.fold f) }) hy
    next hne => rwa [if_neg hne] at hy
  · have hy := h.recorded y
    rw [State.fold_of_modFold] at hy ⊢
    rw [State.fold_of_modFold]
    split
    next heq =>
      rw [if_pos heq, heq] at hy
      exact hy
    next hne => rwa [if_neg hne] at hy

end State.Closes

section
variable {b s : State} {f : Nat}

theorem State.Closes.writeOutput (h : b.Closes f s) (batch : List BatchItem) (jobs : List OutJob) :
    b.Closes f (s.writeOutput f batch jobs) := by
  unfold State.writeOutput
  refine List.foldlRecOn (motive := b.Closes f) _ _ h (fun t ht ep _ => ?_)
  dsimp only
  split
  · obtain ⟨o, ht⟩ := ht
    exact State.Closes.modOwed ⟨o, ht.writeRing f ep jobs⟩ _
  · exact ht

theorem State.closes_commitSwath (s : State) (f : Nat) : s.Closes f (s.commitSwath f) := by
  unfold State.commitSwath
  split
  · exact .of_grows (.refl s)
  next im _ =>
    obtain ⟨o, h⟩ := (State.Closes.of_grows ((Grows.refl s).commitBatch f im (s.fold f).batch)).writeOutput (s.fold f).batch
      (s.commitBatch f im (s.fold f).batch).2
    exact ⟨o, h.modBatch f (fun _ => [])⟩

end

/-! ### The end of drain -/

theorem SamePlan.setBit (s : State) {x : Fld} {u i : Nat} (hx : ¬ scheduled (x.reg.addr u i)) (n : Nat) (on : Bool) :
    SamePlan s (s.setBit x u i n on) := .setFld s hx _

theorem State.samePlan_closureCheck (s : State) (q b : Nat) : SamePlan s (s.closureCheck q b) := by
  have hdrop : ∀ t : State, SamePlan t (t.dropBank q b) := fun t => by
    unfold State.dropBank
    split
    · exact (SamePlan.setBit t (x := .cluBankPowerPowered) (not_scheduled_of_scope (.inr rfl) q 0) b false).trans
        (.of_eq rfl rfl rfl)
    · exact .refl t
  unfold State.closureCheck
  split
  · extract_lets s₁
    have h₁ : SamePlan s s₁ := .of_eq rfl rfl rfl
    exact (h₁.trans (hdrop s₁)).trans (.setBit _ (not_scheduled_of_scope (.inr rfl) _ _) _ _)
  · exact .refl s

theorem State.samePlan_closeDrained (s : State) (f : Nat) : SamePlan s (s.closeDrained f) :=
  .foldl (fun s q => .foldl (fun s b => s.samePlan_closureCheck q b) _ s) _ s

section
variable (s : State) (f x : Nat)

/-- The fold at its end of drain, with its queues gone and its closures in effect. -/
def State.drainedAt : State :=
  let s₁ := (s.setFld Fld.timFoldStatLastDrainTick 0 f (Nat.min (x - (s.fold f).tick0) (2 ^ 27 - 1))).setFld
    Fld.timFoldStatLastSwath 0 f (s.fold f).swath
  let s₂ := (s₁.foldClusters f).foldl (fun (s : State) q => s.modCluster q (fun c => { c with queues := [] })) s₁
  (s₂.closeDrained f).modFold f (fun y => { y with
    drainAt := x, drained := true, phase := .drain, nextBeat := y.edgeBeat + s₂.period f, formed := false,
    lateFor := none })

/-- The swath is committed or thrown away (R66, R363). -/
def State.closeSwath : State := if (s.fold f).failed then s.failSwath f (some stDeadline) else s.commitSwath f

theorem State.closes_closeSwath : s.Closes f (s.closeSwath f) := by
  unfold State.closeSwath
  split
  · exact .of_grows ((Grows.refl s).failSwath f _)
  · exact s.closes_commitSwath f

/-- The fold at its end of drain, with its next boundary. -/
def State.boundedAt : State :=
  if (s.drainedAt f x).nominalGuard f < x then (s.drainedAt f x).overrun65 f x else s.drainedAt f x

theorem State.endDrain_eq : s.endDrain f x =
    if ((s.boundedAt f x).closeSwath f).foldState f = foldStopping then
      (if ((s.boundedAt f x).closeSwath f).restore.standbyFolds.contains f then (s.boundedAt f x).closeSwath f
        else ((s.boundedAt f x).closeSwath f).setFld Fld.timFoldCfgEnable 0 f 0).toIdle f
    else ((s.boundedAt f x).closeSwath f).tryForm f := rfl

end

/-! ### What the end of drain leaves of the fold and of its registers -/

theorem counted_timFoldStat {f : Nat} (hf : f < 256) : counted (Reg.timFoldStat.addr 0 f) := by
  simp only [counted, Reg.addr, Reg.place, Scope.origin]
  omega

theorem counted_timFoldCnt {f : Nat} (hf : f < 256) : counted (Reg.timFoldCnt.addr 0 f) := by
  simp only [counted, Reg.addr, Reg.place, Scope.origin]
  omega

theorem timFoldCnt_addr_ne_stat (f : Nat) : Reg.timFoldCnt.addr 0 f ≠ Reg.timFoldStat.addr 0 f := by
  simp only [Reg.addr, Reg.place, Scope.origin]
  omega

theorem timFoldStat_addr_ne_winStat {f : Nat} (hf : f < 256) : Reg.timFoldStat.addr 0 f ≠ Reg.lnkWinStat.addr 0 0 := by
  simp only [Reg.addr, Reg.place, Scope.origin]
  omega

/-- The boundary that follows the guard of a drain that ended late, at tick `x` (R65). -/
def State.lateBoundary (s : State) (f x : Nat) : Nat := s.boundaryFrom f (s.beatFrom (x + s.guardBeats f * s.beatTicks))

/-- The boundaries that are passed then. -/
def State.skippedAt (s : State) (f x : Nat) : Nat := (s.lateBoundary f x - (s.fold f).edgeBeat) / s.period f - 1

/-- `t` is `s` after the drain of fold `f` ended at tick `x` (R64 to R66). -/
structure State.Ended (f x : Nat) (s t : State) : Prop where
  grid : SameGrid s t
  state : t.foldState f = s.foldState f
  lastSwath : t.fld Fld.timFoldStatLastSwath 0 f = (s.fold f).swath % 2 ^ 32
  lastDrainTick : t.fld Fld.timFoldStatLastDrainTick 0 f = Nat.min (x - (s.fold f).tick0) (2 ^ 27 - 1)
  phase : (t.fold f).phase = .drain
  drained : (t.fold f).drained = true
  drainAt : (t.fold f).drainAt = x
  swath : (t.fold f).swath = (s.fold f).swath
  next : if s.nominalGuard f < x then
      (t.fold f).nextBeat = s.lateBoundary f x ∧
      (t.fold f).late = (s.fld Fld.timFoldCfgLagPolicy 0 f == 0) ∧ (t.fold f).failed = (s.fld Fld.timFoldCfgLagPolicy 0 f == 1) ∧
      t.fld Fld.timFoldCntOverrunCount 0 f = Nat.min (s.fld Fld.timFoldCntOverrunCount 0 f + 1) (2 ^ 32 - 1) ∧
      t.fld Fld.timFoldCntSkippedCount 0 f = Nat.min (s.fld Fld.timFoldCntSkippedCount 0 f + s.skippedAt f x) (2 ^ 32 - 1)
    else (t.fold f).nextBeat = (s.fold f).edgeBeat + s.period f ∧ (t.fold f).late = (s.fold f).late

/-- It stays so in what the scheduler does then. -/
theorem State.Ended.of_closes {f x : Nat} {s t u : State} (h : s.Ended f x t) (hf : f < 256) (h' : t.Closes f u) :
    s.Ended f x u := by
  have htimes := h'.times
  have hnext : (u.fold f).nextBeat = (t.fold f).nextBeat := h'.field (fun _ => rfl)
  have hlate : (u.fold f).late = (t.fold f).late := h'.field (fun _ => rfl)
  have hfailed : (u.fold f).failed = (t.fold f).failed := h'.field (fun _ => rfl)
  exact {
    grid := h.grid.trans htimes.toSameGrid
    state := (htimes.foldState hf).trans h.state
    lastSwath := (htimes.stat hf rfl).trans h.lastSwath
    lastDrainTick := (htimes.stat hf rfl).trans h.lastDrainTick
    phase := (h'.field (π := Fold.phase) (fun _ => rfl)).trans h.phase
    drained := (h'.field (π := Fold.drained) (fun _ => rfl)).trans h.drained
    drainAt := (h'.field (π := Fold.drainAt) (fun _ => rfl)).trans h.drainAt
    swath := (h'.field (π := Fold.swath) (fun _ => rfl)).trans h.swath
    next := by
      rw [hnext, hlate, hfailed, htimes.cnt (x := .timFoldCntOverrunCount) hf rfl,
        htimes.cnt (x := .timFoldCntSkippedCount) hf rfl]
      exact h.next }

/-! ### `State.overrun65` -/

section
variable (s : State) {f : Nat} (x : Nat)

/-- The overrun is counted. -/
def State.countOverrun (s : State) (f n : Nat) : State :=
  (s.bump Fld.timFoldCntOverrunCount 0 f).bumpBy Fld.timFoldCntSkippedCount 0 f n

theorem State.overrun65_eq : ∃ t, (s.countOverrun f (s.skippedAt f x)).Grows t ∧ s.overrun65 f x = t.modFold f (fun y => { y with
    nextBeat := s.lateBoundary f x, late := t.fld Fld.timFoldCfgLagPolicy 0 f == 0,
    failed := t.fld Fld.timFoldCfgLagPolicy 0 f == 1 }) :=
  ⟨_, (Grows.refl _).report _ _ _ _, rfl⟩

theorem State.fold_countOverrun (n y : Nat) : (s.countOverrun f n).fold y = s.fold y := by
  rw [State.countOverrun, State.bumpBy, State.fold_of_setFld, State.bump, State.bumpBy, State.fold_of_setFld]

theorem State.sameGrid_countOverrun (hf : f < 256) (n : Nat) : SameGrid s (s.countOverrun f n) :=
  (SameGrid.setFld s (x := .timFoldCntOverrunCount) (counted_timFoldCnt hf) _).trans
    (.setFld _ (x := .timFoldCntSkippedCount) (counted_timFoldCnt hf) _)

theorem State.stat_countOverrun (n : Nat) {y : Fld} (hy : y.reg = .timFoldStat) :
    (s.countOverrun f n).fld y 0 f = s.fld y 0 f := by
  have hne : y.reg.addr 0 f ≠ Reg.timFoldCnt.addr 0 f := hy ▸ (timFoldCnt_addr_ne_stat f).symm
  rw [State.countOverrun, State.bump, State.bumpBy, State.fld_setFld_ne _ Fld.timFoldCntSkippedCount _ _ _ _ _ _ hne, State.bumpBy,
    State.fld_setFld_ne _ Fld.timFoldCntOverrunCount _ _ _ _ _ _ hne]

theorem State.cnt_countOverrun (n : Nat) :
    (s.countOverrun f n).fld Fld.timFoldCntOverrunCount 0 f =
      Nat.min (s.fld Fld.timFoldCntOverrunCount 0 f + 1) (2 ^ 32 - 1) ∧
    (s.countOverrun f n).fld Fld.timFoldCntSkippedCount 0 f =
      Nat.min (s.fld Fld.timFoldCntSkippedCount 0 f + n) (2 ^ 32 - 1) := by
  constructor
  · rw [State.countOverrun, State.bumpBy,
      State.fld_setFld_beside _ Fld.timFoldCntSkippedCount Fld.timFoldCntOverrunCount _ _ _ rfl (by decide) (by decide),
      State.fld_bump _ _ _ _ (by decide)]
    rfl
  · rw [State.countOverrun, State.fld_bumpBy _ _ _ _ _ (by decide), State.bump, State.bumpBy,
      State.fld_setFld_beside _ Fld.timFoldCntOverrunCount Fld.timFoldCntSkippedCount _ _ _ rfl (by decide) (by decide)]
    rfl

end

/-! ### `State.endDrain` -/

section
variable (s : State) {f : Nat} (x : Nat) (hf : f < 256)

/-- The registers that show the end of drain. -/
def State.showDrain (s : State) (f x : Nat) : State :=
  (s.setFld Fld.timFoldStatLastDrainTick 0 f (Nat.min (x - (s.fold f).tick0) (2 ^ 27 - 1))).setFld
    Fld.timFoldStatLastSwath 0 f (s.fold f).swath

theorem State.fold_showDrain (y : Nat) : (s.showDrain f x).fold y = s.fold y := by
  rw [State.showDrain, State.fold_of_setFld, State.fold_of_setFld]

include hf in
theorem State.sameGrid_showDrain : SameGrid s (s.showDrain f x) :=
  (SameGrid.setFld s (x := .timFoldStatLastDrainTick) (counted_timFoldStat hf) _).trans
    (.setFld _ (x := .timFoldStatLastSwath) (counted_timFoldStat hf) _)

theorem State.stat_showDrain : (s.showDrain f x).foldState f = s.foldState f ∧
    (s.showDrain f x).fld Fld.timFoldStatLastSwath 0 f = (s.fold f).swath % 2 ^ 32 ∧
    (s.showDrain f x).fld Fld.timFoldStatLastDrainTick 0 f = Nat.min (x - (s.fold f).tick0) (2 ^ 27 - 1) := by
  refine ⟨?_, State.fld_setFld _ _ _ _ _ (by decide), ?_⟩
  · rw [State.foldState, State.foldState, State.showDrain,
      State.fld_setFld_beside _ Fld.timFoldStatLastSwath Fld.timFoldStatState _ _ _ rfl (by decide) (by decide),
      State.fld_setFld_beside _ Fld.timFoldStatLastDrainTick Fld.timFoldStatState _ _ _ rfl (by decide) (by decide)]
  · rw [State.showDrain,
      State.fld_setFld_beside _ Fld.timFoldStatLastSwath Fld.timFoldStatLastDrainTick _ _ _ rfl (by decide) (by decide),
      State.fld_setFld _ _ _ _ _ (by decide)]
    exact Nat.mod_eq_of_lt (Nat.lt_of_le_of_lt (Nat.min_le_right _ _) (by decide))

theorem State.cnt_showDrain {y : Fld} (hy : y.reg = .timFoldCnt) : (s.showDrain f x).fld y 0 f = s.fld y 0 f := by
  have hne : y.reg.addr 0 f ≠ Reg.timFoldStat.addr 0 f := hy ▸ timFoldCnt_addr_ne_stat f
  rw [State.showDrain, State.fld_setFld_ne _ Fld.timFoldStatLastSwath _ _ _ _ _ _ hne,
    State.fld_setFld_ne _ Fld.timFoldStatLastDrainTick _ _ _ _ _ _ hne]

include hf

/-- The queues of the fold go, and its closures take effect. -/
theorem State.drainedAt_eq : ∃ t, SamePlan (s.showDrain f x) t ∧ s.drainedAt f x = t.modFold f (fun y => { y with
    drainAt := x, drained := true, phase := .drain, nextBeat := y.edgeBeat + s.period f, formed := false, lateFor := none }) := by
  unfold State.drainedAt
  extract_lets s₁ s₂
  have h₂ : SamePlan s₁ s₂ := by
    refine .foldl (fun _ _ => ?_) _ _
    exact .of_eq rfl rfl rfl
  have hperiod : s₂.period f = s.period f := ((s.sameGrid_showDrain x hf).trans h₂.toSameGrid).period hf
  rw [hperiod]
  exact ⟨_, h₂.trans (s₂.samePlan_closeDrained f), rfl⟩

theorem State.fold_drainedAt : (s.drainedAt f x).fold f = { s.fold f with
    drainAt := x, drained := true, phase := .drain, nextBeat := (s.fold f).edgeBeat + s.period f, formed := false,
    lateFor := none } := by
  obtain ⟨t, ht, heq⟩ := s.drainedAt_eq x hf
  rw [heq, State.fold_of_modFold, if_pos rfl, ht.fold, State.fold_showDrain]

theorem State.times_drainedAt : SameTimes (s.showDrain f x) (s.drainedAt f x) := by
  obtain ⟨t, ht, heq⟩ := s.drainedAt_eq x hf
  rw [heq]
  exact ht.toSameTimes.trans (.of_eq rfl rfl)

theorem State.ended_boundedAt : s.Ended f x (s.boundedAt f x) := by
  have hfold := s.fold_drainedAt x hf
  have htimes := s.times_drainedAt x hf
  have hgrid : SameGrid s (s.drainedAt f x) := (s.sameGrid_showDrain x hf).trans htimes.toSameGrid
  have hguard : (s.drainedAt f x).nominalGuard f = s.nominalGuard f := hgrid.nominalGuard hf (by rw [hfold])
  obtain ⟨hstate, hswath, htick⟩ := s.stat_showDrain (f := f) x
  have hstate' := (htimes.foldState hf).trans hstate
  have hswath' := (htimes.stat (x := .timFoldStatLastSwath) hf rfl).trans hswath
  have htick' := (htimes.stat (x := .timFoldStatLastDrainTick) hf rfl).trans htick
  have hcnt : ∀ {y : Fld}, y.reg = .timFoldCnt → (s.drainedAt f x).fld y 0 f = s.fld y 0 f := fun hy =>
    (htimes.cnt hf hy).trans (s.cnt_showDrain x hy)
  have hbeat : ((s.drainedAt f x).fold f).edgeBeat = (s.fold f).edgeBeat := by rw [hfold]
  have hnb : (s.drainedAt f x).lateBoundary f x = s.lateBoundary f x := by
    rw [State.lateBoundary, State.lateBoundary, hgrid.boundaryFrom hf, hgrid.beatFrom, hgrid.guardBeats hf, hgrid.beatTicks]
  have hskip : (s.drainedAt f x).skippedAt f x = s.skippedAt f x := by
    rw [State.skippedAt, State.skippedAt, hnb, hbeat, hgrid.period hf]
  unfold State.boundedAt
  rw [hguard]
  generalize s.drainedAt f x = t at hfold hgrid hstate' hswath' htick' hcnt hnb hskip ⊢
  split
  next hlate =>
    obtain ⟨u, hu, heq⟩ := t.overrun65_eq (f := f) x
    have hutimes := hu.times
    have hugrid := hgrid.trans ((t.sameGrid_countOverrun hf _).trans hutimes.toSameGrid)
    have hustat : ∀ {y : Fld}, y.reg = .timFoldStat → u.fld y 0 f = t.fld y 0 f := fun hy =>
      (hutimes.stat hf hy).trans (t.stat_countOverrun _ hy)
    have hlag : u.fld Fld.timFoldCfgLagPolicy 0 f = s.fld Fld.timFoldCfgLagPolicy 0 f := hugrid.cfg hf rfl
    have hufold : ∀ {β : Type} {π : Fold → β}, (∀ x : Fold, π x = π x.bare) → π (u.fold f) = π (t.fold f) := fun hπ =>
      (hu.field hπ f).trans (by rw [State.fold_countOverrun])
    obtain ⟨hover, hskipped⟩ := t.cnt_countOverrun (f := f) (t.skippedAt f x)
    have hover' : u.fld Fld.timFoldCntOverrunCount 0 f = _ := (hutimes.cnt hf rfl).trans hover
    have hskipped' : u.fld Fld.timFoldCntSkippedCount 0 f = _ := (hutimes.cnt hf rfl).trans hskipped
    have hout : (u.modFold f (fun y => { y with
        nextBeat := t.lateBoundary f x, late := u.fld Fld.timFoldCfgLagPolicy 0 f == 0,
        failed := u.fld Fld.timFoldCfgLagPolicy 0 f == 1 })).fold f = _ := (u.fold_of_modFold f _ f).trans (if_pos rfl)
    rw [heq]
    refine ⟨hugrid.trans (.of_eq rfl rfl), (hustat rfl).trans hstate', (hustat rfl).trans hswath', (hustat rfl).trans htick',
      ?_, ?_, ?_, ?_, ?_⟩
    · rw [hout, hufold (π := Fold.phase) (fun _ => rfl), hfold]
    · rw [hout, hufold (π := Fold.drained) (fun _ => rfl), hfold]
    · rw [hout, hufold (π := Fold.drainAt) (fun _ => rfl), hfold]
    · rw [hout, hufold (π := Fold.swath) (fun _ => rfl), hfold]
    · rw [if_pos hlate, hout]
      refine ⟨hnb, by rw [hlag], by rw [hlag], hover'.trans ?_, hskipped'.trans ?_⟩
      · rw [hcnt rfl]
      · rw [hcnt rfl, hskip]
  next hlate =>
    exact ⟨hgrid, hstate', hswath', htick', by rw [hfold], by rw [hfold], by rw [hfold], by rw [hfold], by
      rw [if_neg hlate, hfold]
      exact ⟨rfl, rfl⟩⟩

theorem State.ended_endDrain (hrun : s.foldState f = foldRunning) : s.Ended f x (s.endDrain f x) := by
  have h := (s.ended_boundedAt x hf).of_closes hf (State.closes_closeSwath _ f)
  have hstate : ((s.boundedAt f x).closeSwath f).foldState f ≠ foldStopping := by
    rw [h.state, hrun]
    decide
  rw [State.endDrain_eq, if_neg hstate]
  exact h.of_closes hf (.of_grows ((Grows.refl _).tryForm f))

end

/-! ### The block (R471, R472) -/

/-- What telling the block leaves of the fold. -/
structure State.DrainTold (f : Nat) (s t : State) : Prop where
  times : SameTimes s t
  fold : t.fold f = { s.fold f with drainAt := (t.fold f).drainAt, relayed := (t.fold f).relayed }

section
variable (s : State) (f : Nat)

/-- The fold's own end of drain is told to its block. -/
def State.tellDrain : State :=
  (s.modFold f (fun x => { x with drainAt := s.now, relayed := (s.ownCoord, 1, (s.fold f).swath, 0, 0) :: x.relayed })).sendMarker
    f 1 0 0

theorem State.drainHere_of_multi (h : s.multi f = true) : s.drainHere f =
    if (s.fold f).relayed.contains (s.ownCoord, 1, (s.fold f).swath, 0, 0) then s.endDrainBlock f
    else (s.tellDrain f).endDrainBlock f := by
  rw [State.drainHere, if_pos h]
  rfl

theorem State.sends_tellDrain : (s.modFold f (fun x => { x with
    drainAt := s.now, relayed := (s.ownCoord, 1, (s.fold f).swath, 0, 0) :: x.relayed })).Sends (s.tellDrain f) :=
  State.sends_sendMarker _ f 1 0 0

theorem State.fold_tellDrain : (s.tellDrain f).fold f = { s.fold f with
    drainAt := s.now, relayed := (s.ownCoord, 1, (s.fold f).swath, 0, 0) :: (s.fold f).relayed } :=
  ((s.sends_tellDrain f).fold f).trans ((s.fold_of_modFold f _ f).trans (if_pos rfl))

theorem State.drainTold_tellDrain : s.DrainTold f (s.tellDrain f) :=
  ⟨.of_modFold (s.sends_tellDrain f).sameTimes, by rw [s.fold_tellDrain]⟩

theorem State.marker_mem_tellDrain : Out.marker f 1 0 0 (s.fold f).swath s.ns ∈ (s.tellDrain f).out := by
  have h := State.marker_mem_sendMarker (s.modFold f (fun x => { x with
    drainAt := s.now, relayed := (s.ownCoord, 1, (s.fold f).swath, 0, 0) :: x.relayed })) f 1 0 0
  rw [State.fold_of_modFold, if_pos rfl] at h
  exact h

end

section
variable {s t : State} {f : Nat} (hf : f < 256)
include hf

theorem State.DrainTold.markersOf (h : s.DrainTold f t) : t.markersOf f 1 (fun m => m.swath == (t.fold f).swath) =
    s.markersOf f 1 (fun m => m.swath == (s.fold f).swath) := by
  have hswath : (t.fold f).swath = (s.fold f).swath := by rw [h.fold]
  rw [hswath, h.times.markersOf hf (by rw [h.fold]) (by rw [h.fold])]

/-- What a block leaves of its fold once every DRAINED marker is here: the end of drain, whatever the tick. -/
structure State.BlockEnded (f : Nat) (s t : State) : Prop where
  grid : SameGrid s t
  lastSwath : t.fld Fld.timFoldStatLastSwath 0 f = (s.fold f).swath % 2 ^ 32
  phase : (t.fold f).phase = .drain
  drained : (t.fold f).drained = true
  swath : (t.fold f).swath = (s.fold f).swath

theorem State.blockEnded_endDrainBlock {ms : List (Nat × Marker)} (hrun : s.foldState f = foldRunning)
    (hms : s.markersOf f 1 (fun m => m.swath == (s.fold f).swath) = some ms) : s.BlockEnded f (s.endDrainBlock f) := by
  unfold State.endDrainBlock
  rw [hms]
  dsimp only
  generalize (ms.map _).foldl _ _ = x
  have h := s.ended_endDrain x hf hrun
  generalize s.endDrain f x = t at h ⊢
  split
  · have hr := (Grows.refl t).report (srcHub (t.rootLea f) (some f)) 0x6011 (t.blockTag f) (t.swathNumber f (t.fold f).nextBeat)
    generalize t.report _ 0x6011 _ _ = r at hr ⊢
    have hgrid : SameGrid r (r.bump Fld.lnkWinStatMarkerLate 0 0) := .setFld r (x := .lnkWinStatMarkerLate) (.inr rfl) _
    have hswath : (r.bump Fld.lnkWinStatMarkerLate 0 0).fld Fld.timFoldStatLastSwath 0 f = r.fld Fld.timFoldStatLastSwath 0 f :=
      State.fld_setFld_ne _ _ _ _ _ _ _ _ (timFoldStat_addr_ne_winStat hf)
    have hfold : (r.bump Fld.lnkWinStatMarkerLate 0 0).fold f = r.fold f := State.fold_of_setFld _ _ _ _ _ _
    generalize r.bump Fld.lnkWinStatMarkerLate 0 0 = v at hgrid hswath hfold ⊢
    have hout := fun g => (v.fold_of_modFold f g f).trans (if_pos rfl)
    refine ⟨((h.grid.trans hr.times.toSameGrid).trans hgrid).trans (.of_eq rfl rfl),
      (hswath.trans (hr.times.stat hf rfl)).trans h.lastSwath, ?_, ?_, ?_⟩
    · rw [hout, hfold, hr.field (π := Fold.phase) (fun _ => rfl), h.phase]
    · rw [hout, hfold, hr.field (π := Fold.drained) (fun _ => rfl), h.drained]
    · rw [hout, hfold, hr.field (π := Fold.swath) (fun _ => rfl), h.swath]
  · exact ⟨h.grid, h.lastSwath, h.phase, h.drained, h.swath⟩

/-- Every DRAINED marker is here, its own being sent first where it was not. -/
theorem State.blockEnded_drainHere {ms : List (Nat × Marker)} (hrun : s.foldState f = foldRunning) (hmulti : s.multi f = true)
    (hms : s.markersOf f 1 (fun m => m.swath == (s.fold f).swath) = some ms) : s.BlockEnded f (s.drainHere f) := by
  rw [s.drainHere_of_multi f hmulti]
  split
  · exact State.blockEnded_endDrainBlock hf hrun hms
  · have htold := s.drainTold_tellDrain f
    have h := State.blockEnded_endDrainBlock hf ((htold.times.foldState hf).trans hrun) ((htold.markersOf hf).trans hms)
    have hswath : ((s.tellDrain f).fold f).swath = (s.fold f).swath := by rw [htold.fold]
    exact ⟨htold.times.toSameGrid.trans h.grid, by rw [h.lastSwath, hswath], h.phase, h.drained, by rw [h.swath, hswath]⟩

/-- A DRAINED marker is missing: the fold's own goes out. -/
theorem State.drainHere_of_missing (hmulti : s.multi f = true)
    (hms : s.markersOf f 1 (fun m => m.swath == (s.fold f).swath) = none)
    (htold : (s.fold f).relayed.contains (s.ownCoord, 1, (s.fold f).swath, 0, 0) = false) : s.drainHere f = s.tellDrain f := by
  rw [s.drainHere_of_multi f hmulti, if_neg (by rw [htold]; decide), State.endDrainBlock,
    ((s.drainTold_tellDrain f).markersOf hf).trans hms]

end

/-! ### The command -/

theorem State.settle_of_active {s t : State} (h : SameGrid s t) (hactive : s.lpState = lpActive) : t.settle = t := by
  rw [State.settle, if_pos (h.lpState.trans hactive)]

theorem exec_swathDrainEnd {t f : Nat} {s : State} (hf : f < 256) (hmay : (s.at t).mayDrain f = true) :
    exec (.swathDrainEnd t f) s = .next (((s.at t).drainHere f).settle) := by
  show onUnit (validFold f) (whenever _ _ _) = _
  rw [whenever_of_true hmay, onUnit, validFold, if_pos (decide_eq_true hf)]

theorem State.drained_of_mayDrain {s : State} {f : Nat} (h : s.mayDrain f = true) : (s.fold f).drained = false := by
  simp only [State.mayDrain, Bool.and_eq_true, Bool.not_eq_true'] at h
  obtain ⟨⟨⟨_, h⟩, _⟩, _⟩ := h
  exact h

end Sys2Proof.Machine
end

section
/-! OUTPUT_ENTRY (R385 to R387, R433) and the finals of items (R431, R432, R436). -/

namespace Sys2Proof.Machine

/-! ### Entries of a completion ring -/

section
variable (s : State) (ep : Nat) (x : CEntry)

/-- A completion entry at its place in the ring. -/
def State.placeEntry : CEntry :=
  { x with
    c := (s.endpoint ep).nextCmp, floor := (s.endpoint ep).floorAt (s.endpoint ep).nextCmp
    phase := seqSub (s.endpoint ep).nextCmp (s.endpoint ep).first / (s.endpoint ep).cmpSize % 2 == 1 }

theorem State.entry_mem_writeEntry : Out.entry ep (s.placeEntry ep x) ∈ (s.writeEntry ep x).out := List.mem_cons_self

theorem State.items_writeEntry : ((s.writeEntry ep x).endpoint ep).items = (s.endpoint ep).items := by
  unfold State.writeEntry
  extract_lets e c x'
  rw [State.endpoint_of_send, State.endpoint_of_modEndpoint, if_pos rfl]

theorem State.entry_writeEntry (g : Nat) : (s.writeEntry ep x).entry g = s.entry g := by
  unfold State.writeEntry
  rw [State.entry_of_send, State.entry_of_modEndpoint]

theorem State.fold_writeEntry (f : Nat) : (s.writeEntry ep x).fold f = s.fold f := by
  unfold State.writeEntry
  rw [State.fold_of_send, State.fold_of_modEndpoint]

end

/-! ### OUTPUT_ENTRY -/

theorem State.Grows.failOutput {b s : State} (h : b.Grows s) (ep g : Nat) : b.Grows (s.failOutput ep g) := by
  unfold State.failOutput
  split
  next m _ => exact .ite ((h.modItem ep m.byItem _).settleEntry g) h
  next => exact h

section
variable (s : State) (f ep streams swath : Nat) (late : Bool) (bad : List Nat)

/-- The streams of the fold whose output could not be written. -/
def State.badOf : List Nat := bad.filter (fun g => (s.entry g).fold == f)

/-- Their items have failed. -/
def State.failOutputs : State := (s.badOf f bad).foldl (fun (s : State) g => s.failOutput ep g) s

/-- The OUTPUT entry. -/
def State.outputOf : CEntry := (s.failOutputs f ep bad).placeEntry ep
  (entryOf 4 (if late then stLate else stOk) 0 0 0xFFFFFFFF swath (streams - (s.badOf f bad).length))

theorem State.grows_failOutputs : s.Grows (s.failOutputs f ep bad) := (Grows.refl s).foldl fun _ _ h => h.failOutput ep _

/-- The entry is out, and the fold owes it no more. -/
theorem State.outputEntry_spec : Out.entry ep (s.outputOf f ep streams swath late bad) ∈ (s.outputEntry f ep streams swath late bad).out ∧
    ((s.outputEntry f ep streams swath late bad).fold f).owed =
      (s.fold f).owed.filter (fun o => !(o.1 == ep && o.2.2.1 == swath)) := by
  have hfail := s.grows_failOutputs f ep bad
  have howed : ((s.failOutputs f ep bad).fold f).owed = (s.fold f).owed := hfail.field (fun _ => rfl) f
  have hout := (s.failOutputs f ep bad).entry_mem_writeEntry ep
    (entryOf 4 (if late then stLate else stOk) 0 0 0xFFFFFFFF swath (streams - (s.badOf f bad).length))
  unfold State.outputEntry
  extract_lets badOf s₁ s₂ s₃ s₄
  have h₂ : (s₂.fold f).owed = (s.fold f).owed := by
    rw [State.fold_writeEntry]
    exact howed
  have hout₂ : Out.entry ep (s.outputOf f ep streams swath late bad) ∈ s₂.out := hout
  clear_value s₂
  have h₄ : (s₄.fold f).owed = (s.fold f).owed.filter (fun o => !(o.1 == ep && o.2.2.1 == swath)) := by
    rw [← h₂, State.fold_of_modFold, if_pos rfl]
    rfl
  have hgrows : s₄.Grows ((s₄.flushFinals ep).tryForm f) := ((Grows.refl s₄).flushFinals ep).tryForm f
  exact ⟨hgrows.out.subset hout₂, (hgrows.field (fun _ => rfl) f).trans h₄⟩

theorem State.c_outputOf (h : bad = []) : (s.outputOf f ep streams swath late bad).c = (s.endpoint ep).nextCmp := by
  subst h
  rfl

end

theorem exec_outputEntry {t f ep streams swath : Nat} {late : Bool} {bad : List Nat} {s : State} (hf : f < 256) (hep : ep < 4096)
    (howed : ((s.at t).fold f).owed.find? (fun o => o.1 == ep) = some (ep, streams, swath, late))
    (hattached : ((s.at t).endpoint ep).attached = true) :
    exec (.outputEntry t f ⟨ep, bad⟩) s = .next ((s.at t).outputEntry f ep streams swath late bad) := by
  show onUnit (validFold f && validEp ep) (match ((s.at t).fold f).owed.find? (fun o => o.1 == ep) with
    | some (_, streams, swath, late) =>
      whenever ((s.at t).endpoint ep).attached (fun s => s.outputEntry f ep streams swath late bad) (s.at t)
    | none => s.at t) = _
  rw [howed]
  dsimp only
  rw [whenever_of_true hattached, onUnit, validFold, validEp, decide_eq_true hf, decide_eq_true hep, Bool.and_self, if_pos rfl]

/-! ### The final of an item -/

section
variable {s : State} {ep seq : Nat} {i : Item} {st sw hd : Nat}

theorem State.entry_mem_finish (r : Bool) (hi : s.item ep seq = some i) (hfin : i.fin = some (st, sw, hd))
    (hmay : (s.endpoint ep).mayFinish i = true) :
    ∃ x, Out.entry ep x ∈ (s.finish ep seq r).out ∧ x.kind = 2 ∧ x.status = st ∧ x.seq = i.seq := by
  unfold State.finish
  rw [hi]
  dsimp only
  rw [hfin]
  dsimp only
  rw [if_neg (not_not.mpr hmay)]
  have hmem := (s.modEndpoint ep (fun e => { e with items := e.items.filter (fun j => j.seq != seq) })).entry_mem_writeEntry ep
    { entryOf 2 st i.opcode i.seq hd sw i.value with replayed := r }
  split
  · exact ⟨_, hmem, rfl, rfl, rfl⟩
  · exact ⟨_, hmem, rfl, rfl, rfl⟩

/-- A final that is written takes its item out of the list, and changes no fold of an entry. -/
theorem State.finish_leaves (s : State) (ep seq : Nat) (r : Bool) :
    ((((s.finish ep seq r).endpoint ep).items = (s.endpoint ep).items) ∨
      ((s.finish ep seq r).endpoint ep).items = (s.endpoint ep).items.filter (fun j => j.seq != seq)) ∧
    ∀ g, ((s.finish ep seq r).entry g).fold = (s.entry g).fold := by
  unfold State.finish
  split
  · exact ⟨.inl rfl, fun _ => rfl⟩
  · split
    · exact ⟨.inl rfl, fun _ => rfl⟩
    · split
      · exact ⟨.inl rfl, fun _ => rfl⟩
      · extract_lets s₁ c x s₂
        have hitems : (s₂.endpoint ep).items = (s.endpoint ep).items.filter (fun j => j.seq != seq) := by
          rw [State.items_writeEntry, State.endpoint_of_modEndpoint, if_pos rfl]
        have hfold : ∀ g, (s₂.entry g).fold = (s.entry g).fold := fun g => by
          rw [State.entry_writeEntry, State.entry_of_modEndpoint]
        clear_value s₂
        split
        · refine ⟨.inr hitems, fun g => ?_⟩
          rw [State.entry_of_modEntry]
          split
          next hg =>
            rw [hg, ← hfold]
            split <;> rfl
          next => exact hfold g
        · exact ⟨.inr hitems, hfold⟩

/-- An item whose final is decided and may be written, and stands behind no OUTPUT entry. -/
structure State.Finishable (s : State) (ep seq : Nat) (i : Item) : Prop where
  item : s.item ep seq = some i
  may : (s.endpoint ep).mayFinish i = true
  behind : s.behindOutput ep i = false

theorem State.behindOutput_congr {s t : State} (howed : ∀ g, (t.fold g).owed = (s.fold g).owed)
    (hfold : ∀ g, (t.entry g).fold = (s.entry g).fold) (ep : Nat) (i : Item) : t.behindOutput ep i = s.behindOutput ep i := by
  simp only [State.behindOutput, howed, hfold]

theorem State.Finishable.finish (h : s.Finishable ep seq i) {n : Nat} (hn : n ≠ seq) (r : Bool) :
    (s.finish ep n r).Finishable ep seq i := by
  obtain ⟨hitems, hfold⟩ := s.finish_leaves ep n r
  have howed : ∀ g, ((s.finish ep n r).fold g).owed = (s.fold g).owed :=
    ((Grows.refl s).finish ep n r).field (π := Fold.owed) (fun _ => rfl)
  have hbehind := (State.behindOutput_congr howed hfold ep i).trans h.behind
  rcases hitems with hitems | hitems
  · exact ⟨by rw [State.item, hitems]; exact h.item, by rw [Endpoint.mayFinish, hitems]; exact h.may, hbehind⟩
  · refine ⟨?_, ?_, hbehind⟩
    · rw [State.item, hitems, List.find?_filter, ← h.item, State.item]
      refine List.find?_congr (fun j _ => ?_)
      by_cases hj : j.seq = seq
      · simp [hj, hn.symm]
      · simp [hj]
    · have hmay := h.may
      rw [Endpoint.mayFinish] at hmay ⊢
      rw [hitems, List.all_eq_true] at *
      exact fun j hj => hmay j (List.mem_filter.mp hj).1

/-- Its final is written when its turn comes. -/
theorem State.Finishable.entry_mem_flushFinals (h : s.Finishable ep seq i) (hfin : i.fin = some (st, sw, hd)) :
    ∃ x, Out.entry ep x ∈ (s.flushFinals ep).out ∧ x.kind = 2 ∧ x.status = st ∧ x.seq = i.seq := by
  obtain ⟨hseq, l₁, l₂, hl, hfirst⟩ := List.find?_eq_some_iff_append.mp h.item
  have hseq : i.seq = seq := by simpa using hseq
  rw [State.flushFinals, hl, List.foldl_append, List.foldl_cons]
  have hbefore : ∀ j ∈ l₁, j.seq ≠ seq := fun j hj => by simpa using hfirst j hj
  have h₁ := List.foldlRecOn (motive := fun t : State => t.Finishable ep seq i) l₁
    (fun (s : State) j => if s.behindOutput ep j then s else s.finish ep j.seq false) h (fun t ht j hj => by
      split
      · exact ht
      · exact ht.finish (hbefore j hj) false)
  generalize l₁.foldl _ s = t at h₁ ⊢
  rw [if_neg (by rw [h₁.behind]; decide), hseq]
  obtain ⟨x, hx, hkind, hstatus, hxseq⟩ := State.entry_mem_finish false h₁.item hfin h₁.may
  have hrest := (Grows.refl (t.finish ep seq false)).foldl (l := l₂)
    (g := fun (s : State) j => if s.behindOutput ep j then s else s.finish ep j.seq false) fun _ j h => .ite h (h.finish ep j.seq false)
  exact ⟨x, hrest.out.subset hx, hkind, hstatus, hxseq.trans hseq⟩

end

end Sys2Proof.Machine
end

section
/-! STILE_TIMEOUT (R67, R371, R472, R504): the swath that fails, and the final of an item of it. -/

namespace Sys2Proof.Machine

/-! ### The final of an item that is decided at once -/

section
variable {s : State} {ep seq : Nat} {i : Item} {st sw : Nat}

/-- An item whose final is decided. -/
def Item.decided (i : Item) (st sw : Nat) : Item := { i with fin := some (st, sw, i.handle) }

theorem State.items_owe : ((s.owe ep seq st sw none).endpoint ep).items =
    (s.endpoint ep).items.map (fun j => if j.seq == seq then j.decided st sw else j) := by
  rw [State.owe, State.modItem, State.endpoint_of_modEndpoint, if_pos rfl]
  rfl

theorem State.finishable_owe (hi : s.item ep seq = some i) (hmay : (s.endpoint ep).mayFinish i = true)
    (hbehind : s.behindOutput ep (i.decided st sw) = false) :
    (s.owe ep seq st sw none).Finishable ep seq (i.decided st sw) := by
  refine ⟨?_, ?_, hbehind⟩
  · have hseq : (i.seq == seq) = true := List.find?_some (p := fun j : Item => j.seq == seq) hi
    have hmap : ((fun j : Item => j.seq == seq) ∘ fun j => if j.seq == seq then j.decided st sw else j) = fun j => j.seq == seq := by
      funext j
      dsimp only [Function.comp_apply]
      split <;> rfl
    rw [State.item, State.items_owe, List.find?_map, hmap]
    have hfind : (s.endpoint ep).items.find? (fun j => j.seq == seq) = some i := hi
    rw [hfind, Option.map_some, if_pos hseq]
  · rw [Endpoint.mayFinish, List.all_eq_true] at hmay
    rw [Endpoint.mayFinish, State.items_owe, List.all_map, List.all_eq_true]
    intro j hj
    dsimp only [Function.comp_apply]
    split
    · exact hmay j hj
    · exact hmay j hj

theorem State.entry_mem_complete (hi : s.item ep seq = some i) (hattached : (s.endpoint ep).attached = true)
    (hmay : (s.endpoint ep).mayFinish i = true) (hbehind : s.behindOutput ep (i.decided st sw) = false) :
    ∃ x, Out.entry ep x ∈ (s.complete ep seq st sw none).out ∧ x.kind = 2 ∧ x.status = st ∧ x.seq = i.seq := by
  have hstill : ((s.owe ep seq st sw none).endpoint ep).attached = true := by
    rw [State.owe, State.modItem, State.endpoint_of_modEndpoint, if_pos rfl]
    exact hattached
  have h := (State.finishable_owe hi hmay hbehind).entry_mem_flushFinals rfl
  rw [State.complete, if_pos hstill]
  exact h

end

/-! ### What letting pages go leaves of the entries -/

/-- The endpoints stand, and of the entries what says whose they are. -/
structure State.SameStreams (s t : State) : Prop where
  endpoints : t.endpoints = s.endpoints
  fold : ∀ g, (t.entry g).fold = (s.entry g).fold
  linked : ∀ g, (t.entry g).linked = (s.entry g).linked
  draft : ∀ g, (t.entry g).draft = (s.entry g).draft

namespace State.SameStreams
variable {s t u : State}

theorem of_eq (he : t.endpoints = s.endpoints) (hg : t.entries = s.entries) : s.SameStreams t := by
  have hentry : ∀ g, t.entry g = s.entry g := fun g => by rw [State.entry, State.entry, hg]
  exact ⟨he, fun g => by rw [hentry], fun g => by rw [hentry], fun g => by rw [hentry]⟩

theorem refl (s : State) : s.SameStreams s := of_eq rfl rfl

theorem trans (h : s.SameStreams t) (h' : t.SameStreams u) : s.SameStreams u :=
  ⟨h'.endpoints.trans h.endpoints, fun g => (h'.fold g).trans (h.fold g), fun g => (h'.linked g).trans (h.linked g),
    fun g => (h'.draft g).trans (h.draft g)⟩

theorem foldl {α : Type} {g : State → α → State} {l : List α} (h : s.SameStreams t)
    (hg : ∀ t a, s.SameStreams t → s.SameStreams (g t a)) : s.SameStreams (l.foldl g t) :=
  List.foldlRecOn (motive := s.SameStreams) l g h (fun t ht a _ => hg t a ht)

theorem modEntry (h : s.SameStreams t) (k : Nat) {g : Entry → Entry} (hf : ∀ e, (g e).fold = e.fold)
    (hl : ∀ e, (g e).linked = e.linked) (hd : ∀ e, (g e).draft = e.draft) : s.SameStreams (t.modEntry k g) := by
  have hentry : ∀ n, (t.modEntry k g).entry n = t.entry n ∨ (t.modEntry k g).entry n = g (t.entry n) := fun n => by
    rw [State.entry_of_modEntry]
    split
    next hn => exact .inr (by rw [hn])
    next => exact .inl rfl
  refine h.trans ⟨rfl, fun n => ?_, fun n => ?_, fun n => ?_⟩
  · rcases hentry n with hn | hn <;> rw [hn]
    exact hf _
  · rcases hentry n with hn | hn <;> rw [hn]
    exact hl _
  · rcases hentry n with hn | hn <;> rw [hn]
    exact hd _

theorem countFrame (h : s.SameStreams t) (n : Nat) (w : Word) (f : Nat → Nat) : s.SameStreams (t.countFrame n w f) := by
  unfold State.countFrame
  split
  · exact h.trans (.of_eq rfl rfl)
  · exact h

theorem releasePage (h : s.SameStreams t) (g n : Nat) : s.SameStreams (t.releasePage g n) := by
  unfold State.releasePage
  split
  next w _ =>
    have hcount := h.countFrame (entryHub g) w (fun c => c - 1)
    generalize t.countFrame (entryHub g) w (fun c => c - 1) = v at hcount
    have hstore : s.SameStreams (v.storePte g n 0) := hcount.trans (.of_eq rfl rfl)
    exact hstore.modEntry g (fun _ => rfl) (fun _ => rfl) (fun _ => rfl)
  next => exact h

theorem trimTo (h : s.SameStreams t) (g l : Nat) : s.SameStreams (t.trimTo g l) := by
  have hdrop : s.SameStreams (t.dropLookaside g) := h.trans (.of_eq rfl rfl)
  exact hdrop.foldl fun _ _ h => h.releasePage g _

theorem endpoint (h : s.SameStreams t) (ep : Nat) : t.endpoint ep = s.endpoint ep := by
  rw [State.endpoint, State.endpoint, h.endpoints]

theorem item (h : s.SameStreams t) (ep seq : Nat) : t.item ep seq = s.item ep seq := by
  rw [State.item, State.item, h.endpoint]

theorem draftOf (h : s.SameStreams t) (g : Nat) : t.draftOf g = s.draftOf g := by
  simp only [State.draftOf, h.linked, h.draft]

end State.SameStreams

/-! ### An item of a swath that fails -/

section
variable {s : State} {f : Nat} {b : BatchItem} {i : Item} {st : Nat}

/-- The one item of a batch, which has no failure of its own and whose final may be written at once. -/
structure State.FailsAlone (s : State) (f : Nat) (b : BatchItem) (i : Item) (st : Nat) : Prop where
  batch : (s.fold f).batch = [b]
  status : b.status = none
  running : (s.entry b.entry).state = eRunning
  gen : (s.entry b.entry).gen = b.gen
  draft : s.draftOf b.entry = none
  item : s.item b.ep b.seq = some i
  attached : (s.endpoint b.ep).attached = true
  may : (s.endpoint b.ep).mayFinish i = true
  behind : s.behindOutput b.ep (i.decided st (s.fold f).swath) = false

theorem State.FailsAlone.entry_mem_failItemOf (h : s.FailsAlone f b i st) :
    ∃ x, Out.entry b.ep x ∈ (s.failItemOf f (some st) b).out ∧ x.kind = 2 ∧ x.status = st ∧ x.seq = i.seq := by
  have hstill : s.stillOf b = true := by
    rw [State.stillOf, h.gen, h.running]
    simp [eRunning, eFree, eDone]
  unfold State.failItemOf
  rw [if_neg (not_not.mpr hstill), h.status]
  extract_lets s₁ s₂ own s₃ s₄
  have htent : s.SameStreams (s.modEntry b.entry (fun e => { e with tent := 0 })) :=
    (SameStreams.refl s).modEntry b.entry (fun _ => rfl) (fun _ => rfl) (fun _ => rfl)
  have hsame : s.SameStreams s₁ := htent.trimTo b.entry _
  have hgrows : s.Grows s₁ := ((Grows.refl s).same (t := s.modEntry b.entry (fun e => { e with tent := 0 })) rfl).trimTo b.entry _
  have h₂ : s₂ = s₁ := by
    have hdraft : s₁.draftOf b.entry = none := (hsame.draftOf b.entry).trans h.draft
    dsimp only [s₂, State.syncDraft]
    rw [hdraft]
  have hswath : (s₂.fold f).swath = (s.fold f).swath := by rw [h₂, hgrows.field (π := Fold.swath) (fun _ => rfl)]
  have h₃ : s₃ = s₂.complete b.ep b.seq st (s₂.fold f).swath none := rfl
  rw [hswath] at h₃
  clear_value s₃ s₁ s₂
  subst h₂ h₃
  obtain ⟨x, hx, hspec⟩ := State.entry_mem_complete (s := s₂) (st := st) (sw := (s.fold f).swath) ((hsame.item _ _).trans h.item)
    (by rw [hsame.endpoint]; exact h.attached) (by rw [hsame.endpoint]; exact h.may)
    ((State.behindOutput_congr (hgrows.field (π := Fold.owed) (fun _ => rfl)) hsame.fold _ _).trans h.behind)
  have hrest : (s₂.complete b.ep b.seq st (s.fold f).swath none).Grows s₄ := (Grows.refl _).leaveSwath b.entry
  refine ⟨x, ?_, hspec⟩
  split
  · exact (hrest.leaveSwath _).out.subset hx
  · exact hrest.out.subset hx

theorem State.FailsAlone.entry_mem_failSwath (h : s.FailsAlone f b i st) :
    ∃ x, Out.entry b.ep x ∈ (s.failSwath f (some st)).out ∧ x.kind = 2 ∧ x.status = st ∧ x.seq = i.seq := by
  unfold State.failSwath
  rw [h.batch]
  exact h.entry_mem_failItemOf

/-- An event does not come between. -/
theorem State.FailsAlone.report (h : s.FailsAlone f b i st) (k : Source) (code p0 p1 : Nat) :
    (s.report k code p0 p1).FailsAlone f b i st := by
  have hgrows := (Grows.refl s).report k code p0 p1
  have hbatch := s.batch_report k code p0 p1 f
  have hbehind := State.behindOutput_congr (s := s) (t := s.report k code p0 p1)
    (hgrows.field (π := Fold.owed) (fun _ => rfl))
  have hswath : ((s.report k code p0 p1).fold f).swath = (s.fold f).swath := hgrows.field (fun _ => rfl) f
  obtain ⟨m, folds, log, hubs, hframe⟩ := s.report_frame k code p0 p1
  have hentry : ∀ g, (s.report k code p0 p1).entry g = s.entry g := fun g => by rw [hframe]; rfl
  have hendpoint : ∀ e, (s.report k code p0 p1).endpoint e = s.endpoint e := fun e => by rw [hframe]; rfl
  exact {
    batch := hbatch.trans h.batch
    status := h.status
    running := by rw [hentry]; exact h.running
    gen := by rw [hentry]; exact h.gen
    draft := by rw [State.draftOf, hentry]; exact h.draft
    item := by rw [State.item, hendpoint]; exact h.item
    attached := by rw [hendpoint]; exact h.attached
    may := by rw [hendpoint]; exact h.may
    behind := by rw [hswath, hbehind (fun g => by rw [hentry])]; exact h.behind }

end

/-! ### `State.stopFault` -/

/-- What leaving off the work of a fold keeps: the time, the registers and the folds; what left the module before has left it after. -/
structure State.Drops (s t : State) : Prop where
  time : t.time = s.time
  regs : t.regs = s.regs
  folds : t.folds = s.folds
  out : s.out <:+ t.out

namespace State.Drops
variable {s t u : State}

theorem refl (s : State) : s.Drops s := ⟨rfl, rfl, rfl, List.suffix_refl _⟩

theorem trans (h : s.Drops t) (h' : t.Drops u) : s.Drops u :=
  ⟨h'.time.trans h.time, h'.regs.trans h.regs, h'.folds.trans h.folds, h.out.trans h'.out⟩

theorem foldl {α : Type} {g : State → α → State} (hg : ∀ (t : State) a, t.Drops (g t a)) (l : List α) (s : State) :
    s.Drops (l.foldl g s) :=
  List.foldlRecOn (motive := s.Drops) l g (refl s) (fun t ht a _ => ht.trans (hg t a))

theorem of_sends (h : s.Sends t) : s.Drops t := ⟨by rw [h.frame], h.regs, h.folds, h.out⟩

theorem fold (h : s.Drops t) (f : Nat) : t.fold f = s.fold f := by rw [State.fold, State.fold, h.folds]

end State.Drops

theorem State.drops_answerOut (s : State) (p n : Nat) (h : RowHeader) (r : Row) : s.Drops (s.answerOut p n h r) := by
  unfold State.answerOut
  split
  · unfold State.answerOwn
    extract_lets q kind
    split
    · exact ⟨rfl, rfl, rfl, List.suffix_refl _⟩
    · exact .refl s
  · exact .of_sends (.foldl (fun t x => t.sends_sendTx p _) _ s)

theorem State.drops_landLinkEnd (s : State) (tag : Nat) (cause : Option Nat) : s.Drops (s.landLinkEnd tag cause) := by
  unfold State.landLinkEnd
  split
  · exact .refl s
  · exact (s.drops_answerOut _ _ _ _).trans ⟨rfl, rfl, rfl, List.suffix_refl _⟩

theorem State.drops_dropTraffic (s : State) (f : Nat) : s.Drops (s.dropTraffic f) := by
  unfold State.dropTraffic
  extract_lets s₁ mine s₂ s₃ gone
  have h₁ : s.Drops s₁ := ⟨rfl, rfl, rfl, List.suffix_refl _⟩
  have h₂ : s₁.Drops s₂ := by
    refine .foldl (fun t q => ?_) _ _
    exact ⟨rfl, rfl, rfl, List.suffix_refl _⟩
  have h₃ : s₂.Drops s₃ := .foldl (fun t (e : Nat × Transit) => t.drops_landLinkEnd e.1 (some 0)) _ _
  exact ((h₁.trans h₂).trans h₃).trans ⟨rfl, rfl, rfl, List.suffix_refl _⟩

theorem State.drops_stopCores (s : State) (f : Nat) : s.Drops (s.stopCores f) := by
  unfold State.stopCores
  refine .foldl (fun t q => ?_) _ _
  exact ⟨rfl, rfl, rfl, List.suffix_refl _⟩

/-- What a fold that stops in a fault leaves. -/
structure State.Stops (f : Nat) (s t : State) : Prop where
  grid : SameGrid s t
  state : t.foldState f = foldStopped
  phase : (t.fold f).phase = .idle
  batch : (t.fold f).batch = []
  recorded : (s.fold f).recorded ⊆ (t.fold f).recorded

theorem State.batch_failSwath (s : State) (f : Nat) (st : Option Nat) : ((s.failSwath f st).fold f).batch = [] := by
  unfold State.failSwath
  rw [State.fold_of_modFold, if_pos rfl]

section
variable (s : State) {f : Nat} (st : Option Nat)

theorem State.stopFault_spec (hf : f < 256) :
    s.Stops f (s.stopFault f st) ∧ (s.failSwath f st).out <:+ (s.stopFault f st).out := by
  have hfail := (Grows.refl s).failSwath f st
  have hdrop := ((s.failSwath f st).drops_dropTraffic f).trans (State.drops_stopCores _ f)
  unfold State.stopFault
  extract_lets t
  have hbatch : (t.fold f).batch = [] := by rw [hdrop.fold, s.batch_failSwath]
  have hrecorded : (s.fold f).recorded ⊆ (t.fold f).recorded := by
    rw [hdrop.fold]
    exact hfail.recorded f
  have hgrid : SameGrid s t := hfail.times.toSameGrid.trans (.of_eq hdrop.time hdrop.regs)
  have hout : (s.failSwath f st).out <:+ t.out := hdrop.out
  clear_value t
  refine ⟨⟨?_, State.foldState_setFoldState _ _ _ (by decide), ?_, ?_, ?_⟩, ?_⟩
  · have hmod : ∀ g, SameGrid s (t.modFold f g) := fun g => hgrid.trans (.of_eq rfl rfl)
    exact (hmod _).trans (.setFld _ (x := .timFoldStatState) (counted_timFoldStat hf) _)
  · rw [State.setFoldState, State.fold_of_setFld, State.fold_of_modFold, if_pos rfl]
  · rw [State.setFoldState, State.fold_of_setFld, State.fold_of_modFold, if_pos rfl]
    exact hbatch
  · rw [State.setFoldState, State.fold_of_setFld, State.fold_of_modFold, if_pos rfl]
    exact hrecorded
  · rw [State.setFoldState_frame]
    exact hout

end

/-! ### The command -/

/-- The event of a time-out is recorded for the fold's swath (R558). -/
theorem State.mem_recorded_report (s : State) (n f p0 p1 : Nat) :
    (0x5012, 2, hubAddr n) ∈ ((s.report (srcHub n (some f)) 0x5012 p0 p1).fold f).recorded := by
  unfold State.report
  extract_lets r
  split
  next g _ hg =>
    obtain rfl : f = g := Option.some.inj hg
    split
    next h => exact List.contains_iff_mem.mp h
    next =>
      obtain ⟨m, log, hubs, h⟩ := State.logRecord_frame (s.modFold f (fun x => { x with
        recorded := (0x5012, (srcHub n (some f)).kind, (srcHub n (some f)).src) :: x.recorded })) (srcHub n (some f)) r
      rw [h]
      have hfold := s.fold_of_modFold f (fun x => { x with
        recorded := (0x5012, (srcHub n (some f)).kind, (srcHub n (some f)).src) :: x.recorded }) f
      rw [if_pos rfl] at hfold
      exact (congrArg Fold.recorded hfold).symm ▸ List.mem_cons_self
  next h => exact absurd rfl (h f rfl)

theorem exec_stileTimeout {t f : Nat} {s : State} (hf : f < 256) (h : (s.at t).isTimedOut f = true) :
    exec (.stileTimeout t f) s = .next ((((s.at t).report (srcHub ((s.at t).rootLea f) (some f)) 0x5012
      ((s.at t).stuckStile f).1 ((s.at t).stuckStile f).2).stopFault f (some stFault)).settle) := by
  show onUnit (validFold f) (whenever _ _ _) = _
  rw [whenever_of_true h, onUnit, validFold, if_pos (decide_eq_true hf)]

end Sys2Proof.Machine

namespace Sys2Proof
open Machine

/-- Settles O29: the end of drain register by register and through what the scheduler's work leaves, the OUTPUT entry, and the
time-out. -/
theorem swathEnds : Obligations.SwathEnds := by
  intro t f s hf u active
  refine ⟨fun ms hmay hrun hmulti hms => ?block, fun hmay hrun hmulti hms htold => ?waits, fun hmulti hmay hrun => ?alone,
    fun ep streams swath late bad hep howed hattached => ?output, fun htimeout => ?timeout⟩
  case block =>
    refine ⟨_, exec_swathDrainEnd hf hmay, fun hactive => ?_⟩
    have h := State.blockEnded_drainHere hf hrun hmulti hms
    rw [State.settle_of_active h.grid hactive.2]
    exact ⟨h.phase, h.drained, h.swath, h.lastSwath⟩
  case waits =>
    refine ⟨_, exec_swathDrainEnd hf hmay, fun hactive => ?_⟩
    have hgrid : SameGrid u (u.tellDrain f) := (u.drainTold_tellDrain f).times.toSameGrid
    have hsends := u.sends_tellDrain f
    rw [State.drainHere_of_missing hf hmulti hms htold, State.settle_of_active hgrid hactive.2, u.fold_tellDrain f]
    exact ⟨State.drained_of_mayDrain hmay, rfl, hsends.cores, .of_clusters hsends.clusters, u.marker_mem_tellDrain f, by simp⟩
  case alone =>
    refine ⟨_, exec_swathDrainEnd hf hmay, fun hactive => ?_⟩
    have hhere : u.drainHere f = u.endDrain f u.now := by
      rw [State.drainHere, hmulti]
      exact if_neg (by decide)
    have h := u.ended_endDrain u.now hf hrun
    rw [hhere, State.settle_of_active h.grid hactive.2]
    exact ⟨h.phase, h.drained, h.drainAt, h.swath, h.lastSwath, h.lastDrainTick, h.next⟩
  case output =>
    obtain ⟨hout, howes⟩ := u.outputEntry_spec f ep streams swath late bad
    exact ⟨_, _, exec_outputEntry hf hep howed hattached, hout, rfl, rfl, rfl, rfl, u.c_outputOf f ep streams swath late bad, howes⟩
  case timeout =>
    refine ⟨_, exec_stileTimeout hf htimeout, fun hactive => ?_⟩
    have hrecorded := u.mem_recorded_report (u.rootLea f) f (u.stuckStile f).1 (u.stuckStile f).2
    have hreport := (State.Grows.refl u).report (srcHub (u.rootLea f) (some f)) 0x5012 (u.stuckStile f).1 (u.stuckStile f).2
    have hitem := fun b i st (h : u.FailsAlone f b i st) =>
      (h.report (srcHub (u.rootLea f) (some f)) 0x5012 (u.stuckStile f).1 (u.stuckStile f).2).entry_mem_failSwath
    generalize u.report (srcHub (u.rootLea f) (some f)) 0x5012 (u.stuckStile f).1 (u.stuckStile f).2 = v at *
    obtain ⟨hstops, hout⟩ := v.stopFault_spec (some stFault) hf
    rw [State.settle_of_active (hreport.times.toSameGrid.trans hstops.grid) hactive.2]
    refine ⟨hstops.state, hstops.phase, hstops.batch, hstops.recorded hrecorded,
      fun b i hbatch hstatus hrun hgen hdraft hi hattached hmay hbehind => ?_⟩
    obtain ⟨x, hx, hspec⟩ := hitem b i stFault ⟨hbatch, hstatus, hrun, hgen, hdraft, hi, hattached, hmay, hbehind⟩
    exact ⟨x, hout.subset hx, hspec⟩

end Sys2Proof
end

section
/-! How a core instruction that issues alone ends: what it does, and then the bundle that follows (R79, R80); then O5 and O6. -/

namespace Sys2Proof.Machine

section
variable {o : CoreOp} {op : Op} {s s' : State}

theorem alone_of_ok (h : o.act op (s.files o.core) s = .ok s') :
    o.alone op s = s'.goOn o.core ((s.core o.core).pc + 1) 0 := by
  rw [CoreOp.alone, h]

theorem alone_of_jump {target idle : Nat} (h : o.act op (s.files o.core) s = .jump s' target idle) :
    o.alone op s = s'.goOn o.core target idle := by
  rw [CoreOp.alone, h]

end

section
variable {o : CoreOp} {i : Instr} {t : Nat} {known : Bool} {op : State → Op} {s s' : State}

/-- A command that names a unit that exists and issues a bundle of one instruction. -/
theorem exec_alone_known (hk : known = true) (h : (s.at t).issuesAlone o (op (s.at t)) = true) :
    o.exec i t known op s = .next (o.alone (op (s.at t)) (s.at t)) := by
  rw [hk]
  exact exec_alone o i t op s h

theorem exec_ok (hk : known = true) (h : (s.at t).issuesAlone o (op (s.at t)) = true)
    (g : (op (s.at t)).whole = true → (s.at t).gateOpen o = true)
    (hrun : (op (s.at t)).run ((s.at t).files o.core) (s.at t) = .ok s') :
    o.exec i t known op s = .next (s'.goOn o.core (((s.at t).core o.core).pc + 1) 0) := by
  rw [exec_alone_known hk h, alone_of_ok ((act_run _ _ _ h g).trans hrun)]

theorem exec_jump {target idle : Nat} (hk : known = true) (h : (s.at t).issuesAlone o (op (s.at t)) = true)
    (g : (op (s.at t)).whole = true → (s.at t).gateOpen o = true)
    (hrun : (op (s.at t)).run ((s.at t).files o.core) (s.at t) = .jump s' target idle) :
    o.exec i t known op s = .next (s'.goOn o.core target idle) := by
  rw [exec_alone_known hk h, alone_of_jump ((act_run _ _ _ h g).trans hrun)]

end

/-! ### Branches that write a scalar register -/

theorem goesOn_putS (o : CoreOp) (d : Nat) (v : Word) (lat pc idle : Nat) (s : State) :
    GoesOn o pc idle s ((s.putS o.core d v lat).goOn o.core pc idle) := by
  refine ⟨((onlyCore_modFiles _ _ _).trans (onlyCore_readyAt _ _ _ _)).trans (onlyCore_goOn _ _ _ _), ?_⟩
  simp [State.goOn, State.putS, State.readyAt, State.modFiles, State.files]

theorem files_putS_goOn (o : CoreOp) (d : Nat) (v : Word) (lat pc idle : Nat) (s : State) :
    ((s.putS o.core d v lat).goOn o.core pc idle).files o.core = (s.files o.core).setS d v := by
  simp [State.putS]

theorem Files.setS_only (f : Files) (d : Nat) (v : Word) : f.setS d v = { f with sreg := (f.setS d v).sreg } := by
  unfold Files.setS
  split <;> rfl

/-- LOOP counts sA down, and falls through where it held 1 or is s0 (log entry 17). -/
theorem loop_left_eq_zero (a : Nat) (x : Word) : (if a = 0 then 0 else x - 1) = 0 ↔ a = 0 ∨ x = 1 := by
  by_cases ha : a = 0
  · simp [ha]
  · rw [if_neg ha, or_iff_right ha, sub_eq_zero]

end Sys2Proof.Machine

namespace Sys2Proof
open Machine

/-- Settles O5: each instruction runs to one write of its register. -/
theorem nopScalarCompletes : Obligations.NopScalarCompletes := by
  intro t o s g
  refine ⟨fun h => ⟨_, exec_ok rfl h (fun _ => g) rfl, branches_goOn _ _ _ _⟩,
    fun k i h => ⟨_, exec_ok rfl h (fun _ => g) rfl, writesScalar_goOn _ _ _ _ _⟩,
    fun k i h => ⟨_, exec_ok rfl h (fun _ => g) rfl, writesScalar_goOn _ _ _ _ _⟩,
    fun k h => ⟨_, exec_ok rfl h (fun _ => g) rfl, writesScalar_goOn _ _ _ _ _⟩,
    fun k h => ⟨_, exec_ok rfl h (fun _ => g) rfl, writesScalar_goOn _ _ _ _ _⟩,
    fun h => ⟨_, exec_ok rfl h (fun _ => g) rfl, writesScalar_goOn _ _ _ _ _⟩,
    fun h => ⟨_, exec_ok rfl h (fun _ => g) rfl, writesScalar_goOn _ _ _ _ _⟩,
    fun r h => ⟨_, exec_ok rfl h (fun _ => g) rfl, writesPredicate_goOn _ _ _ _ _⟩,
    fun h => ⟨_, exec_ok rfl h (fun _ => g) rfl, writesScalar_goOn _ _ _ _ _⟩⟩

/-- Settles O6: the target and the idle ticks of each branch; LOOP and JAL write one scalar register besides. -/
theorem branchesComplete : Obligations.BranchesComplete := by
  intro t o s
  refine ⟨fun h g => ⟨_, exec_jump rfl h (fun _ => g) (congrArg (Done.jump _ · 2) (if_pos g)), branches_goOn _ _ _ _⟩,
    fun h => ?brP, fun h g => ?loop, fun h g => ?jal,
    fun h g => ⟨_, exec_jump rfl h (fun _ => g) (congrArg (Done.jump _ · 2) (if_pos g)), branches_goOn _ _ _ _⟩⟩
  case brP =>
    cases g : (s.at t).gateOpen o with
    | true => exact ⟨_, exec_jump rfl h nofun (if_pos g), branches_goOn _ _ _ _⟩
    | false => exact ⟨_, exec_jump rfl h nofun (if_neg (Bool.eq_false_iff.mp g)), branches_goOn _ _ _ _⟩
  case loop =>
    refine ⟨_, exec_jump rfl h nofun (if_pos g), ?_, ?_, fun n => ?_⟩
    · simp only [loop_left_eq_zero]
      exact goesOn_putS _ _ _ _ _ _ _
    · rw [files_putS_goOn]
      exact Files.setS_only _ _ _
    · rw [files_putS_goOn, Files.s_setS]
      refine ite_congr rfl (fun hn => ?_) (fun _ => rfl)
      rw [if_neg (hn.1 ▸ hn.2)]
  case jal =>
    refine ⟨_, exec_jump rfl h nofun (if_pos g), goesOn_putS _ _ _ _ _ _ _, ?_, fun n => ?_⟩
    · rw [files_putS_goOn]
      exact Files.setS_only _ _ _
    · rw [files_putS_goOn, Files.s_setS]
      rfl

end Sys2Proof
end

section
/-! Leave for a row move, a send and the MMA that waits (R101, R114, R129). -/

namespace Sys2Proof.Machine

/-! ### Changes within one core that leave its registers -/

/-- `t` differs from `s` in core `c` alone, and in none of its registers. -/
def Quiet (c : Nat) (s t : State) : Prop := OnlyCore c s t ∧ SameFiles c s t

namespace Quiet
variable {c : Nat} {s t : State}

theorem refl (c : Nat) (s : State) : Quiet c s s := ⟨.refl c s, rfl⟩

theorem modCore (h : Quiet c s t) {f : Core → Core} (hf : ∀ k, (f k).files = k.files) : Quiet c s (t.modCore c f) := by
  refine ⟨h.1.trans (onlyCore_modCore _ _ _), Eq.trans ?_ h.2⟩
  rw [State.files, State.core_of_modCore, if_pos rfl, hf, State.files]

theorem goOn (h : Quiet c s t) (pc idle : Nat) : Quiet c s (t.goOn c pc idle) := h.modCore fun _ => rfl

end Quiet

/-! ### Leave of class BANK_BULK -/

section
variable {c lo hi : Nat} {heavy : Bool} {s : State}

theorem State.bulkLeave_of_free (off : Bool) (op : Begin) (h : s.bulkFree c heavy lo hi = true) :
    s.bulkLeave c heavy off lo hi op = .free := by
  unfold State.bulkFree at h
  unfold State.bulkLeave
  cases hg : (s.core c).rowGrant with
  | some id =>
    rw [hg] at h
    exact if_neg (by simpa using h)
  | none =>
    rw [hg] at h
    exact if_pos (by simpa using h)

end

section
variable {o : CoreOp} {s : State}

theorem State.moveLeave_of_free (off : Bool) (h : s.moveFree o = true) :
    s.moveLeave o off (s.moveEdge o.core ((s.foldOf o.q).getD 0)) = .free := State.bulkLeave_of_free off _ h

theorem State.sendLeave_of_free {a b : Word} (off : Bool) (h : s.sendFree o a b = true) : s.sendLeave o off a b = .free :=
  State.bulkLeave_of_free off _ h

end

/-! ### The waiting MMA -/

section
variable {c : Nat} {s : State} {m : Mma}

theorem State.startMma_of_running (h : (s.core c).mmaRun.isSome = true) : s.startMma c = s := by
  obtain ⟨r, hr⟩ := Option.isSome_iff_exists.mp h
  simp [State.startMma, hr]

/-- The state in which the waiting MMA `m` has begun. -/
def State.beginMma (s : State) (c : Nat) (m : Mma) : State :=
  s.modCore c (fun k => { k with mmaWait := none, mmaRun := some { m with ends := s.now + mmaTicks m.kind } })

/-- The state in which hardware has asked leave for the waiting MMA `m` (R129). -/
def State.askMma (s : State) (c : Nat) (m : Mma) : State :=
  (s.hardwareLeave c clsMatrix m.off ⟨mmaTicks m.kind, 0, 1, 0⟩).modCore c
    (fun k => { k with mmaWait := some { m with grant := some s.nextTag } })

theorem State.startMma_of_granted {id : Nat} (hrun : (s.core c).mmaRun = none) (hwait : (s.core c).mmaWait = some m)
    (hg : m.grant = some id) (h : s.unbegun (clusterOf c / 24) id = false) : s.startMma c = s.beginMma c m := by
  simp [State.startMma, State.beginMma, hrun, hwait, hg, h]

theorem State.startMma_of_covered (hrun : (s.core c).mmaRun = none) (hwait : (s.core c).mmaWait = some m)
    (hg : m.grant = none) (h : s.covered c clsMatrix s.now (s.now + mmaTicks m.kind) = true) :
    s.startMma c = s.beginMma c m := by
  simp [State.startMma, State.beginMma, hrun, hwait, hg, h]

theorem State.startMma_of_uncovered (hrun : (s.core c).mmaRun = none) (hwait : (s.core c).mmaWait = some m)
    (hg : m.grant = none) (h : s.covered c clsMatrix s.now (s.now + mmaTicks m.kind) = false) :
    s.startMma c = if 16 ≤ s.held (clusterOf c) then s else s.askMma c m := by
  simp [State.startMma, State.askMma, hrun, hwait, hg, h]

end

end Sys2Proof.Machine
end

section
/-! The counterexamples to O7 and O15: a gated-off Q.PUT.RD on a queue pair that no W1 has, and a record whose kind is not that of a core. -/

namespace Sys2Proof.Machine

/-- Q.PUT.RD in slot B of core 0, gated off by p0 inverted. -/
def gatedPut : CoreOp := ⟨0, .b, false, true, 0, 0, 0, 0, 0, 0⟩

/-- Fold 0 runs on cluster 0, and the one bundle of core 0 is that Q.PUT.RD beside NOP. -/
def gatedPutImage : Image :=
  { clusters := [0], leaRect := true, endTick := 1000, drain := 10, code := [(0, [gatedPut.word 0x06 0 ++ 0#64])], stiles := [],
    queues := [], items := [], model := 0, batchAt := (0, 1), resultAt := (0, 2), limits := [], worst := [], outBound := [],
    growth := [], pools := [], kvPools := [], block := [], flows := [], windows := [], placements := [], setup := [],
    streamRows := [], benver := 0 }

def gatedPutState : State :=
  (({ State.reset with positions := [], funcs := [(0x06, 0, 0)] }.setFld Fld.cluPwrStateState 0 0 2).setFoldState 0 2).modFold 0
    (fun x => { x with phase := .run, image := some gatedPutImage })

theorem gatedPutState_issues : (gatedPutState.at 1).gateOpen gatedPut = false ∧
    (gatedPutState.at 1).issuesAlone gatedPut (qPutRdOp gatedPut 16) = true := by decide +kernel

/-- A record of kind 4, the module's, stands in the queue of core 0. -/
def oddRecord : Rec := ⟨0x7F00, 4, 0, none, none, false, 0, 0, 0⟩
def oddRecordState : State := State.reset.modCore 0 (fun k => { k with records := [oddRecord] })

theorem core_oddRecordState : (oddRecordState.at 0).core 0 = { Core.reset with records := [oddRecord] } := by decide +kernel

/-- R559 sends a record by its own kind, so this one enters the global log alone. -/
theorem hub_log_sendRecord_oddRecordState :
    (((oddRecordState.at 0).sendRecord 0).hub 0).log ≠ ((oddRecordState.at 0).hub 0).log.push 4096 oddRecord := by decide +kernel

end Sys2Proof.Machine

namespace Sys2Proof
open Machine

/-- Refutes O7: queue pair 16 exists on no W1, so its gated-off Q.PUT.RD issues and yet answers the fault of log entry 11. -/
theorem not_gatedOffKeepsTime : ¬ Obligations.GatedOffKeepsTime := by
  intro h
  obtain ⟨hgate, hissue⟩ := gatedPutState_issues
  obtain ⟨-, -, -, -, -, -, -, -, -, ⟨-, -, -, -, -, hput, -⟩, -⟩ := h 1 gatedPut gatedPutState hgate
  obtain ⟨s', hexec, -⟩ := hput 16 hissue
  have hfault : exec (.qPutRd 1 gatedPut 16) gatedPutState = .fault .noSuchUnit := rfl
  rw [hfault] at hexec
  cases hexec

/-- Refutes O15: the clause on RECORD_SEND judges a record of any kind as one of kind 0. -/
theorem not_callsAndRecordsComplete : ¬ Obligations.CallsAndRecordsComplete := by
  intro h
  obtain ⟨s', hexec, -, -, hlog, -⟩ := h.2 0 0 oddRecord [] oddRecordState rfl (by rw [core_oddRecordState])
    (by rw [core_oddRecordState]; nofun)
  cases hexec
  exact hub_log_sendRecord_oddRecordState (hlog rfl)

end Sys2Proof
end

section
/-! The lanes of a vector register (R85, R621) and the instructions that write them: O8 and O9. -/

namespace Sys2Proof.Machine

/-! ### Lanes -/

/-- Lane `i` of the patterns that a register is put together from. -/
theorem lanesNat_lane (w : Nat) (l : List Nat) (i : Nat) : lanesNat w l / 2 ^ (w * i) % 2 ^ w = l.getD i 0 % 2 ^ w := by
  have hw := Nat.two_pow_pos w
  induction l generalizing i with
  | nil => simp [lanesNat]
  | cons x l ih =>
    cases i with
    | zero => simp [lanesNat]
    | succ i =>
      have hx : x % 2 ^ w < 2 ^ w := Nat.mod_lt _ hw
      rw [lanesNat, Nat.mul_succ, Nat.add_comm (w * i), Nat.pow_add, ← Nat.div_div_eq_div_mul, Nat.add_mul_div_left _ _ hw,
        Nat.div_eq_of_lt hx, Nat.zero_add, ih, List.getD_cons_succ]

theorem lanesNat_lt (w : Nat) (l : List Nat) : lanesNat w l < 2 ^ (w * l.length) := by
  induction l with
  | nil => simp [lanesNat]
  | cons x l ih =>
    have hx : x % 2 ^ w < 2 ^ w := Nat.mod_lt _ (Nat.two_pow_pos w)
    have hl : 2 ^ w * (lanesNat w l + 1) ≤ 2 ^ w * 2 ^ (w * l.length) := Nat.mul_le_mul_left _ ih
    rw [lanesNat, List.length_cons, Nat.mul_succ, Nat.add_comm (w * l.length), Nat.pow_add]
    rw [Nat.mul_succ] at hl
    omega

theorem lane_lt (v : Vec) (w i : Nat) : lane v w i < 2 ^ w := Nat.mod_lt _ (Nat.two_pow_pos w)

/-- Lane `i` of a register that is put together lane by lane. -/
theorem lane_ofLanes {w i : Nat} (f : Nat → Nat) (hi : i < 512 / w) :
    lane (ofLanes w ((List.range (512 / w)).map f)) w i = f i % 2 ^ w := by
  have hlen : lanesNat w ((List.range (512 / w)).map f) < 2 ^ 512 :=
    (lanesNat_lt _ _).trans_le (Nat.pow_le_pow_right Nat.two_pos (by simpa using Nat.mul_div_le 512 w))
  rw [lane, ofLanes, BitVec.toNat_ofNat, Nat.mod_eq_of_lt hlen, lanesNat_lane]
  simp [List.getD, hi]

/-- R85: a lane whose predicate bit is 0 keeps what the destination held. -/
theorem lane_gated {w i : Nat} (g : Word) (old : Vec) (new : Nat → Nat) (hi : i < 512 / w) :
    lane (gated g w old new) w i = if g.getLsbD (w / 8 * i) then new i % 2 ^ w else lane old w i := by
  rw [gated, lane_ofLanes _ hi]
  split
  · rfl
  · exact Nat.mod_eq_of_lt (lane_lt _ _ _)

/-! ### The bundle that follows a vector result -/

theorem writesV_goOn (o : CoreOp) (d : Nat) (v : Vec) (lat : Nat) (s : State) :
    let t := (s.putV o.core d v lat).goOn o.core ((s.core o.core).pc + 1) 0
    GoesOn o ((s.core o.core).pc + 1) 0 s t ∧ ReadyFrom o (vCode d) (s.now + lat) s t ∧
      t.files o.core = (s.files o.core).setV d v := by
  refine ⟨⟨((onlyCore_modFiles _ _ _).trans (onlyCore_readyAt _ _ _ _)).trans (onlyCore_goOn _ _ _ _), ?_⟩, fun n => ?_, ?_⟩
  · simp [State.goOn, State.putV, State.readyAt, State.modFiles, State.files]
  · simp [State.goOn, State.putV, State.readyAt, State.modFiles]
  · simp [State.putV]

theorem writesLanes_goOn (o : CoreOp) {w : Nat} {new new' : Nat → Nat} (lat : Nat) (s : State) (hnew : new = new') :
    WritesLanes o w new' lat s ((s.putV o.core o.d (gated (o.gate (s.files o.core)) w ((s.files o.core).v o.d) new) lat).goOn
      o.core ((s.core o.core).pc + 1) 0) := by
  subst hnew
  obtain ⟨hgo, hready, hfiles⟩ := writesV_goOn o o.d (gated (o.gate (s.files o.core)) w ((s.files o.core).v o.d) new) lat s
  refine ⟨hgo, hready, ?_, fun n hn => ?_, fun i hi => ?_⟩
  · rw [hfiles]
    rfl
  · rw [hfiles, Files.v_setV, if_neg hn]
  · rw [hfiles, Files.v_setV, if_pos rfl, lane_gated _ _ _ hi]

/-! ### Operands that an operation does not use -/

theorem laneOp_congr {ty : LaneType} {fi fi' : List Int → Int} {ff ff' : List FV → FV} {xs ys : List Nat}
    (hi : ∀ g : Nat → Int, fi (xs.map g) = fi' (ys.map g)) (hf : ∀ g : Nat → FV, ff (xs.map g) = ff' (ys.map g)) :
    laneOp ty fi ff xs = laneOp ty fi' ff' ys := by
  unfold laneOp
  split
  · rw [hi]
  · rw [hf]

theorem legal_of_issuesAlone {o : CoreOp} {op : Op} {s : State} (h : s.issuesAlone o op = true) : op.legal = true :=
  (Bool.and_eq_true_iff.mp h).2

/-- V.EXP2 and its companions are legal on bfloat16 and FP32 alone. -/
theorem vExp2Op_of_legal {o : CoreOp} {k : VFun} {ty : LaneType} {g : Fmt} (hg : laneFmt ty = some g)
    (h : (vExp2Op o k ty).legal = true) :
    vExp2Op o k ty = vecOp o (17 + k.ctorIdx) ty [o.a] true 8 (fun r i => evalVFun k g (argLane r ty o.a i)) := by
  cases ty <;> cases hg
  · cases h
  · cases h
  · rfl
  · rfl

/-- R623: a source lane that part `o.u / 8 % 4` does not feed leaves the destination's. -/
def cvtNew (o : CoreOp) (src ty : LaneType) (f : Files) (i : Nat) : Nat :=
  match cvtLane (laneCount src) (laneCount ty) (o.u / 8 % 4) i with
  | some j => convertLane src ty (argLane f src o.a j)
  | none => argLane f ty o.d i

theorem vCvtOp_run {o : CoreOp} {src ty : LaneType} (h : laneTypeOf (o.u % 8) = some src) (f : Files) (s : State) :
    (vCvtOp o ty).run f s = .ok (s.putV o.core o.d (gated (o.gate f) (laneWidth ty) (f.v o.d) (cvtNew o src ty f)) 3) := by
  simp only [vCvtOp, h] <;> rfl

theorem vCvtOp_whole (o : CoreOp) (ty : LaneType) : (vCvtOp o ty).whole = false := by
  unfold vCvtOp
  split <;> rfl

/-! ### V.CMP -/

/-- Bit `i` of a predicate word put together bit by bit. -/
theorem getLsbD_ofNat_lanesNat {i : Nat} (f : Nat → Bool) (hi : i < 64) :
    (BitVec.ofNat 64 (lanesNat 1 ((List.range 64).map (fun i => if f i then 1 else 0)))).getLsbD i = f i := by
  have h := lanesNat_lane 1 ((List.range 64).map (fun i => if f i then 1 else 0)) i
  rw [BitVec.getLsbD_ofNat, Nat.testBit_eq_decide_div_mod_eq]
  rw [Nat.one_mul, Nat.pow_one] at h
  rw [h]
  cases hf : f i <;> simp [List.getD, hi, hf]

end Sys2Proof.Machine

namespace Sys2Proof
open Machine

/-- Settles O8: each instruction runs to one gated write of its register. -/
theorem vectorLanesComplete : Obligations.VectorLanesComplete := by
  intro t o ty s
  refine ⟨fun k h => ⟨_, exec_ok rfl h nofun rfl, writesLanes_goOn o _ _ rfl⟩,
    fun k h => ⟨_, exec_ok rfl h nofun rfl, writesLanes_goOn o _ _ rfl⟩,
    fun h => ⟨_, exec_ok rfl h nofun rfl, writesLanes_goOn o _ _ (funext fun i => ?mul)⟩,
    fun h => ⟨_, exec_ok rfl h nofun rfl, writesLanes_goOn o _ _ rfl⟩,
    fun h => ⟨_, exec_ok rfl h nofun rfl, writesLanes_goOn o _ _ rfl⟩,
    fun h => ⟨_, exec_ok rfl h nofun rfl, writesLanes_goOn o _ _ rfl⟩,
    fun h => ⟨_, exec_ok rfl h nofun rfl, writesLanes_goOn o _ _ rfl⟩,
    fun m h => ⟨_, exec_ok rfl h nofun rfl, writesLanes_goOn o _ _ rfl⟩,
    fun src hsrc h => ?cvt, fun k g hg h => ?exp2⟩
  case mul => exact laneOp_congr (fun _ => Int.add_zero _) (fun _ => rfl)
  case cvt =>
    exact ⟨_, exec_ok rfl h (fun hw => nomatch (vCvtOp_whole o ty).symm.trans hw) (vCvtOp_run hsrc _ _), writesLanes_goOn o _ _ rfl⟩
  case exp2 =>
    have hop := vExp2Op_of_legal hg (legal_of_issuesAlone h)
    exact ⟨_, exec_ok (op := fun _ => vExp2Op o k ty) rfl h (by rw [hop]; nofun) (by rw [hop]; rfl), writesLanes_goOn o _ _ rfl⟩

/-- Settles O9: V.CMP bit by bit, V.SEL lane by lane, V.EXT as a scalar write. -/
theorem vectorSpecialComplete : Obligations.VectorSpecialComplete := by
  intro t o ty s
  refine ⟨fun r h => ⟨_, exec_ok rfl h nofun rfl, _, writesPredicate_goOn _ _ _ _ _, fun i hi => ?_⟩, fun h => ?sel,
    fun h g => ⟨_, exec_ok rfl h (fun _ => g) rfl, writesScalar_goOn _ _ _ _ _⟩⟩
  · rw [BitVec.getLsbD_or, BitVec.getLsbD_and, BitVec.getLsbD_and, BitVec.getLsbD_not, getLsbD_ofNat_lanesNat _ hi]
    cases (o.gate ((s.at t).files o.core)).getLsbD i <;> simp [hi, argLane]
  case sel =>
    refine ⟨_, exec_ok rfl h nofun rfl, ?_⟩
    obtain ⟨hgo, hready, hfiles⟩ := writesV_goOn o o.d _ 2 (s.at t)
    refine ⟨hgo, hready, ?_, fun n hn => ?_, fun i hi => ?_⟩
    · rw [hfiles]
      rfl
    · rw [hfiles, Files.v_setV, if_neg hn]
    · rw [hfiles, Files.v_setV, if_pos rfl, lane_ofLanes _ hi]
      split <;> exact Nat.mod_eq_of_lt (lane_lt _ _ _)

end Sys2Proof
end

section
/-! What events leave of the state (R557 to R559), and what a request for leave by hardware adds to it (R129). -/

namespace Sys2Proof.Machine

/-! ### Events -/

/-- `t` differs from `s` in registers, in the folds and in the logs: no request and no grant of an arbiter is touched. -/
structure State.Notes (s t : State) : Prop where
  frame : t = { s with regs := t.regs, folds := t.folds, globalLog := t.globalLog, hubs := t.hubs }
  arb : ∀ n, (t.hub n).arb = (s.hub n).arb

namespace State.Notes
variable {s t u : State}

theorem refl (s : State) : s.Notes s := ⟨rfl, fun _ => rfl⟩

theorem trans (h : s.Notes t) (h' : t.Notes u) : s.Notes u := by
  obtain ⟨ht, ha⟩ := h
  obtain ⟨hu, ha'⟩ := h'
  refine ⟨?_, fun n => (ha' n).trans (ha n)⟩
  rw [hu, ht]

theorem setFld (s : State) (f : Fld) (u i v : Nat) : s.Notes (s.setFld f u i v) := ⟨rfl, fun _ => rfl⟩

theorem bump (s : State) (f : Fld) (u i : Nat) : s.Notes (s.bump f u i) := .setFld s f u i _

theorem modFold (s : State) (f : Nat) (g : Fold → Fold) : s.Notes (s.modFold f g) := ⟨rfl, fun _ => rfl⟩

theorem modLog (s : State) (n : Nat) (g : Log → Log) : s.Notes (s.modHub n (fun h => { h with log := g h.log })) := by
  refine ⟨rfl, fun m => ?_⟩
  rw [State.hub_of_modHub]
  split
  next h => rw [h]
  next => rfl

theorem ite {c : Prop} [Decidable c] (h : s.Notes t) (h' : s.Notes u) : s.Notes (if c then t else u) := by
  split
  · exact h
  · exact h'

theorem logRecord (s : State) (k : Source) (r : Rec) : s.Notes (s.logRecord k r) := by
  have hcounted : ∀ (s : State) glob cap l, s.Notes (s.countDropped glob cap l) := fun s _ _ _ => .ite (.bump s _ _ _) (.refl s)
  unfold State.logRecord
  extract_lets counted s'
  have hs' : s.Notes s' := .ite ((hcounted s _ _ _).trans ⟨rfl, fun _ => rfl⟩) (.refl s)
  split
  next n _ => exact hs'.trans (.ite ((hcounted s' _ _ _).trans (.modLog _ n (fun l => l.push 4096 r))) (.refl s'))
  next => exact hs'

theorem report (s : State) (k : Source) (code p0 p1 : Nat) : s.Notes (s.report k code p0 p1) := by
  unfold State.report
  extract_lets r
  split
  · exact .ite (.refl s) ((State.Notes.modFold s _ _).trans (.logRecord _ k r))
  · exact .logRecord s k r

theorem failItems (s : State) (f c st : Nat) : s.Notes (s.failItems f c st) := .modFold s f _

section
variable (h : s.Notes t)
include h

theorem cores : t.cores = s.cores := by rw [h.frame]
theorem clusters : t.clusters = s.clusters := by rw [h.frame]
theorem nextTag : t.nextTag = s.nextTag := by rw [h.frame]
theorem now : t.now = s.now := by rw [h.frame]
theorem packets : t.packets = s.packets := by rw [h.frame]
theorem core (c : Nat) : t.core c = s.core c := by rw [State.core, State.core, h.cores]
theorem cluster (q : Nat) : t.cluster q = s.cluster q := by rw [State.cluster, State.cluster, h.clusters]
theorem sameRows : SameRows s t := .of_clusters h.clusters

end

end State.Notes

/-! ### `State.hardwareLeave` -/

section
variable (s : State) (c cls : Nat) (op : Begin)

/-- The request that hardware makes in the name of core `c`. -/
def State.leaveReqOf : LeaveReq :=
  ⟨s.nextTag, cls, clusterOf c, 2 ^ coreIndex c, s.classDefault (clusterOf c) cls, 0, 0, s.now, none, some op⟩

theorem State.hardwareLeave_off : s.hardwareLeave c cls true op = s.enterReq (s.leaveReqOf c cls op) := rfl

theorem State.hardwareLeave_on : ((s.enterReq (s.leaveReqOf c cls op)).modCore c
    (fun k => { k with leaves := k.leaves ++ [(cls, s.nextTag)] })).Notes (s.hardwareLeave c cls false op) :=
  (State.Notes.bump _ _ _ _).trans (.ite (.report _ _ _ _ _) (.refl _))

variable (off : Bool)

theorem State.core_hardwareLeave (x : Nat) : (s.hardwareLeave c cls off op).core x = if x = c then
    { s.core c with leaves := if off then (s.core c).leaves else (s.core c).leaves ++ [(cls, s.nextTag)] } else s.core x := by
  cases off with
  | true =>
    rw [State.hardwareLeave_off]
    split
    next h => rw [h]; rfl
    next => rfl
  | false =>
    rw [(s.hardwareLeave_on c cls op).core, State.core_of_modCore]
    rfl

theorem State.clusters_hardwareLeave : (s.hardwareLeave c cls off op).clusters = s.clusters := by
  cases off with
  | true => rfl
  | false => exact (s.hardwareLeave_on c cls op).clusters

theorem State.arb_modArb (m : Nat) (g : Arbiter → Arbiter) (n : Nat) :
    ((s.modArb m g).hub n).arb = if n = m then g (s.hub n).arb else (s.hub n).arb := by
  rw [State.modArb, State.hub_of_modHub]
  split
  next h => rw [h]
  next => rfl

theorem State.arb_enterReq (r : LeaveReq) (n : Nat) : ((s.enterReq r).hub n).arb =
    if n = r.q / 24 then { (s.hub n).arb with waiting := (s.hub n).arb.waiting ++ [r] } else (s.hub n).arb :=
  s.arb_modArb (r.q / 24) (fun a => { a with waiting := a.waiting ++ [r] }) n

theorem State.arb_hardwareLeave (n : Nat) : ((s.hardwareLeave c cls off op).hub n).arb = if n = clusterOf c / 24 then
    { (s.hub n).arb with waiting := (s.hub n).arb.waiting ++ [s.leaveReqOf c cls op] } else (s.hub n).arb := by
  cases off with
  | true => exact s.arb_enterReq (s.leaveReqOf c cls op) n
  | false => exact ((s.hardwareLeave_on c cls op).arb n).trans (s.arb_enterReq (s.leaveReqOf c cls op) n)

end

end Sys2Proof.Machine
end

section
/-! The matrix engine (R92 to R95, R129, R229): the start and the end of an MMA, the accumulators, and O10. -/

namespace Sys2Proof.Machine

/-! ### The bundle that follows -/

theorem nextBundle_goOn {o : CoreOp} {s t : State} (h : t.now = s.now) :
    NextBundle o s (t.goOn o.core ((s.core o.core).pc + 1) 0) := by
  rw [NextBundle, State.goOn, State.core_of_modCore, if_pos rfl, h]
  exact ⟨rfl, rfl, rfl⟩

theorem State.core_goOn (s : State) (c pc idle : Nat) :
    (s.goOn c pc idle).core c = { s.core c with issueAt := s.now + 1 + idle, pc := pc, held := none } := by
  rw [State.goOn, State.core_of_modCore, if_pos rfl]

/-! ### `State.startMma` -/

section
variable (s : State) (c : Nat) (m : Mma)

theorem State.core_beginMma : (s.beginMma c m).core c =
    { s.core c with mmaWait := none, mmaRun := some { m with ends := s.now + mmaTicks m.kind } } := by
  rw [State.beginMma, State.core_of_modCore, if_pos rfl]

theorem State.core_askMma : (s.askMma c m).core c = { s.core c with
    mmaWait := some { m with grant := some s.nextTag }
    leaves := if m.off then (s.core c).leaves else (s.core c).leaves ++ [(clsMatrix, s.nextTag)] } := by
  rw [State.askMma, State.core_of_modCore, if_pos rfl, State.core_hardwareLeave, if_pos rfl]

theorem State.clusters_askMma : (s.askMma c m).clusters = s.clusters := s.clusters_hardwareLeave _ _ _ _

/-- What a start, or the wait for one, leaves. -/
structure State.MmaKeeps (s t : State) (c : Nat) : Prop where
  now : t.now = s.now
  clusters : t.clusters = s.clusters
  files : t.files c = s.files c

theorem State.now_hardwareLeave (cls : Nat) (off : Bool) (op : Begin) : (s.hardwareLeave c cls off op).now = s.now := by
  cases off with
  | true => rfl
  | false => exact (s.hardwareLeave_on c cls op).now

theorem State.mmaKeeps_beginMma : s.MmaKeeps (s.beginMma c m) c :=
  ⟨rfl, rfl, by rw [State.files, State.core_beginMma, State.files]⟩

theorem State.mmaKeeps_askMma : s.MmaKeeps (s.askMma c m) c :=
  ⟨s.now_hardwareLeave _ _ _ _, s.clusters_askMma c m, by rw [State.files, State.core_askMma, State.files]⟩

end

/-- R92, R129: an MMA that has just been put into the waiting slot. -/
theorem State.startMma_issued {s : State} {c : Nat} {m : Mma} (hwait : (s.core c).mmaWait = some m) (hg : m.grant = none) :
    s.MmaKeeps (s.startMma c) c ∧
    if (s.core c).mmaRun.isSome then
      ((s.startMma c).core c).mmaRun = (s.core c).mmaRun ∧ ((s.startMma c).core c).mmaWait = some m
    else if s.covered c clsMatrix s.now (s.now + mmaTicks m.kind) then
      ((s.startMma c).core c).mmaRun = some { m with ends := s.now + mmaTicks m.kind } ∧ ((s.startMma c).core c).mmaWait = none
    else ((s.startMma c).core c).mmaRun = none ∧ ((s.startMma c).core c).mmaWait.isSome = true := by
  cases hrun : (s.core c).mmaRun with
  | some r =>
    rw [State.startMma_of_running (by rw [hrun]; rfl)]
    exact ⟨⟨rfl, rfl, rfl⟩, hrun, hwait⟩
  | none =>
    cases hcov : s.covered c clsMatrix s.now (s.now + mmaTicks m.kind) with
    | true =>
      rw [State.startMma_of_covered hrun hwait hg hcov]
      refine ⟨s.mmaKeeps_beginMma c m, ?_⟩
      rw [State.core_beginMma]
      exact ⟨rfl, rfl⟩
    | false =>
      rw [State.startMma_of_uncovered hrun hwait hg hcov]
      by_cases hheld : 16 ≤ s.held (clusterOf c)
      · rw [if_pos hheld]
        exact ⟨⟨rfl, rfl, rfl⟩, hrun, by rw [hwait]; rfl⟩
      · rw [if_neg hheld]
        refine ⟨s.mmaKeeps_askMma c m, ?_⟩
        rw [State.core_askMma]
        exact ⟨hrun, rfl⟩

/-! ### The accumulator after an MMA -/

/-- Element `i` of an accumulator that is put together from elements of 32 bits. -/
theorem accNat_elem {l : List Nat} (h : ∀ x ∈ l, x < 2 ^ 32) (i : Nat) : accNat l / 2 ^ (32 * i) % 2 ^ 32 = l.getD i 0 := by
  induction l generalizing i with
  | nil => simp [accNat]
  | cons x l ih =>
    have hx : x < 2 ^ 32 := h x List.mem_cons_self
    cases i with
    | zero => simpa [accNat] using hx
    | succ i =>
      rw [accNat, Nat.mul_succ, Nat.add_comm (32 * i), Nat.pow_add, ← Nat.div_div_eq_div_mul,
        Nat.add_mul_div_left _ _ (Nat.two_pow_pos _), Nat.div_eq_of_lt hx, Nat.zero_add,
        ih (fun y hy => h y (List.mem_cons_of_mem _ hy)), List.getD_cons_succ]

theorem accNat_lt {l : List Nat} (h : ∀ x ∈ l, x < 2 ^ 32) : accNat l < 2 ^ (32 * l.length) := by
  induction l with
  | nil => simp [accNat]
  | cons x l ih =>
    have hx : x < 2 ^ 32 := h x List.mem_cons_self
    have hl : 2 ^ 32 * (accNat l + 1) ≤ 2 ^ 32 * 2 ^ (32 * l.length) :=
      Nat.mul_le_mul_left _ (ih (fun y hy => h y (List.mem_cons_of_mem _ hy)))
    rw [accNat, List.length_cons, Nat.mul_succ, Nat.add_comm (32 * l.length), Nat.pow_add]
    rw [Nat.mul_succ] at hl
    omega

theorem ofSigned_lt (w : Nat) (v : Int) : ofSigned w v < 2 ^ w := by
  have hw : (0 : Int) < (2 ^ w : Nat) := Int.natCast_pos.mpr (Nat.two_pow_pos w)
  have := Int.emod_lt_of_pos v hw
  have := Int.emod_nonneg v hw.ne'
  unfold ofSigned
  omega

/-- R229 for the integer products. -/
theorem mmaElem_int {m : Mma} (h : mmaTag m.kind = .int32) (ta tb acc : Tile) (i : Nat) : mmaElem m ta tb acc i =
    ofSigned 32 (saturate 32 (toSigned 32 (accElem acc i) + ((List.range (mmaDepth m.kind)).map (fun x =>
      intElem m.kind ta m.hiA (i / 32) x * intElem m.kind tb m.hiB (i % 32) x)).foldl (· + ·) 0)) := by
  simp only [mmaElem, h]

theorem accElem_mmaResult {m : Mma} (h : mmaTag m.kind = .int32) (f : Files) {i : Nat} (hi : i < 1024) :
    accElem (mmaResult m f) i = mmaElem m (f.t m.tA) (f.t m.tB) (f.a m.acc) i := by
  have hlt : ∀ x ∈ (List.range 1024).map (mmaElem m (f.t m.tA) (f.t m.tB) (f.a m.acc)), x < 2 ^ 32 := by
    intro x hx
    obtain ⟨j, -, rfl⟩ := List.mem_map.mp hx
    rw [mmaElem_int h]
    exact ofSigned_lt _ _
  have hall := accNat_lt hlt
  rw [List.length_map, List.length_range] at hall
  rw [accElem, mmaResult, BitVec.toNat_ofNat, Nat.mod_eq_of_lt hall, accNat_elem hlt]
  simp [List.getD, hi]

/-! ### ACC.MV -/

/-- Eight vector registers that take the parts of a row. -/
theorem Files.v_setRowV (f : Files) (d : Nat) (r : Row) (n : Nat) :
    (f.setRowV d r).v n = if d ≤ n ∧ n < d + 8 then Row.part r (n - d) else f.v n := by
  have hl : ∀ (l : List Nat) (g : Files), l.Nodup → (l.foldl (fun acc i => acc.setV (d + i) (Row.part r i)) g).v n =
      if d ≤ n ∧ n - d ∈ l then Row.part r (n - d) else g.v n := by
    intro l
    induction l with
    | nil => intro g _; simp
    | cons i l ih =>
      intro g hnd
      obtain ⟨hi, hnd⟩ := List.nodup_cons.mp hnd
      rw [List.foldl_cons, ih _ hnd, Files.v_setV]
      by_cases hn : n = d + i
      · subst hn
        simp [hi]
      · have : d ≤ n → n - d ≠ i := by omega
        by_cases hd : d ≤ n <;> simp [hn, hd, this]
  rw [Files.setRowV, hl _ _ List.nodup_range]
  have : (d ≤ n ∧ n - d ∈ List.range 8) ↔ (d ≤ n ∧ n < d + 8) := by
    rw [List.mem_range]
    omega
  simp only [this]

theorem Files.setRowV_only (f : Files) (d : Nat) (r : Row) : f.setRowV d r = { f with vreg := (f.setRowV d r).vreg } :=
  List.foldlRecOn (motive := fun g : Files => g = { f with vreg := g.vreg }) _ _ rfl (fun g hg i _ => by
    rw [hg]
    rfl)

/-- Registers that are written together are ready together. -/
theorem State.core_foldl_readyAt (c n : Nat) (codes : List Nat) (s : State) :
    (codes.foldl (fun s a => s.readyAt c a (s.now + n)) s).core c =
      { s.core c with ready := codes.foldl (fun m a => Map.set 0 m a (s.now + n)) (s.core c).ready } := by
  induction codes generalizing s with
  | nil => rfl
  | cons a l ih =>
    rw [List.foldl_cons, ih, State.readyAt, State.core_of_modCore, if_pos rfl, List.foldl_cons]
    rfl

theorem Map.get_foldl_set (x : Nat) (codes : List Nat) (m : Map Nat) (n : Nat) :
    Map.get 0 (codes.foldl (fun m a => Map.set 0 m a x) m) n = if n ∈ codes then x else Map.get 0 m n := by
  induction codes generalizing m with
  | nil => simp
  | cons a l ih =>
    rw [List.foldl_cons, ih, Map.get_set]
    by_cases hn : n = a <;> simp [hn]

theorem onlyCore_foldl_readyAt (c n : Nat) (codes : List Nat) (s : State) :
    OnlyCore c s (codes.foldl (fun s a => s.readyAt c a (s.now + n)) s) :=
  List.foldlRecOn (motive := OnlyCore c s) _ _ (.refl c s) (fun _ h _ _ => h.trans (onlyCore_readyAt _ _ _ _))

theorem mem_vCodes {d i : Nat} (hi : i < 8) : vCode (d + i) ∈ vCodes d := List.mem_map.mpr ⟨i, List.mem_range.mpr hi, rfl⟩

end Sys2Proof.Machine
end

section
/-! The commands of the matrix engine one by one, and O10. -/

namespace Sys2Proof.Machine

/-- Table 03-9: an MMA whose tag agrees issues. -/
theorem exec_mma_clause {t : Nat} {o : CoreOp} {k : MmaKind} {hiA hiB : Bool} {s : State}
    (h : (s.at t).issuesAlone o (mmaOp o k hiA hiB (s.at t)) = true) (g : (s.at t).gateOpen o = true)
    (htag : ((s.at t).files o.core).tag o.d = .none ∨ ((s.at t).files o.core).tag o.d = mmaTag k) :
    ∃ s', exec (.mma t o k hiA hiB) s = .next s' ∧ NextBundle o (s.at t) s' ∧ SameRows (s.at t) s' ∧
      (s'.files o.core) = { (s.at t).files o.core with tags := (s'.files o.core).tags } ∧
      (∀ a, (s'.files o.core).tag a = if a = o.d then mmaTag k else ((s.at t).files o.core).tag a) ∧
      (if ((s.at t).core o.core).mmaRun.isSome then
        (s'.core o.core).mmaRun = ((s.at t).core o.core).mmaRun ∧
        (s'.core o.core).mmaWait = some ⟨k, o.d, o.a, hiA, o.b, hiB, 0, none, false⟩
      else if (s.at t).covered o.core clsMatrix (s.at t).now ((s.at t).now + mmaTicks k) then
        (s'.core o.core).mmaRun = some ⟨k, o.d, o.a, hiA, o.b, hiB, (s.at t).now + mmaTicks k, none, false⟩ ∧
        (s'.core o.core).mmaWait = none
      else (s'.core o.core).mmaRun = none ∧ (s'.core o.core).mmaWait.isSome = true) := by
  let m : Mma := ⟨k, o.d, o.a, hiA, o.b, hiB, 0, none, false⟩
  let u := (s.at t).modCore o.core (fun c => { c with mmaWait := some m, files := c.files.setTag o.d (mmaTag k) })
  have hrun : (mmaOp o k hiA hiB (s.at t)).run ((s.at t).files o.core) (s.at t) = .ok (u.startMma o.core) :=
    if_neg fun hne => htag.elim hne.1 hne.2
  have hcore : u.core o.core = { (s.at t).core o.core with mmaWait := some m, files := ((s.at t).files o.core).setTag o.d (mmaTag k) } := by
    simp only [u, State.core_of_modCore, if_true]
    rfl
  obtain ⟨⟨hnow, hclusters, hfiles⟩, hslots⟩ := State.startMma_issued (s := u) (c := o.core) (m := m) (by rw [hcore]) rfl
  have hfiles' : ((u.startMma o.core).goOn o.core (((s.at t).core o.core).pc + 1) 0).files o.core =
      ((s.at t).files o.core).setTag o.d (mmaTag k) := by
    rw [State.files_goOn, hfiles, State.files, hcore]
  refine ⟨_, exec_ok rfl h (fun _ => g) hrun, nextBundle_goOn hnow, .of_clusters hclusters, ?_, fun a => ?_, ?_⟩
  · rw [hfiles']
    rfl
  · rw [hfiles', Files.tag_setTag]
  · rw [State.core_goOn]
    rw [hcore] at hslots
    exact hslots

/-- R129: an MMA that leave covers, or whose grant has begun, starts. -/
theorem exec_mmaStart_begins {t c : Nat} {m : Mma} {s : State} (hc : validCore c = true) (hrun : ((s.at t).core c).mmaRun = none)
    (hwait : ((s.at t).core c).mmaWait = some m)
    (hmay : match m.grant with
      | none => (s.at t).covered c clsMatrix (s.at t).now ((s.at t).now + mmaTicks m.kind) = true
      | some id => (s.at t).unbegun (clusterOf c / 24) id = false) :
    exec (.mmaStart t c) s = .next ((s.at t).beginMma c m) := by
  have hstart : (s.at t).startMma c = (s.at t).beginMma c m := by
    cases hg : m.grant with
    | none =>
      rw [hg] at hmay
      exact State.startMma_of_covered hrun hwait hg hmay
    | some id =>
      rw [hg] at hmay
      exact State.startMma_of_granted hrun hwait hg hmay
  show onUnit (validCore c) _ = _
  rw [hstart, hc]
  rfl

theorem exec_mmaStart_asks {t c : Nat} {m : Mma} {s : State} (hc : validCore c = true) (hrun : ((s.at t).core c).mmaRun = none)
    (hwait : ((s.at t).core c).mmaWait = some m) (hg : m.grant = none)
    (hcov : (s.at t).covered c clsMatrix (s.at t).now ((s.at t).now + mmaTicks m.kind) = false)
    (hheld : (s.at t).held (clusterOf c) < 16) : exec (.mmaStart t c) s = .next ((s.at t).askMma c m) := by
  show onUnit (validCore c) _ = _
  rw [State.startMma_of_uncovered hrun hwait hg hcov, if_neg (Nat.not_le.mpr hheld), hc]
  rfl

/-- The state in which the running MMA `m` of core `c` has ended. -/
def State.mmaEnded (s : State) (c : Nat) (m : Mma) : State :=
  s.modCore c (fun k => { k with mmaRun := none, files := if m.off then k.files else k.files.setA m.acc (mmaResult m k.files) })

theorem exec_mmaEnd {t c : Nat} {m : Mma} {s : State} (hc : validCore c = true) (hrun : ((s.at t).core c).mmaRun = some m)
    (hends : m.ends ≤ (s.at t).now) : exec (.mmaEnd t c) s = .next ((s.at t).mmaEnded c m) := by
  show onUnit (validCore c) ((s.at t).endMma c) = _
  rw [State.endMma, hrun, hc]
  exact congrArg Host.Outcome.next (if_pos hends)

theorem State.core_mmaEnded (s : State) (c : Nat) (m : Mma) : (s.mmaEnded c m).core c = { s.core c with
    mmaRun := none, files := if m.off then s.files c else (s.files c).setA m.acc (mmaResult m (s.files c)) } := by
  rw [State.mmaEnded, State.core_of_modCore, if_pos rfl]
  rfl

theorem State.files_mmaEnded (s : State) (c : Nat) (m : Mma) : (s.mmaEnded c m).files c =
    if m.off then s.files c else (s.files c).setA m.acc (mmaResult m (s.files c)) := by
  rw [State.files, State.core_mmaEnded]

theorem Files.a_setTag (f : Files) (d : Nat) (x : AccTag) (n : Nat) : (f.setTag d x).a n = f.a n := rfl
theorem Files.tag_setA (f : Files) (d : Nat) (x : Tile) (n : Nat) : (f.setA d x).tag n = f.tag n := rfl

theorem Files.setTag_setA_only (f : Files) (d : Nat) (x : Tile) (y : AccTag) : (f.setA d x).setTag d y =
    { f with acc := ((f.setA d x).setTag d y).acc, tags := ((f.setA d x).setTag d y).tags } := rfl

/-- ACC.CLR: an accumulator of zeros without a tag. -/
theorem accClr_goOn (o : CoreOp) (s : State) :
    let t := ((s.modFiles o.core (fun f => (f.setA o.d 0).setTag o.d .none)).readyAt o.core (aCode o.d) (s.now + 2)).goOn
      o.core ((s.core o.core).pc + 1) 0
    GoesOn o ((s.core o.core).pc + 1) 0 s t ∧ ReadyFrom o (aCode o.d) (s.now + 2) s t ∧
      t.files o.core = ((s.files o.core).setA o.d 0).setTag o.d .none := by
  refine ⟨⟨((onlyCore_modFiles _ _ _).trans (onlyCore_readyAt _ _ _ _)).trans (onlyCore_goOn _ _ _ _), ?_⟩, fun n => ?_, ?_⟩
  · simp [State.goOn, State.readyAt, State.modFiles, State.files]
  · simp [State.goOn, State.readyAt, State.modFiles]
  · simp

/-- ACC.MV: eight vector registers that take the parts of row `r`. -/
theorem accMv_goOn (o : CoreOp) (r : Row) (s : State) :
    let t := ((vCodes o.d).foldl (fun s c => s.readyAt o.core c (s.now + 4))
      (s.modFiles o.core (fun g => g.setRowV o.d r))).goOn o.core ((s.core o.core).pc + 1) 0
    GoesOn o ((s.core o.core).pc + 1) 0 s t ∧ t.files o.core = (s.files o.core).setRowV o.d r ∧
      ∀ i, i < 8 → Map.get 0 (t.core o.core).ready (vCode (o.d + i)) = s.now + 4 := by
  intro t
  have hcore : t.core o.core = { s.core o.core with
      files := (s.files o.core).setRowV o.d r
      ready := (vCodes o.d).foldl (fun m a => Map.set 0 m a (s.now + 4)) (s.core o.core).ready
      issueAt := s.now + 1 + 0, pc := (s.core o.core).pc + 1, held := none } := by
    have hnow : ((vCodes o.d).foldl (fun s c => s.readyAt o.core c (s.now + 4))
        (s.modFiles o.core (fun g => g.setRowV o.d r))).now = s.now := by
      rw [(onlyCore_foldl_readyAt _ _ _ _).1]
      rfl
    rw [State.core_goOn, hnow, State.core_foldl_readyAt, State.modFiles, State.core_of_modCore, if_pos rfl]
    rfl
  refine ⟨⟨((onlyCore_modFiles _ _ _).trans (onlyCore_foldl_readyAt _ _ _ _)).trans (onlyCore_goOn _ _ _ _), ?_⟩, ?_, fun i hi => ?_⟩
  · rw [State.files, hcore]
  · rw [State.files, hcore]
  · rw [hcore, Map.get_foldl_set, if_pos (mem_vCodes hi)]

end Sys2Proof.Machine

namespace Sys2Proof
open Machine

/-- Settles O10: the MMA slot by slot, its result element by element, and the two moves of accumulators. -/
theorem matrixCompletes : Obligations.MatrixCompletes := by
  refine ⟨fun t o k hiA hiB s h g htag => exec_mma_clause h g htag, fun t c m s hc hrun hwait => ⟨fun hmay => ?_, fun hcov hg hheld => ?_⟩,
    fun t c m s hc hrun hends => ?ends, fun t o s g => ⟨fun h => ?clr, fun h => ?mv⟩⟩
  · exact ⟨_, exec_mmaStart_begins hc hrun hwait hmay, onlyCore_modCore _ _ _, State.core_beginMma _ c m⟩
  · refine ⟨_, exec_mmaStart_asks hc hrun hwait hg hcov hheld, .of_clusters (State.clusters_askMma _ c m), State.core_askMma _ c m, ?_⟩
    have harb := (s.at t).arb_hardwareLeave c clsMatrix ⟨mmaTicks m.kind, 0, 1, 0⟩ m.off (clusterOf c / 24)
    rw [if_pos rfl] at harb
    exact congrArg Arbiter.waiting harb
  case ends =>
    have hcore := (s.at t).core_mmaEnded c m
    have hfiles := (s.at t).files_mmaEnded c m
    generalize hx : mmaResult m ((s.at t).files c) = x at hcore hfiles ⊢
    refine ⟨_, exec_mmaEnd hc hrun hends, onlyCore_modCore _ _ _, ?_, ?_, fun hoff => ?_, fun hoff => ?_⟩
    · rw [hcore]
    · rw [hcore, hfiles]
    · rw [hfiles, if_pos hoff]
    · have hset := hfiles.trans (if_neg (Bool.eq_false_iff.mp hoff))
      refine ⟨?_, fun a => ?_, fun hint i hi => ?_⟩
      · rw [hset]
        rfl
      · rw [hset, Files.a_setA]
      · rw [hset, Files.a_setA, if_pos rfl, ← hx, accElem_mmaResult hint _ hi, mmaElem_int hint]
  case clr =>
    obtain ⟨hgo, hready, hfiles⟩ := accClr_goOn o (s.at t)
    refine ⟨_, exec_ok rfl h (fun _ => g) rfl, hgo, hready, ?_, fun a => ?_, fun a => ?_⟩
    · rw [hfiles]
      exact Files.setTag_setA_only _ _ _ _
    · rw [hfiles, Files.a_setTag, Files.a_setA]
    · rw [hfiles, Files.tag_setTag, Files.tag_setA]
  case mv =>
    obtain ⟨hgo, hfiles, hready⟩ := accMv_goOn o (Tile.slice (((s.at t).files o.core).a o.a) o.u) (s.at t)
    refine ⟨_, exec_ok rfl h (fun _ => g) rfl, hgo, ?_, fun i hi => ⟨?_, hready i hi⟩, fun n hn => ?_⟩
    · rw [hfiles]
      exact Files.setRowV_only _ _ _
    · rw [hfiles, Files.v_setRowV, if_pos (by omega), Nat.add_sub_cancel_left]
    · rw [hfiles, Files.v_setRowV, if_neg (by omega)]

end Sys2Proof
end

section
/-! ROW.LD and ROW.ST (R99, R100, R150): the access that a row move presents, and O11. -/

namespace Sys2Proof.Machine

/-! ### Changes within one core and one cluster -/

namespace OnlyCoreAndCluster
variable {c q : Nat} {s t : State}

theorem of_core (h : OnlyCore c s t) : OnlyCoreAndCluster c q s t := by
  obtain ⟨hs, hc⟩ := h
  refine ⟨?_, hc, fun x _ => ?_⟩
  · rw [hs]
  · rw [hs]
    rfl

theorem modCore (h : OnlyCoreAndCluster c q s t) (f : Core → Core) : OnlyCoreAndCluster c q s (t.modCore c f) := by
  obtain ⟨ht, hc, hq⟩ := h
  obtain ⟨-, hc'⟩ := onlyCore_modCore t c f
  refine ⟨?_, fun x hx => (hc' x hx).trans (hc x hx), hq⟩
  rw [ht]
  rfl

theorem modCluster (h : OnlyCoreAndCluster c q s t) (f : Cluster → Cluster) : OnlyCoreAndCluster c q s (t.modCluster q f) := by
  obtain ⟨ht, hc, hq⟩ := h
  obtain ⟨-, hq'⟩ := onlyCluster_modCluster t q f
  refine ⟨?_, hc, fun x hx => (hq' x hx).trans (hq x hx)⟩
  rw [ht]
  rfl

theorem goOn (h : OnlyCoreAndCluster c q s t) (pc idle : Nat) : OnlyCoreAndCluster c q s (t.goOn c pc idle) := h.modCore _

end OnlyCoreAndCluster

/-! ### Accesses -/

@[simp] theorem State.core_present (s : State) (q : Nat) (a : Access) (c : Nat) : (s.present q a).core c = s.core c := rfl

@[simp] theorem State.cluster_present (s : State) (q : Nat) (a : Access) (p : Nat) : (s.present q a).cluster p =
    if p = q then { s.cluster q with access := (s.cluster q).access ++ [a] } else s.cluster p :=
  State.cluster_of_modCluster s q _ p

/-! ### `rowMove` -/

section
variable (o : CoreOp) (f : Files) (s : State) (op : AccessOp)

/-- The access of a row move that issues now. -/
def State.moveAccess : Access :=
  ⟨.core (coreIndex o.core), (f.s o.a).toNat, s.moveEdge o.core (s.myFold o), op, s.myFold o, o.core, false⟩

/-- The state in which a row move has presented its access. -/
def State.moved : State :=
  (s.modCore o.core (fun k => { k with lastEdge := some (s.moveEdge o.core (s.myFold o)), rowGrant := none })).present o.q
    (s.moveAccess o f op)

variable {o f s}

theorem moveFault_eq_none (ha : (f.s o.a).toNat < 49152) (hreach : s.reaches (s.myFold o) o.q (f.s o.a).toNat = true) :
    moveFault o f s = none :=
  (if_neg (Nat.not_le.mpr ha)).trans (if_neg (not_not_intro hreach))

theorem rowMove_of_free (after : State → State) (hfault : moveFault o f s = none) (hfree : s.moveFree o = true) :
    rowMove o f s op after = .ok (after (s.moved o f op)) := by
  simp only [rowMove, hfault, State.moveLeave_of_free false hfree]
  rfl

theorem State.core_moved : (s.moved o f op).core o.core =
    { s.core o.core with lastEdge := some (s.moveEdge o.core (s.myFold o)), rowGrant := none } := by
  rw [State.moved, State.core_present, State.core_of_modCore, if_pos rfl]

theorem State.cluster_moved : (s.moved o f op).cluster o.q =
    { s.cluster o.q with access := (s.cluster o.q).access ++ [s.moveAccess o f op] } := by
  rw [State.moved, State.cluster_present, if_pos rfl, State.cluster_of_modCore]

theorem State.onlyCoreAndCluster_moved : OnlyCoreAndCluster o.core o.q s (s.moved o f op) := by
  unfold State.moved State.present
  exact (OnlyCoreAndCluster.modCore (.of_core (.refl o.core s)) _).modCluster _

/-- After the bundle of a row move; `codes` are the registers that then wait for the row. -/
theorem State.moved_goOn {x : State} (codes : List Nat) (honly : OnlyCoreAndCluster o.core o.q s x) (hnow : x.now = s.now)
    (hcore : x.core o.core = { (s.moved o f op).core o.core with await := codes ++ (s.core o.core).await })
    (hcluster : x.cluster o.q = (s.moved o f op).cluster o.q) :
    let t := x.goOn o.core ((s.core o.core).pc + 1) 0
    OnlyCoreAndCluster o.core o.q s t ∧ NextBundle o s t ∧ SameFiles o.core s t ∧
      (t.core o.core).lastEdge = some (s.moveEdge o.core (s.myFold o)) ∧
      (t.core o.core).await = codes ++ (s.core o.core).await ∧
      t.cluster o.q = { s.cluster o.q with access := (s.cluster o.q).access ++ [s.moveAccess o f op] } := by
  rw [State.core_moved] at hcore
  refine ⟨honly.goOn _ _, nextBundle_goOn hnow, ?_, ?_, ?_, hcluster.trans (State.cluster_moved op)⟩
  · rw [SameFiles, State.files_goOn, State.files, hcore, State.files]
  · rw [State.core_goOn, hcore]
  · rw [State.core_goOn, hcore]

end

end Sys2Proof.Machine

namespace Sys2Proof
open Machine

/-- Settles O11: a row move that leave does not hold up runs to `State.moved`. -/
theorem rowMovesComplete : Obligations.RowMovesComplete := by
  intro t o tile s g u a e acc ha hreach hfree
  have hfault := moveFault_eq_none ha hreach
  have hload : (rowLdOp o tile u).run (u.files o.core) u = .ok ((u.moved o (u.files o.core)
      (if tile then .toTile o.d o.u else .toVec o.d)).awaits o.core (if tile then [tCode o.d] else vCodes o.d)) :=
    rowMove_of_free _ (fun s => s.awaits o.core (if tile then [tCode o.d] else vCodes o.d)) hfault hfree
  have hstore : (rowStOp o tile).run (u.files o.core) u = .ok (u.moved o (u.files o.core)
      (.write (coreIndex o.core) (if tile then Tile.slice ((u.files o.core).t o.d) o.u else (u.files o.core).rowOfV o.d))) :=
    rowMove_of_free _ id hfault hfree
  refine ⟨fun h => ⟨_, exec_ok rfl h (fun _ => g) hload, State.moved_goOn _ _ ?_ rfl ?_ rfl⟩,
    fun h => ⟨_, exec_ok rfl h (fun _ => g) hstore, State.moved_goOn _ [] (State.onlyCoreAndCluster_moved _) rfl ?_ rfl⟩⟩
  · exact (State.onlyCoreAndCluster_moved _).modCore _
  · rw [State.awaits, State.core_of_modCore, if_pos rfl, State.core_moved]
  · rw [State.core_moved]
    rfl

end Sys2Proof
end

section
/-! Requests leave a queue pair (R104, R303, R304): what goes on the mesh and over the links, and what stays of the cluster. -/

namespace Sys2Proof.Machine

/-! ### What leaves the module or enters the mesh -/

/-- `t` differs from `s` in packets on the mesh and in what stands at the ports and the hubs for other modules. -/
structure State.Emits (s t : State) : Prop where
  frame : t = { s with packets := t.packets, nextTag := t.nextTag, ports := t.ports, out := t.out, inbox := t.inbox }

namespace State.Emits
variable {s t u : State}

theorem refl (s : State) : s.Emits s := ⟨rfl⟩

theorem trans (h : s.Emits t) (h' : t.Emits u) : s.Emits u := by
  obtain ⟨ht⟩ := h
  obtain ⟨hu⟩ := h'
  refine ⟨?_⟩
  rw [hu, ht]

theorem of_sends (h : s.Sends t) : s.Emits t := ⟨by rw [h.frame]⟩

theorem foldl {α : Type} {g : State → α → State} (hg : ∀ (t : State) a, t.Emits (g t a)) (l : List α) (s : State) :
    s.Emits (l.foldl g s) :=
  List.foldlRecOn (motive := s.Emits) l g (.refl s) (fun _ h _ _ => h.trans (hg _ _))

theorem inject (s : State) (p : Packet) : s.Emits (s.inject p) := ⟨rfl⟩

theorem injectRows (s : State) (p : Packet) (i n : Nat) (l : List (Option Row)) : s.Emits (s.injectRows p i n l) := by
  induction l generalizing s i with
  | nil => exact .refl s
  | cons r l ih => exact (State.Emits.inject s _).trans (ih _ _)

theorem sendRequest (s : State) (f q k : Nat) (r : QReq) (dst first x : Nat) : s.Emits (s.sendRequest f q k r dst first x) := by
  unfold State.sendRequest
  extract_lets p
  split
  · exact .injectRows _ _ _ _ _
  · exact .inject _ _

theorem deposit (s : State) (p n : Nat) (h : RowHeader) (r : Row) : s.Emits (s.deposit p n h r) := ⟨rfl⟩

theorem sendPacket (s : State) (c vc : Nat) (h : RowHeader) (rows : List Row) : s.Emits (s.sendPacket c vc h rows) := by
  unfold State.sendPacket
  extract_lets l
  split
  · exact .foldl (fun t x => .deposit t _ _ _ _) l s
  · split
    · exact .foldl (fun t x => .of_sends (t.sends_sendTx _ _)) _ s
    · exact .deposit _ _ _ _ _

theorem sendWindow (s : State) (f : Nat) (r : QReq) : s.Emits (s.sendWindow f r) := by
  unfold State.sendWindow
  split
  · exact .sendPacket _ _ _ _ _
  · exact .refl s

theorem sendOut (s : State) (q k : Nat) (r : QReq) (x : Nat) : s.Emits (s.sendOut q k r x) := by
  unfold State.sendOut
  extract_lets f
  split
  · exact .sendRequest _ _ _ _ _ _ _ _
  · exact .sendRequest _ _ _ _ _ _ _ _
  · split
    · exact .sendRequest _ _ _ _ _ _ _ _
    · exact .sendWindow _ _ _
  · exact .refl s

section
variable (h : s.Emits t)
include h

theorem cores : t.cores = s.cores := by rw [h.frame]
theorem clusters : t.clusters = s.clusters := by rw [h.frame]
theorem now : t.now = s.now := by rw [h.frame]
theorem cluster (q : Nat) : t.cluster q = s.cluster q := by rw [State.cluster, State.cluster, h.clusters]
theorem queue (q k : Nat) : t.queue q k = s.queue q k := by rw [State.queue, State.queue, h.cluster]

end

end State.Emits

/-! ### Queue pairs -/

@[simp] theorem State.queue_modQueue (s : State) (q k : Nat) (f : Queue → Queue) (j : Nat) :
    (s.modQueue q k f).queue q j = if j = k then f (s.queue q k) else s.queue q j := by
  rw [State.queue, State.modQueue, State.cluster_of_modCluster, if_pos rfl, Map.get_set]
  rfl

@[simp] theorem State.core_modQueue (s : State) (q k : Nat) (f : Queue → Queue) (c : Nat) : (s.modQueue q k f).core c = s.core c := rfl

/-- `t` differs from `s` in the requests that wait at queue pair `k` of cluster `q` and in those under way, and in what those have
put on the mesh or on the links. -/
structure State.Passes (q k : Nat) (s t : State) : Prop where
  frame : t = { s with clusters := t.clusters, packets := t.packets, nextTag := t.nextTag, ports := t.ports, out := t.out, inbox := t.inbox }
  other : ∀ p, p ≠ q → t.cluster p = s.cluster p
  cluster : t.cluster q = { s.cluster q with queues := (t.cluster q).queues }
  queue : t.queue q k = { s.queue q k with reqs := (t.queue q k).reqs, flight := (t.queue q k).flight }

namespace State.Passes
variable {q k : Nat} {s t u : State}

theorem refl (s : State) : s.Passes q k s := ⟨rfl, fun _ _ => rfl, rfl, rfl⟩

theorem trans (h : s.Passes q k t) (h' : t.Passes q k u) : s.Passes q k u := by
  obtain ⟨hf, ho, hc, hq⟩ := h
  obtain ⟨hf', ho', hc', hq'⟩ := h'
  refine ⟨?_, fun p hp => (ho' p hp).trans (ho p hp), ?_, ?_⟩
  · rw [hf', hf]
  · rw [hc', hc]
  · rw [hq', hq]

theorem of_emits (h : s.Emits t) : s.Passes q k t := by
  refine ⟨?_, fun p _ => h.cluster p, ?_, ?_⟩
  · rw [h.frame]
  · rw [h.cluster]
  · rw [h.queue]

theorem modQueue (s : State) (reqs flight : Queue → List QReq) :
    s.Passes q k (s.modQueue q k (fun z => { z with reqs := reqs z, flight := flight z })) := by
  refine ⟨rfl, fun p hp => (onlyCluster_modCluster s q _).2 p hp, ?_, ?_⟩
  · rw [State.modQueue, State.cluster_of_modCluster, if_pos rfl]
  · rw [State.queue_modQueue, if_pos rfl]

theorem sendWaiting (s : State) (x n : Nat) : s.Passes q k (s.sendWaiting q k x n) := by
  induction n generalizing s with
  | zero => exact .refl s
  | succ n ih =>
    rw [State.sendWaiting]
    split
    next => exact .refl s
    next r rest _ =>
      exact (State.Passes.trans (.modQueue s (fun _ => rest) (fun z => z.flight ++ [r])) (.of_emits (.sendOut _ q k r x))).trans (ih _)

theorem sendAll (s : State) (x : Nat) : s.Passes q k (s.sendAll q k x) := .sendWaiting s x _

section
variable (h : s.Passes q k t)
include h

theorem cores : t.cores = s.cores := by rw [h.frame]
theorem now : t.now = s.now := by rw [h.frame]
theorem folds : t.folds = s.folds := by rw [h.frame]

theorem sameRows : SameRows s t := fun p a => by
  rw [State.row, State.row]
  by_cases hp : p = q
  · rw [hp, h.cluster]
  · rw [h.other p hp]

end

end State.Passes

/-! ### `State.sendAll` -/

theorem takeFirst_eq_none {α : Type} {p : α → Bool} {l : List α} (h : ∀ x ∈ l, p x = false) : takeFirst p l = none := by
  induction l with
  | nil => rfl
  | cons x l ih =>
    rw [takeFirst, if_neg (Bool.eq_false_iff.mp (h x List.mem_cons_self)), ih (fun y hy => h y (List.mem_cons_of_mem _ hy))]
    rfl

/-- Nothing that waits may leave: each is for the cluster's own stack, or waits for an earlier write (R303, R304). -/
theorem State.sendAll_of_stays {s : State} {q k : Nat} (x : Nat)
    (h : ∀ r ∈ (s.queue q k).reqs, ownStack q r = true ∨ (s.queue q k).mayGo r = false) : s.sendAll q k x = s := by
  have hnone : takeFirst (fun r => !ownStack q r && (s.queue q k).mayGo r) (s.queue q k).reqs = none :=
    takeFirst_eq_none fun r hr => by
      rcases h r hr with h | h <;> simp [h]
  unfold State.sendAll
  cases (s.queue q k).reqs.length with
  | zero => rfl
  | succ n => rw [State.sendWaiting, hnone]

/-- The one request that waits leaves. -/
theorem State.sendAll_of_single {s : State} {q k : Nat} (x : Nat) {r : QReq} (hreqs : (s.queue q k).reqs = [r])
    (hown : ownStack q r = false) (hgo : (s.queue q k).mayGo r = true) :
    s.sendAll q k x = (s.modQueue q k (fun z => { z with reqs := [], flight := z.flight ++ [r] })).sendOut q k r x := by
  have hpick : takeFirst (fun r => !ownStack q r && (s.queue q k).mayGo r) [r] = some (r, []) := by
    rw [takeFirst, hown, hgo]
    rfl
  rw [State.sendAll, hreqs, List.length_singleton, State.sendWaiting, hreqs, hpick]
  rfl

end Sys2Proof.Machine
end

section
/-! Q.PUT.RD and Q.PUT.WR (R102 to R104): the operands that they accept, the request that they enter and the rows that they present. -/

namespace Sys2Proof.Machine

/-! ### Accesses that are presented one after another -/

/-- `t` is `s` after the accesses `l` were presented to cluster `q`. -/
structure State.Presented (q : Nat) (l : List Access) (s t : State) : Prop where
  frame : t = { s with clusters := t.clusters }
  other : ∀ p, p ≠ q → t.cluster p = s.cluster p
  cluster : t.cluster q = { s.cluster q with access := (s.cluster q).access ++ l }

namespace State.Presented
variable {q : Nat} {l : List Access} {s t : State}

theorem sameRows (h : s.Presented q l t) : SameRows s t := fun p a => by
  rw [State.row, State.row]
  by_cases hp : p = q
  · rw [hp, h.cluster]
  · rw [h.other p hp]

theorem onlyCoreAndCluster {u : State} {c : Nat} (h : s.Presented q l t) (hs : OnlyCoreAndCluster c q u s) : OnlyCoreAndCluster c q u t := by
  obtain ⟨hs, hc, hq⟩ := hs
  refine ⟨?_, fun x hx => ?_, fun x hx => (h.other x hx).trans (hq x hx)⟩
  · rw [h.frame, hs]
  · rw [h.frame]
    exact hc x hx

/-- A loop that presents one access for each element of a list. -/
theorem foldl {α : Type} {g : State → α → Access} (hg : ∀ s a x, g (s.present q a) x = g s x) (l : List α) (s : State) :
    s.Presented q (l.map (g s)) (l.foldl (fun s x => s.present q (g s x)) s) := by
  induction l generalizing s with
  | nil => exact ⟨rfl, fun _ _ => rfl, by simp⟩
  | cons x l ih =>
    obtain ⟨hf, ho, hc⟩ := ih (s.present q (g s x))
    rw [List.foldl_cons]
    refine ⟨hf.trans rfl, fun p hp => (ho p hp).trans (by rw [State.cluster_present, if_neg hp]), ?_⟩
    have hmap : l.map (g (s.present q (g s x))) = l.map (g s) := List.map_congr_left fun y _ => hg _ _ y
    rw [hc, State.cluster_present, if_pos rfl, List.map_cons, List.append_assoc, hmap]
    rfl

end State.Presented

/-! ### Operands (R102, R103, R301) -/

section
variable {s : State} {o : CoreOp} {k d row : Nat} {a b : Word}

theorem putCheck_stack (fold : Nat) (hown : s.queueOwner o.q k = some o.core) (h1 : 1 ≤ putCount b) (h64 : putCount b ≤ 64)
    (ha : remoteOf a = .stack (o.q / 24) row) : putCheck s o k fold a b = none := by
  have hcount : ¬ (putCount b = 0 ∨ 64 < putCount b) := by omega
  simp [putCheck, hown, ha, remoteLegal, hcount]

theorem putCheck_cluster (hown : s.queueOwner o.q k = some o.core) (h1 : 1 ≤ putCount b) (h64 : putCount b ≤ 64)
    (ha : remoteOf a = .cluster d row) (hk : 8 ≤ k) (hrow : row + putCount b ≤ 49152)
    (hhedge : s.hedgeAdmits (s.myFold o) d row (putCount b) = true) :
    putCheck s o k ((s.foldOf o.q).getD 0) a b = none := by
  have hcount : ¬ (putCount b = 0 ∨ 64 < putCount b) := by omega
  have hhedge' : s.hedgeAdmits ((s.foldOf o.q).getD 0) d row (putCount b) = true := hhedge
  simp [putCheck, hown, ha, remoteLegal, hcount, hk, hrow, hhedge']

end

/-! ### The request of a Q.PUT.RD -/

section
variable (s : State) (o : CoreOp) (k n : Nat) (a : Word)

/-- The read request that a Q.PUT.RD enters, where it names no window. -/
def State.readReq : QReq := ⟨s.nextTag, false, a, n, [], o.core, 0, s.beat % 2 ^ 32, 0, 0⟩

/-- The state in which it stands in its queue pair. -/
def State.putRead : State :=
  (s.drawTag.modQueue o.q k (fun z => { z with owed := z.owed + n })).modQueue o.q k
    (fun z => { z with reqs := z.reqs ++ [s.readReq o n a] })

theorem qPutRdOp_run {f : Files} (hcheck : putCheck s o k ((s.foldOf o.q).getD 0) (f.s o.a) (f.s o.b) = none)
    (hroom : putCount (f.s o.b) ≤ (s.queue o.q k).inRoom) (hwin : ∀ id off, remoteOf (f.s o.a) ≠ .window id off) :
    (qPutRdOp o k).run f s = .ok ((s.putRead o k (putCount (f.s o.b)) (f.s o.a)).sendAll o.q k s.now) := by
  have hrun : (qPutRdOp o k).run f s = .ok ((s.drawTag.modQueue o.q k (fun x => { x with owed := x.owed + putCount (f.s o.b) })).enterRequest
      o.core k false (f.s o.a) (putCount (f.s o.b)) [] s.nextTag s.now) := by
    simp only [qPutRdOp, putOp, hcheck]
    exact if_neg (Nat.not_lt.mpr hroom)
  rw [hrun, State.enterRequest]
  cases hr : remoteOf (f.s o.a) with
  | window id off => exact absurd hr (hwin id off)
  | _ => rfl

theorem State.onlyCoreAndCluster_putRead : OnlyCoreAndCluster o.core o.q { s with nextTag := s.nextTag + 1 } (s.putRead o k n a) := by
  unfold State.putRead State.modQueue
  exact (OnlyCoreAndCluster.modCluster (.of_core (.refl _ _)) _).modCluster _

theorem State.sameRows_modQueue (q : Nat) (f : Queue → Queue) : SameRows s (s.modQueue q k f) :=
  sameRows_modCluster s q fun _ => rfl

theorem State.sameRows_putRead : SameRows s (s.putRead o k n a) :=
  SameRows.trans (.trans (.of_clusters rfl) (s.drawTag.sameRows_modQueue k o.q _)) (State.sameRows_modQueue _ k o.q _)

theorem State.queue_putRead : (s.putRead o k n a).queue o.q k = { s.queue o.q k with
    owed := (s.queue o.q k).owed + n, reqs := (s.queue o.q k).reqs ++ [s.readReq o n a] } := by
  rw [State.putRead, State.queue_modQueue, if_pos rfl, State.queue_modQueue, if_pos rfl]
  rfl

end

/-- R304: a read keeps no write waiting. -/
theorem Queue.mayGo_append_read (x : Queue) {e : QReq} (he : e.write = false) (n : Nat) (r : QReq) :
    ({ x with owed := n, reqs := x.reqs ++ [e] } : Queue).mayGo r = x.mayGo r := by
  simp [Queue.mayGo, he]

section
variable {t : Nat} {o : CoreOp} {k : Nat} {s : State}

/-- What every Q.PUT.RD leaves once its request has entered, whether or not some request then sets out. -/
theorem State.putRead_sendAll_goOn (s : State) (o : CoreOp) (k n : Nat) (a : Word) (x : Nat) :
    let t := ((s.putRead o k n a).sendAll o.q k x).goOn o.core ((s.core o.core).pc + 1) 0
    NextBundle o s t ∧ SameFiles o.core s t ∧ SameRows s t ∧ (t.queue o.q k).owed = (s.queue o.q k).owed + n ∧
      (t.queue o.q k).inb = (s.queue o.q k).inb := by
  have hp : (s.putRead o k n a).Passes o.q k ((s.putRead o k n a).sendAll o.q k x) := .sendAll _ x
  generalize (s.putRead o k n a).sendAll o.q k x = u at hp
  have hnow : u.now = s.now := hp.now
  have hq := hp.queue
  rw [State.queue_putRead] at hq
  have hcores : u.cores = s.cores := hp.cores
  have hgo : ∀ pc, (u.goOn o.core pc 0).queue o.q k = u.queue o.q k := fun _ => rfl
  refine ⟨nextBundle_goOn hnow, ?_, ((s.sameRows_putRead o k n a).trans hp.sameRows).trans (.of_clusters rfl), ?_, ?_⟩
  · rw [SameFiles, State.files_goOn, State.files, State.core, hcores, State.files, State.core]
  · rw [hgo, hq]
  · rw [hgo, hq]

/-- Q.PUT.RD of rows of the cluster's own stack. -/
theorem exec_qPutRd_stack {row : Nat} (hk : k < 16) (g : (s.at t).gateOpen o = true)
    (hown : (s.at t).queueOwner o.q k = some o.core)
    (ha : remoteOf (((s.at t).files o.core).s o.a) = .stack (o.q / 24) row) (h1 : 1 ≤ putCount (((s.at t).files o.core).s o.b))
    (h64 : putCount (((s.at t).files o.core).s o.b) ≤ 64) (h : (s.at t).issuesAlone o (qPutRdOp o k) = true)
    (hroom : putCount (((s.at t).files o.core).s o.b) ≤ ((s.at t).queue o.q k).inRoom) :
    exec (.qPutRd t o k) s = .next ((((s.at t).putRead o k (putCount (((s.at t).files o.core).s o.b))
      (((s.at t).files o.core).s o.a)).sendAll o.q k (s.at t).now).goOn o.core (((s.at t).core o.core).pc + 1) 0) :=
  exec_ok (decide_eq_true hk) h (fun _ => g)
    (qPutRdOp_run _ _ _ (putCheck_stack _ hown h1 h64 ha) hroom (fun _ _ hw => by rw [ha] at hw; cases hw))

/-- Where no earlier request may leave, the read stands at the end of its queue pair. -/
theorem State.sendAll_putRead_of_stays {s : State} {n row x : Nat} {a : Word} (ha : remoteOf a = .stack (o.q / 24) row)
    (hstay : ∀ r ∈ (s.queue o.q k).reqs, ownStack o.q r = true ∨ (s.queue o.q k).mayGo r = false) :
    (s.putRead o k n a).sendAll o.q k x = s.putRead o k n a := by
  refine State.sendAll_of_stays x fun r hr => ?_
  rw [State.queue_putRead] at hr ⊢
  rcases List.mem_append.mp hr with hr | hr
  · rw [Queue.mayGo_append_read _ rfl]
    exact hstay r hr
  · rw [List.mem_singleton.mp hr]
    left
    simp [ownStack, State.readReq, ha]

end

end Sys2Proof.Machine
end

section
/-! Q.PUT.WR, Q.GET, Q.WAIT and Q.WAIT.WR (R103, R105, R106), Q.PUT.RD to another cluster, and O12. -/

namespace Sys2Proof.Machine

theorem State.queue_of_clusters {s t : State} (h : t.clusters = s.clusters) (q k : Nat) : t.queue q k = s.queue q k := by
  rw [State.queue, State.queue, State.cluster, State.cluster, h]

theorem OnlyCoreAndCluster.trans {c q : Nat} {s t u : State} (h : OnlyCoreAndCluster c q s t) (h' : OnlyCoreAndCluster c q t u) :
    OnlyCoreAndCluster c q s u := by
  obtain ⟨ht, hc, hq⟩ := h
  obtain ⟨hu, hc', hq'⟩ := h'
  refine ⟨?_, fun x hx => (hc' x hx).trans (hc x hx), fun x hx => (hq' x hx).trans (hq x hx)⟩
  rw [hu, ht]

/-! ### Q.PUT.WR -/

section
variable (s : State) (o : CoreOp) (k n : Nat) (a : Word)

/-- The state in which a Q.PUT.WR has its outbound places and its operation at the router port. -/
def State.putWrite : State :=
  (s.drawTag.modQueue o.q k (fun x => { x with outb := x.outb + n })).openPort o.q s.nextTag (.put o.core k a) n

/-- The read that the port presents for row `i` of operation `tag`, whose rows begin at `src`. -/
def State.putReads (tag fold src i : Nat) : Access :=
  ⟨.routerElastic, src + i, s.portEdge o.q s.now, .port tag i none, fold, o.core, false⟩

theorem State.onlyCoreAndCluster_putWrite :
    OnlyCoreAndCluster o.core o.q { s with nextTag := s.nextTag + 1 } (s.putWrite o k n a) := by
  unfold State.putWrite State.openPort State.modQueue
  exact (OnlyCoreAndCluster.modCluster (.of_core (.refl _ _)) _).modCluster _

theorem State.sameRows_putWrite : SameRows s (s.putWrite o k n a) :=
  SameRows.trans (.trans (.of_clusters rfl) (s.drawTag.sameRows_modQueue k o.q _)) (sameRows_modCluster _ o.q fun _ => rfl)

theorem State.cluster_putWrite : (s.putWrite o k n a).cluster o.q = { s.cluster o.q with
    queues := Map.set Queue.reset (s.cluster o.q).queues k { s.queue o.q k with outb := (s.queue o.q k).outb + n }
    port := Map.put (s.cluster o.q).port s.nextTag ⟨.put o.core k a, n, n, []⟩ } := by
  rw [State.putWrite, State.openPort, State.cluster_of_modCluster, if_pos rfl, State.modQueue, State.cluster_of_modCluster, if_pos rfl]
  rfl

theorem qPutWrOp_run {f : Files} (hcheck : putCheck s o k ((s.foldOf o.q).getD 0) (f.s o.a) (f.s o.b) = none)
    (hroom : putCount (f.s o.b) ≤ (s.queue o.q k).outRoom) (hsrc : getBits (f.s o.b) 0 16 + putCount (f.s o.b) ≤ 49152)
    (hreach : s.reachesAll (s.myFold o) o.q (getBits (f.s o.b) 0 16) (putCount (f.s o.b)) = true) :
    ∃ t, (qPutWrOp o k).run f s = .ok t ∧ (s.putWrite o k (putCount (f.s o.b)) (f.s o.a)).Presented o.q
      ((List.range (putCount (f.s o.b))).map (s.putReads o s.nextTag (s.myFold o) (getBits (f.s o.b) 0 16))) t := by
  have hreads := State.Presented.foldl (q := o.q)
    (g := fun (v : State) i => v.putReads o s.nextTag (s.myFold o) (getBits (f.s o.b) 0 16) i) (fun _ _ _ => rfl)
    (List.range (putCount (f.s o.b))) (s.putWrite o k (putCount (f.s o.b)) (f.s o.a))
  refine ⟨_, ?_, hreads⟩
  simp only [qPutWrOp, putOp, hcheck]
  exact (if_neg (Nat.not_lt.mpr hsrc)).trans ((if_neg (not_not_intro hreach)).trans (if_neg (Nat.not_lt.mpr hroom)))

end

/-! ### Q.PUT.RD to another cluster -/

/-- The request packet of a Q.PUT.RD to cluster `d`. -/
def State.readPacket (s : State) (o : CoreOp) (k n d row : Nat) : Packet :=
  { meshPacket .queueRead o.core k (s.myFold o) (tileOf o.q) (tileOf d) s.nextTag s.now with first := row, count := n }

/-- The state in which that request is under way. -/
def State.putReadSent (s : State) (o : CoreOp) (k n d row : Nat) (a : Word) : State :=
  ((s.putRead o k n a).modQueue o.q k (fun z => { z with reqs := [], flight := z.flight ++ [s.readReq o n a] })).inject
    (s.readPacket o k n d row)

section
variable (s : State) (o : CoreOp) (k n d row : Nat) (a : Word)

theorem State.find_putReadSent : Map.find (s.putReadSent o k n d row a).packets (s.nextTag + 1) = some (s.readPacket o k n d row) :=
  (Map.find_put _ _ _ _).trans (if_pos rfl)

variable (hreqs : (s.queue o.q k).reqs = [])
include hreqs

variable {d row a} in
theorem State.sendAll_putRead_cluster (ha : remoteOf a = .cluster d row) :
    (s.putRead o k n a).sendAll o.q k s.now = s.putReadSent o k n d row a := by
  have hq : ((s.putRead o k n a).queue o.q k).reqs = [s.readReq o n a] := by
    rw [State.queue_putRead, hreqs]
    rfl
  rw [State.sendAll_of_single s.now hq (by simp [ownStack, State.readReq, ha]) (by simp [Queue.mayGo, State.readReq])]
  have haddr : remoteOf (s.readReq o n a).addr = .cluster d row := ha
  rw [State.sendOut, haddr]
  rfl

theorem State.queue_putReadSent : (s.putReadSent o k n d row a).queue o.q k = { s.queue o.q k with
    owed := (s.queue o.q k).owed + n, flight := (s.queue o.q k).flight ++ [s.readReq o n a] } := by
  have hq := (s.putRead o k n a).queue_modQueue o.q k (fun z => { z with reqs := [], flight := z.flight ++ [s.readReq o n a] }) k
  rw [if_pos rfl, State.queue_putRead] at hq
  rw [State.putReadSent]
  refine (State.queue_of_clusters rfl o.q k).trans (hq.trans (.trans ?_ (congrArg (fun l => Queue.mk l _ _ _ _ _) hreqs.symm)))
  rfl

end

/-! ### Q.GET -/

section
variable (s : State) (o : CoreOp) (k : Nat) (rest : List InRow)

/-- The state in which Q.GET has removed the head row. -/
def State.popRow : State :=
  (s.modQueue o.q k (fun z => { z with inb := rest })).modCore o.core (fun z =>
    { z with covered := Map.set 0 z.covered k (getCovered (Map.get 0 z.covered k)) })

theorem State.onlyCoreAndCluster_popRow : OnlyCoreAndCluster o.core o.q s (s.popRow o k rest) := by
  unfold State.popRow State.modQueue
  exact (OnlyCoreAndCluster.modCluster (.of_core (.refl _ _)) _).modCore _

theorem State.queue_popRow : (s.popRow o k rest).queue o.q k = { s.queue o.q k with inb := rest } :=
  (s.queue_modQueue o.q k (fun z => { z with inb := rest }) k).trans (if_pos rfl)

theorem State.core_popRow : (s.popRow o k rest).core o.core =
    { s.core o.core with covered := Map.set 0 (s.core o.core).covered k (getCovered (Map.get 0 (s.core o.core).covered k)) } := by
  rw [State.popRow, State.core_of_modCore, if_pos rfl, State.core_modQueue]

theorem State.sameRows_popRow : SameRows s (s.popRow o k rest) :=
  (s.sameRows_modQueue k o.q (fun z => { z with inb := rest })).trans (.of_clusters rfl)

/-- What every Q.GET to registers leaves: `g` writes the row, and the registers of `codes` may be read 3 ticks on. -/
theorem State.popRow_goOn (g : Files → Files) (codes : List Nat) :
    let t := (codes.foldl (fun s c => s.readyAt o.core c (s.now + 3)) ((s.modFiles o.core g).popRow o k rest)).goOn o.core
      ((s.core o.core).pc + 1) 0
    OnlyCoreAndCluster o.core o.q s t ∧ NextBundle o s t ∧ SameRows s t ∧ t.queue o.q k = { s.queue o.q k with inb := rest } ∧
      t.files o.core = g (s.files o.core) ∧ ∀ n ∈ codes, Map.get 0 (t.core o.core).ready n = s.now + 3 := by
  have hfiles : OnlyCore o.core s (s.modFiles o.core g) := onlyCore_modFiles _ _ _
  have hpop : OnlyCoreAndCluster o.core o.q s ((s.modFiles o.core g).popRow o k rest) :=
    OnlyCoreAndCluster.trans (.of_core hfiles) ((s.modFiles o.core g).onlyCoreAndCluster_popRow o k rest)
  have hrows : SameRows s ((s.modFiles o.core g).popRow o k rest) :=
    SameRows.trans (.of_clusters rfl) ((s.modFiles o.core g).sameRows_popRow o k rest)
  have hqueue := (s.modFiles o.core g).queue_popRow o k rest
  have hcore := (s.modFiles o.core g).core_popRow o k rest
  have hnow : ((s.modFiles o.core g).popRow o k rest).now = s.now := rfl
  generalize (s.modFiles o.core g).popRow o k rest = u at hpop hrows hqueue hcore hnow
  have hready := onlyCore_foldl_readyAt o.core 3 codes u
  have hcore' := u.core_foldl_readyAt o.core 3 codes
  generalize codes.foldl (fun s c => s.readyAt o.core c (s.now + 3)) u = v at hready hcore'
  have hclusters : v.clusters = u.clusters := by
    rw [hready.1]
  have hnow' : v.now = s.now := by
    rw [hready.1]
    exact hnow
  refine ⟨(hpop.trans (.of_core hready)).goOn _ _, nextBundle_goOn hnow', (hrows.trans (.of_clusters hclusters)).trans (.of_clusters rfl),
    ((v.queue_of_clusters rfl o.q k).trans (State.queue_of_clusters hclusters o.q k)).trans hqueue, ?_, fun n hn => ?_⟩
  · rw [State.files_goOn, State.files, hcore', hcore]
    exact (State.files_modFiles s o.core g o.core).trans (if_pos rfl)
  · rw [State.core_goOn, hcore', ← hnow]
    exact (Map.get_foldl_set _ codes _ n).trans (if_pos hn)

variable {s o k rest} {r : Row}

theorem qGetOp_run_tile (hown : s.queueOwner o.q k = some o.core) (hinb : (s.queue o.q k).inb = ⟨some r⟩ :: rest) (f : Files) (u : State) :
    (qGetOp o k .tile u).run f s = .ok (((s.modFiles o.core (fun g => g.setRowT o.d o.u r)).popRow o k rest).readyAt o.core
      (tCode o.d) (s.now + 3)) := by
  simp only [qGetOp, qGetRun, hown, hinb]
  exact if_neg fun h => h rfl

theorem qGetOp_run_vec (hown : s.queueOwner o.q k = some o.core) (hinb : (s.queue o.q k).inb = ⟨some r⟩ :: rest) (f : Files) (u : State) :
    (qGetOp o k .vec u).run f s = .ok ((vCodes o.d).foldl (fun s c => s.readyAt o.core c (s.now + 3))
      ((s.modFiles o.core (fun g => g.setRowV o.d r)).popRow o k rest)) := by
  simp only [qGetOp, qGetRun, hown, hinb]
  exact if_neg fun h => h rfl

end

/-! ### Q.WAIT and Q.WAIT.WR -/

section
variable {s : State} {o : CoreOp} {k : Nat}

theorem qWaitOp_run (hown : s.queueOwner o.q k = some o.core) (h1 : 1 ≤ o.u) (h64 : o.u ≤ 64) (hcome : s.nothingToCome o.q k = false)
    (f : Files) : (qWaitOp o k).run f s =
      if o.u ≤ (s.queue o.q k).inb.length then
        .ok ((s.putS o.core o.d (BitVec.ofNat 64 (s.queue o.q k).inb.length) 1).modCore o.core (fun x =>
          { x with covered := Map.set 0 x.covered k o.u }))
      else .ok (s.modCore o.core (fun x => x.awaiting (.rows k o.u o.d) false)) := by
  have hcount : ¬ (o.u < 1 ∨ 64 < o.u) := by omega
  simp only [qWaitOp, waitOp]
  rw [if_neg (not_not_intro hown), if_neg hcount, if_neg (Bool.eq_false_iff.mp hcome)]

theorem nothingToCome_of_rows {n : Nat} (h1 : 1 ≤ n) (h : n ≤ (s.queue o.q k).inb.length) : s.nothingToCome o.q k = false := by
  have hne : (s.queue o.q k).inb.isEmpty = false := by
    cases hl : (s.queue o.q k).inb with
    | nil =>
      rw [hl, List.length_nil] at h
      omega
    | cons => rfl
  simp [State.nothingToCome, hne]

theorem files_putS (s : State) (c d : Nat) (v : Word) (lat : Nat) : (s.putS c d v lat).files c = (s.files c).setS d v := by
  rw [State.putS, State.files_readyAt, State.files_modFiles, if_pos rfl]

/-- A core that begins to wait. -/
theorem awaiting_goOn (s : State) (o : CoreOp) (w : Wait) :
    let t := (s.modCore o.core (fun x => x.awaiting w false)).goOn o.core ((s.core o.core).pc + 1) 0
    OnlyCore o.core s t ∧ NextBundle o s t ∧ SameFiles o.core s t ∧ (t.core o.core).wait = w := by
  obtain ⟨honly, hfiles⟩ := ((Quiet.refl o.core s).modCore (f := fun x => x.awaiting w false) fun _ => rfl).goOn ((s.core o.core).pc + 1) 0
  refine ⟨honly, nextBundle_goOn rfl, hfiles, ?_⟩
  rw [State.core_goOn, State.core_of_modCore, if_pos rfl]
  rfl

end

end Sys2Proof.Machine

namespace Sys2Proof
open Machine

/-- Settles O12: each instruction runs to the state of its own, and what that leaves of the queue pair. -/
theorem queueInstructionsComplete : Obligations.QueueInstructionsComplete := by
  intro t o k s g hk u f n hown
  refine ⟨fun row ha h1 h64 => ⟨fun h hroom => ?read, fun h hroom => ?write⟩,
    fun d row ha h1 h64 h8 hrow hhedge h hroom hreqs => ?cluster,
    fun r rest hinb => ⟨fun h => ?tile, fun h => ?vec⟩, fun h h1 h64 => ⟨fun hle => ?rows, fun hlt hcome => ?waits⟩,
    fun h => ⟨fun hnone => ?none, fun hsome => ?acks⟩⟩
  case read =>
    obtain ⟨hnext, hfiles, hrows, howed, hinb⟩ := u.putRead_sendAll_goOn o k n (f.s o.a) u.now
    refine ⟨_, exec_qPutRd_stack hk g hown ha h1 h64 h hroom, hnext, hfiles, hrows, howed, hinb, fun hstay => ?_⟩
    have hstays : (u.putRead o k n (f.s o.a)).sendAll o.q k u.now = u.putRead o k n (f.s o.a) :=
      State.sendAll_putRead_of_stays ha hstay
    rw [hstays]
    exact ⟨(u.onlyCoreAndCluster_putRead o k n (f.s o.a)).goOn _ _, u.queue_putRead o k n (f.s o.a)⟩
  case write =>
    intro src hsrc hreach
    obtain ⟨v, hrun, hv⟩ := qPutWrOp_run u o k (f := f) (putCheck_stack _ hown h1 h64 ha) hroom hsrc hreach
    have honly := hv.onlyCoreAndCluster (u.onlyCoreAndCluster_putWrite o k n (f.s o.a))
    have hcluster := hv.cluster
    have hrows : SameRows u v := (u.sameRows_putWrite o k n (f.s o.a)).trans hv.sameRows
    have hcores : v.cores = u.cores := by
      rw [hv.frame]
      rfl
    have hnow : v.now = u.now := by
      rw [hv.frame]
      rfl
    rw [State.cluster_putWrite] at hcluster
    refine ⟨_, exec_ok (decide_eq_true hk) h (fun _ => g) hrun, honly.goOn _ _, nextBundle_goOn hnow, ?_,
      hrows.trans (.of_clusters rfl), ?_, ?_, ?_⟩
    · rw [SameFiles, State.files_goOn, State.files, State.core, hcores, State.files, State.core]
    · show Map.get Queue.reset (v.cluster o.q).queues k = _
      rw [hcluster, Map.get_set, if_pos rfl]
    · show Map.find (v.cluster o.q).port u.nextTag = _
      rw [hcluster, Map.find_put, if_pos rfl]
    · show (v.cluster o.q).access = _
      rw [hcluster]
      rfl
  case cluster =>
    have hrun := qPutRdOp_run u o k (f := f) (putCheck_cluster hown h1 h64 ha h8 hrow hhedge) hroom
      (fun _ _ hw => by rw [ha] at hw; cases hw)
    obtain ⟨hnext, hfiles, hrows, -, -⟩ := u.putRead_sendAll_goOn o k n (f.s o.a) u.now
    rw [u.sendAll_putRead_cluster o k n hreqs ha] at hnext hfiles hrows hrun
    exact ⟨_, exec_ok (decide_eq_true hk) h (fun _ => g) hrun, hnext, hfiles, hrows,
      u.queue_putReadSent o k n d row (f.s o.a) hreqs, u.find_putReadSent o k n d row (f.s o.a)⟩
  case tile =>
    obtain ⟨honly, hnext, hrows, hqueue, hfiles, hready⟩ :=
      u.popRow_goOn o k rest (fun g => g.setRowT o.d o.u r) [tCode o.d]
    refine ⟨_, exec_ok (decide_eq_true hk) h (fun _ => g) (qGetOp_run_tile hown hinb f u), honly, hnext, hrows, hqueue, ?_, fun x => ?_,
      hready _ (List.mem_singleton_self _)⟩
    · exact hfiles.trans (congrArg (fun r => { f with treg := r }) (congrArg Files.treg hfiles).symm)
    · exact (congrArg (Files.t · x) hfiles).trans (Files.t_setT _ _ _ _)
  case vec =>
    obtain ⟨honly, hnext, hrows, hqueue, hfiles, hready⟩ := u.popRow_goOn o k rest (fun g => g.setRowV o.d r) (vCodes o.d)
    have hv := fun x => (congrArg (Files.v · x) hfiles).trans (Files.v_setRowV f o.d r x)
    refine ⟨_, exec_ok (decide_eq_true hk) h (fun _ => g) (qGetOp_run_vec hown hinb f u), honly, hnext, hrows, hqueue, ?_,
      fun i hi => ⟨?_, hready _ (mem_vCodes hi)⟩, fun x hx => (hv x).trans (if_neg (by omega))⟩
    · exact hfiles.trans ((Files.setRowV_only f o.d r).trans
        (congrArg (fun r => { f with vreg := r }) (congrArg Files.vreg hfiles).symm))
    · exact (hv _).trans ((if_pos (by omega)).trans (by rw [Nat.add_sub_cancel_left]))
  case rows =>
    have hrun := (qWaitOp_run hown h1 h64 (nothingToCome_of_rows h1 hle) f).trans (if_pos hle)
    refine ⟨_, exec_ok (decide_eq_true hk) h (fun _ => g) hrun, ?_, nextBundle_goOn rfl, fun x => ?_, ?_⟩
    · exact (((onlyCore_modFiles _ _ _).trans (onlyCore_readyAt _ _ _ _)).trans (onlyCore_modCore _ _ _)).trans (onlyCore_goOn _ _ _ _)
    · rw [State.files_goOn, State.files, State.core_of_modCore, if_pos rfl]
      exact (congrArg (Files.s · x) (files_putS u o.core o.d _ 1)).trans (Files.s_setS f o.d _ x)
    · rw [State.core_goOn, State.core_of_modCore, if_pos rfl, State.putS, State.readyAt, State.core_of_modCore, if_pos rfl,
        State.modFiles, State.core_of_modCore, if_pos rfl]
  case waits =>
    have hrun := (qWaitOp_run hown h1 h64 hcome f).trans (if_neg (Nat.not_le.mpr hlt))
    exact ⟨_, exec_ok (decide_eq_true hk) h (fun _ => g) hrun, awaiting_goOn _ _ _⟩
  case none =>
    have hrun : (qWaitWrOp o k).run f u = .ok (u.putS o.core o.d 0 1) :=
      (if_neg (not_not_intro hown)).trans (if_neg (Bool.eq_false_iff.mp hnone))
    exact ⟨_, exec_ok (decide_eq_true hk) h (fun _ => g) hrun, writesScalar_goOn _ _ _ _ _⟩
  case acks =>
    have hrun : (qWaitWrOp o k).run f u = .ok (u.modCore o.core (fun x => x.awaiting (.acks k o.d) false)) :=
      (if_neg (not_not_intro hown)).trans (if_pos hsome)
    exact ⟨_, exec_ok (decide_eq_true hk) h (fun _ => g) hrun, awaiting_goOn _ _ _⟩

end Sys2Proof
end

section
/-! LEAVE.REQ, LEAVE.WAIT, STILE and SWATH.WAIT (R123, R127, R130, R131), and O14. -/

namespace Sys2Proof.Machine

/-! ### LEAVE.REQ and LEAVE.WAIT -/

section
variable (s : State) (d : LeaveDesc) (q mask : Nat)

/-- A core notes the request that names it. -/
def State.noteLeave (id : Nat) (s : State) (c : Nat) : State :=
  s.modCore c (fun k => { k with leaves := k.leaves ++ [(d.cls, id)] })

/-- The state in which a LEAVE.REQ has entered its request, in the name of the cores of its mask. -/
def State.leaveAsked : State :=
  (maskCores q mask).foldl (State.noteLeave d s.nextTag) (s.askLeave d.cls q mask d.units d.span d.offset none)

theorem State.now_leaveAsked : (s.leaveAsked d q mask).now = s.now := by
  rw [State.leaveAsked, State.proj_foldl State.now (g := State.noteLeave d s.nextTag) (fun _ _ => rfl)]
  rfl
theorem State.nextTag_leaveAsked : (s.leaveAsked d q mask).nextTag = s.nextTag + 1 := by
  rw [State.leaveAsked, State.proj_foldl State.nextTag (g := State.noteLeave d s.nextTag) (fun _ _ => rfl)]
  rfl
theorem State.clusters_leaveAsked : (s.leaveAsked d q mask).clusters = s.clusters := by
  rw [State.leaveAsked, State.proj_foldl State.clusters (g := State.noteLeave d s.nextTag) (fun _ _ => rfl)]
  rfl
theorem State.waiting_leaveAsked : ((s.leaveAsked d q mask).hub (q / 24)).arb.waiting = (s.hub (q / 24)).arb.waiting ++
    [⟨s.nextTag, d.cls, q, mask, d.units, d.span, d.offset, s.now, none, none⟩] := by
  rw [State.leaveAsked, State.proj_foldl (fun s : State => (s.hub (q / 24)).arb.waiting) (g := State.noteLeave d s.nextTag) (fun _ _ => rfl)]
  rw [State.askLeave, State.arb_enterReq, if_pos rfl]

end

/-- R127: nothing is left to wait for once the grant has been placed and its start has come. -/
theorem State.unbegun_eq_false {s : State} {n id : Nat} (hasked : s.stillAsked n id = false)
    (hstart : ∀ x, s.grantStart? n id = some x → x ≤ s.now) : s.unbegun n id = false := by
  rw [State.unbegun, hasked, Bool.false_or]
  cases h : s.grantStart? n id with
  | none => rfl
  | some x => exact decide_eq_false (Nat.not_lt.mpr (hstart x h))

theorem State.unbegun_of_stillAsked {s : State} {n id : Nat} (h : s.stillAsked n id = true) : s.unbegun n id = true := by
  rw [State.unbegun, h, Bool.true_or]

/-! ### STILE -/

section
variable (s : State) (o : CoreOp) (gen : Nat)

/-- The state in which a core has joined generation `gen` of a stile. -/
def State.joined : State :=
  (s.modCore o.core (fun k => { k with wait := .stile o.u gen, joins := Map.set 0 k.joins o.u (gen + 1) })).arrive o.core

/-- R279: only the fold's record of arrivals may change. -/
theorem State.arrive_frame (c : Nat) : s.arrive c = { s with folds := (s.arrive c).folds } := by
  unfold State.arrive
  split
  · split <;> rfl
  · rfl

theorem State.core_arrive (c x : Nat) : (s.arrive c).core x = s.core x := by
  unfold State.arrive
  split
  · split <;> rfl
  · rfl

theorem State.joined_frame : s.joined o gen = { s with cores := (s.joined o gen).cores, folds := (s.joined o gen).folds } := by
  rw [State.joined, State.arrive_frame]
  rfl

theorem State.core_joined : (s.joined o gen).core o.core =
    { s.core o.core with wait := .stile o.u gen, joins := Map.set 0 (s.core o.core).joins o.u (gen + 1) } := by
  rw [State.joined, State.core_arrive, State.core_of_modCore, if_pos rfl]

end

end Sys2Proof.Machine

namespace Sys2Proof
open Machine

/-- Settles O14: each instruction runs to `State.leaveAsked`, to a wait or its end, or to `State.joined`. -/
theorem syncInstructionsComplete : Obligations.SyncInstructionsComplete := by
  intro t o s g u f
  refine ⟨fun h hlegal => ?req, fun id h hid => ⟨fun hasked => ?waits, fun hasked hstart => ?begun⟩, fun h h15 hin => ?stile,
    fun h => ⟨_, exec_ok rfl h (fun _ => g) rfl, awaiting_goOn _ _ _⟩⟩
  case req =>
    have hrun : (leaveReqOp o u).run f u = .ok (u.leaveAsked (leaveDesc (f.s o.b)) o.q
        (if getBits (f.s o.a) 0 48 = 0 then 2 ^ coreIndex o.core else getBits (f.s o.a) 0 48)) := if_pos hlegal
    exact ⟨_, exec_ok rfl h (fun _ => g) hrun, nextBundle_goOn (u.now_leaveAsked _ _ _),
      SameRows.trans (.of_clusters (u.clusters_leaveAsked _ _ _)) (.of_clusters rfl), u.nextTag_leaveAsked _ _ _,
      u.waiting_leaveAsked _ _ _⟩
  case waits =>
    have hrun : (leaveWaitOp o).run f u = .ok (u.modCore o.core (fun k => k.awaiting (.leave o.u) false)) := by
      simp only [leaveWaitOp, hid]
      exact if_pos (State.unbegun_of_stillAsked hasked)
    exact ⟨_, exec_ok rfl h (fun _ => g) hrun, awaiting_goOn _ _ _⟩
  case begun =>
    have hrun : (leaveWaitOp o).run f u = .ok (u.modCore o.core (fun k => k.dropLeave id)) := by
      simp only [leaveWaitOp, hid]
      exact if_neg (Bool.eq_false_iff.mp (State.unbegun_eq_false hasked hstart))
    obtain ⟨honly, hfiles⟩ := ((Quiet.refl o.core u).modCore (f := fun k => k.dropLeave id) fun _ => rfl).goOn ((u.core o.core).pc + 1) 0
    refine ⟨_, exec_ok rfl h (fun _ => g) hrun, honly, nextBundle_goOn rfl, hfiles, ?_, ?_⟩
    all_goals
      rw [State.core_goOn, State.core_of_modCore, if_pos rfl]
      rfl
  case stile =>
    have hrun : (stileOp o).run f u = .ok (u.joined o (Map.get 0 (u.core o.core).joins o.u)) :=
      (if_neg (Nat.not_lt.mpr h15)).trans (if_neg (not_not_intro hin))
    have hcore := u.core_joined o (Map.get 0 (u.core o.core).joins o.u)
    have hframe := u.joined_frame o (Map.get 0 (u.core o.core).joins o.u)
    generalize u.joined o (Map.get 0 (u.core o.core).joins o.u) = v at hrun hcore hframe
    have hclusters : v.clusters = u.clusters := by
      rw [hframe]
    refine ⟨_, exec_ok rfl h (fun _ => g) hrun, nextBundle_goOn ?_, ?_, SameRows.of_clusters hclusters, ?_, ?_⟩
    · rw [hframe]
    · rw [SameFiles, State.files_goOn, State.files, hcore, State.files]
    · rw [State.core_goOn, hcore]
    · rw [State.core_goOn, hcore, Map.get_set, if_pos rfl]

end Sys2Proof
end

section
/-! SLOT.SEND, ARR.ISSUE and ARR.COLLECT (R110 to R121), and O13. -/

namespace Sys2Proof.Machine

/-! ### SLOT.SEND -/

theorem State.cluster_inject (s : State) (p : Packet) (q : Nat) : (s.inject p).cluster q = s.cluster q := rfl

/-- `t` is `s` after `n` rows were sent from cluster `q`: packet `pk i` for row `i`, and the access `ac p i` that fetches it for the
packet of number `p`. -/
structure State.SentRows (q n : Nat) (pk : Nat → Packet) (ac : Nat → Nat → Access) (s t : State) : Prop where
  frame : t = { s with clusters := t.clusters, packets := t.packets, nextTag := t.nextTag }
  other : ∀ p, p ≠ q → t.cluster p = s.cluster p
  cluster : t.cluster q =
    { s.cluster q with access := (s.cluster q).access ++ (List.range n).map (fun i => ac (s.nextTag + i) i) }
  nextTag : t.nextTag = s.nextTag + n
  beside : ∀ p, (p < s.nextTag ∨ s.nextTag + n ≤ p) → Map.find t.packets p = Map.find s.packets p
  packet : ∀ i, i < n → Map.find t.packets (s.nextTag + i) = some (pk i)

namespace State.SentRows
variable {q n : Nat} {pk : Nat → Packet} {ac : Nat → Nat → Access} {s t : State}

theorem sameRows (h : s.SentRows q n pk ac t) : SameRows s t := fun p a => by
  rw [State.row, State.row]
  by_cases hp : p = q
  · rw [hp, h.cluster]
  · rw [h.other p hp]

theorem succ (h : s.SentRows q n pk ac t) : s.SentRows q (n + 1) pk ac ((t.inject (pk n)).present q (ac t.nextTag n)) := by
  obtain ⟨hf, ho, hc, ht, hb, hp⟩ := h
  have hpackets : ∀ p, Map.find ((t.inject (pk n)).present q (ac t.nextTag n)).packets p =
      if p = s.nextTag + n then some (pk n) else Map.find t.packets p := by
    intro p
    rw [← ht]
    exact Map.find_put _ _ _ _
  refine ⟨?_, fun p hp => ?_, ?_, congrArg (· + 1) ht, fun p hp => ?_, fun i hi => ?_⟩
  · exact .trans rfl (by rw [hf]; rfl)
  · exact ((State.cluster_present _ _ _ _).trans (if_neg hp)).trans (ho p hp)
  · rw [State.cluster_present, if_pos rfl, State.cluster_inject, hc, ht, List.range_succ, List.map_append, List.append_assoc]
    rfl
  · rw [hpackets, if_neg (by omega), hb p (by omega)]
  · rw [hpackets]
    by_cases hin : i = n
    · rw [hin, if_pos rfl]
    · rw [if_neg (by omega), hp i (by omega)]

end State.SentRows

/-- The loop of a slot send; what it makes of a row does not depend on the rows before. -/
theorem State.sentRows_foldl {q : Nat} {pk : State → Nat → Packet} {ac : State → Nat → Nat → Access}
    (hpk : ∀ s p a, pk ((s.inject p).present q a) = pk s) (hac : ∀ s p a, ac ((s.inject p).present q a) = ac s) (n : Nat) (s : State) :
    s.SentRows q n (pk s) (ac s)
      ((List.range n).foldl (fun s i => (s.inject (pk s i)).present q (ac s s.nextTag i)) s) := by
  induction n with
  | zero => exact ⟨rfl, fun _ _ => rfl, by simp, rfl, fun _ _ => rfl, fun _ hi => absurd hi (Nat.not_lt_zero _)⟩
  | succ n ih =>
    rw [List.range_succ, List.foldl_append, List.foldl_cons, List.foldl_nil]
    have hpk' := State.proj_foldl pk (g := fun s i => (s.inject (pk s i)).present q (ac s s.nextTag i)) (fun _ _ => hpk _ _ _) (List.range n) s
    have hac' := State.proj_foldl ac (g := fun s i => (s.inject (pk s i)).present q (ac s s.nextTag i)) (fun _ _ => hac _ _ _) (List.range n) s
    rw [hpk', hac']
    exact ih.succ

section
variable {o : CoreOp} {a b : Word} {s : State}

theorem slotFault_eq_none (hlegal : slotLegal b = true) (hreach : s.reachesAll (s.myFold o) o.q (getBits b 0 16) (getBits b 16 3 + 1) = true)
    (hto : getBits a 63 1 = 1 ∨ (getBits a 6 11 % 32 < 24 ∧
      s.hedgeAdmits (s.myFold o) (clusterOf (getBits a 6 11 * 64)) (getBits a 32 16) (getBits b 16 3 + 1) = true)) :
    slotFault o a b s = none := by
  have hsrc : getBits b 0 16 + (getBits b 16 3 + 1) ≤ 49152 := by
    rw [State.reachesAll, Bool.and_eq_true, decide_eq_true_eq] at hreach
    exact hreach.1
  refine (if_neg ?_).trans ((if_neg (not_not_intro hreach)).trans (if_neg ?_))
  · rintro (h | h)
    · exact h hlegal
    · omega
  · rintro ⟨h0, h⟩
    rcases hto with h1 | ⟨hc, hh⟩
    · omega
    · rcases h with h | h
      · omega
      · exact h hh

/-- The state in which the core has counted its rows (R279). -/
def State.sending (s : State) (o : CoreOp) (n : Nat) : State :=
  s.modCore o.core (fun k => { k with sends := k.sends + n, rowGrant := none })

/-- The access that fetches row `i` of a send that goes out from `start`, for packet `p`. -/
def State.sendAccess (s : State) (o : CoreOp) (b : Word) (timed : Bool) (start p i : Nat) : Access :=
  ⟨if timed then .routerTimed else .routerElastic, getBits b 0 16 + i,
    if timed then s.bankEdge (s.myFold o) (start - 36) + 3 * i else s.portEdge o.q s.now, .toSend p, s.myFold o, o.core, false⟩

theorem slotSendRun_of_free {f : Files} (hfault : slotFault o (f.s o.a) (f.s o.b) s = none)
    (hfree : s.sendFree o (f.s o.a) (f.s o.b) = true) : ∃ t, slotSendRun o f s = .ok t ∧
      (s.sending o (getBits (f.s o.b) 16 3 + 1)).SentRows o.q (getBits (f.s o.b) 16 3 + 1)
        (fun i => slotPacket s o (s.myFold o) (f.s o.a) (f.s o.b) (s.slotTimed o (f.s o.b)) (s.sendStart o (f.s o.b)) i
          (getBits (f.s o.b) 16 3 + 1))
        (s.sendAccess o (f.s o.b) (s.slotTimed o (f.s o.b)) (s.sendStart o (f.s o.b))) t := by
  simp only [slotSendRun, hfault, State.sendLeave_of_free false hfree]
  cases htimed : s.slotTimed o (f.s o.b) with
  | true =>
    refine ⟨_, if_pos rfl, ?_⟩
    exact State.sentRows_foldl (q := o.q)
      (pk := fun u i => slotPacket u o (s.myFold o) (f.s o.a) (f.s o.b) true (s.sendStart o (f.s o.b)) i (getBits (f.s o.b) 16 3 + 1))
      (ac := fun u p i => ⟨.routerTimed, getBits (f.s o.b) 0 16 + i,
        u.bankEdge (s.myFold o) (s.sendStart o (f.s o.b) - 36) + 3 * i, .toSend p, s.myFold o, o.core, false⟩)
      (fun _ _ _ => rfl) (fun _ _ _ => rfl) (getBits (f.s o.b) 16 3 + 1) (s.sending o (getBits (f.s o.b) 16 3 + 1))
  | false =>
    have hstart : s.sendStart o (f.s o.b) = s.now := if_neg (by simp [htimed])
    refine ⟨_, if_neg Bool.false_ne_true, ?_⟩
    rw [hstart]
    exact State.sentRows_foldl (q := o.q)
      (pk := fun u i => slotPacket u o (s.myFold o) (f.s o.a) (f.s o.b) false u.now i (getBits (f.s o.b) 16 3 + 1))
      (ac := fun u p i => ⟨.routerElastic, getBits (f.s o.b) 0 16 + i, u.portEdge o.q u.now, .toSend p, s.myFold o, o.core, false⟩)
      (fun _ _ _ => rfl) (fun _ _ _ => rfl) (getBits (f.s o.b) 16 3 + 1) (s.sending o (getBits (f.s o.b) 16 3 + 1))

end

/-! ### ARR.ISSUE and ARR.COLLECT -/

section
variable (s : State) (q g : Nat) (f : Group → Group)

theorem State.group_modGroup : ((s.modGroup q g f).cluster q).group g = f ((s.cluster q).group g) := by
  rw [State.modGroup, State.cluster_of_modCluster, if_pos rfl, Cluster.group, Map.get_set, if_pos rfl]

theorem State.access_modGroup : ((s.modGroup q g f).cluster q).access = (s.cluster q).access := by
  rw [State.modGroup, State.cluster_of_modCluster, if_pos rfl]

theorem State.core_modGroup (c : Nat) : (s.modGroup q g f).core c = s.core c := rfl

theorem State.sameRows_modGroup : SameRows s (s.modGroup q g f) := sameRows_modCluster s q fun _ => rfl

end

section
variable (s : State) (o : CoreOp) (g e row : Nat)

/-- The state in which ARR.ISSUE has appended its vector to the group. -/
def State.vectorIssued : State :=
  s.modGroup o.q g (fun x => { x with vecs := x.vecs ++ [ArrVec.fresh e o.core (s.myFold o) row s.now] })

theorem State.onlyCoreAndCluster_vectorIssued : OnlyCoreAndCluster o.core o.q s (s.vectorIssued o g e row) := by
  unfold State.vectorIssued State.modGroup
  exact OnlyCoreAndCluster.modCluster (.of_core (.refl o.core s)) _

theorem State.group_vectorIssued : ((s.vectorIssued o g e row).cluster o.q).group g = { (s.cluster o.q).group g with
    vecs := ((s.cluster o.q).group g).vecs ++ [ArrVec.fresh e o.core (s.myFold o) row s.now] } :=
  s.group_modGroup o.q g _

theorem State.sameRows_vectorIssued : SameRows s (s.vectorIssued o g e row) := s.sameRows_modGroup o.q g _

end

section
variable (s : State) (o : CoreOp) (g : Nat) (v : ArrVec)

/-- The state in which ARR.COLLECT has removed vector `v` and written its status word. -/
def State.statusTaken : State := (s.modGroup o.q g (fun x => { x with vecs := x.vecs.drop 1 })).putS o.core o.d v.status 0

/-- The state in which the core waits for the writes of the result rows. -/
def State.resultAwaited : State := ((s.statusTaken o g v).awaits o.core [sCode o.d]).modGroup o.q g
  (fun x => { x with writing := x.writing ++ [(o.core, sCode o.d, v.rows.length)] })

/-- The access that writes row `r`. -/
def resultAccess (e fold row : Nat) (r : Row × Nat) : Access :=
  ⟨.accumulator g, row + r.2, e + 3 * r.2, .result (sCode o.d) (coreIndex o.core) r.1, fold, o.core, false⟩

theorem State.onlyCoreAndCluster_statusTaken : OnlyCoreAndCluster o.core o.q s (s.statusTaken o g v) := by
  unfold State.statusTaken State.putS State.readyAt State.modFiles State.modGroup
  exact (OnlyCoreAndCluster.modCore (.modCluster (.of_core (.refl o.core s)) _) _).modCore _

theorem State.files_statusTaken : (s.statusTaken o g v).files o.core = (s.files o.core).setS o.d v.status :=
  files_putS _ _ _ _ _

theorem State.await_statusTaken : ((s.statusTaken o g v).core o.core).await = (s.core o.core).await := by
  rw [State.statusTaken, State.putS, State.readyAt, State.core_of_modCore, if_pos rfl, State.modFiles, State.core_of_modCore, if_pos rfl]
  rfl

theorem State.sameRows_statusTaken : SameRows s (s.statusTaken o g v) := 
  (s.sameRows_modGroup o.q g (fun x => { x with vecs := x.vecs.drop 1 })).trans (.of_clusters rfl)

theorem State.access_statusTaken : ((s.statusTaken o g v).cluster o.q).access = (s.cluster o.q).access :=
  s.access_modGroup o.q g (fun x => { x with vecs := x.vecs.drop 1 })

theorem State.core_resultAwaited : (s.resultAwaited o g v).core o.core = { (s.statusTaken o g v).core o.core with
    await := sCode o.d :: ((s.statusTaken o g v).core o.core).await } := by
  rw [State.resultAwaited, State.core_modGroup, State.awaits, State.core_of_modCore, if_pos rfl]
  rfl

theorem State.onlyCoreAndCluster_resultAwaited : OnlyCoreAndCluster o.core o.q s (s.resultAwaited o g v) := by
  unfold State.resultAwaited State.modGroup State.awaits
  exact ((s.onlyCoreAndCluster_statusTaken o g v).modCore _).modCluster _

theorem State.sameRows_resultAwaited : SameRows s (s.resultAwaited o g v) :=
  SameRows.trans (.trans (s.sameRows_statusTaken o g v) (.of_clusters rfl)) (State.sameRows_modGroup _ o.q g
    (fun x => { x with writing := x.writing ++ [(o.core, sCode o.d, v.rows.length)] }))

theorem State.access_resultAwaited : ((s.resultAwaited o g v).cluster o.q).access = (s.cluster o.q).access :=
  (State.access_modGroup ((s.statusTaken o g v).awaits o.core [sCode o.d]) o.q g
    (fun x => { x with writing := x.writing ++ [(o.core, sCode o.d, v.rows.length)] })).trans (s.access_statusTaken o g v)

theorem State.collect_of_no_rows (fold row : Nat) (h : v.rows = []) :
    s.collect o g fold row v = (s.statusTaken o g v).readyAt o.core (sCode o.d) (s.bankEdge fold s.now) := by
  rw [State.collect, h]
  rfl

variable {v} {rest : List ArrVec} (hv : ((s.cluster o.q).group g).vecs = v :: rest)
include hv

theorem State.group_statusTaken : ((s.statusTaken o g v).cluster o.q).group g = { (s.cluster o.q).group g with vecs := rest } := by
  refine (s.group_modGroup o.q g (fun x => { x with vecs := x.vecs.drop 1 })).trans ?_
  rw [hv]
  rfl

theorem State.group_resultAwaited : ((s.resultAwaited o g v).cluster o.q).group g = { (s.cluster o.q).group g with
    vecs := rest, writing := ((s.cluster o.q).group g).writing ++ [(o.core, sCode o.d, v.rows.length)] } := by
  rw [State.resultAwaited, State.group_modGroup, State.awaits, State.cluster_of_modCore, s.group_statusTaken o g hv]

theorem arrCollectOp_run {f : Files} (hstage : v.stage = .ready)
    (hreach : s.reachesAll (s.myFold o) o.q (getBits (f.s o.a) 0 16) v.rows.length = true) :
    (arrCollectOp o g).run f s = .ok (s.collect o g (s.myFold o) (getBits (f.s o.a) 0 16) v) := by
  simp only [arrCollectOp, hv]
  exact (if_neg (not_not_intro hstage)).trans (if_neg (not_not_intro hreach))

omit hv

theorem State.collect_of_rows (fold row : Nat) (h : 0 < v.rows.length) : (s.resultAwaited o g v).Presented o.q
    (v.rows.zipIdx.map (resultAccess o g (s.bankEdge fold s.now) fold row)) (s.collect o g fold row v) := by
  have hpresented := State.Presented.foldl (q := o.q) (g := fun _ r => resultAccess o g (s.bankEdge fold s.now) fold row r)
    (fun _ _ _ => rfl) v.rows.zipIdx (s.resultAwaited o g v)
  refine Eq.mp (congrArg (State.Presented _ _ _) ?_) hpresented
  rw [State.collect, State.resultAwaited]
  cases hrows : v.rows with
  | nil =>
    rw [hrows] at h
    cases h
  | cons r l => rfl

end

end Sys2Proof.Machine

namespace Sys2Proof
open Machine

/-- Settles O13: a send is `State.SentRows`, an issue `State.vectorIssued`, and a result is collected without rows or with those it
presents. -/
theorem sendsAndArraysComplete : Obligations.SendsAndArraysComplete := by
  intro t o s g u f a b
  refine ⟨fun h hlegal => ?send, fun k hk h hdigital hreach => ?issue,
    fun k v rest hk h hvecs hstage hrows hreach => ?empty, fun k v rest hk h hvecs hstage hrows hreach => ?rows⟩
  case send =>
    intro n timed start hreach hto hfree
    obtain ⟨v, hrun, hsent⟩ := slotSendRun_of_free (f := f) (slotFault_eq_none hlegal hreach hto) hfree
    have hrows : SameRows u v := SameRows.trans (.of_clusters rfl) hsent.sameRows
    obtain ⟨hframe, -, hcluster, htag, hbeside, hpacket⟩ := hsent
    have hcore : v.core o.core = (u.sending o n).core o.core := by
      rw [hframe]
      rfl
    rw [State.sending, State.core_of_modCore, if_pos rfl] at hcore
    have hnow : v.now = u.now := by
      rw [hframe]
      rfl
    refine ⟨_, exec_ok rfl h (fun _ => g) hrun, nextBundle_goOn hnow, ?_, hrows.trans (.of_clusters rfl), ?_, htag, hbeside, hpacket, ?_⟩
    · rw [SameFiles, State.files_goOn, State.files, hcore, State.files]
    · rw [State.core_goOn, hcore]
    · exact congrArg Cluster.access hcluster
  case issue =>
    have hrun : (arrIssueOp o k u).run f u = .ok (u.vectorIssued o k (getBits b 0 8) (getBits a 0 16)) :=
      (if_neg hdigital).trans (if_neg (not_not_intro hreach))
    exact ⟨_, exec_ok (op := arrIssueOp o k) (decide_eq_true hk) h (fun _ => g) hrun,
      (u.onlyCoreAndCluster_vectorIssued o k _ _).goOn _ _, nextBundle_goOn rfl, State.files_goOn _ _ _ _ _,
      (u.sameRows_vectorIssued o k _ _).trans (.of_clusters rfl), u.group_vectorIssued o k _ _⟩
  case empty =>
    have hrun := arrCollectOp_run (f := f) u o k hvecs hstage (show u.reachesAll _ _ _ v.rows.length = true by rw [hrows]; exact hreach)
    rw [u.collect_of_no_rows o k v _ _ hrows] at hrun
    refine ⟨_, exec_ok (decide_eq_true hk) h (fun _ => g) hrun, ?_, nextBundle_goOn rfl, ?_, ?_, ?_⟩
    · exact ((u.onlyCoreAndCluster_statusTaken o k v).modCore _).goOn _ _
    · exact (u.sameRows_statusTaken o k v).trans (.of_clusters rfl)
    · rw [State.goOn, State.cluster_of_modCore, State.readyAt, State.cluster_of_modCore]
      exact u.group_statusTaken o k hvecs
    · intro x
      rw [State.files_goOn, State.files_readyAt, State.files_statusTaken]
      exact Files.s_setS f o.d v.status x
  case rows =>
    have hrun := arrCollectOp_run (f := f) u o k hvecs hstage hreach
    have hv := u.collect_of_rows o k (u.myFold o) (getBits a 0 16) hrows
    generalize u.collect o k (u.myFold o) (getBits a 0 16) v = w at hrun hv
    have honly := hv.onlyCoreAndCluster (u.onlyCoreAndCluster_resultAwaited o k v)
    have hsame : SameRows u w := (u.sameRows_resultAwaited o k v).trans hv.sameRows
    obtain ⟨hframe, -, hcluster⟩ := hv
    have hcore : w.core o.core = (u.resultAwaited o k v).core o.core := by
      rw [hframe]
      rfl
    have hgroup : (w.cluster o.q).group k = ((u.resultAwaited o k v).cluster o.q).group k := by
      rw [hcluster]
      rfl
    have hnow : w.now = u.now := by
      rw [hframe]
      rfl
    refine ⟨_, exec_ok (decide_eq_true hk) h (fun _ => g) hrun, honly.goOn _ _, nextBundle_goOn hnow, hsame.trans (.of_clusters rfl),
      ?_, ?_, ?_, ?_, ?_⟩
    · exact (congrArg Group.vecs hgroup).trans (by rw [u.group_resultAwaited o k hvecs])
    · intro x
      rw [State.files_goOn, State.files, hcore, State.core_resultAwaited]
      exact (congrArg (Files.s · x) (u.files_statusTaken o k v)).trans (Files.s_setS f o.d v.status x)
    · rw [State.core_goOn, hcore, State.core_resultAwaited, State.await_statusTaken]
    · exact (congrArg Cluster.access hcluster).trans (by rw [u.access_resultAwaited o k v]; rfl)
    · exact (congrArg Group.writing hgroup).trans (by rw [u.group_resultAwaited o k hvecs])

end Sys2Proof
end

section
/-! The answers to a queue pair's requests land (R104, R106, R246, R304), and O33. -/

namespace Sys2Proof.Machine

/-! ### The end of a wait -/

/-- Core `c` goes on from the wait of an instruction that writes `v` to scalar register `d`. -/
structure State.GoesOnWith (c d : Nat) (v : Word) (s t : State) : Prop where
  wait : (t.core c).wait = .none
  issueAt : (t.core c).issueAt = s.now + 1
  reg : d ≠ 0 → (t.files c).s d = v

section
variable (s : State) (q k c d : Nat) (v : Word) (f : Core → Core)

theorem State.clusters_endWait : (s.endWait c d v f).clusters = s.clusters := by
  unfold State.endWait
  split <;> rfl

theorem State.clusters_wakeRows : (s.wakeRows q k).clusters = s.clusters := by
  unfold State.wakeRows
  split
  · rfl
  · split
    · extract_lets
      split
      · exact s.clusters_endWait _ _ _ _
      · rfl
    · rfl

theorem State.clusters_wakeAcks : (s.wakeAcks q k c).clusters = s.clusters := by
  unfold State.wakeAcks
  split
  · split
    · exact s.clusters_endWait _ _ _ _
    · rfl
  · rfl

variable {s q k c d f} (hoff : (s.core c).waitOff = false)
include hoff

theorem State.endWait_goesOn (hf : ∀ x, (f x).files = x.files) : s.GoesOnWith c d v (s.endWait c d v f) := by
  rw [State.endWait, if_neg (Bool.eq_false_iff.mp hoff)]
  refine ⟨?_, ?_, fun hd => ?_⟩
  · rw [State.core_of_modCore, if_pos rfl]
  · rw [State.core_of_modCore, if_pos rfl]
  · rw [State.files, State.core_of_modCore, if_pos rfl]
    refine (congrArg (Files.s · d) ((hf _).trans (files_putS s c d v 0))).trans ?_
    rw [Files.s_setS, if_pos ⟨rfl, hd⟩]

theorem State.wakeRows_of_waits {n : Nat} (howner : s.queueOwner q k = some c) (hwait : (s.core c).wait = .rows k n d) :
    if n ≤ (s.queue q k).inb.length then s.GoesOnWith c d (BitVec.ofNat 64 (s.queue q k).inb.length) (s.wakeRows q k)
    else s.wakeRows q k = s := by
  simp only [State.wakeRows, howner, hwait, true_and]
  split
  · exact State.endWait_goesOn _ hoff fun _ => rfl
  · rfl

theorem State.wakeAcks_of_waits (hwait : (s.core c).wait = .acks k d) :
    if s.hasWrites q k c then s.wakeAcks q k c = s else s.GoesOnWith c d 0 (s.wakeAcks q k c) := by
  simp only [State.wakeAcks, hwait, true_and]
  cases h : s.hasWrites q k c with
  | true => rfl
  | false => exact State.endWait_goesOn _ hoff fun _ => rfl

end

/-! ### A row lands -/

/-- A queue pair after the next row of the answer to its read `r` has landed. -/
def Queue.landed (z : Queue) (keep : Bool) (r : QReq) (a : Answer) (w : InRow) (more : List InRow) (others : List Answer) : Queue :=
  { z with
    inb := if keep then z.inb ++ [w] else z.inb
    owed := z.owed - 1
    back := if more.isEmpty then others else { a with rows := more } :: others
    flight := if r.n ≤ r.got + 1 then z.flight.erase r else z.flight.map (fun x => if x == r then { r with got := r.got + 1 } else x) }

/-- The state in which that row has landed. -/
def State.rowLanded (s : State) (q k : Nat) (r : QReq) (a : Answer) (w : InRow) (more : List InRow) (others : List Answer) : State :=
  s.modQueue q k (fun z => z.landed (!(s.core r.core).faulted) r a w more others)

theorem State.landRow_eq {s : State} {q k : Nat} {r : QReq} {a : Answer} {w : InRow} {more : List InRow} {others : List Answer}
    (hread : (s.queue q k).oldestRead = some r) (hrole : r.role ≠ 2)
    (hback : takeFirst (fun (a : Answer) => a.tag == r.tag) (s.queue q k).back = some (a, others)) (hrows : a.rows = w :: more) :
    s.landRow q k = (s.rowLanded q k r a w more others).wakeRows q k := by
  simp only [State.landRow, hread, hback, hrows]
  rw [if_neg hrole]
  cases more <;> rfl

/-! ### A write is acknowledged -/

/-- The state in which the answered write `r` has left its outbound places and its answer. -/
def State.acked (s : State) (q k : Nat) (r : QReq) (rest : List QReq) : State :=
  s.modQueue q k (fun z => { z with flight := rest, outb := z.outb - r.n, back := z.back.filter (fun a => a.tag != r.tag) })

section
variable {s : State} {q k : Nat} {r w : QReq} {rest : List QReq}

theorem State.landAck_eq (h : takeFirst (fun (r : QReq) => r.write && (s.queue q k).back.any (fun a => a.tag == r.tag))
    (s.queue q k).flight = some (r, rest)) : s.landAck q k = ((s.acked q k r rest).sendAll q k s.now).wakeAcks q k r.core := by
  simp only [State.landAck, h]
  rfl

theorem State.queue_acked : (s.acked q k r rest).queue q k = { s.queue q k with
    flight := rest, outb := (s.queue q k).outb - r.n, back := (s.queue q k).back.filter (fun a => a.tag != r.tag) } :=
  (s.queue_modQueue q k _ k).trans (if_pos rfl)

/-- R304: the one write that waits may leave, no write being under way any more. -/
theorem State.sendAll_acked_of_write {x row : Nat} (hreqs : (s.queue q k).reqs = [w]) (haddr : remoteOf w.addr = .cluster x row)
    (hrest : rest.all (fun y => !y.write) = true) :
    (((s.acked q k r rest).sendAll q k s.now).queue q k).reqs = [] ∧
      (((s.acked q k r rest).sendAll q k s.now).queue q k).flight = rest ++ [w] := by
  have hreqs' : ((s.acked q k r rest).queue q k).reqs = [w] := by
    rw [State.queue_acked]
    exact hreqs
  have hgo : ((s.acked q k r rest).queue q k).mayGo w = true := by
    rw [Queue.mayGo, hreqs', State.queue_acked, List.all_append]
    have hall : rest.all (fun e => !e.write || decide (w.tag ≤ e.tag) || targetOf e.addr == targetOf w.addr) = true :=
      List.all_eq_true.mpr fun e he => by rw [List.all_eq_true.mp hrest e he]; rfl
    simp [hall]
  rw [State.sendAll_of_single s.now hreqs' (by simp [ownStack, haddr]) hgo, (State.Emits.sendOut _ q k w s.now).queue,
    State.queue_modQueue, if_pos rfl, State.queue_acked]
  exact ⟨rfl, rfl⟩

theorem State.sendAll_acked_of_own (h : (s.queue q k).reqs.all (ownStack q) = true) :
    (s.acked q k r rest).sendAll q k s.now = s.acked q k r rest :=
  State.sendAll_of_stays s.now fun e he => by
    rw [State.queue_acked] at he
    exact .inl (List.all_eq_true.mp h e he)

end

end Sys2Proof.Machine

namespace Sys2Proof
open Machine

/-- Settles O33: the row lands or the write is acknowledged, and then the wait ends that was for it. -/
theorem queueAnswersLand : Obligations.QueueAnswersLand := by
  intro t q k r s hq hk u
  have hknown : validQueue q k = true := by
    rw [validQueue, hq, decide_eq_true hk]
    rfl
  refine ⟨fun a w more others hread hrole hback hrows => ?row, fun rest hack =>
    ⟨fun x w row hreqs hwrite haddr hrest => ?leaves, fun hown => ?acked⟩⟩
  case row =>
    have hexec : exec (.queueReturn t q k) s = .next (u.landRow q k) := if_pos hknown
    rw [State.landRow_eq hread hrole hback hrows] at hexec
    have hrows' : SameRows u (u.rowLanded q k r a w more others) := u.sameRows_modQueue k q _
    have hqueue : (u.rowLanded q k r a w more others).queue q k = _ := (u.queue_modQueue q k _ k).trans (if_pos rfl)
    have hcores : ∀ c, (u.rowLanded q k r a w more others).core c = u.core c := fun _ => rfl
    have howner' : (u.rowLanded q k r a w more others).queueOwner q k = u.queueOwner q k := rfl
    have hnow : (u.rowLanded q k r a w more others).now = u.now := rfl
    generalize u.rowLanded q k r a w more others = v at *
    have hqueue' := (State.queue_of_clusters (v.clusters_wakeRows q k) q k).trans hqueue
    refine ⟨_, hexec, hrows'.trans (.of_clusters (v.clusters_wakeRows q k)), ?_, ?_, ?_, ?_, ?_, fun c n d howner hwait hoff hkeep => ?_⟩
    · rw [hqueue']
      cases (u.core r.core).faulted <;> rfl
    · rw [hqueue']
      rfl
    · rw [hqueue']
      rfl
    · rw [hqueue']
      rfl
    · rw [hqueue']
      rfl
    · have hinb : (v.queue q k).inb.length = (u.queue q k).inb.length + 1 := by
        rw [hqueue, hkeep]
        exact List.length_append
      have hwake := State.wakeRows_of_waits (s := v) (k := k) (by rw [hcores]; exact hoff) (howner'.trans howner)
        (by rw [hcores]; exact hwait)
      rw [hinb] at hwake
      split at hwake
      next hn =>
        obtain ⟨h1, h2, h3⟩ := hwake
        rw [if_pos hn]
        exact ⟨h1, h2.trans (by rw [hnow]), h3⟩
      next hn =>
        rw [if_neg hn, hwake]
        exact hcores c
  case leaves =>
    have hexec : exec (.writeAcknowledgement t q k) s = .next (u.landAck q k) := if_pos hknown
    rw [State.landAck_eq hack] at hexec
    have hsame : SameRows u (u.acked q k r rest) := u.sameRows_modQueue k q _
    have hpasses : (u.acked q k r rest).Passes q k ((u.acked q k r rest).sendAll q k u.now) := .sendAll _ _
    obtain ⟨hempty, hflight⟩ := State.sendAll_acked_of_write (r := r) hreqs haddr hrest
    have hclusters := ((u.acked q k r rest).sendAll q k u.now).clusters_wakeAcks q k r.core
    refine ⟨_, hexec, (hsame.trans hpasses.sameRows).trans (.of_clusters hclusters), ?_, ?_⟩
    · rw [State.queue_of_clusters hclusters, hempty]
    · rw [State.queue_of_clusters hclusters, hflight]
  case acked =>
    have hexec : exec (.writeAcknowledgement t q k) s = .next (u.landAck q k) := if_pos hknown
    rw [State.landAck_eq hack, State.sendAll_acked_of_own hown] at hexec
    have hsame : SameRows u (u.acked q k r rest) := u.sameRows_modQueue k q _
    have hclusters := (u.acked q k r rest).clusters_wakeAcks q k r.core
    have hqueue := (State.queue_of_clusters hclusters q k).trans u.queue_acked
    have hwrites : ((u.acked q k r rest).wakeAcks q k r.core).hasWrites q k r.core = (u.acked q k r rest).hasWrites q k r.core := by
      rw [State.hasWrites, State.hasWrites, State.queue_of_clusters hclusters, State.cluster, hclusters]
      rfl
    refine ⟨_, hexec, hsame.trans (.of_clusters hclusters), ?_, ?_, ?_, ?_, fun d hwait hoff => ?_⟩
    · rw [hqueue]
    · rw [hqueue]
    · rw [hqueue]
    · rw [hqueue]
    · have hwake := State.wakeAcks_of_waits (s := u.acked q k r rest) (q := q) hoff hwait
      rw [hwrites]
      split at hwake
      next hn =>
        rw [if_pos hn, hwake]
        rfl
      next hn =>
        obtain ⟨h1, h2, h3⟩ := hwake
        rw [if_neg hn]
        exact ⟨h1, h2, h3⟩

end Sys2Proof
end

section
/-! The arbiter of a lea (R124 to R127, R488, R492 to R496): the order of its queue, the placing, start and end of a grant, and O30. -/

namespace Sys2Proof.Machine

/-! ### The throttle level of a cluster (R488) -/

section
variable (s : State) (q : Nat)

theorem State.throttleLevel_congr {s t : State} {q : Nat} (hpwr : t.fld Fld.pwrStatusThrottle 0 0 = s.fld Fld.pwrStatusThrottle 0 0)
    (hthm : t.fld Fld.thmStatusTCool 0 0 = s.fld Fld.thmStatusTCool 0 0)
    (hhot : t.fld Fld.cluThmHotLevel q 0 = s.fld Fld.cluThmHotLevel q 0) (hgrants : t.grants (q / 24) = s.grants (q / 24))
    (hnow : t.now = s.now) (hover : (t.cluster q).overdraw = (s.cluster q).overdraw)
    (hdroop : (t.cluster q).droopAt = (s.cluster q).droopAt) : t.throttleLevel q = s.throttleLevel q := by
  simp only [State.throttleLevel, hpwr, hthm, hhot, hgrants, hnow, hover, hdroop]

theorem State.throttleLevel_le : s.throttleLevel q ≤ 32 := Nat.min_le_left _ _

/-- A register may change, and the cluster's steady swath may end. -/
structure State.SetsThrottle (v q : Nat) (s t : State) : Prop where
  frame : t = { s.setFld Fld.cluPwrStateThrottle q 0 v with clusters := t.clusters }
  cluster : ∀ p, t.cluster p = { s.cluster p with steady := (t.cluster p).steady }

namespace State.SetsThrottle
variable {s q} {t : State} {v : Nat} (h : s.SetsThrottle v q t)
include h

theorem hubs : t.hubs = s.hubs := by rw [h.frame]; rfl
theorem cores : t.cores = s.cores := by rw [h.frame]; rfl
theorem now : t.now = s.now := by rw [h.frame]; rfl
theorem sameRows : SameRows s t := fun p a => by rw [State.row, State.row, h.cluster]
theorem overdraw (p : Nat) : (t.cluster p).overdraw = (s.cluster p).overdraw := by rw [h.cluster]
theorem droopAt (p : Nat) : (t.cluster p).droopAt = (s.cluster p).droopAt := by rw [h.cluster]
theorem fld (f : Fld) (u i : Nat) : t.fld f u i = (s.setFld Fld.cluPwrStateThrottle q 0 v).fld f u i :=
  State.fld_of_regs (by rw [h.frame]) f u i

end State.SetsThrottle

theorem State.setsThrottle : s.SetsThrottle (s.throttleLevel q) q (s.setThrottle q) := by
  rw [State.setThrottle]
  generalize s.throttleLevel q = v
  split
  · exact ⟨rfl, fun _ => rfl⟩
  · refine ⟨rfl, fun p => ?_⟩
    rw [State.cluster_of_modCluster]
    split
    next h => rw [h]; rfl
    next => rfl

theorem cluPwrState_addr_ne_pwrStatus : Reg.pwrStatus.addr 0 0 ≠ Reg.cluPwrState.addr q 0 := by
  simp only [Reg.addr, Reg.place, Scope.origin, leaBase]
  omega
theorem cluPwrState_addr_ne_thmStatus : Reg.thmStatus.addr 0 0 ≠ Reg.cluPwrState.addr q 0 := by
  simp only [Reg.addr, Reg.place, Scope.origin, leaBase]
  omega
theorem cluPwrState_addr_ne_cluThm : Reg.cluThm.addr q 0 ≠ Reg.cluPwrState.addr q 0 := by
  simp only [Reg.addr, Reg.place, Scope.origin, leaBase]
  omega

theorem State.fld_setThrottle_ne {f : Fld} {u i : Nat} (h : f.reg.addr u i ≠ Reg.cluPwrState.addr q 0) :
    (s.setThrottle q).fld f u i = s.fld f u i :=
  ((s.setsThrottle q).fld f u i).trans (State.fld_setFld_ne _ _ _ _ _ _ _ _ h)

theorem State.domain_setThrottle : (s.setThrottle q).domain q = s.domain q :=
  ((s.setsThrottle q).fld _ q 0).trans (State.fld_setFld_beside _ _ _ _ _ _ rfl (by decide) (by decide))

theorem State.throttle_setThrottle : (s.setThrottle q).fld Fld.cluPwrStateThrottle q 0 = (s.setThrottle q).throttleLevel q := by
  have hkept : (s.setThrottle q).throttleLevel q = s.throttleLevel q := by
    have h := s.setsThrottle q
    exact State.throttleLevel_congr (s.fld_setThrottle_ne q (cluPwrState_addr_ne_pwrStatus q))
      (s.fld_setThrottle_ne q (cluPwrState_addr_ne_thmStatus q)) (s.fld_setThrottle_ne q (cluPwrState_addr_ne_cluThm q))
      (by rw [State.grants, State.grants, State.hub, State.hub, h.hubs]) h.now (h.overdraw q) (h.droopAt q)
  have hle := s.throttleLevel_le q
  rw [hkept, (s.setsThrottle q).fld, State.fld_setFld _ _ _ _ _ (by decide)]
  exact Nat.mod_eq_of_lt (Nat.lt_of_le_of_lt hle (by decide))

end

/-! ### The order of the queue (R494) -/

theorem mem_insertReq {r x : LeaveReq} {l : List LeaveReq} : x ∈ insertReq r l ↔ x = r ∨ x ∈ l := by
  induction l with
  | nil => simp [insertReq]
  | cons y l ih =>
    rw [insertReq]
    split
    · exact List.mem_cons
    · rw [List.mem_cons, ih, List.mem_cons]
      exact or_left_comm

theorem mem_inOrder {x : LeaveReq} {l : List LeaveReq} : x ∈ inOrder l ↔ x ∈ l := by
  have h : ∀ (l acc : List LeaveReq), x ∈ l.foldl (fun acc r => insertReq r acc) acc ↔ x ∈ l ∨ x ∈ acc := by
    intro l
    induction l with
    | nil => simp
    | cons y l ih =>
      intro acc
      rw [List.foldl_cons, ih, mem_insertReq, List.mem_cons]
      exact or_left_comm.trans or_assoc.symm
  simpa [inOrder] using h l []

theorem inOrder_pair (a b : LeaveReq) : inOrder [a, b] = if b.before a then [b, a] else [a, b] := rfl

/-! ### Placing (R493) -/

section
variable {s : State} {n : Nat} {r : LeaveReq} {x : Nat}

theorem State.nextPlace_eq_none (h : ∀ r ∈ (s.hub n).arb.waiting, s.placeAt n r = none) : s.nextPlace n = none := by
  rw [State.nextPlace, List.findSome?_eq_none_iff]
  intro r hr
  rw [h r (mem_inOrder.mp hr)]
  rfl

theorem State.nextPlace_eq_some (h : s.nextPlace n = some (r, x)) : r ∈ (s.hub n).arb.waiting ∧ s.placeAt n r = some x := by
  obtain ⟨r', hr', hplace⟩ := List.exists_of_findSome?_eq_some h
  obtain ⟨x', hx', heq⟩ := Option.map_eq_some_iff.mp hplace
  cases heq
  exact ⟨mem_inOrder.mp hr', hx'⟩

theorem State.nextPlace_pair {a b : LeaveReq} (h : (s.hub n).arb.waiting = [a, b]) :
    s.nextPlace n = match s.placeAt n (if b.before a then b else a) with
      | some x => some (if b.before a then b else a, x)
      | none => (s.placeAt n (if b.before a then a else b)).map (fun x => (if b.before a then a else b, x)) := by
  have hsome : ∀ a b : LeaveReq, [a, b].findSome? (fun r => (s.placeAt n r).map (fun x => (r, x))) = match s.placeAt n a with
      | some x => some (a, x)
      | none => (s.placeAt n b).map (fun x => (b, x)) := by
    intro a b
    cases ha : s.placeAt n a <;> cases hb : s.placeAt n b <;> simp [ha, hb]
  rw [State.nextPlace, h, inOrder_pair]
  cases b.before a
  · exact hsome a b
  · exact hsome b a

/-- The calendar with the grant of request `r` in it, from tick `x` on. -/
def Arbiter.place (a : Arbiter) (r : LeaveReq) (u x : Nat) : Arbiter :=
  { a with
    waiting := a.waiting.filter (fun w => w.id != r.id)
    placed := a.placed ++ [r.grant u x]
    firsts := if r.cls < 2 ∧ r.mask ≠ 0 then (r.q, r.cls) :: a.firsts else a.firsts }

/-- Beside the calendar, placing counts and reports. -/
theorem State.placeRequest_notes (h : s.nextPlace n = some (r, x)) :
    (s.modArb n (fun a => a.place r (s.capUnits r) x)).Notes (s.placeRequest n) := by
  simp only [State.placeRequest, h]
  refine .trans (.ite (.bump _ _ _ _) (.refl _)) (.ite (.trans (.bump _ _ _ _) (.report _ _ _ _ _)) (.refl _))

end

/-! ### A grant begins (R127, R488) -/

section
variable (g : Grant)

/-- Core `c` goes on if the grant is the one that it waits for. -/
def State.wakeLeave (s : State) (c : Nat) : State :=
  if (s.core c).wait = .leave g.cls ∧ s.oldestLeave c g.cls = some g.id then
    s.modCore c (fun k => { (if k.waitOff then k else k.dropLeave g.id) with wait := .none, waitOff := false, issueAt := s.now })
  else s

theorem State.wakeLeave_frame (s : State) (c : Nat) : s.wakeLeave g c = { s with cores := (s.wakeLeave g c).cores } := by
  unfold State.wakeLeave
  split <;> rfl

theorem State.core_wakeLeave_ne {s : State} {c x : Nat} (h : x ≠ c) : (s.wakeLeave g c).core x = s.core x := by
  unfold State.wakeLeave
  split
  · rw [State.core_of_modCore, if_neg h]
  · rfl

theorem State.core_foldl_wakeLeave_of_not_mem {l : List Nat} {c : Nat} (hc : c ∉ l) (s : State) :
    (l.foldl (State.wakeLeave g) s).core c = s.core c :=
  List.foldlRecOn (motive := fun t : State => t.core c = s.core c) l _ rfl (fun _ ht _ hx =>
    (State.core_wakeLeave_ne g (ne_of_mem_of_not_mem hx hc).symm).trans ht)

theorem State.hubs_foldl_wakeLeave (l : List Nat) (s : State) : (l.foldl (State.wakeLeave g) s).hubs = s.hubs :=
  State.proj_foldl State.hubs (g := State.wakeLeave g) (fun s c => by rw [s.wakeLeave_frame g c]) l s
theorem State.now_foldl_wakeLeave (l : List Nat) (s : State) : (l.foldl (State.wakeLeave g) s).now = s.now :=
  State.proj_foldl State.now (g := State.wakeLeave g) (fun s c => by rw [s.wakeLeave_frame g c]) l s
theorem State.clusters_foldl_wakeLeave (l : List Nat) (s : State) : (l.foldl (State.wakeLeave g) s).clusters = s.clusters :=
  State.proj_foldl State.clusters (g := State.wakeLeave g) (fun s c => by rw [s.wakeLeave_frame g c]) l s

theorem State.oldestLeave_congr {s t : State} {c : Nat} (cls : Nat) (hcore : t.core c = s.core c)
    (hasked : ∀ id, t.stillAsked (clusterOf c / 24) id = s.stillAsked (clusterOf c / 24) id)
    (hheld : ∀ id, (t.grants (clusterOf c / 24)).any (fun g => g.id == id && decide (t.now < g.ends)) =
      (s.grants (clusterOf c / 24)).any (fun g => g.id == id && decide (s.now < g.ends))) :
    t.oldestLeave c cls = s.oldestLeave c cls := by
  simp only [State.oldestLeave, hcore, hasked, hheld]

/-- Every core of a list that waits for the grant goes on. -/
theorem State.core_foldl_wakeLeave_of_waits {l : List Nat} {c : Nat} (hc : c ∈ l) {s : State}
    (hwait : (s.core c).wait = .leave g.cls) (hold : s.oldestLeave c g.cls = some g.id) :
    ((l.foldl (State.wakeLeave g) s).core c).wait = .none ∧ ((l.foldl (State.wakeLeave g) s).core c).issueAt = s.now := by
  obtain ⟨before, after, rfl, hbefore⟩ := List.eq_append_cons_of_mem hc
  rw [List.foldl_append, List.foldl_cons]
  have hcore := State.core_foldl_wakeLeave_of_not_mem g hbefore s
  have hhubs := State.hubs_foldl_wakeLeave g before s
  have hnow := State.now_foldl_wakeLeave g before s
  generalize before.foldl (State.wakeLeave g) s = t at hcore hhubs hnow
  have hold' : t.oldestLeave c g.cls = some g.id := by
    rw [State.oldestLeave_congr g.cls hcore ?_ ?_, hold]
    · intro id
      rw [State.stillAsked, State.stillAsked, State.hub, State.hub, hhubs]
    · intro id
      rw [State.grants, State.grants, State.hub, State.hub, hhubs, hnow]
  have hwoken : ((t.wakeLeave g c).core c).wait = .none ∧ ((t.wakeLeave g c).core c).issueAt = s.now := by
    rw [State.wakeLeave, if_pos ⟨by rw [hcore, hwait], hold'⟩, State.core_of_modCore, if_pos rfl]
    exact ⟨rfl, hnow⟩
  refine List.foldlRecOn (motive := fun t : State => (t.core c).wait = .none ∧ (t.core c).issueAt = s.now) after _ hwoken
    (fun u hu x _ => ?_)
  by_cases hx : c = x
  · rw [← hx, State.wakeLeave, if_neg (by rw [hu.1]; rintro ⟨h, -⟩; cases h)]
    exact hu
  · rw [State.core_wakeLeave_ne g hx]
    exact hu

/-- The calendar once the grant has begun. -/
def Arbiter.begin (a : Arbiter) : Arbiter :=
  { a with placed := a.placed.map (fun h => if h.id == g.id then { h with begun := true } else h) }

/-- The grant of a domain makes it ramp. -/
def State.ramp (s : State) : State :=
  if g.cls = clsPowerOn then
    (match g.bank with
     | some _ => s
     | none => s.setFld Fld.cluPwrStateState g.q 0 1) else s

theorem State.notes_ramp (s : State) : s.Notes (s.ramp g) := by
  unfold State.ramp
  split
  · split
    · exact .refl s
    · exact .setFld _ _ _ _ _
  · exact .refl s

theorem State.domain_ramp {s : State} (h : g.cls = clsPowerOn) (hbank : g.bank = none) : (s.ramp g).domain g.q = domRamping := by
  rw [State.ramp, if_pos h, hbank]
  exact State.fld_setFld s Fld.cluPwrStateState g.q 0 1 (by decide)

theorem State.startGrant_eq (s : State) (n : Nat) : s.startGrant n g =
    (((maskCores g.q g.mask).foldl (State.wakeLeave g) (s.modArb n (Arbiter.begin g))).ramp g).setThrottle g.q := rfl

theorem State.oldestLeave_begin (s : State) (n c cls : Nat) :
    (s.modArb n (Arbiter.begin g)).oldestLeave c cls = s.oldestLeave c cls := by
  have hany : ∀ (a : Arbiter) (p : Grant → Bool), (∀ h : Grant, p { h with begun := true } = p h) →
      (a.begin g).placed.any p = a.placed.any p := by
    intro a p hp
    rw [Arbiter.begin, List.any_map]
    refine congrArg (List.any a.placed) (funext fun h => ?_)
    rw [Function.comp_apply]
    split
    · exact hp h
    · rfl
  refine State.oldestLeave_congr cls rfl (fun id => ?_) (fun id => ?_)
  · rw [State.stillAsked, State.stillAsked, State.arb_modArb]
    split <;> rfl
  · rw [State.grants, State.grants, State.arb_modArb]
    split
    · exact hany _ (fun h => h.id == id && decide (s.now < h.ends)) fun _ => rfl
    · rfl

end

/-! ### A span ends -/

/-- The calendar without the grants whose tails are over at tick `x`. -/
def Arbiter.pastTails (g : Grant) (x : Nat) (a : Arbiter) : Arbiter :=
  { a with placed := a.placed.filter (fun h => h.id == g.id || !h.isOver x) }

theorem State.wakeLink_of_ne {s : State} {g : Grant} (h : g.cls ≠ clsLinkWake) : s.wakeLink g = s := by
  rw [State.wakeLink, beq_eq_false_iff_ne.mpr h]

theorem State.notes_countLinks (s : State) (p : Nat) : s.Notes (s.countLinks p) := by
  rw [State.countLinks]
  exact .trans (.setFld _ _ _ _ _) (.setFld _ _ _ _ _)

/-- A link that rises changes nothing of the cores, the clusters and the arbiters. -/
theorem State.wakeLink_notes (s : State) (g : Grant) : ({ s with links := (s.wakeLink g).links } : State).Notes (s.wakeLink g) := by
  unfold State.wakeLink
  split
  next l _ _ =>
    have h := (s.modLink l (fun x => { x with idled := false })).notes_countLinks (s.linkOf l).port
    rw [show ((s.modLink l (fun x => { x with idled := false })).countLinks (s.linkOf l).port).links =
      (s.modLink l (fun x => { x with idled := false })).links by rw [h.frame]]
    exact h
  next => exact .refl s

theorem State.idled_wakeLink {s : State} {g : Grant} {l : Nat} (h : g.cls = clsLinkWake) (hl : g.bank = some l) :
    ((s.wakeLink g).linkOf l).idled = false := by
  simp only [State.wakeLink, beq_iff_eq.mpr h, hl]
  rw [State.linkOf, (State.notes_countLinks _ _).frame, State.modLink, Map.get_set, if_pos rfl]

end Sys2Proof.Machine

namespace Sys2Proof
open Machine

/-- Settles O30: the order of the queue, what placing leaves, and a start and an end that both close with `State.setThrottle`. -/
theorem leaveIsPlaced : Obligations.LeaveIsPlaced := by
  intro t n s hn u
  have hlea : validLea n = true := decide_eq_true hn
  refine ⟨fun hnone => ?none, fun a b hab => State.nextPlace_pair hab, fun r x hnext => ?place, fun g x hg hstart hbegun hq hvalid => ?start,
    fun g x hg hcls hends hq hvalid => ?ends⟩
  case none =>
    have hexec : exec (.leaveRequestPlace t n) s = .next (u.placeRequest n) := if_pos hlea
    rw [hexec, State.placeRequest, State.nextPlace_eq_none hnone]
  case place =>
    obtain ⟨hmem, hplace⟩ := State.nextPlace_eq_some hnext
    have hnotes := State.placeRequest_notes hnext
    refine ⟨hmem, hplace, _, if_pos hlea, ?_, ?_, fun m hm => ?_, .trans (.of_clusters rfl) hnotes.sameRows, hnotes.cores⟩
    · rw [hnotes.arb, State.arb_modArb, if_pos rfl]
      rfl
    · rw [hnotes.arb, State.arb_modArb, if_pos rfl]
      rfl
    · rw [hnotes.arb, State.arb_modArb, if_neg hm]
  case start =>
    have hexec : exec (.grantStart t n g) s = .next (u.startGrant n x) := by
      refine (if_pos hlea).trans (congrArg Host.Outcome.next ?_)
      show (match (u.grants n).find? (fun x => x.id == g) with
        | some x => if x.start ≤ u.now ∧ ¬ x.begun then u.startGrant n x else u
        | none => u) = _
      rw [hg]
      exact if_pos ⟨hstart, by rw [hbegun]; exact Bool.false_ne_true⟩
    rw [State.startGrant_eq] at hexec
    have hhubs := State.hubs_foldl_wakeLeave x (maskCores x.q x.mask) (u.modArb n (Arbiter.begin x))
    have hclusters := State.clusters_foldl_wakeLeave x (maskCores x.q x.mask) (u.modArb n (Arbiter.begin x))
    have hwoken := fun c (hc : c ∈ maskCores x.q x.mask) (hw : (u.core c).wait = .leave x.cls)
      (hold : u.oldestLeave c x.cls = some x.id) => State.core_foldl_wakeLeave_of_waits x hc (s := u.modArb n (Arbiter.begin x)) hw
      ((u.oldestLeave_begin x n c x.cls).trans hold)
    have hsame := fun c (hc : c ∉ maskCores x.q x.mask) =>
      State.core_foldl_wakeLeave_of_not_mem x hc (u.modArb n (Arbiter.begin x))
    generalize (maskCores x.q x.mask).foldl (State.wakeLeave x) (u.modArb n (Arbiter.begin x)) = v at hexec hhubs hclusters hwoken hsame
    have hramp := v.notes_ramp x
    have hset := (v.ramp x).setsThrottle x.q
    have hcore : ∀ c, (((v.ramp x).setThrottle x.q).core c) = v.core c := fun c => by
      rw [State.core, hset.cores, hramp.cores, State.core]
    refine ⟨_, hexec, ?_, ?_, fun c hc hw hold => ?_, fun c hc => ?_, fun hon hbank => ?_, State.throttle_setThrottle _ x.q⟩
    · exact ((SameRows.of_clusters hclusters).trans hramp.sameRows).trans hset.sameRows
    · rw [State.hub, hset.hubs]
      show ((v.ramp x).hub n).arb.placed = _
      rw [hramp.arb, State.hub, hhubs]
      exact congrArg Arbiter.placed ((u.arb_modArb n _ n).trans (if_pos rfl))
    · rw [hcore]
      exact hwoken c hc hw hold
    · rw [hcore]
      exact hsame c hc
    · rw [State.domain_setThrottle, State.domain_ramp x hon hbank]
  case ends =>
    have hexec : exec (.grantSpanEnd t n g) s = .next ((u.endSpan n x).wakeLink x) := by
      refine (if_pos hlea).trans (congrArg Host.Outcome.next ?_)
      show (match (u.grants n).find? (fun x => x.id == g) with
        | some x => if x.cls ≠ clsPowerOn ∧ x.ends ≤ u.now then (u.endSpan n x).wakeLink x else u
        | none => u) = _
      rw [hg]
      exact if_pos ⟨hcls, hends⟩
    have hset : (u.modArb n (Arbiter.pastTails x (u.now - u.sampleTicks))).SetsThrottle _ x.q (u.endSpan n x) := State.setsThrottle _ x.q
    have hlevel : (u.endSpan n x).fld Fld.cluPwrStateThrottle x.q 0 = (u.endSpan n x).throttleLevel x.q := State.throttle_setThrottle _ x.q
    generalize u.endSpan n x = v at hexec hset hlevel
    have hwake := v.wakeLink_notes x
    refine ⟨_, hexec, ?_, ?_, ?_, fun h => ?_, fun l hl hbank => State.idled_wakeLink hl hbank⟩
    · exact .trans (.trans (.of_clusters rfl) hset.sameRows) (.of_clusters hwake.clusters)
    · exact hwake.cores.trans hset.cores
    · rw [hwake.arb]
      show (v.hub n).arb.placed = _
      rw [State.hub, hset.hubs]
      exact congrArg Arbiter.placed ((u.arb_modArb n _ n).trans (if_pos rfl))
    · rw [State.wakeLink_of_ne h]
      exact hlevel

end Sys2Proof
end

section
/-! What the side path, the events and the norm watch leave of a cluster's vectors (R202 to R204, R243 to R253), and O21. -/

namespace Sys2Proof.Machine

/-! ### The side path -/

/-- Of the clusters, only jobs and queue pairs differ. -/
def State.SideOnly (s t : State) : Prop :=
  ∀ p, t.cluster p = { s.cluster p with jobs := (t.cluster p).jobs, queues := (t.cluster p).queues }

namespace State.SideOnly
variable {s t u : State}

theorem of_clusters (h : t.clusters = s.clusters) : s.SideOnly t := fun p => by
  rw [State.cluster, State.cluster, h]

theorem refl (s : State) : s.SideOnly s := .of_clusters rfl

theorem trans (h : s.SideOnly t) (h' : t.SideOnly u) : s.SideOnly u := fun p => by
  rw [h' p, h p]

theorem foldl {α : Type} {g : State → α → State} (hg : ∀ (t : State) a, t.SideOnly (g t a)) (l : List α) (s : State) :
    s.SideOnly (l.foldl g s) :=
  List.foldlRecOn (motive := s.SideOnly) l g (.refl s) (fun _ h _ _ => h.trans (hg _ _))

theorem modCluster (s : State) (q : Nat) {f : Cluster → Cluster} (hf : ∀ c, f c = { c with jobs := (f c).jobs, queues := (f c).queues }) :
    s.SideOnly (s.modCluster q f) := fun p => by
  rw [State.cluster_of_modCluster]
  split
  next h =>
    rw [h]
    exact hf _
  next => rfl

theorem modJob (s : State) (q id : Nat) (f : SideJob → SideJob) : s.SideOnly (s.modJob q id f) := .modCluster s q fun _ => rfl

theorem modQueue (s : State) (q k : Nat) (f : Queue → Queue) : s.SideOnly (s.modQueue q k f) := .modCluster s q fun _ => rfl

theorem of_passes {q k : Nat} (h : s.Passes q k t) : s.SideOnly t := fun p => by
  by_cases hp : p = q
  · rw [hp, h.cluster]
  · rw [h.other p hp]

theorem of_notes (h : s.Notes t) : s.SideOnly t := .of_clusters h.clusters

theorem refuseShadow (s : State) (q : Nat) (j : SideJob) (m row : Nat) : s.SideOnly (s.refuseShadow q j m row) :=
  (modJob s q j.id _).trans (.of_notes (.trans (.report _ _ _ _ _) (.failItems _ _ _ _)))

theorem askShadow (s : State) (q : Nat) (j : SideJob) (i rpi : Nat) (addr : Word) : s.SideOnly (s.askShadow q j i rpi addr) := by
  unfold State.askShadow
  extract_lets tag r s'
  have hs' : s.SideOnly s' := .trans (.of_clusters rfl) (.modJob s.drawTag q j.id _)
  exact (hs'.trans (.modQueue s' q j.queue _)).trans (.of_passes (.sendAll _ _))

theorem fetchElem (s : State) (q : Nat) (j : SideJob) (i : Nat) : s.SideOnly (s.fetchElem q j i) := by
  unfold State.fetchElem
  extract_lets rpi base
  split
  · split
    · exact .refuseShadow _ _ _ _ _
    · exact .askShadow _ _ _ _ _ _
  · exact .refuseShadow _ _ _ _ _

theorem startJob (s : State) (q id : Nat) (mode : SideMode) (z : List Nat) (e : Int) (elems : List Nat) :
    s.SideOnly (s.startJob q id mode z e elems) := by
  unfold State.startJob
  extract_lets s'
  have hs' : s.SideOnly s' := .modJob s q id _
  split
  · exact hs'.trans (.foldl (fun t i => .fetchElem t q _ i) elems s')
  · exact hs'

theorem decideJob (s : State) (q : Nat) (v : ArrVec) : s.SideOnly (s.decideJob q v) := .modJob s q v.id _

theorem openJob (s : State) (q : Nat) (j : SideJob) : s.SideOnly (s.openJob q j) :=
  .trans (.modCluster s q fun _ => rfl) (.modQueue _ q j.queue _)

section
variable (h : s.SideOnly t)
include h

theorem sameRows : SameRows s t := fun p a => by rw [State.row, State.row, h p]
theorem vecs (q g : Nat) : t.vecs q g = s.vecs q g := by
  rw [State.vecs, State.vecs, h q]
  rfl
theorem group (q g : Nat) : (t.cluster q).group g = (s.cluster q).group g := by
  rw [h q]
  rfl
theorem normSlot (q e : Nat) : t.normSlot q e = s.normSlot q e := by rw [State.normSlot, State.normSlot, h q]
theorem access (q : Nat) : (t.cluster q).access = (s.cluster q).access := by rw [h q]

end

end State.SideOnly

/-! ### Failed items -/

theorem State.image_report (s : State) (k : Source) (code p0 p1 f : Nat) :
    ((s.report k code p0 p1).fold f).image = (s.fold f).image := by
  have hlog : ∀ (t : State) r, (t.logRecord k r).fold f = t.fold f := fun t r => by
    obtain ⟨m, log, hubs, h⟩ := t.logRecord_frame k r
    rw [h]
    rfl
  unfold State.report
  extract_lets r
  split
  · split
    · rfl
    · rw [hlog, State.fold_of_modFold]
      split
      next h => rw [h]
      next => rfl
  · rw [hlog]

/-- An event is recorded, and the items that it hits take their status. -/
theorem State.batch_report_failItems (s : State) (k : Source) (code p0 p1 f c st : Nat) :
    (((s.report k code p0 p1).failItems f c st).fold f).batch = markAt st (s.itemsOf f c) 0 (s.fold f).batch := by
  rw [State.failItems, State.fold_of_modFold, if_pos rfl, State.batch_report, State.itemsOf, State.image_report, State.itemsOf]

/-! ### The norm watch (R251 to R253) -/

section
variable {s : State} {q g : Nat} {v : ArrVec}

theorem State.watch_of_skipped (h : v.unwatched = true ∨ (s.normSlot q v.entry).state = 0) : s.watch q v = (s, v) := if_pos h

variable (s q v) in
/-- What the slot makes of the vector's norm. -/
def State.judgement : Bool × NormSlot := (s.normSlot q v.entry).judge (normOf v.out)

variable (s q v) in
/-- The state in which the slot has judged the vector. -/
def State.judged : State := s.setNormSlot q v.entry (s.judgement q v).2

variable (s q v) in
/-- The state in which a trigger has been recorded besides. -/
def State.flagged : State := (s.judged q v).report (srcAgent q (some v.fold)) 0x4005 v.entry (normOf v.out)

theorem State.normSlot_judged : (s.judged q v).normSlot q v.entry = (s.judgement q v).2 := by
  rw [State.judged, State.setNormSlot, State.normSlot, State.cluster_of_modCluster, if_pos rfl, Map.get_set, if_pos rfl]

theorem State.sameRows_judged : SameRows s (s.judged q v) := sameRows_modCluster s q fun _ => rfl

theorem State.vecs_judged : (s.judged q v).vecs q g = s.vecs q g := by
  rw [State.vecs, State.judged, State.setNormSlot, State.cluster_of_modCluster, if_pos rfl]
  rfl

theorem State.sideOnly_flagged : (s.judged q v).SideOnly (s.flagged q v) := .of_notes (.report _ _ _ _ _)

section
variable (hwatched : ¬ (v.unwatched = true ∨ (s.normSlot q v.entry).state = 0))
include hwatched

theorem State.watch_of_quiet (hhit : (s.judgement q v).1 = false) :
    s.watch q v = (s.judged q v, { v with normN := normOf v.out }) := by
  unfold State.judgement at hhit
  unfold State.judged State.judgement
  rw [State.watch]
  simp only [if_neg hwatched, hhit]
  rfl

variable (hhit : (s.judgement q v).1 = true)
include hhit

/-- REDO-DIGITAL. -/
theorem State.watch_of_redo (hpolicy : (s.normSlot q v.entry).policy = 2) : ∃ t, (s.flagged q v).SideOnly t ∧
    s.watch q v = (t, { v with normN := normOf v.out, normFlag := true, normRedo := true, out := v.out.map (fun _ => 0) }) := by
  unfold State.flagged State.judged State.judgement
  unfold State.judgement at hhit
  rw [State.watch]
  simp only [if_neg hwatched, hhit, hpolicy]
  refine ⟨_, ?_, rfl⟩
  refine .trans (.of_notes (.bump _ Fld.cluNumStatRedoVectors q 0)) ?_
  split
  · exact .startJob _ _ _ _ _ _ _
  · exact .refl _

/-- FAIL-ITEM. -/
theorem State.watch_of_fail (hpolicy : (s.normSlot q v.entry).policy = 3) : s.watch q v =
    ((s.flagged q v).failItems v.fold v.core 0x14, { v with normN := normOf v.out, normFlag := true, normFail := true }) := by
  unfold State.flagged State.judged State.judgement
  unfold State.judgement at hhit
  rw [State.watch]
  simp only [if_neg hwatched, hhit, hpolicy]
  rfl

theorem State.watch_of_flag (h2 : (s.normSlot q v.entry).policy ≠ 2) (h3 : (s.normSlot q v.entry).policy ≠ 3) :
    s.watch q v = (s.flagged q v, { v with normN := normOf v.out, normFlag := true }) := by
  unfold State.flagged State.judged State.judgement
  unfold State.judgement at hhit
  rw [State.watch]
  simp only [if_neg hwatched, hhit, if_neg h2, if_neg h3]
  rfl

end

end

/-! ### Accumulation (R202, R237, R626) -/

section
variable (s : State) (q g : Nat) (v : ArrVec)

/-- The outputs that a vector is given: zero where it drove nothing for a fault. -/
def State.formed : List Nat :=
  if v.nonfinite = true ∨ v.badRow = true ∨ v.redo = true then List.replicate (512 * (8 / s.depth q v.entry)) 0 else s.outputs q g v

theorem State.vecs_modVec (p : ArrVec → Bool) (f : ArrVec → ArrVec) : (s.modVec q g p f).vecs q g = modFirst p f (s.vecs q g) :=
  congrArg Group.vecs (s.group_modGroup q g (fun x => { x with vecs := modFirst p f x.vecs }))

theorem State.sameRows_modVec (p : ArrVec → Bool) (f : ArrVec → ArrVec) : SameRows s (s.modVec q g p f) := s.sameRows_modGroup q g _

theorem State.normSlot_modGroup (f : Group → Group) (e : Nat) : (s.modGroup q g f).normSlot q e = s.normSlot q e := by
  rw [State.normSlot, State.modGroup, State.cluster_of_modCluster, if_pos rfl]
  rfl

variable {s q g v}

/-- The watch has judged the vector and left `t` and `v'`; what the end of the accumulation makes of them. -/
theorem State.accumulate_of_watch {t : State} {v' : ArrVec} (hfind : (s.vecs q g).find? (fun v => v.stage == .accumulating &&
      v.out.isEmpty && !v.notReady && decide (v.accepted + (1 + s.window q v) * s.planeTicks ≤ s.now)) = some v)
    (hwatch : s.watch q { v with out := s.formed q g v } = (t, v')) (hvecs : t.vecs q g = s.vecs q g) :
    SameRows t (s.accumulate q g) ∧ (s.accumulate q g).vecs q g = modFirst (fun x => x.id == v.id) (fun _ => v') (s.vecs q g) ∧
      (∀ e, (s.accumulate q g).normSlot q e = t.normSlot q e) ∧ ∀ f, (s.accumulate q g).fold f = t.fold f := by
  have heq : s.accumulate q g = (if v'.normRedo then t.decideJob q v' else t).modVec q g (fun x => x.id == v.id) (fun _ => v') := by
    unfold State.formed at hwatch
    simp only [State.accumulate, hfind, hwatch]
  have hside : t.SideOnly (if v'.normRedo then t.decideJob q v' else t) := by
    split
    · exact .decideJob t q v'
    · exact .refl t
  have hfold : ∀ f, (if v'.normRedo then t.decideJob q v' else t).fold f = t.fold f := fun f => by
    split <;> rfl
  rw [heq]
  generalize (if v'.normRedo then t.decideJob q v' else t) = w at hside hfold
  refine ⟨hside.sameRows.trans (w.sameRows_modVec q g _ _), ?_, fun e => ?_, hfold⟩
  · rw [State.vecs_modVec, hside.vecs, hvecs]
  · rw [State.modVec, State.normSlot_modGroup, hside.normSlot]

/-! ### The result (R120, R188) -/

theorem OnlyCluster.trans {s t u : State} {q : Nat} (h : OnlyCluster q s t) (h' : OnlyCluster q t u) : OnlyCluster q s u := by
  obtain ⟨ht, hc⟩ := h
  obtain ⟨hu, hc'⟩ := h'
  refine ⟨?_, fun x hx => (hc' x hx).trans (hc x hx)⟩
  rw [hu, ht]

theorem State.onlyCluster_decideJob (s : State) (q : Nat) (v : ArrVec) : OnlyCluster q s (s.decideJob q v) := by
  unfold State.decideJob State.modJob
  exact onlyCluster_modCluster s q _

theorem State.resultReady_eq {s : State} {q g : Nat} {v : ArrVec} (hfind : (s.vecs q g).find? (fun v => v.stage == .accumulating &&
    (v.notReady || !v.out.isEmpty) && decide (v.ready ≤ s.now)) = some v) :
    s.resultReady q g = (s.decideJob q v).modGroup q g (fun x => { x with
      vecs := if (s.core v.core).faulted then x.vecs.filter (fun y => y.id != v.id || y.stage == .issued)
        else modFirst (fun x => x.id == v.id) (fun x => { x with stage := .ready }) x.vecs }) := by
  simp only [State.resultReady, hfind]
  have hcore : (s.decideJob q v).core v.core = s.core v.core := rfl
  rw [hcore]
  cases (s.core v.core).faulted <;> rfl

end

end Sys2Proof.Machine

namespace Sys2Proof
open Machine

/-- Settles O21: the outcomes of the norm watch one by one, and then the result, discarded or ready. -/
theorem arrayResultForms : Obligations.ArrayResultForms := by
  intro t q g v s hq hg hfold hentry hcore u zero out m hit
  have hknown : validGroup q g = true := by
    rw [validGroup, hq, decide_eq_true hg]
    rfl
  refine ⟨fun hfind => ?accumulate, fun hfind => ?ready⟩
  case accumulate =>
    have hrows : SameRows u (u.judged q { v with out := u.formed q g v }) := State.sameRows_judged
    have hvecs : (u.judged q { v with out := u.formed q g v }).vecs q g = u.vecs q g := State.vecs_judged
    have hslot : (u.judged q { v with out := u.formed q g v }).normSlot q v.entry = (m.judge (normOf out)).2 := State.normSlot_judged
    have hflag : (u.judged q { v with out := u.formed q g v }).SideOnly (u.flagged q { v with out := u.formed q g v }) :=
      State.sideOnly_flagged
    by_cases hskip : v.unwatched = true ∨ m.state = 0
    · obtain ⟨hr, hv, hn, -⟩ := State.accumulate_of_watch hfind (State.watch_of_skipped hskip) rfl
      refine ⟨_, _, if_pos hknown, hr, hv, ?_⟩
      rw [if_pos hskip]
      exact ⟨rfl, hn v.entry⟩
    cases hhit : (m.judge (normOf out)).1 with
    | false =>
      obtain ⟨hr, hv, hn, -⟩ := State.accumulate_of_watch hfind (State.watch_of_quiet hskip hhit) hvecs
      refine ⟨_, _, if_pos hknown, hrows.trans hr, hv, ?_⟩
      rw [if_neg hskip, if_pos hhit]
      exact ⟨(hn v.entry).trans hslot, rfl⟩
    | true =>
      have hhit' : ¬ hit = false := fun h => Bool.false_ne_true (h.symm.trans hhit)
      by_cases h2 : m.policy = 2
      · obtain ⟨w, hside, hwatch⟩ := State.watch_of_redo (v := { v with out := u.formed q g v }) hskip hhit h2
        have hside' := hflag.trans hside
        obtain ⟨hr, hv, hn, -⟩ := State.accumulate_of_watch hfind hwatch ((hside'.vecs q g).trans hvecs)
        refine ⟨_, _, if_pos hknown, (hrows.trans hside'.sameRows).trans hr, hv, ?_⟩
        rw [if_neg hskip, if_neg hhit', if_pos h2]
        exact ⟨((hn v.entry).trans (hside'.normSlot q v.entry)).trans hslot, rfl⟩
      by_cases h3 : m.policy = 3
      · have hside' := hflag.trans (.of_notes (.failItems _ v.fold v.core 0x14))
        obtain ⟨hr, hv, hn, hf⟩ := State.accumulate_of_watch hfind (State.watch_of_fail hskip hhit h3) ((hside'.vecs q g).trans hvecs)
        refine ⟨_, _, if_pos hknown, (hrows.trans hside'.sameRows).trans hr, hv, ?_⟩
        rw [if_neg hskip, if_neg hhit', if_neg h2, if_pos h3]
        refine ⟨((hn v.entry).trans (hside'.normSlot q v.entry)).trans hslot, rfl, ?_⟩
        rw [hf]
        exact State.batch_report_failItems _ _ _ _ _ _ _ _
      · obtain ⟨hr, hv, hn, -⟩ := State.accumulate_of_watch hfind (State.watch_of_flag hskip hhit h2 h3) ((hflag.vecs q g).trans hvecs)
        refine ⟨_, _, if_pos hknown, (hrows.trans hflag.sameRows).trans hr, hv, ?_⟩
        rw [if_neg hskip, if_neg hhit', if_neg h2, if_neg h3]
        exact ⟨((hn v.entry).trans (hflag.normSlot q v.entry)).trans hslot, rfl⟩
  case ready =>
    have hexec : exec (.arrayResultReady t q g) s = .next (u.resultReady q g) := if_pos hknown
    rw [State.resultReady_eq hfind] at hexec
    have hside : u.SideOnly (u.decideJob q v) := .decideJob u q v
    refine ⟨_, hexec, OnlyCluster.trans (u.onlyCluster_decideJob q v) (onlyCluster_modCluster _ q _),
      hside.sameRows.trans (State.sameRows_modGroup _ q g _), ?_⟩
    rw [State.vecs, State.group_modGroup, hside.group]
    rfl

end Sys2Proof
end

section
/-! An array group accepts its oldest issued vector, or asks leave for it (R116, R122, R129, R183 to R190), and O18. -/

namespace Sys2Proof.Machine

def firstIssued (x : ArrVec) : Bool := x.stage == .issued

section
variable (s : State) (q g : Nat) (v : ArrVec)

/-- The vector as it is accepted now. -/
def State.acceptedVec : ArrVec :=
  let w : ArrVec := { v with
    id := s.nextTag, accepted := s.now, notReady := s.groupNotReady q g v
    left := if s.groupNotReady q g v then 0 else 4 * s.depth q v.entry
    stage := if s.groupNotReady q g v then .accumulating else .rotating }
  { w with ready := s.drawTag.readyTick q w }

/-- The tick at which the group may accept again. -/
def State.acceptsNext : Nat := s.now + Nat.max 4 (s.window q v) * s.planeTicks

/-- The state in which the group has taken the vector up. -/
def State.takenUp : State := s.drawTag.setVec q g firstIssued (s.acceptedVec q g v)

/-- The state in which the side path has its job besides. -/
def State.accepting : State :=
  (s.takenUp q g v).openJob q ⟨s.nextTag, g, v.entry, v.core, v.fold, (s.takenUp q g v).now, (s.takenUp q g v).sideQueue q v.entry,
    .strays, s.groupNotReady q g v, [], 0, [], [], [], false, false, 0⟩

/-- The access that fetches input row `i`. -/
def State.inputAccess (i : Nat) : Access :=
  ⟨.rotation g, v.row0 + i, s.bankEdge v.fold s.now + 3 * i, .toGroup i, v.fold, v.core, false⟩

theorem State.acceptNow_eq : s.acceptNow q g v =
    if s.groupNotReady q g v then
      ((s.accepting q g v).report (srcAgent q (some v.fold)) 0x4001 g v.entry).failItems v.fold v.core 0x10
    else (List.range (4 * s.depth q v.entry)).foldl (fun t i => t.present q (t.inputAccess g v i)) (s.accepting q g v) := by
  unfold State.acceptNow State.accepting State.takenUp State.acceptedVec
  rfl

theorem State.vecs_accepting : (s.accepting q g v).vecs q g =
    setFirst firstIssued (s.acceptedVec q g v) (s.acceptsNext q v) (s.vecs q g) :=
  ((SideOnly.openJob _ q _).vecs q g).trans (congrArg Group.vecs (s.drawTag.group_modGroup q g _))

theorem State.next_accepting : (((s.accepting q g v).cluster q).group g).next =
    Nat.max ((s.cluster q).group g).next (s.acceptsNext q v) :=
  congrArg Group.next (((SideOnly.openJob _ q _).group q g).trans (s.drawTag.group_modGroup q g _))

theorem State.access_accepting : ((s.accepting q g v).cluster q).access = (s.cluster q).access :=
  ((SideOnly.openJob _ q _).access q).trans (s.drawTag.access_modGroup q g _)

theorem State.sameRows_accepting : SameRows s (s.accepting q g v) :=
  SameRows.trans (.of_clusters rfl) ((s.drawTag.sameRows_modGroup q g _).trans (SideOnly.openJob _ q _).sameRows)

theorem State.folds_accepting : (s.accepting q g v).folds = s.folds := rfl

/-- A group that is not ready takes the vector up all the same, and asks for none of its rows (R122, R183). -/
theorem State.acceptNow_of_notReady (h : s.groupNotReady q g v = true) :
    (s.accepting q g v).Notes (s.acceptNow q g v) ∧
      ((s.acceptNow q g v).fold v.fold).batch = markAt 0x10 (s.itemsOf v.fold v.core) 0 (s.fold v.fold).batch := by
  rw [State.acceptNow_eq, if_pos h]
  refine ⟨.trans (.report _ _ _ _ _) (.failItems _ _ _ _), ?_⟩
  rw [State.batch_report_failItems, State.itemsOf, State.fold, State.folds_accepting]
  rfl

theorem State.acceptNow_of_ready (h : s.groupNotReady q g v = false) :
    (s.accepting q g v).Presented q ((List.range (4 * s.depth q v.entry)).map (s.inputAccess g v)) (s.acceptNow q g v) := by
  have hshown := State.Presented.foldl (q := q) (g := fun (t : State) i => t.inputAccess g v i) (fun _ _ _ => rfl)
    (List.range (4 * s.depth q v.entry)) (s.accepting q g v)
  rw [State.acceptNow_eq, if_neg (Bool.eq_false_iff.mp h)]
  exact hshown

/-- What the acceptance of a vector leaves, whether the group is ready or not. -/
theorem State.acceptNow_leaves :
    (∀ j, ((s.acceptNow q g v).cluster q).group j = ((s.accepting q g v).cluster q).group j) ∧
      ((s.acceptNow q g v).cluster q).access = (s.cluster q).access ++
        (List.range (if s.groupNotReady q g v then 0 else 4 * s.depth q v.entry)).map (s.inputAccess g v) ∧
      ((s.acceptNow q g v).fold v.fold).batch = (if s.groupNotReady q g v then
        markAt 0x10 (s.itemsOf v.fold v.core) 0 (s.fold v.fold).batch else (s.fold v.fold).batch) ∧
      SameRows s (s.acceptNow q g v) := by
  have hrows := s.sameRows_accepting q g v
  have haccess := s.access_accepting q g v
  have hfolds := s.folds_accepting q g v
  cases h : s.groupNotReady q g v with
  | true =>
    obtain ⟨hnotes, hbatch⟩ := s.acceptNow_of_notReady q g v h
    refine ⟨fun j => by rw [hnotes.cluster], ?_, hbatch, hrows.trans hnotes.sameRows⟩
    rw [hnotes.cluster, haccess]
    exact (List.append_nil _).symm
  | false =>
    have hp := s.acceptNow_of_ready q g v h
    refine ⟨fun j => ?_, ?_, ?_, hrows.trans hp.sameRows⟩
    · rw [hp.cluster]
      rfl
    · rw [hp.cluster, haccess]
      rfl
    · rw [State.fold, hp.frame, hfolds]
      rfl

/-! ### Leave for a vector (R125, R129) -/

/-- What an operation of the vector occupies, from the first plane boundary after the grant's start. -/
def State.vecBegin : Begin := ⟨s.vecBusy v q, (s.fold v.fold).tick0, s.planeTicks, 0⟩

theorem State.clusters_vecLeave : (s.hardwareLeave v.core clsArray false (s.vecBegin q v)).clusters = s.clusters :=
  s.clusters_hardwareLeave _ _ _ _

theorem State.vecs_askForVec : (s.askForVec q g v).vecs q g =
    modFirst firstIssued (fun x => { x with grant := some s.nextTag, asks := false }) (s.vecs q g) := by
  refine (State.vecs_modVec (s.hardwareLeave v.core clsArray false (s.vecBegin q v)) q g _ _).trans ?_
  rw [State.vecs, State.cluster, State.clusters_vecLeave]
  rfl

theorem State.access_askForVec : ((s.askForVec q g v).cluster q).access = (s.cluster q).access := by
  refine (State.access_modGroup (s.hardwareLeave v.core clsArray false (s.vecBegin q v)) q g _).trans ?_
  rw [State.cluster, State.clusters_vecLeave, State.cluster]

theorem State.sameRows_askForVec : SameRows s (s.askForVec q g v) :=
  SameRows.trans (.of_clusters (s.clusters_vecLeave q v)) (State.sameRows_modGroup _ q g _)

theorem State.waiting_askForVec : s.leaveReqOf v.core clsArray (s.vecBegin q v) ∈
    ((s.askForVec q g v).hub (clusterOf v.core / 24)).arb.waiting := by
  show _ ∈ ((s.hardwareLeave v.core clsArray false (s.vecBegin q v)).hub (clusterOf v.core / 24)).arb.waiting
  rw [State.arb_hardwareLeave, if_pos rfl]
  exact List.mem_append_right _ (List.mem_singleton_self _)

variable {s q g v} (hfind : (s.vecs q g).find? firstIssued = some v)
include hfind

theorem State.acceptVec_of_asks (hasks : v.asks = true) (hheld : s.held q < 16) (hbound : onBoundary s v.fold = false) :
    s.acceptVec q g = s.askForVec q g v := by
  unfold firstIssued at hfind
  simp only [State.acceptVec, hfind]
  exact if_pos ⟨hasks, hheld, Bool.eq_false_iff.mp hbound⟩

theorem State.acceptVec_of_boundary (hbound : onBoundary s v.fold = true) (hissued : v.issued + 36 ≤ s.now)
    (hnext : ((s.cluster q).group g).next ≤ s.now) : s.acceptVec q g = match v.grant with
      | some id => if s.unbegun (q / 24) id then s else s.acceptNow q g v
      | none =>
        if s.covered v.core clsArray s.now (s.now + s.vecBusy v q) then s.acceptNow q g v
        else if 16 ≤ s.held q then s.modVec q g firstIssued (fun x => { x with asks := true })
        else s.askForVec q g v := by
  unfold firstIssued at hfind
  simp only [State.acceptVec, hfind]
  rw [if_neg (fun h => h.2.2 hbound), if_neg (by rintro (h | h | h); exacts [h hbound, by omega, by omega])]
  rfl

end

end Sys2Proof.Machine

namespace Sys2Proof
open Machine

/-- Settles O18: the vector is accepted, asks for leave, or notes that it is to ask. -/
theorem arrayVectorAccepted : Obligations.ArrayVectorAccepted := by
  intro t q g v s hq hg hfold hentry hcore hcluster u T hfind hbound hissued hnext
  have hknown : validGroup q g = true := by
    rw [validGroup, hq, decide_eq_true hg]
    rfl
  refine ⟨fun hleave => ?accepts, fun hgrant hcov hheld => ?asks, fun hgrant hcov hheld => ?full⟩
  case accepts =>
    have hexec : exec (.arrayAccept t q g) s = .next (u.acceptNow q g v) := by
      refine (if_pos hknown).trans (congrArg Host.Outcome.next ((State.acceptVec_of_boundary hfind hbound hissued hnext).trans ?_))
      split at hleave
      next h => rw [h]; exact if_pos hleave
      next id h => rw [h]; exact if_neg (Bool.eq_false_iff.mp hleave)
    obtain ⟨hgroup, haccess, hbatch, hrows⟩ := u.acceptNow_leaves q g v
    refine ⟨_, hexec, ?_, ?_, haccess, hbatch, hrows⟩
    · exact (congrArg Group.vecs (hgroup g)).trans (u.vecs_accepting q g v)
    · exact (congrArg Group.next (hgroup g)).trans (u.next_accepting q g v)
  case asks =>
    have hexec : exec (.arrayAccept t q g) s = .next (u.askForVec q g v) := by
      refine (if_pos hknown).trans (congrArg Host.Outcome.next ((State.acceptVec_of_boundary hfind hbound hissued hnext).trans ?_))
      rw [hgrant]
      exact (if_neg (Bool.eq_false_iff.mp hcov)).trans (if_neg (Nat.not_le.mpr hheld))
    have hwaiting := u.waiting_askForVec q g v
    rw [hcluster] at hwaiting
    exact ⟨_, hexec, u.vecs_askForVec q g v, ⟨_, hwaiting, rfl, rfl, hcluster, rfl, congrArg (u.classDefault · clsArray) hcluster, rfl, rfl⟩,
      u.access_askForVec q g v, u.sameRows_askForVec q g v⟩
  case full =>
    have hexec : exec (.arrayAccept t q g) s = .next (u.modVec q g firstIssued (fun x => { x with asks := true })) := by
      refine (if_pos hknown).trans (congrArg Host.Outcome.next ((State.acceptVec_of_boundary hfind hbound hissued hnext).trans ?_))
      rw [hgrant]
      exact (if_neg (Bool.eq_false_iff.mp hcov)).trans (if_pos hheld)
    have honly : OnlyCluster q u (u.modVec q g firstIssued (fun x => { x with asks := true })) := by
      unfold State.modVec State.modGroup
      exact onlyCluster_modCluster u q _
    have hrows := u.sameRows_modVec q g firstIssued (fun x => { x with asks := true })
    have hvecs := u.vecs_modVec q g firstIssued (fun x => { x with asks := true })
    have htag : (u.modVec q g firstIssued (fun x => { x with asks := true })).nextTag = u.nextTag := rfl
    generalize u.modVec q g firstIssued (fun x => { x with asks := true }) = w at hexec honly hrows hvecs htag
    refine ⟨_, hexec, honly, hrows, hvecs, fun t' x _ hfind' hasks hheld' hbound' => ?_⟩
    have hexec' : exec (.arrayAccept t' q g) w = .next ((w.at t').askForVec q g x) :=
      (if_pos hknown).trans (congrArg Host.Outcome.next (State.acceptVec_of_asks hfind' hasks hheld' hbound'))
    refine ⟨_, hexec', hrows.trans (.trans (.of_clusters rfl) ((w.at t').sameRows_askForVec q g x)), ?_⟩
    rw [State.vecs_askForVec, State.at_nextTag, htag]
    rfl

end Sys2Proof
end

section
/-! The bulk mesh: launch, the way through a router, the hold buffer, and packets that cannot go on (R112, R262 to R281, R542, R543),
and O31. -/

namespace Sys2Proof.Machine

theorem State.Notes.routers {s t : State} (h : s.Notes t) : t.routers = s.routers := by rw [h.frame]

/-! ### One packet changes -/

section
variable {s : State} {id : Nat} {p : Packet} (f : Packet → Packet) (h : Map.find s.packets id = some p)
include h

theorem State.modPacket_of_find : s.modPacket id f = { s with packets := Map.put s.packets id (f p) } := by
  rw [State.modPacket, h]

theorem State.find_modPacket (i : Nat) :
    Map.find (s.modPacket id f).packets i = if i = id then some (f p) else Map.find s.packets i := by
  rw [State.modPacket_of_find f h]
  exact Map.find_put _ _ _ _

end

theorem Map.get_put {α : Type} (d : α) (m : Map α) (k : Nat) (v : α) : Map.get d (Map.put m k v) k = v := by
  rw [Map.get, Map.find_put, if_pos rfl]
  rfl

/-! ### A packet leaves (R262, R273, R281) -/

section
variable (s : State) (id o : Nat) (p : Packet)

/-- The state in which the packet has taken its port. -/
def State.portTaken : State :=
  s.modRouter p.tile (fun r => { r with
    cells := Map.put r.cells (rsvIndex o p.plane) (s.now + 8), hold := r.hold.erase id
    served := if s.timedAt p then r.served else Map.put r.served (turnKey o p.plane p.kind.vc) p.inPort
    timedAt := if s.timedAt p then Map.put r.timedAt (rsvIndex o p.plane) (s.now + 8) else r.timedAt })

/-- The packet as it enters tile `y` through port `o`. -/
def Packet.entering (y x : Nat) : Packet :=
  { p with
    tile := y, inPort := if p.via.length = 1 ∧ p.route.isSome then (p.out.map opposite).getD (opposite o) else opposite o,
    hops := p.hops + 1, entered := x, via := p.via.drop 1, out := if (p.via.drop 1).isEmpty then none else p.out, held := false }

variable {s id o p} (h : Map.find s.packets id = some p)
include h

theorem State.leave_of_local (hn : neighbour p.tile o = none) : s.leave id o p =
    { s.portTaken id o p with packets := Map.put s.packets id { p with entered := s.now, atPort := true, held := false } } := by
  have hfind : Map.find (s.portTaken id o p).packets id = some p := h
  have heq := State.modPacket_of_find (fun p => { p with entered := s.now, atPort := true, held := false }) hfind
  simp only [State.leave, hn]
  exact heq

theorem State.leave_of_neighbour {y : Nat} (hn : neighbour p.tile o = some y) : s.leave id o p =
    { s.portTaken id o p with packets := Map.put s.packets id (p.entering o y (s.now + 8)) } := by
  have hfind : Map.find (s.portTaken id o p).packets id = some p := h
  simp only [State.leave, hn]
  exact State.modPacket_of_find _ hfind

end

section
variable (s : State) (id o : Nat) (p : Packet)

theorem State.cells_portTaken : Map.get 0 ((s.portTaken id o p).router p.tile).cells (rsvIndex o p.plane) = s.now + 8 := by
  rw [State.portTaken, State.router_of_modRouter, if_pos rfl, Map.get_put]

theorem State.served_portTaken : ((s.portTaken id o p).router p.tile).served = if s.timedAt p then (s.router p.tile).served
    else Map.put (s.router p.tile).served (turnKey o p.plane p.kind.vc) p.inPort := by
  rw [State.portTaken, State.router_of_modRouter, if_pos rfl]

end

/-- What a packet that leaves does to the router that it leaves, and to itself. -/
structure State.Leaves (s t : State) (id o : Nat) (p : Packet) : Prop where
  rows : SameRows s t
  cells : Map.get 0 (t.router p.tile).cells (rsvIndex o p.plane) = s.now + 8
  served : (t.router p.tile).served = if s.timedAt p then (s.router p.tile).served
    else Map.put (s.router p.tile).served (turnKey o p.plane p.kind.vc) p.inPort
  atLocal : neighbour p.tile o = none → Map.find t.packets id = some { p with entered := s.now, atPort := true, held := false }
  onward : ∀ y, neighbour p.tile o = some y → Map.find t.packets id = some (p.entering o y (s.now + 8))

theorem State.leaves_leave {s : State} {id : Nat} {p : Packet} (o : Nat) (h : Map.find s.packets id = some p) :
    s.Leaves (s.leave id o p) id o p := by
  cases hn : neighbour p.tile o with
  | none =>
    rw [State.leave_of_local h hn]
    exact ⟨.of_clusters rfl, s.cells_portTaken id o p, s.served_portTaken id o p,
      fun _ => (Map.find_put _ _ _ _).trans (if_pos rfl), fun y hy => by rw [hn] at hy; cases hy⟩
  | some y =>
    rw [State.leave_of_neighbour h hn]
    refine ⟨.of_clusters rfl, s.cells_portTaken id o p, s.served_portTaken id o p, fun hy => ?_, fun z hz => ?_⟩
    · rw [hn] at hy
      cases hy
    · rw [hn] at hz
      cases hz
      exact (Map.find_put _ _ _ _).trans (if_pos rfl)

/-! ### A packet is held (R275) -/

/-- Whether the next router keeps the packet here. -/
def State.keptBack (s : State) (o : Nat) (p : Packet) : Bool := (neighbour p.tile o).any (fun y => o != 4 && !s.roomAt y o p)

section
variable {s : State} {id o : Nat} {p : Packet}

theorem State.holdRow_of_stays (h : s.timedAt p = false ∨ p.held = true ∨ (s.losesCell id o p = false ∧ s.keptBack o p = false) ∨
    s.holdRoom p.tile p.plane = false) : s.holdRow id o p = s := by
  refine if_pos ?_
  rcases h with h | h | ⟨h1, h2⟩ | h
  · exact .inl (Bool.eq_false_iff.mp h)
  · exact .inr (.inl h)
  · refine .inr (.inr (.inl ?_))
    rintro (h | h)
    · rw [h1] at h
      cases h
    · exact Bool.eq_false_iff.mp h2 h
  · exact .inr (.inr (.inr (Bool.eq_false_iff.mp h)))

variable (s id p) in
/-- The state in which the row stands in the hold buffer. -/
def State.inHold : State :=
  (s.modPacket id (fun p => { p with held := true })).modRouter p.tile (fun r => { r with hold := r.hold ++ [id] })

theorem State.holdRow_notes (htimed : s.timedAt p = true) (hheld : p.held = false)
    (hloses : s.losesCell id o p = true ∨ s.keptBack o p = true) (hroom : s.holdRoom p.tile p.plane = true) :
    (s.inHold id p).Notes (s.holdRow id o p) := by
  have hneg : ¬ (¬ s.timedAt p ∨ p.held ∨ ¬ (s.losesCell id o p ∨ s.keptBack o p) ∨ ¬ s.holdRoom p.tile p.plane) := by
    simp [htimed, hheld, hloses, hroom]
  rw [State.holdRow]
  refine Eq.mp (congrArg (State.Notes _) (if_neg hneg).symm) ?_
  exact .ite (.trans (.bump _ _ _ _) (.report _ _ _ _ _)) (.refl _)

section
variable (h : Map.find s.packets id = some p)
include h

theorem State.find_inHold : Map.find (s.inHold id p).packets id = some { p with held := true } :=
  (State.find_modPacket (fun p => { p with held := true }) h id).trans (if_pos rfl)

theorem State.hold_inHold : ((s.inHold id p).router p.tile).hold = (s.router p.tile).hold ++ [id] := by
  rw [State.inHold, State.router_of_modRouter, if_pos rfl, State.modPacket_of_find _ h]
  rfl

theorem State.sameRows_inHold : SameRows s (s.inHold id p) := by
  rw [State.inHold, State.modPacket_of_find _ h]
  exact .of_clusters rfl

end

end

/-! ### Packets that cannot go on (R284, R543) -/

/-- `t` differs from `s` in no row, in nothing that the statuses of a swath's items come from, and not in packet `id`. -/
structure State.Spares (id : Nat) (s t : State) : Prop where
  rows : SameRows s t
  batch : ∀ f, (t.fold f).batch = (s.fold f).batch
  image : ∀ f, (t.fold f).image = (s.fold f).image
  packet : Map.find t.packets id = Map.find s.packets id

namespace State.Spares
variable {id : Nat} {s t u : State}

theorem refl (s : State) : s.Spares id s := ⟨.refl s, fun _ => rfl, fun _ => rfl, rfl⟩

theorem trans (h : s.Spares id t) (h' : t.Spares id u) : s.Spares id u :=
  ⟨h.rows.trans h'.rows, fun f => (h'.batch f).trans (h.batch f), fun f => (h'.image f).trans (h.image f), h'.packet.trans h.packet⟩

theorem of_frame (hc : t.clusters = s.clusters) (hf : t.folds = s.folds) (hp : t.packets = s.packets) : s.Spares id t :=
  ⟨.of_clusters hc, fun f => by rw [State.fold, State.fold, hf], fun f => by rw [State.fold, State.fold, hf], by rw [hp]⟩

theorem bump (s : State) (x : Fld) (u i : Nat) : s.Spares id (s.bump x u i) := .of_frame rfl rfl rfl

theorem report (s : State) (k : Source) (code p0 p1 : Nat) : s.Spares id (s.report k code p0 p1) :=
  ⟨(State.Notes.report s k code p0 p1).sameRows, s.batch_report k code p0 p1, s.image_report k code p0 p1,
    by rw [(State.Notes.report s k code p0 p1).packets]⟩

theorem modCore (s : State) (c : Nat) (f : Core → Core) : s.Spares id (s.modCore c f) := .of_frame rfl rfl rfl

theorem modQueue (s : State) (q k : Nat) (f : Queue → Queue) : s.Spares id (s.modQueue q k f) :=
  ⟨s.sameRows_modQueue k q f, fun _ => rfl, fun _ => rfl, rfl⟩

theorem modFold (s : State) (g : Nat) {h : Fold → Fold} (hb : ∀ x, (h x).batch = x.batch) (hi : ∀ x, (h x).image = x.image) :
    s.Spares id (s.modFold g h) := by
  refine ⟨.of_clusters rfl, fun f => ?_, fun f => ?_, rfl⟩
  all_goals
    rw [State.fold_of_modFold]
    split
  next e => rw [e, hb]
  next => rfl
  next e => rw [e, hi]
  next => rfl

theorem arrive (s : State) (c : Nat) : s.Spares id (s.arrive c) := by
  unfold State.arrive
  split
  · split
    · exact .modFold s _ (fun _ => rfl) (fun _ => rfl)
    · exact .refl s
  · exact .refl s

theorem sendDone (s : State) (c : Nat) : s.Spares id (s.sendDone c) := .trans (.modCore s c _) (.arrive _ c)

theorem inject (h : id < s.nextTag) (p : Packet) : s.Spares id (s.inject p) :=
  ⟨.of_clusters rfl, fun _ => rfl, fun _ => rfl, (Map.find_put _ _ _ _).trans (if_neg h.ne)⟩

theorem answer (s : State) (core k : Nat) (a : Answer) : s.Spares id (s.answer core k a) := .modQueue s _ k _

theorem sendOn (s : State) (p vc : Nat) (l : List (RowHeader × Row)) : s.Spares id (s.sendOn p vc l) := by
  have h : s.Sends (s.sendOn p vc l) := .foldl (fun t x => t.sends_sendTx p _) _ s
  exact .of_frame (by rw [h.frame]) (by rw [h.frame]) (by rw [h.frame])

theorem answerOut (hid : id < s.nextTag) (p n : Nat) (h : RowHeader) (r : Row) : s.Spares id (s.answerOut p n h r) := by
  unfold State.answerOut
  split
  · unfold State.answerOwn
    extract_lets q kind
    split
    · exact .inject hid _
    · exact .refl s
  · exact .sendOn _ _ _ _

theorem landLinkRow (hid : id < s.nextTag) (tag i : Nat) (row : Option Row) : s.Spares id (s.landLinkRow tag i row) := by
  unfold State.landLinkRow
  split
  · exact .refl s
  · extract_lets src h s'
    have hs' : s.Spares id s' := .answerOut hid _ _ _ _
    split
    · exact hs'.trans (.of_frame rfl rfl rfl)
    · exact hs'.trans (.of_frame rfl rfl rfl)

theorem landLinkEnd (hid : id < s.nextTag) (tag : Nat) (cause : Option Nat) : s.Spares id (s.landLinkEnd tag cause) := by
  unfold State.landLinkEnd
  split
  · exact .refl s
  · exact (answerOut hid _ _ _ _).trans (.of_frame rfl rfl rfl)

theorem respondLink (hid : id < s.nextTag) (kind : PacketKind) (src tag : Nat) : s.Spares id (s.respondLink kind src tag) := by
  unfold State.respondLink
  split
  · exact .inject hid _
  · exact .refl s

theorem putOperand (s : State) (n core number : Nat) (addr : Word) (row : Option Row) : s.Spares id (s.putOperand n core number addr row) :=
  .of_frame rfl rfl rfl

theorem endWait (s : State) (c d : Nat) (v : Word) (f : Core → Core) : s.Spares id (s.endWait c d v f) := by
  unfold State.endWait
  split <;> exact .of_frame rfl rfl rfl

theorem wakeCall (s : State) (core number st : Nat) : s.Spares id (s.wakeCall core number st) := by
  unfold State.wakeCall
  extract_lets s'
  have hs' : s.Spares id s' := .modCore s core _
  split
  · split
    · exact hs'.trans (.endWait _ _ _ _ _)
    · exact hs'
  · exact hs'

theorem loseRow (hid : id < s.nextTag) (p : Packet) : s.Spares id (s.loseRow p) := by
  cases hk : p.kind with
  | linkRow | linkRead =>
    rw [State.loseRow, hk]
    exact .respondLink hid _ _ _
  | linkBack =>
    rw [State.loseRow, hk]
    exact .landLinkRow hid _ _ _
  | linkAck | linkRefusal =>
    rw [State.loseRow, hk]
    exact .landLinkEnd hid _ _
  | relay =>
    rw [State.loseRow, hk]
    exact .of_frame rfl rfl rfl
  | hubRead | operand =>
    rw [State.loseRow, hk]
    exact .putOperand _ _ _ _ _ _
  | result last =>
    rw [State.loseRow, hk]
    cases last with
    | true => exact .wakeCall _ _ _ _
    | false => exact .refl s
  | slot | queueWrite | queueRead | back | ack | refusal | dropped | windowRefusal =>
    rw [State.loseRow, hk]
    exact .refl s

end State.Spares

/-! #### The items of the sender fail (R86) -/

theorem worse_worse (o st : Nat) : worse (worse o st) st = worse o st := by
  unfold worse
  by_cases h : rankOf o < rankOf st <;> simp [h]

theorem BatchItem.mark_mark (st : Nat) (b : BatchItem) : (b.mark st).mark st = b.mark st := by
  cases h : b.status with
  | none => simp [BatchItem.mark, h, worse]
  | some o => simp [BatchItem.mark, h, worse_worse]

theorem markAt_markAt (st : Nat) (ps : Option (List Nat)) (i : Nat) (l : List BatchItem) :
    markAt st ps i (markAt st ps i l) = markAt st ps i l := by
  induction l generalizing i with
  | nil => rfl
  | cons b l ih =>
    cases ps with
    | none => simp only [markAt, ih, BatchItem.mark_mark]
    | some ps =>
      simp only [markAt, ih]
      split
      · rw [BatchItem.mark_mark]
      · rfl

section
variable {s t : State} {id f c : Nat}

theorem State.batch_failItems (s : State) (f c st : Nat) :
    ((s.failItems f c st).fold f).batch = markAt st (s.itemsOf f c) 0 (s.fold f).batch := by
  rw [State.failItems, State.fold_of_modFold, if_pos rfl]

theorem State.itemsOf_of_image (h : (t.fold f).image = (s.fold f).image) : t.itemsOf f c = s.itemsOf f c := by
  rw [State.itemsOf, State.itemsOf, h]

theorem State.image_failItems (s : State) (f c st : Nat) : ((s.failItems f c st).fold f).image = (s.fold f).image := by
  rw [State.failItems, State.fold_of_modFold, if_pos rfl]

/-- Packet `id` is off the mesh, and the items that core `c` of fold `f` serves have failed. -/
structure State.Loses (id f c : Nat) (s t : State) : Prop where
  rows : SameRows s t
  packet : Map.find t.packets id = none
  batch : (t.fold f).batch = markAt stFault (s.itemsOf f c) 0 (s.fold f).batch

theorem State.Loses.of_spares (h : (s.removePacket id).Spares id t) : s.Loses id f c (t.failItems f c stFault) := by
  obtain ⟨hrows, hbatch, himage, hpacket⟩ := h
  refine ⟨SameRows.trans (.of_clusters rfl) (hrows.trans (.of_clusters rfl)), hpacket.trans ((Map.find_del _ _ _).trans (if_pos rfl)), ?_⟩
  rw [State.batch_failItems, hbatch, State.itemsOf_of_image (himage f)]
  rfl

/-- A second failure of the same items changes nothing. -/
theorem State.Loses.of_spares_twice (h : (s.removePacket id).Spares id t) :
    s.Loses id f c ((t.failItems f c stFault).failItems f c stFault) := by
  obtain ⟨hrows, hpacket, hbatch⟩ := State.Loses.of_spares (f := f) (c := c) h
  refine ⟨hrows.trans (.of_clusters rfl), hpacket, ?_⟩
  rw [State.batch_failItems, State.batch_failItems, State.itemsOf_of_image (t.image_failItems f c stFault), markAt_markAt,
    ← State.batch_failItems, hbatch]

variable {p : Packet}

theorem State.Spares.landPacket (hk : p.kind ≠ .back) : s.Spares id (s.landPacket p) := by
  unfold State.landPacket
  split
  next h => exact absurd h hk
  next => exact .answer _ _ _ _
  next =>
    split
    · exact .answer _ _ _ _
    · exact .refl s
  next => exact .of_frame rfl rfl rfl
  next => exact .sendDone _ _
  next => exact .refl s

/-- What the loss of an answer, or of a packet of another module or of an engine call, makes of the state. -/
theorem State.refusePacket_of_answer (hslot : p.kind ≠ .slot) (hwrite : p.kind ≠ .queueWrite) (hread : p.kind ≠ .queueRead)
    (hfold : p.fold ≠ noFold) : s.refusePacket id p =
      (if p.kind.ofCore then (s.removePacket id).landPacket { p with row := none } else (s.removePacket id).loseRow p).failItems
        p.fold p.srcCore stFault := by
  unfold State.refusePacket
  extract_lets s'
  split
  next h => exact absurd h hslot
  next h => exact absurd h hwrite
  next h => exact absurd h hread
  next => exact if_neg hfold

theorem State.refusePacket_loses (hid : id < s.nextTag) (hfold : p.fold ≠ noFold) :
    s.Loses id p.fold p.srcCore (s.refusePacket id p) := by
  have hid' : id < (s.removePacket id).nextTag := hid
  by_cases hslot : p.kind = .slot
  · rw [State.refusePacket, hslot]
    exact .of_spares (.sendDone _ _)
  by_cases hwrite : p.kind = .queueWrite
  · rw [State.refusePacket, hwrite]
    exact .of_spares (.inject hid' _)
  by_cases hread : p.kind = .queueRead
  · rw [State.refusePacket, hread]
    exact .of_spares (.inject hid' _)
  rw [State.refusePacket_of_answer hslot hwrite hread hfold]
  by_cases hback : p.kind = .back
  · rw [hback, State.landPacket]
    exact .of_spares_twice (.answer _ _ _ _)
  split
  · exact .of_spares (.landPacket hback)
  · exact .of_spares (.loseRow hid' p)

theorem State.Loses.after {u : State} (h : s.Spares id t) (h' : t.Loses id f c u) : s.Loses id f c u := by
  obtain ⟨hrows, hpacket, hbatch⟩ := h'
  refine ⟨h.rows.trans hrows, hpacket, ?_⟩
  rw [hbatch, State.itemsOf_of_image (h.image f), h.batch]

theorem State.routeFault_loses (e : Nat) : s.Loses id p.fold p.srcCore (s.routeFault id p e) := by
  unfold State.routeFault
  extract_lets u src s'
  have hs' : s.Spares id s' := by
    unfold s'
    split
    · exact .trans (.bump s _ u 0) (.report _ _ _ _ _)
    · exact .refl s
  exact .after hs' (.of_spares (.sendDone _ _))

/-! ### Forks (R267, R268) -/

theorem State.forkRow_of_route (h : p.route = none ∨ p.out.isSome = true ∨ p.via ≠ []) : s.forkRow id p = s := by
  unfold State.forkRow
  split
  next hroute hout hvia =>
    rw [hroute, hout] at h
    simp [hvia] at h
  next => rfl

theorem State.forkRow_of_offTree {e : Nat} (hroute : p.route = some e) (hout : p.out = none) (hvia : p.via = [])
    (htree : s.onTree p e = false) : s.forkRow id p = s.routeFault id p e := by
  simp only [State.forkRow, hroute, hout, hvia]
  exact if_neg (Bool.eq_false_iff.mp htree)

theorem State.forwardRow_of_gone (h : Map.find s.packets id = none) : s.forwardRow id = s := by
  rw [State.forwardRow, h]

section
variable (h : Map.find s.packets id = some p)
include h

theorem State.forwardRow_of_port {o : Nat} (hway : s.way p = .port o) :
    s.forwardRow id = if s.mayLeave id p o then s.leave id o p else s.holdRow id o p := by
  simp only [State.forwardRow, h, hway]

theorem State.forwardRow_of_around {l : List Nat} (hway : s.way p = .around l) :
    ∃ face, s.forwardRow id = s.modPacket id (fun p =>
      { p with timed := false, detour := p.detour || p.timed, via := l, out := face }) := by
  simp only [State.forwardRow, h, hway]
  exact ⟨_, rfl⟩

theorem State.forwardRow_loses (hway : s.way p = .none) (hid : id < s.nextTag) (hfold : p.fold ≠ noFold) :
    s.Loses id p.fold p.srcCore (s.forwardRow id) := by
  simp only [State.forwardRow, h, hway]
  cases p.route with
  | some e => exact State.routeFault_loses e
  | none => exact State.refusePacket_loses hid hfold

end

end

end Sys2Proof.Machine

namespace Sys2Proof
open Machine

/-- Settles O31: after the fork of its route set, by what the router makes of the packet (`State.way`). -/
theorem rowsCrossTheMesh : Obligations.RowsCrossTheMesh := by
  intro t pkt p s u hp
  refine ⟨fun x htimed hrow hlaunch hx => ?launch, ?router⟩
  case launch =>
    have hgo : (p.timed && p.row.isSome && p.launch.any (fun x => decide (x ≤ u.now))) = true := by
      simp [htimed, hrow, hlaunch, hx]
    have hexec : exec (.slotLaunch t pkt) s = .next ({ u with
        packets := Map.put u.packets pkt { p with entered := p.launch.getD p.entered, launch := none } }) := by
      refine congrArg Host.Outcome.next ?_
      show (match Map.find u.packets pkt with
        | some p => whenever (p.timed && p.row.isSome && p.launch.any (fun x => decide (x ≤ u.now)))
          (fun s => s.modPacket pkt (fun p => { p with entered := p.launch.getD p.entered, launch := none })) u
        | none => u) = _
      rw [hp]
      exact (whenever_of_true hgo _ _).trans (State.modPacket_of_find _ hp)
    rw [hlaunch] at hexec
    exact ⟨_, hexec, rfl, (Map.find_put _ _ _ _).trans (if_pos rfl), fun i hi => (Map.find_put _ _ _ _).trans (if_neg hi)⟩
  case router =>
    intro kept hat hentered hlaunch hready
    have hexec : exec (.routerRow t pkt) s = .next ((u.forkRow pkt p).forwardRow pkt) := by
      refine congrArg Host.Outcome.next ?_
      show (match Map.find u.packets pkt with
        | some p => whenever (!p.atPort && p.launch.isNone && decide (p.entered ≤ u.now) && (p.kind != PacketKind.slot || p.row.isSome))
          (fun s => (s.forkRow pkt p).forwardRow pkt) u
        | none => u) = _
      rw [hp]
      refine whenever_of_true ?_ _ _
      have hkind : (p.kind != .slot || p.row.isSome) = true := by
        rcases hready with h | h
        · rw [h, Bool.or_true]
        · rw [bne_iff_ne.mpr h, Bool.true_or]
      rw [hat, hlaunch, decide_eq_true hentered, hkind]
      rfl
    refine ⟨fun hroute => ?goes, fun e hroute hout hvia htree => ?fault⟩
    case fault =>
      obtain ⟨hrows, hpacket, hbatch⟩ := State.routeFault_loses (s := u) (id := pkt) (p := p) e
      rw [State.forkRow_of_offTree hroute hout hvia htree, State.forwardRow_of_gone hpacket] at hexec
      exact ⟨_, hexec, hrows, hpacket, hbatch⟩
    case goes =>
      rw [State.forkRow_of_route hroute] at hexec
      refine ⟨fun o hway hmay => ?leaves, fun o hway hmay hstay => ?stays, fun o hway hmay htimed hheld hlose hroom => ?held,
        fun l hway => ?around, fun hway htag hfold => ?lost⟩
      case leaves =>
        rw [State.forwardRow_of_port hp hway, if_pos hmay] at hexec
        obtain ⟨hrows, hcells, hserved, hlocal, honward⟩ := State.leaves_leave o hp
        refine ⟨_, hexec, hrows, hcells, fun ht => ?_, fun ht => ?_, hlocal, fun y hy => ⟨_, honward y hy, rfl, rfl, rfl, rfl, rfl, hat⟩⟩
        · rw [hserved, if_neg (Bool.eq_false_iff.mp ht), Map.get_put]
        · rw [hserved, if_pos ht]
      case stays =>
        rw [State.forwardRow_of_port hp hway, if_neg (Bool.eq_false_iff.mp hmay), State.holdRow_of_stays hstay] at hexec
        exact hexec
      case held =>
        rw [State.forwardRow_of_port hp hway, if_neg (Bool.eq_false_iff.mp hmay)] at hexec
        have hnotes := State.holdRow_notes htimed hheld hlose hroom
        refine ⟨_, hexec, (State.sameRows_inHold hp).trans hnotes.sameRows, ?_, ?_⟩
        · rw [hnotes.packets, State.find_inHold hp]
        · rw [State.router, hnotes.routers]
          exact State.hold_inHold hp
      case around =>
        obtain ⟨face, hforward⟩ := State.forwardRow_of_around hp hway
        rw [hforward, State.modPacket_of_find _ hp] at hexec
        exact ⟨_, _, hexec, rfl, (Map.find_put _ _ _ _).trans (if_pos rfl), rfl, rfl, rfl, rfl, rfl⟩
      case lost =>
        obtain ⟨hrows, hpacket, hbatch⟩ := State.forwardRow_loses hp hway htag hfold
        exact ⟨_, hexec, hrows, hpacket, hbatch⟩

end Sys2Proof
end

section
/-! Arrival at a cluster and at a hub (R144, R151, R265, R266, R276, R280, R283, R284, R302, R303), and O32. -/

namespace Sys2Proof.Machine

/-! ### The two commands -/

section
variable {t id q : Nat} {p : Packet} {s : State} (hp : Map.find (s.at t).packets id = some p)
include hp

/-- A packet behind an earlier one of its source, plane and virtual channel waits (R265). -/
theorem exec_arrival_of_later (hfirst : (s.at t).portFirst id p = false) :
    exec (.timedRowArrival t id) s = .next (s.at t) ∧ exec (.routerPortArrival t id) s = .next (s.at t) := by
  show execTimedRowArrival t id s = _ ∧ execRouterPortArrival t id s = _
  simp only [execTimedRowArrival, execRouterPortArrival, hp, hfirst, Bool.and_false]
  refine ⟨congrArg Host.Outcome.next ?_, congrArg Host.Outcome.next (whenever_of_false rfl _ _)⟩
  split
  · exact whenever_of_false rfl _ _
  · rfl

variable (hport : p.atPort = true) (hfirst : (s.at t).portFirst id p = true)
include hport hfirst

theorem exec_timedRowArrival {r : Row} (htimed : p.timed = true) (hq : clusterOfTile p.tile = some q) (hrow : p.row = some r) :
    exec (.timedRowArrival t id) s = .next ((s.at t).timedArrival q id p r) := by
  show execTimedRowArrival t id s = _
  simp only [execTimedRowArrival, hp, hq, hrow]
  exact congrArg Host.Outcome.next (whenever_of_true (by simp [hport, hfirst, htimed]) _ _)

variable (htimed : p.timed = false)
include htimed

theorem exec_routerPortArrival_cluster (hq : clusterOfTile p.tile = some q) :
    exec (.routerPortArrival t id) s = .next ((s.at t).portArrival q id p) := by
  show execRouterPortArrival t id s = _
  simp only [execRouterPortArrival, hp, hq]
  exact congrArg Host.Outcome.next (whenever_of_true (by simp [hport, hfirst, htimed]) _ _)

theorem exec_routerPortArrival_hub (hq : clusterOfTile p.tile = none) :
    exec (.routerPortArrival t id) s = .next ((s.at t).hubArrival (leaOfTile p.tile) id p) := by
  show execRouterPortArrival t id s = _
  simp only [execRouterPortArrival, hp, hq]
  exact congrArg Host.Outcome.next (whenever_of_true (by simp [hport, hfirst, htimed]) _ _)

end

/-! ### A packet that is taken -/

theorem State.presented_present (s : State) (q : Nat) (a : Access) : s.Presented q [a] (s.present q a) :=
  ⟨rfl, fun p hp => by rw [State.cluster_present, if_neg hp], by rw [State.cluster_present, if_pos rfl]⟩

/-- Packet `id` is off the mesh, the accesses `l` are presented to cluster `q`, `jobs` are the operations at its router port, and no
row has changed. -/
structure State.Lands (id q : Nat) (l : List Access) (jobs : Map PortJob) (s t : State) : Prop where
  rows : SameRows s t
  packet : Map.find t.packets id = none
  access : (t.cluster q).access = (s.cluster q).access ++ l
  port : (t.cluster q).port = jobs

section
variable {s t u : State} {id q n : Nat} {l : List Access} {w : PortWork} {k : Nat}

theorem State.find_removePacket (s : State) (id : Nat) : Map.find (s.removePacket id).packets id = none :=
  (Map.find_del _ _ _).trans (if_pos rfl)

/-- The accesses are presented once the packet is off the mesh. -/
theorem State.Lands.of_presented (hc : u.clusters = s.clusters) (hp : Map.find u.packets id = none) (h : u.Presented q l t) :
    s.Lands id q l (s.cluster q).port t where
  rows := SameRows.trans (.of_clusters hc) h.sameRows
  packet := by rw [h.frame]; exact hp
  access := by rw [h.cluster, State.cluster, hc, State.cluster]
  port := by rw [h.cluster, State.cluster, hc, State.cluster]

theorem State.sameRows_openPort (s : State) (q id : Nat) (w : PortWork) (n : Nat) : SameRows s (s.openPort q id w n) :=
  sameRows_modCluster s q fun _ => rfl

/-- The same for those of an operation that begins with them. -/
theorem State.Lands.of_opened (hc : u.clusters = s.clusters) (hp : Map.find u.packets id = none)
    (h : (u.openPort q n w k).Presented q l t) :
    s.Lands id q l (Map.put (s.cluster q).port n ⟨w, k, k, []⟩) t := by
  have hq : u.cluster q = s.cluster q := by rw [State.cluster, hc, State.cluster]
  have hopen : (u.openPort q n w k).cluster q = { s.cluster q with port := Map.put (s.cluster q).port n ⟨w, k, k, []⟩ } := by
    rw [State.openPort, State.cluster_of_modCluster, if_pos rfl, hq]
  refine ⟨SameRows.trans (.of_clusters hc) ((State.sameRows_openPort u q n w k).trans h.sameRows), ?_, ?_, ?_⟩
  · rw [h.frame]
    exact hp
  · rw [h.cluster, hopen]
  · rw [h.cluster, hopen]

end

/-! ### At a cluster (R144, R151, R276, R284) -/

section
variable {s : State} {q id : Nat} {p : Packet}

theorem State.tick0_report (s : State) (k : Source) (code p0 p1 f : Nat) :
    ((s.report k code p0 p1).fold f).tick0 = (s.fold f).tick0 :=
  ((State.Grows.refl s).report k code p0 p1).field (π := Fold.tick0) (fun _ => rfl) f

theorem State.arrivalEdge_congr {t : State} (h : (t.fold p.fold).tick0 = (s.fold p.fold).tick0) : t.arrivalEdge p = s.arrivalEdge p := by
  rw [State.arrivalEdge, State.arrivalEdge, h]

/-- R276: in exact mode a timed row that no arrival entry expects is counted and reported. -/
def State.arrivalNoted (s : State) (q : Nat) (p : Packet) : State :=
  if s.foldExact p.fold ∧ ¬ s.expected q p then
    (s.bump Fld.cluFabContractCollisionCount q 0).report (srcAgent q (some p.fold)) 0x5002 (rsvIndex 4 p.plane)
      ((p.entered - (s.fold p.fold).tick0) / 8 % 64)
  else s

theorem State.arrivalNoted_keeps (s : State) (q : Nat) (p : Packet) :
    (s.arrivalNoted q p).clusters = s.clusters ∧ (s.arrivalNoted q p).arrivalEdge p = s.arrivalEdge p := by
  unfold State.arrivalNoted
  split
  · refine ⟨(State.clusters_report _ _ _ _ _).trans (s.clusters_bump _ _ _), State.arrivalEdge_congr ?_⟩
    rw [State.tick0_report, State.fold_of_bump]
  · exact ⟨rfl, rfl⟩

theorem State.timedArrival_of_admitted {r : Row} (hjudge : s.judgeArrival p.fold q p.first p.count = .admitted) :
    s.timedArrival q id p r = ((s.arrivalNoted q p).removePacket id).present q
      ⟨.routerTimed, p.first + p.index, (s.arrivalNoted q p).arrivalEdge p, .write 48 r, p.fold, p.srcCore, false⟩ := by
  simp only [State.timedArrival, hjudge]
  rfl

theorem State.timedArrival_lands {r : Row} (hjudge : s.judgeArrival p.fold q p.first p.count = .admitted) :
    s.Lands id q [⟨.routerTimed, p.first + p.index, s.arrivalEdge p, .write 48 r, p.fold, p.srcCore, false⟩]
      (s.cluster q).port (s.timedArrival q id p r) := by
  obtain ⟨hc, hedge⟩ := s.arrivalNoted_keeps q p
  rw [State.timedArrival_of_admitted hjudge, hedge]
  exact .of_presented (u := (s.arrivalNoted q p).removePacket id) hc (State.find_removePacket _ _) (State.presented_present _ _ _)

theorem State.timedArrival_of_refused {r : Row} (hjudge : s.judgeArrival p.fold q p.first p.count ≠ .admitted) :
    s.timedArrival q id p r = s.refuseArrival q id p (p.first + p.index) (s.judgeArrival p.fold q p.first p.count) := by
  unfold State.timedArrival
  split
  next h => exact absurd h hjudge
  next => rfl

/-- The kinds of packets that are refused whole where their fold is not admitted. -/
def PacketKind.judged (k : PacketKind) : Prop := k = .slot ∨ k = .queueWrite ∨ k = .queueRead

theorem State.spares_reportArrival (s : State) (q row kind src f : Nat) (a : Arrived) :
    s.Notes (s.reportArrival q row kind src f a) ∧ s.Spares id (s.reportArrival q row kind src f a) := by
  cases a with
  | hedge g => exact ⟨(State.Notes.bump _ _ _ _).trans (.report _ _ _ _ _), (State.Spares.bump _ _ _ _).trans (.report _ _ _ _ _)⟩
  | admitted | overrun => exact ⟨.report _ _ _ _ _, .report _ _ _ _ _⟩

/-- Traffic that is refused presents nothing, and the sender's items fail. -/
theorem State.refuseArrival_loses (hkind : p.kind.judged) (hindex : p.index = 0) (hid : id < s.nextTag) (row : Nat) (a : Arrived) :
    s.Loses id p.fold p.srcCore (s.refuseArrival q id p row a) ∧ (s.refuseArrival q id p row a).clusters = s.clusters := by
  obtain ⟨hnotes, hspares⟩ := State.spares_reportArrival (id := id) s q row 0 p.srcCore p.fold a
  simp only [State.refuseArrival, State.refuseTarget, hindex, if_true]
  generalize s.reportArrival q row 0 p.srcCore p.fold a = r at hnotes hspares
  have hid' : id < (r.removePacket id).nextTag := by rw [← hnotes.nextTag] at hid; exact hid
  rcases hkind with hk | hk | hk
  · rw [if_pos hk]
    have hswap : ((r.failItems p.fold p.srcCore 0x10).removePacket id).answerSlot p = ((r.removePacket id).answerSlot p).failItems p.fold p.srcCore stFault := rfl
    rw [hswap]
    exact ⟨.after hspares (.of_spares (.inject hid' _)), hnotes.clusters⟩
  all_goals
    rw [if_neg (by rw [hk]; decide), State.refusePacket, hk]
    have hswap : ((r.failItems p.fold p.srcCore 0x10).removePacket id).respond (.refusal 0) p.tile p.srcCore p.srcK p.fold p.tag ((r.failItems p.fold p.srcCore 0x10).removePacket id).now =
      ((r.removePacket id).respond (.refusal 0) p.tile p.srcCore p.srcK p.fold p.tag r.now).failItems p.fold p.srcCore stFault := rfl
    dsimp only
    rw [hswap]
    exact ⟨.after hspares (.of_spares_twice (.inject hid' _)), hnotes.clusters⟩


/-- What a packet presents at the router port of cluster `q` for row `x`: row `i` of operation `n`. -/
def State.portAccess (s : State) (q : Nat) (p : Packet) (n i x : Nat) (data : Option (Nat × Row)) : Access :=
  ⟨.routerElastic, x, s.portEdge q s.now, .port n i data, p.fold, p.srcCore, false⟩

/-- Traffic that no fold of the cluster admits is refused, with a row or without one. -/
theorem State.portArrival_of_refused (hkind : p.kind.judged) (hindex : p.index = 0)
    (hjudge : s.judgeArrival p.fold q p.first p.count ≠ .admitted) :
    ∃ row, s.portArrival q id p = s.refuseArrival q id p row (s.judgeArrival p.fold q p.first p.count) := by
  cases hj : s.judgeArrival p.fold q p.first p.count with
  | admitted => exact absurd hj hjudge
  | overrun | hedge =>
    rcases hkind with hk | hk | hk
    all_goals
      cases hrow : p.row
      all_goals
        simp only [State.portArrival, hk, hindex, hrow, hj, if_true]
        exact ⟨_, rfl⟩

section
variable (hjudge : s.judgeArrival p.fold q p.first p.count = .admitted)
include hjudge

theorem State.portArrival_slot {r : Row} (hk : p.kind = .slot) (hrow : p.row = some r) :
    s.Lands id q [s.portAccess q p id 0 (p.first + p.index) (some (48, r))]
      (Map.put (s.cluster q).port id ⟨.slot p.srcCore (if p.detour then some (p.first + p.index) else none), 1, 1, []⟩)
      (s.portArrival q id p) := by
  simp only [State.portArrival, hk, hrow, hjudge]
  exact .of_opened (u := s.removePacket id) rfl (s.find_removePacket id) (State.presented_present _ _ _)

theorem State.portArrival_firstWrite {r : Row} (hk : p.kind = .queueWrite) (hrow : p.row = some r) (hindex : p.index = 0) :
    s.Lands id q [s.portAccess q p p.tag 0 (p.first + p.index) (some (48, r))]
      (Map.put (s.cluster q).port p.tag ⟨.write p.srcCore p.srcK p.fold, p.count, p.count, []⟩) (s.portArrival q id p) := by
  simp only [State.portArrival, hk, hrow, hindex, hjudge, if_true]
  exact .of_opened (u := s.removePacket id) rfl (s.find_removePacket id) (State.presented_present _ _ _)

theorem State.portArrival_read (hk : p.kind = .queueRead) :
    s.Lands id q ((List.range p.count).map (fun i => s.portAccess q p p.tag i (p.first + i) none))
      (Map.put (s.cluster q).port p.tag ⟨.read p.srcCore p.srcK p.fold, p.count, p.count, []⟩) (s.portArrival q id p) := by
  simp only [State.portArrival, hk, hjudge]
  exact .of_opened (u := s.removePacket id) rfl (s.find_removePacket id)
    (State.Presented.foldl (q := q) (g := fun t i => t.portAccess q p p.tag i (p.first + i) none) (fun _ _ _ => rfl) (List.range p.count)
      ((s.removePacket id).openPort q p.tag (.read p.srcCore p.srcK p.fold) p.count))

theorem State.portArrival_result {r : Row} (hk : p.kind = .result false) (hrow : p.row = some r) :
    s.Lands id q [s.portAccess q p s.nextTag 0 (p.first + p.index) (some (49, r))]
      (Map.put (s.cluster q).port s.nextTag ⟨.result p.srcCore p.tag p.fold none, 1, 1, []⟩) (s.portArrival q id p) := by
  simp only [State.portArrival, hk, hrow, hjudge]
  exact .of_opened (u := (s.removePacket id).drawTag) rfl (s.find_removePacket id) (State.presented_present _ _ _)

end

/-- The later rows of a write follow the judgement of its first one. -/
theorem State.portArrival_nextWrite {r : Row} (hk : p.kind = .queueWrite) (hrow : p.row = some r) (hindex : p.index ≠ 0)
    (hopen : (Map.find (s.cluster q).port p.tag).isSome = true) :
    s.Lands id q [s.portAccess q p p.tag p.index (p.first + p.index) (some (48, r))] (s.cluster q).port (s.portArrival q id p) := by
  simp only [State.portArrival, hk, hrow, if_neg hindex, if_pos hopen]
  exact .of_presented (u := s.removePacket id) rfl (s.find_removePacket id) (State.presented_present _ _ _)

/-! ### Answers to a queue pair (R106, R302) -/

theorem State.back_answer {core k : Nat} {a : Answer}
    (h : (s.queue (clusterOf core) k).flight.any (fun r => r.tag == a.tag) = true) :
    ((s.answer core k a).queue (clusterOf core) k).back = addAnswer a (s.queue (clusterOf core) k).back := by
  rw [State.answer, State.queue_modQueue, if_pos rfl, if_pos h]

/-- Packet `id` is off the mesh, no row has changed, and `a` has joined the answers of the queue pair that `p` serves. -/
structure State.Answers (id : Nat) (p : Packet) (a : Answer) (s t : State) : Prop where
  rows : SameRows s t
  packet : Map.find t.packets id = none
  back : (t.queue (clusterOf p.srcCore) p.srcK).back = addAnswer a (s.queue (clusterOf p.srcCore) p.srcK).back

section
variable (hrequest : (s.requestOf p).isSome = true)
include hrequest

theorem State.answers_answer {a : Answer} (ha : a.tag = p.tag) :
    s.Answers id p a ((s.removePacket id).answer p.srcCore p.srcK a) := by
  have hflight : (s.queue (clusterOf p.srcCore) p.srcK).flight.any (fun r => r.tag == a.tag) = true := by
    rw [ha]
    exact List.any_eq_true.mpr (List.find?_isSome.mp hrequest)
  exact ⟨SameRows.trans (.of_clusters rfl) (State.sameRows_modQueue _ _ _ _), s.find_removePacket id,
    State.back_answer (s := s.removePacket id) hflight⟩

theorem State.portArrival_back (hk : p.kind = .back) : s.Answers id p ⟨p.tag, [⟨p.row⟩], none⟩ (s.portArrival q id p) := by
  simp only [State.portArrival, hk, State.landPacket]
  split
  · exact State.answers_answer hrequest rfl
  · obtain ⟨hrows, hpacket, hback⟩ := State.answers_answer (id := id) (a := ⟨p.tag, [⟨p.row⟩], none⟩) hrequest rfl
    exact ⟨hrows.trans (.of_clusters rfl), hpacket, hback⟩

theorem State.portArrival_ack (hk : p.kind = .ack) : s.Answers id p ⟨p.tag, [], none⟩ (s.portArrival q id p) := by
  simp only [State.portArrival, hk, State.landPacket]
  exact State.answers_answer hrequest rfl

end

/-! ### At a hub (R280, R303) -/

variable {n : Nat}

theorem State.hub_putOperand {core number : Nat} {addr : Word} {row : Option Row}
    (h : (s.hub n).arriving.any (fun c => c.core == core && c.number == number && c.asked.contains addr) = true) :
    (s.putOperand n core number addr row).hub n =
      { s.hub n with fetched := (s.hub n).fetched ++ [⟨core, number, addr, row⟩] } := by
  rw [State.putOperand, State.hub_of_modHub, if_pos rfl, if_pos (by rw [List.any_append, h, Bool.true_or])]

theorem State.hubArrival_operand {a : Word} (hk : p.kind = .operand a) :
    s.hubArrival n id p = (s.removePacket id).putOperand n p.srcCore p.tag a p.row := by
  simp only [State.hubArrival, hk]

/-- A request joins those that wait for the stack once its last row has come. -/
theorem State.hubArrival_request {r : QReq} (hrequest : s.requestOf p = some r) (hwindow : ∀ w off, remoteOf r.addr ≠ .window w off)
    (hwhole : p.kind = .queueRead ∨ (p.kind = .queueWrite ∧ p.index + 1 = p.count)) :
    s.hubArrival n id p = (s.removePacket id).joinStack n ⟨.queue (clusterOf p.srcCore) p.srcK, r⟩ := by
  have hlast : (p.kind == .queueRead || decide (p.index + 1 = p.count)) = true := by
    rcases hwhole with hk | ⟨_, hlast⟩
    · simp [hk]
    · simp [hlast]
  have hk : p.kind = .queueRead ∨ p.kind = .queueWrite := hwhole.imp_right And.left
  cases haddr : remoteOf r.addr with
  | window w off => exact absurd haddr (hwindow w off)
  | stack | cluster | bad =>
    rcases hk with hk | hk
    all_goals
      rw [hk] at hlast
      simp only [State.hubArrival, hk, hrequest, haddr, hlast]
      exact if_neg (by decide)

theorem State.dram_joinStack (x : StackReq) (m : Nat) : (s.joinStack n x).dram m =
    if m = n then { s.dram n with remote := (s.dram n).remote ++ [x] } else s.dram m :=
  s.dram_of_modDram n _ m

end

end Sys2Proof.Machine

namespace Sys2Proof
open Machine

/-- Settles O32, by the kind of packet and by what the cluster's fold makes of it. -/
theorem rowsArrive : Obligations.RowsArrive := by
  intro t pkt q p s u row atPort turnedAway hp hport _ hid
  have hlands : ∀ {i : Instr} {y : State} {l : List Access} {jobs : Map PortJob}, exec i s = .next y → u.Lands pkt q l jobs y →
      ∃ s', exec i s = .next s' ∧ SameRows u s' ∧ Map.find s'.packets pkt = none ∧
        (s'.cluster q).access = (u.cluster q).access ++ l ∧ (s'.cluster q).port = jobs :=
    fun h ⟨hrows, hpacket, haccess, hjobs⟩ => ⟨_, h, hrows, hpacket, haccess, hjobs⟩
  have hopens : ∀ {i : Instr} {y : State} {l : List Access} {n : Nat} {j : PortJob}, exec i s = .next y →
      u.Lands pkt q l (Map.put (u.cluster q).port n j) y →
      ∃ s', exec i s = .next s' ∧ SameRows u s' ∧ Map.find s'.packets pkt = none ∧
        (s'.cluster q).access = (u.cluster q).access ++ l ∧ Map.find (s'.cluster q).port n = some j :=
    fun h ⟨hrows, hpacket, haccess, hjobs⟩ => ⟨_, h, hrows, hpacket, haccess, by rw [hjobs, Map.find_put, if_pos rfl]⟩
  have haway : ∀ {i : Instr} {y : State}, exec i s = .next y → u.Loses pkt p.fold p.srcCore y ∧ y.clusters = u.clusters →
      turnedAway i :=
    fun h ⟨⟨hrows, hpacket, hbatch⟩, hc⟩ => ⟨_, h, hrows, hpacket, by rw [State.cluster, hc, State.cluster], hbatch⟩
  refine ⟨exec_arrival_of_later hp, fun hfirst => ⟨fun r htimed hk hq hrow => ?timed, fun htimed hq => ?cluster,
    fun a htimed hq hk hasked => ?operand, fun r htimed hq hrequest hwindow hwhole => ?request⟩⟩
  case timed =>
    have hexec := exec_timedRowArrival hp hport hfirst htimed hq hrow
    refine ⟨fun hjudge => ?_, fun hjudge hindex => ?_⟩
    · obtain ⟨s', h, hrows, hpacket, haccess, _⟩ := hlands hexec (State.timedArrival_lands hjudge)
      exact ⟨s', h, hrows, hpacket, haccess⟩
    · rw [State.timedArrival_of_refused hjudge] at hexec
      exact haway hexec (State.refuseArrival_loses (.inl hk) hindex hid _ _)
  case cluster =>
    have hexec := exec_routerPortArrival_cluster hp hport hfirst htimed hq
    refine ⟨fun r hk hrow hjudge => hopens hexec (State.portArrival_slot hjudge hk hrow),
      fun r hk hrow hindex hjudge => hopens hexec (State.portArrival_firstWrite hjudge hk hrow hindex),
      fun r hk hrow hindex hopen => hlands hexec (State.portArrival_nextWrite hk hrow hindex hopen),
      fun hk hjudge => hopens hexec (State.portArrival_read hjudge hk),
      fun hkind hindex hjudge => ?_,
      fun r hk hrow hjudge => hopens hexec (State.portArrival_result hjudge hk hrow), fun hrequest => ⟨fun hk => ?_, fun hk => ?_⟩⟩
    · obtain ⟨x, hrefused⟩ := State.portArrival_of_refused hkind hindex hjudge
      rw [hrefused] at hexec
      exact haway hexec (State.refuseArrival_loses hkind hindex hid _ _)
    · obtain ⟨hrows, hpacket, hback⟩ := State.portArrival_back (q := q) (id := pkt) hrequest hk
      exact ⟨_, hexec, hrows, hpacket, hback⟩
    · obtain ⟨hrows, hpacket, hback⟩ := State.portArrival_ack (q := q) (id := pkt) hrequest hk
      exact ⟨_, hexec, hrows, hpacket, hback⟩
  case operand =>
    have hexec := exec_routerPortArrival_hub hp hport hfirst htimed hq
    rw [State.hubArrival_operand hk] at hexec
    exact ⟨_, hexec, u.find_removePacket pkt, .of_clusters rfl, State.hub_putOperand (s := u.removePacket pkt) hasked⟩
  case request =>
    have hexec := exec_routerPortArrival_hub hp hport hfirst htimed hq
    rw [State.hubArrival_request hrequest hwindow hwhole] at hexec
    refine ⟨_, hexec, u.find_removePacket pkt, .of_clusters rfl, ?_, fun n hn => ?_⟩
    · rw [State.dram_joinStack, if_pos rfl]
      rfl
    · rw [State.dram_joinStack, if_neg hn]
      rfl

end Sys2Proof
end

section
/-! Partitions and the power of banks (R148, R149, R160 to R164): the bits of a mask, what opening, closing and closures leave of the
descriptors, the rows and the requests for leave, and O17. -/

namespace Sys2Proof.Machine

/-! ### Bits of a mask -/

/-- Adding a power of two whose bit is clear sets that bit alone. -/
theorem testBit_add_two_pow {v b : Nat} (h : v.testBit b = false) (c : Nat) :
    (v + 2 ^ b).testBit c = (decide (c = b) || v.testBit c) := by
  simp only [Nat.testBit_eq_decide_div_mod_eq, decide_eq_false_iff_not] at h ⊢
  rw [← Bool.decide_or, decide_eq_decide]
  rcases Nat.lt_trichotomy c b with hc | rfl | hc
  · obtain ⟨d, rfl⟩ := Nat.exists_eq_add_of_lt hc
    have hpow : 2 ^ (c + d + 1) = 2 ^ c * (2 * 2 ^ d) := by ring
    rw [hpow, Nat.add_mul_div_left _ _ (Nat.two_pow_pos c)]
    omega
  · rw [Nat.add_div_right _ (Nat.two_pow_pos c)]
    omega
  · obtain ⟨d, rfl⟩ := Nat.exists_eq_add_of_lt hc
    have hsplit : ∀ x, x / 2 ^ (b + d + 1) = x / 2 ^ b / 2 / 2 ^ d := fun x => by
      have hpow : 2 ^ (b + d + 1) = 2 ^ b * (2 * 2 ^ d) := by ring
      rw [Nat.div_div_eq_div_mul, Nat.div_div_eq_div_mul, hpow]
    have heven : (v / 2 ^ b).succ / 2 = v / 2 ^ b / 2 := by omega
    rw [hsplit, hsplit, Nat.add_div_right _ (Nat.two_pow_pos b), heven]
    omega

/-- A mask with bit `b` set or cleared. -/
theorem testBit_maskSet (v b : Nat) (on : Bool) (c : Nat) :
    (if on then (if v / 2 ^ b % 2 = 1 then v else v + 2 ^ b) else if v / 2 ^ b % 2 = 1 then v - 2 ^ b else v).testBit c =
      if c = b then on else v.testBit c := by
  have hbit : ∀ x : Nat, x.testBit b = decide (x / 2 ^ b % 2 = 1) := fun x => Nat.testBit_eq_decide_div_mod_eq
  by_cases hv : v / 2 ^ b % 2 = 1
  · have hset : v.testBit b = true := (hbit v).trans (decide_eq_true hv)
    cases on with
    | true =>
      rw [if_pos rfl, if_pos hv]
      split
      next h => rw [h, hset]
      next => rfl
    | false =>
      have hle : 2 ^ b ≤ v := Nat.ge_two_pow_of_testBit hset
      have hclear : (v - 2 ^ b).testBit b = false := by
        have hdiv := Nat.sub_mul_div v (2 ^ b) 1
        rw [Nat.mul_one] at hdiv
        rw [hbit, hdiv, decide_eq_false_iff_not]
        omega
      have hadd := testBit_add_two_pow hclear c
      rw [Nat.sub_add_cancel hle] at hadd
      simp only [Bool.false_eq_true, if_false, if_pos hv]
      split
      next h => rw [h, hclear]
      next h => rw [hadd, decide_eq_false h, Bool.false_or]
  · have hclear : v.testBit b = false := (hbit v).trans (decide_eq_false hv)
    cases on with
    | true =>
      rw [if_pos rfl, if_neg hv, testBit_add_two_pow hclear]
      split
      next h => rw [decide_eq_true h, Bool.true_or]
      next h => rw [decide_eq_false h, Bool.false_or]
    | false =>
      simp only [Bool.false_eq_true, if_false, if_neg hv]
      split
      next h => rw [h, hclear]
      next => rfl

theorem State.bit_eq_testBit (s : State) (f : Fld) (u i b : Nat) : s.bit f u i b = (s.fld f u i).testBit b :=
  (Nat.testBit_eq_decide_div_mod_eq).symm

/-- Setting a bit of a field leaves the others. -/
theorem State.bit_setBit (s : State) {f : Fld} (hf : f.lo + f.width ≤ 64) (u i b : Nat) (on : Bool) {c : Nat} (hc : c < f.width) :
    (s.setBit f u i b on).bit f u i c = if c = b then on else s.bit f u i c := by
  rw [State.bit_eq_testBit, State.bit_eq_testBit, State.setBit, State.fld_setFld _ _ _ _ _ hf, Nat.testBit_mod_two_pow,
    decide_eq_true hc, Bool.true_and]
  exact testBit_maskSet _ b on c

theorem State.bit_setBit_ne (s : State) {f g : Fld} {u i j k : Nat} (h : g.reg.addr j k ≠ f.reg.addr u i) (b : Nat) (on : Bool) (c : Nat) :
    (s.setBit f u i b on).bit g j k c = s.bit g j k c := by
  rw [State.bit, State.bit, State.setBit, State.fld_setFld_ne _ _ _ _ _ _ _ _ h]

/-! ### What leaves the descriptors of the partitions -/

/-- `t` differs from `s` in registers, clusters and requests for leave, and no descriptor of a partition differs. -/
structure State.Rebanks (s t : State) : Prop where
  frame : t = { s with regs := t.regs, clusters := t.clusters, hubs := t.hubs, nextTag := t.nextTag }
  parts : ∀ q i, i < 64 → t.reg .cluPartBanks q i = s.reg .cluPartBanks q i ∧ t.reg .cluPartCfg q i = s.reg .cluPartCfg q i

theorem partReg_addr_ne_bank {r : Reg} (hr : r = .cluBankPower ∨ r = .cluBankPending) (p q : Nat) {i : Nat} (hi : i < 64) :
    Reg.cluPartBanks.addr p i ≠ r.addr q 0 ∧ Reg.cluPartCfg.addr p i ≠ r.addr q 0 := by
  rcases hr with rfl | rfl
  all_goals
    simp only [Reg.addr, Reg.place, Scope.origin, leaBase]
    omega

namespace State.Rebanks
variable {s t u : State}

theorem of_regs (hf : t = { s with clusters := t.clusters, hubs := t.hubs, nextTag := t.nextTag }) : s.Rebanks t := by
  have hregs : t.regs = s.regs := by rw [hf]
  refine ⟨?_, fun q i _ => ⟨State.reg_of_regs hregs _ _ _, State.reg_of_regs hregs _ _ _⟩⟩
  rw [hregs]
  exact hf

theorem refl (s : State) : s.Rebanks s := of_regs rfl

theorem trans (h : s.Rebanks t) (h' : t.Rebanks u) : s.Rebanks u := by
  obtain ⟨hf, hp⟩ := h
  obtain ⟨hf', hp'⟩ := h'
  refine ⟨?_, fun q i hi => ⟨(hp' q i hi).1.trans (hp q i hi).1, (hp' q i hi).2.trans (hp q i hi).2⟩⟩
  rw [hf', hf]

theorem foldl {α : Type} {g : State → α → State} (hg : ∀ (t : State) a, t.Rebanks (g t a)) (l : List α) (s : State) :
    s.Rebanks (l.foldl g s) :=
  List.foldlRecOn (motive := fun t => s.Rebanks t) l g (.refl s) (fun t ht a _ => ht.trans (hg t a))

theorem modCluster (s : State) (q : Nat) (g : Cluster → Cluster) : s.Rebanks (s.modCluster q g) := of_regs rfl

theorem setBit (s : State) {f : Fld} (hf : f.reg = .cluBankPower ∨ f.reg = .cluBankPending) (q b : Nat) (on : Bool) :
    s.Rebanks (s.setBit f q 0 b on) := by
  refine ⟨rfl, fun p i hi => ?_⟩
  obtain ⟨hbanks, hcfg⟩ := partReg_addr_ne_bank hf p q hi
  exact ⟨State.reg_setReg_ne _ _ _ _ _ _ _ _ hbanks, State.reg_setReg_ne _ _ _ _ _ _ _ _ hcfg⟩

theorem showPending (s : State) (q b : Nat) : s.Rebanks (s.showPending q b) := setBit s (.inr rfl) q b _

theorem zeroBank (s : State) (q b : Nat) : s.Rebanks (s.zeroBank q b) := modCluster s q _

theorem dropBank (s : State) (q b : Nat) : s.Rebanks (s.dropBank q b) := by
  unfold State.dropBank
  split
  · exact (setBit s (f := Fld.cluBankPowerPowered) (.inl rfl) q b false).trans (zeroBank _ q b)
  · exact refl s

theorem powerBank (s : State) (q b : Nat) : s.Rebanks (s.powerBank q b) := by
  unfold State.powerBank
  split
  · exact refl s
  · exact trans (of_regs (t := (s.askLeave clsPowerOn q 0 2 856 0 (some b)).modCluster q _) rfl) (showPending _ q b)

section
variable (h : s.Rebanks t)
include h

theorem out : t.out = s.out := by rw [h.frame]
theorem now : t.now = s.now := by rw [h.frame]

variable {q i : Nat} (hi : i < 64)
include hi

theorem cfg {f : Fld} (hf : f.reg = .cluPartCfg) : t.fld f q i = s.fld f q i := by
  rw [State.fld, State.fld, hf, (h.parts q i hi).2]

theorem partValid : t.partValid q i = s.partValid q i := by rw [State.partValid, State.partValid, h.cfg hi rfl]
theorem partOpen : t.partOpen q i = s.partOpen q i := by rw [State.partOpen, State.partOpen, h.cfg hi rfl]

theorem partMask : t.partMask q i = s.partMask q i := by
  have hbanks : t.reg Fld.cluPartBanksBankMask.reg q i = s.reg Fld.cluPartBanksBankMask.reg q i := (h.parts q i hi).1
  rw [State.partMask, State.partMask, State.fld, State.fld, hbanks]

theorem banksOf : t.banksOf q i = s.banksOf q i := by rw [State.banksOf, State.banksOf, h.partMask hi]

end

theorem bankWanted (h : s.Rebanks t) (q b : Nat) : t.bankWanted q b = s.bankWanted q b := by
  unfold State.bankWanted
  rw [Bool.eq_iff_iff, List.any_eq_true, List.any_eq_true]
  refine exists_congr fun i => and_congr_right fun hi => ?_
  have hi := List.mem_range.mp hi
  rw [h.partValid hi, h.partOpen hi, h.partMask hi]

end State.Rebanks

/-! ### The rows and the power of a bank -/

section
variable (s : State) (q b x a : Nat)

theorem State.row_zeroBank : (s.zeroBank q b).row x a = if x = q ∧ a / 1024 = b then 0 else s.row x a := by
  rw [State.row, State.zeroBank, State.cluster_of_modCluster]
  by_cases hx : x = q
  · subst hx
    rw [if_pos rfl, Map.get, Map.find_drop]
    by_cases ha : a / 1024 = b
    · simp [ha]
    · simp [ha, State.row, Map.get]
  · rw [if_neg hx, if_neg (fun h => hx h.1), State.row]

theorem State.row_dropBank_ne (h : x ≠ q ∨ a / 1024 ≠ b) : (s.dropBank q b).row x a = s.row x a := by
  unfold State.dropBank
  split
  · rw [State.row_zeroBank, if_neg (by tauto)]
    exact State.row_of_clusters rfl x a
  · rfl

theorem State.dropBank_of_wanted (h : s.bankWanted q b = true) : s.dropBank q b = s := by
  rw [State.dropBank, if_neg (by simp [h])]

theorem State.dropBank_of_unwanted (hpower : s.bankPowered q b = true) (hwanted : s.bankWanted q b = false)
    (hclosing : (s.cluster q).closing.any (fun k => k / 64 == b) = false) :
    s.dropBank q b = (s.setBit Fld.cluBankPowerPowered q 0 b false).zeroBank q b := by
  rw [State.dropBank, if_pos ⟨hpower, by simp [hwanted], by simp [hclosing]⟩]

theorem bankPower_addr_ne_pending : Reg.cluBankPower.addr q 0 ≠ Reg.cluBankPending.addr q 0 := by
  simp only [Reg.addr, Reg.place]
  omega

theorem State.bankPowered_showPending (c : Nat) : (s.showPending q b).bankPowered q c = s.bankPowered q c :=
  s.bit_setBit_ne (f := Fld.cluBankPendingPending) (g := Fld.cluBankPowerPowered) (bankPower_addr_ne_pending q) b _ c

theorem State.bankPowered_setPower (on : Bool) {c : Nat} (hc : c < 48) :
    (s.setBit Fld.cluBankPowerPowered q 0 b on).bankPowered q c = if c = b then on else s.bankPowered q c :=
  s.bit_setBit (f := Fld.cluBankPowerPowered) (by decide) q 0 b on hc

/-- Whether the pending bit of a bank should show. -/
def State.isPending : Bool := (s.cluster q).closing.any (fun k => k / 64 == b) || (Map.find (s.cluster q).filling b).isSome

theorem State.pending_showPending {c : Nat} (hc : c < 48) : (s.showPending q b).bit Fld.cluBankPendingPending q 0 c =
    if c = b then s.isPending q b else s.bit Fld.cluBankPendingPending q 0 c :=
  s.bit_setBit (f := Fld.cluBankPendingPending) (by decide) q 0 b (s.isPending q b) hc

end

theorem State.reg_banks_setGate (s : State) (q i v : Nat) : (s.setFld Fld.cluPartCfgGate q i v).reg .cluPartBanks q i =
    s.reg .cluPartBanks q i := by
  refine State.reg_setReg_ne _ _ _ _ _ _ _ _ ?_
  simp only [Fld.cluPartCfgGate, Reg.addr, Reg.place]
  omega

theorem State.banksOf_setGate (s : State) (q i v : Nat) : (s.setFld Fld.cluPartCfgGate q i v).banksOf q i = s.banksOf q i := by
  have hbanks : (s.setFld Fld.cluPartCfgGate q i v).reg Fld.cluPartBanksBankMask.reg q i = s.reg Fld.cluPartBanksBankMask.reg q i :=
    s.reg_banks_setGate q i v
  rw [State.banksOf, State.banksOf, State.partMask, State.partMask, State.fld, State.fld, hbanks]

theorem State.partOpen_setGate (s : State) (q i : Nat) (on : Bool) :
    (s.setFld Fld.cluPartCfgGate q i on.toNat).partOpen q i = on := by
  rw [State.partOpen, State.fld_setFld _ _ _ _ _ (by decide)]
  cases on <;> rfl

/-! ### Closing (R149, R161) -/

section
variable (s : State) (q i : Nat)

/-- One bank of a partition that closes. -/
def State.closeBank (s : State) (b : Nat) : State :=
  (s.modCluster q (fun c => { c with closing := closingKey b i :: c.closing })).showPending q b

/-- What a partition that closes does, its gate cleared. -/
def State.closeBanks (s : State) : State :=
  let t := s.modCluster q (fun c => { c with opens := Map.del c.opens i })
  (t.banksOf q i).foldl (State.closeBank q i) t

theorem State.closePart_eq : s.closePart q i = (s.setFld Fld.cluPartCfgGate q i 0).closeBanks q i := by
  unfold State.closePart State.closeBanks State.closeBank
  rfl

theorem State.rebanks_closeBank (b : Nat) : s.Rebanks (s.closeBank q i b) := .trans (.modCluster s q _) (.showPending _ q b)

theorem State.rebanks_closeBanks : s.Rebanks (s.closeBanks q i) :=
  .trans (.modCluster _ q _) (.foldl (fun t b => t.rebanks_closeBank q i b) _ _)

theorem State.rebanks_closePart : (s.setFld Fld.cluPartCfgGate q i 0).Rebanks (s.closePart q i) := by
  rw [State.closePart_eq]
  exact State.rebanks_closeBanks _ q i

theorem State.sameRows_closeBank (b : Nat) : SameRows s (s.closeBank q i b) :=
  (sameRows_modCluster s q fun _ => rfl : SameRows s (s.modCluster q fun c => { c with closing := closingKey b i :: c.closing })).trans
    (.of_clusters (State.setBit_clusters _ _ _ _ _ _))

theorem State.sameRows_closeBanks : SameRows s (s.closeBanks q i) :=
  List.foldlRecOn (motive := SameRows s) _ _ (sameRows_modCluster s q fun _ => rfl)
    fun t ht b _ => ht.trans (t.sameRows_closeBank q i b)

theorem State.sameRows_closePart : SameRows s (s.closePart q i) := by
  rw [State.closePart_eq]
  exact SameRows.trans (.of_clusters (State.clusters_setFld _ _ _ _ _)) (State.sameRows_closeBanks _ q i)

theorem State.closing_closeBank (b : Nat) : ((s.closeBank q i b).cluster q).closing = closingKey b i :: (s.cluster q).closing := by
  rw [State.closeBank, State.showPending, State.cluster_of_setBit, State.cluster_of_modCluster, if_pos rfl]

/-- The closure of bank `b` for partition `i` waits, and the bank's pending bit shows it. -/
def State.ClosureWaits (b : Nat) : Prop :=
  closingKey b i ∈ (s.cluster q).closing ∧ s.bit Fld.cluBankPendingPending q 0 b = true

variable {s q i}

theorem State.closureWaits_closeBank (hi : i < 64) {b : Nat} (hb : b < 48) (x : Nat)
    (h : x = b ∨ s.ClosureWaits q i b) : (s.closeBank q i x).ClosureWaits q i b := by
  have hmem : closingKey b i ∈ ((s.closeBank q i x).cluster q).closing := by
    rw [State.closing_closeBank]
    rcases h with rfl | ⟨hmem, _⟩
    · exact List.mem_cons_self
    · exact List.mem_cons_of_mem _ hmem
  refine ⟨hmem, ?_⟩
  rw [State.closeBank, State.pending_showPending _ _ _ hb]
  split
  next hx =>
    rw [State.isPending, Bool.or_eq_true, List.any_eq_true]
    refine .inl ⟨closingKey b i, hmem, ?_⟩
    rw [closingKey, hx, beq_iff_eq]
    omega
  next hx => exact (h.resolve_left (Ne.symm hx)).2

theorem State.closureWaits_closeBanks (hi : i < 64) {b : Nat} (hb : b ∈ s.banksOf q i) : (s.closeBanks q i).ClosureWaits q i b := by
  have hlt : b < 48 := List.mem_range.mp (List.mem_of_mem_filter hb)
  rw [← (State.Rebanks.modCluster s q (fun c => { c with opens := Map.del c.opens i })).banksOf hi] at hb
  exact foldl_reaches_of (I := fun _ => True) (P := fun t : State => t.ClosureWaits q i b) hb (fun _ _ _ _ => trivial)
    (fun t _ => State.closureWaits_closeBank hi hlt b (.inl rfl)) (fun t x _ ht => State.closureWaits_closeBank hi hlt x (.inr ht)) trivial

theorem State.closureWaits_closePart (hi : i < 64) {b : Nat} (hb : b ∈ s.banksOf q i) : (s.closePart q i).ClosureWaits q i b := by
  rw [← State.banksOf_setGate s q i 0] at hb
  rw [State.closePart_eq]
  exact State.closureWaits_closeBanks hi hb

end

/-! ### Opening (R164) -/

section
variable (s : State) (q i : Nat)

/-- One bank of a partition that opens. -/
def State.openBank (s : State) (b : Nat) : State :=
  ((s.modCluster q (fun c => { c with closing := c.closing.filter (fun k => k != closingKey b i) })).powerBank q b).showPending q b

/-- The tick at which a partition that opens takes effect. -/
def State.opensAt : Nat := s.bankEdge ((s.foldOf q).getD 0) (s.now + 1)

/-- What a partition that opens does, its gate set. -/
def State.openBanks (s : State) : State :=
  let t := s.modCluster q (fun c => { c with opens := Map.put c.opens i (s.opensAt q) })
  (t.banksOf q i).foldl (State.openBank q i) t

theorem State.openPart_eq : s.openPart q i = (s.setFld Fld.cluPartCfgGate q i 1).openBanks q i := by
  unfold State.openPart State.openBanks State.openBank State.opensAt
  rfl

theorem State.rebanks_openBank (b : Nat) : s.Rebanks (s.openBank q i b) :=
  .trans (.trans (.modCluster s q _) (.powerBank _ q b)) (.showPending _ q b)

theorem State.rebanks_openBanks : s.Rebanks (s.openBanks q i) :=
  .trans (.modCluster _ q _) (.foldl (fun t b => t.rebanks_openBank q i b) _ _)

theorem State.rebanks_openPart : (s.setFld Fld.cluPartCfgGate q i 1).Rebanks (s.openPart q i) := by
  rw [State.openPart_eq]
  exact State.rebanks_openBanks _ q i

/-- Asking for power for a bank changes nothing of its cluster but what fills. -/
theorem State.cluster_powerBank (b : Nat) : ∃ m, (s.powerBank q b).cluster q = { s.cluster q with filling := m } ∧
    (∀ x, x ≠ b → Map.find m x = Map.find (s.cluster q).filling x) ∧
    ∀ x, x ≠ q → (s.powerBank q b).cluster x = s.cluster x := by
  unfold State.powerBank
  split
  · exact ⟨(s.cluster q).filling, rfl, fun _ _ => rfl, fun _ _ => rfl⟩
  · refine ⟨Map.put (s.cluster q).filling b s.nextTag, ?_, fun x hx => by rw [Map.find_put, if_neg hx], fun x hx => ?_⟩
    · rw [State.showPending, State.cluster_of_setBit, State.cluster_of_modCluster, if_pos rfl]
      rfl
    · rw [State.showPending, State.cluster_of_setBit, State.cluster_of_modCluster, if_neg hx]
      rfl

theorem State.sameRows_powerBank (b : Nat) : SameRows s (s.powerBank q b) := fun x a => by
  obtain ⟨m, hq, _, hother⟩ := s.cluster_powerBank q b
  rw [State.row, State.row]
  by_cases hx : x = q
  · rw [hx, hq]
  · rw [hother x hx]

theorem State.sameRows_openBank (b : Nat) : SameRows s (s.openBank q i b) :=
  ((sameRows_modCluster s q fun _ => rfl : SameRows s (s.modCluster q fun c => { c with
    closing := c.closing.filter (fun k => k != closingKey b i) })).trans (State.sameRows_powerBank _ q b)).trans
    (.of_clusters (State.setBit_clusters _ _ _ _ _ _))

theorem State.sameRows_openBanks : SameRows s (s.openBanks q i) :=
  List.foldlRecOn (motive := SameRows s) _ _ (sameRows_modCluster s q fun _ => rfl)
    fun t ht b _ => ht.trans (t.sameRows_openBank q i b)

theorem State.sameRows_openPart : SameRows s (s.openPart q i) := by
  rw [State.openPart_eq]
  exact SameRows.trans (.of_clusters (State.clusters_setFld _ _ _ _ _)) (State.sameRows_openBanks _ q i)

theorem State.opens_openBank (b : Nat) : ((s.openBank q i b).cluster q).opens = (s.cluster q).opens := by
  obtain ⟨m, hq, _, _⟩ := (s.modCluster q (fun c => { c with
    closing := c.closing.filter (fun k => k != closingKey b i) })).cluster_powerBank q b
  rw [State.openBank, State.showPending, State.cluster_of_setBit, hq, State.cluster_of_modCluster, if_pos rfl]

theorem State.opens_openBanks : Map.find ((s.openBanks q i).cluster q).opens i = some (s.opensAt q) := by
  rw [State.openBanks, State.proj_foldl (fun t => (t.cluster q).opens) (fun t b => t.opens_openBank q i b),
    State.cluster_of_modCluster, if_pos rfl, Map.find_put, if_pos rfl]

/-- A POWER_ON grant of 2 units has been asked for bank `b` on tick `n`. -/
def State.PowerAsked (b n : Nat) : Prop :=
  ∃ r ∈ (s.hub (q / 24)).arb.waiting, r.cls = clsPowerOn ∧ r.q = q ∧ r.units = 2 ∧ r.bank = some b ∧ r.asked = n

theorem State.arb_powerBank (b : Nat) : ∃ l, ((s.powerBank q b).hub (q / 24)).arb.waiting = (s.hub (q / 24)).arb.waiting ++ l := by
  unfold State.powerBank
  split
  · exact ⟨[], (List.append_nil _).symm⟩
  · refine ⟨[⟨s.nextTag, clsPowerOn, q, 0, 2, 856, 0, s.now, some b, none⟩], ?_⟩
    rw [State.showPending, State.hub_of_setBit, State.hub_of_modCluster, State.askLeave, State.arb_enterReq, if_pos rfl]

variable {s q i}

theorem State.powerAsked_of_gated {b : Nat} (hpower : s.bankPowered q b = false) (hfill : Map.find (s.cluster q).filling b = none) :
    (s.powerBank q b).PowerAsked q b s.now := by
  refine ⟨⟨s.nextTag, clsPowerOn, q, 0, 2, 856, 0, s.now, some b, none⟩, ?_, rfl, rfl, rfl, rfl, rfl⟩
  rw [State.powerBank, if_neg (by rw [hpower, hfill]; decide), State.showPending, State.hub_of_setBit, State.hub_of_modCluster,
    State.askLeave, State.arb_enterReq, if_pos rfl]
  exact List.mem_append_right _ (List.mem_singleton_self _)

theorem State.PowerAsked.powerBank {b n : Nat} (h : s.PowerAsked q b n) (x : Nat) : (s.powerBank q x).PowerAsked q b n := by
  obtain ⟨r, hr, hasks⟩ := h
  obtain ⟨l, hl⟩ := s.arb_powerBank q x
  exact ⟨r, hl ▸ List.mem_append_left l hr, hasks⟩

theorem State.bankPowered_powerBank (b c : Nat) : (s.powerBank q b).bankPowered q c = s.bankPowered q c := by
  unfold State.powerBank
  split
  · rfl
  · rw [State.bankPowered_showPending]
    rfl

/-- On tick `n` bank `b` is gated, and has asked for power if it fills. -/
structure State.PowerDue (s : State) (q b n : Nat) : Prop where
  gated : s.bankPowered q b = false
  now : s.now = n
  fills : s.PowerAsked q b n ∨ Map.find (s.cluster q).filling b = none

theorem State.PowerDue.powerBank {b n : Nat} (h : s.PowerDue q b n) (x : Nat) : (s.powerBank q x).PowerDue q b n := by
  obtain ⟨hgated, hnow, hfills⟩ := h
  refine ⟨(State.bankPowered_powerBank x b).trans hgated, (State.Rebanks.powerBank s q x).now.trans hnow, ?_⟩
  obtain ⟨m, hq, hm, _⟩ := s.cluster_powerBank q x
  rcases hfills with hasked | hnone
  · exact .inl (hasked.powerBank x)
  · by_cases hb : b = x
    · subst hb hnow
      exact .inl (State.powerAsked_of_gated hgated hnone)
    · right
      rw [hq]
      exact (hm b hb).trans hnone

theorem State.PowerDue.openBank {b n : Nat} (h : s.PowerDue q b n) (x : Nat) : (s.openBank q i x).PowerDue q b n := by
  obtain ⟨hgated, hnow, hfills⟩ := h
  have hdue : (s.modCluster q fun c => { c with closing := c.closing.filter (fun k => k != closingKey x i) }).PowerDue q b n := by
    refine ⟨hgated, hnow, hfills.imp_right fun hnone => ?_⟩
    rw [State.cluster_of_modCluster, if_pos rfl]
    exact hnone
  obtain ⟨hgated, hnow, hfills⟩ := hdue.powerBank x
  refine ⟨(State.bankPowered_showPending _ q x b).trans hgated, hnow, hfills.imp id fun hnone => ?_⟩
  rw [State.openBank, State.showPending, State.cluster_of_setBit]
  exact hnone

theorem State.PowerAsked.openBank {b n : Nat} (h : s.PowerAsked q b n) (x : Nat) : (s.openBank q i x).PowerAsked q b n :=
  State.PowerAsked.powerBank (s := s.modCluster q fun c => { c with closing := c.closing.filter (fun k => k != closingKey x i) }) h x

theorem State.PowerDue.asked_openBank {b n : Nat} (h : s.PowerDue q b n) : (s.openBank q i b).PowerAsked q b n := by
  obtain ⟨hgated, rfl, hasked | hnone⟩ := h
  · exact hasked.openBank b
  · refine State.powerAsked_of_gated (s := s.modCluster q fun c => { c with
      closing := c.closing.filter (fun k => k != closingKey b i) }) hgated ?_
    rw [State.cluster_of_modCluster, if_pos rfl]
    exact hnone

theorem State.powerAsked_openBanks (hi : i < 64) {b : Nat} (hb : b ∈ s.banksOf q i) (hpower : s.bankPowered q b = false)
    (hfill : Map.find (s.cluster q).filling b = none) : (s.openBanks q i).PowerAsked q b s.now := by
  rw [← (State.Rebanks.modCluster s q (fun c => { c with opens := Map.put c.opens i (s.opensAt q) })).banksOf hi] at hb
  refine foldl_reaches_of (I := fun t : State => t.PowerDue q b s.now) (P := fun t : State => t.PowerAsked q b s.now) hb
    (fun _ x _ ht => ht.openBank x) (fun t ht => ht.asked_openBank) (fun t x _ ht => ht.openBank x) ⟨hpower, rfl, .inr ?_⟩
  rw [State.cluster_of_modCluster, if_pos rfl]
  exact hfill

end

/-! ### The fold that a cluster belongs to while a gate changes -/

section
variable {s : State} {q i : Nat}

/-- The word of a valid descriptor is what any register at its address reads. -/
theorem State.reg_of_partValid (h : s.partValid q i = true) {r : Reg} {u j : Nat} (ha : r.addr u j = Reg.cluPartCfg.addr q i) :
    s.reg r u j = s.reg .cluPartCfg q i := by
  unfold State.reg Map.get
  rw [ha]
  cases hw : Map.find s.regs (Reg.cluPartCfg.addr q i) with
  | some w => rfl
  | none =>
    have hreset : s.reg .cluPartCfg q i = Reg.cluPartCfg.resetWord q i := by
      rw [State.reg, Map.get, hw]
      rfl
    have hvalid : s.fld Fld.cluPartCfgValid q i = 1 := beq_iff_eq.mp h
    rw [State.fld, show Fld.cluPartCfgValid.reg = .cluPartCfg from rfl, hreset] at hvalid
    exact absurd hvalid (show getBits (Reg.resetOf Reg.cluPartCfg.fields) 63 1 ≠ 1 by decide)

/-- A fold whose state register lay at a valid descriptor's address would not be idle. -/
theorem State.foldState_ne_zero_of_partValid (h : s.partValid q i = true) {f : Nat}
    (ha : Reg.timFoldStat.addr 0 f = Reg.cluPartCfg.addr q i) : s.foldState f ≠ 0 := by
  have hreg : s.reg .timFoldStat 0 f = s.reg .cluPartCfg q i := State.reg_of_partValid h ha
  have hvalid : s.fld Fld.cluPartCfgValid q i = 1 := beq_iff_eq.mp h
  change getBits (s.reg .cluPartCfg q i) 63 1 = 1 at hvalid
  change getBits (s.reg .timFoldStat 0 f) 61 3 ≠ 0
  rw [hreg]
  unfold getBits at hvalid ⊢
  omega

theorem State.partValid_setGate (v : Nat) : (s.setFld Fld.cluPartCfgGate q i v).partValid q i = s.partValid q i := by
  rw [State.partValid, State.partValid, State.fld_setFld_beside _ Fld.cluPartCfgGate Fld.cluPartCfgValid _ _ _ rfl (by decide) (by decide)]

theorem State.foldState_setGate_ne {f : Nat} (ha : Reg.timFoldStat.addr 0 f ≠ Reg.cluPartCfg.addr q i) (v : Nat) :
    (s.setFld Fld.cluPartCfgGate q i v).foldState f = s.foldState f :=
  State.fld_setFld_ne s Fld.cluPartCfgGate Fld.timFoldStatState q i v 0 f ha

theorem State.idle_setGate (h : s.partValid q i = true) (v f : Nat) :
    ((s.setFld Fld.cluPartCfgGate q i v).foldState f != 0) = (s.foldState f != 0) := by
  by_cases ha : Reg.timFoldStat.addr 0 f = Reg.cluPartCfg.addr q i
  · have hbefore := State.foldState_ne_zero_of_partValid h ha
    have hafter := State.foldState_ne_zero_of_partValid ((State.partValid_setGate v).trans h) ha
    rw [bne_iff_ne.mpr hbefore, bne_iff_ne.mpr hafter]
  · rw [State.foldState_setGate_ne ha]

theorem State.foldOf_setGate (h : s.partValid q i = true) (v p : Nat) :
    (s.setFld Fld.cluPartCfgGate q i v).foldOf p = s.foldOf p := by
  rw [State.foldOf, State.foldOf, State.setFld_folds]
  refine congrArg List.head? (List.filter_congr fun f _ => ?_)
  rw [State.idle_setGate h, State.foldClusters, State.foldClusters, State.fold_of_setFld]

theorem State.opens_openPart (h : s.partValid q i = true) :
    Map.find ((s.openPart q i).cluster q).opens i = some (s.bankEdge ((s.foldOf q).getD 0) (s.now + 1)) := by
  have hopens := (s.setFld Fld.cluPartCfgGate q i 1).opens_openBanks q i
  rw [State.opensAt, State.foldOf_setGate h, State.bankEdge, State.fold_of_setFld, State.setFld_now] at hopens
  rw [State.openPart_eq]
  exact hopens

theorem bankPower_addr_ne_cfg (hi : i < 64) : Reg.cluBankPower.addr q 0 ≠ Reg.cluPartCfg.addr q i :=
  ((partReg_addr_ne_bank (.inl rfl) q q hi).2).symm

theorem State.powerAsked_openPart (hi : i < 64) {b : Nat} (hb : b ∈ s.banksOf q i) (hpower : s.bankPowered q b = false)
    (hfill : Map.find (s.cluster q).filling b = none) : (s.openPart q i).PowerAsked q b s.now := by
  rw [← State.banksOf_setGate s q i 1] at hb
  have hfld := State.fld_setFld_ne s Fld.cluPartCfgGate Fld.cluBankPowerPowered q i 1 q 0 (bankPower_addr_ne_cfg hi)
  have hgated : (s.setFld Fld.cluPartCfgGate q i 1).bankPowered q b = false := by
    rw [← hpower, State.bankPowered, State.bankPowered, State.bit, State.bit, hfld]
  rw [State.openPart_eq]
  exact State.setFld_now s Fld.cluPartCfgGate q i 1 ▸ State.powerAsked_openBanks hi hb hgated
    (by rw [State.cluster_of_setFld]; exact hfill)

end

/-! ### A descriptor write that is taken (R148, R149, R163) -/

/-- The gate written twice, last with what a word holds there, leaves that word. -/
theorem setGate_setGate_getGate (w : Word) (v : Nat) : setBits (setBits w 62 1 v) 62 1 (getBits w 62 1) = w := by
  have hw := w.isLt
  refine BitVec.eq_of_toNat_eq ?_
  rw [setBits_toNat _ _ _ _ (by decide), setBits_toNat _ _ _ _ (by decide), getBits]
  omega

section
variable (s : State) (q i : Nat)

/-- The gate of a descriptor as a write leaves it. -/
def State.gateTo (valid was : Bool) (gate0 gate : Nat) : State :=
  if ¬ valid then s.setFld Fld.cluPartCfgGate q i gate
  else if gate = 1 then s.openPart q i
  else if was ∧ gate0 = 1 then s.closePart q i
  else s.setFld Fld.cluPartCfgGate q i gate

/-- The words of a descriptor as a write leaves them, the gate as it was. -/
def State.descWords (w : Word × Word) : State :=
  let b0 := s.reg .cluPartBanks q i
  let c0 := s.reg .cluPartCfg q i
  let t := (s.setReg .cluPartBanks q i w.1).setReg .cluPartCfg q i (setBits w.2 Fld.cluPartCfgGate.lo 1 (cfgBits Fld.cluPartCfgGate c0))
  if (cfgBits Fld.cluPartCfgValid c0 == 1) ∧ (cfgBits Fld.cluPartCfgValid w.2 == 1) ∧
      cfgBits Fld.cluPartCfgWclass w.2 ≠ cfgBits Fld.cluPartCfgWclass c0
  then t.modCluster q (fun k => { k with
    err := markUnwritten (markUnwritten k.err b0 c0) w.1 w.2
    spoiled := k.spoiled.filter (fun a => !coversRow b0 c0 a && !coversRow w.1 w.2 a) }) else t

/-- A write of words that opens or closes the partition, before banks that it gave up lose their power. -/
def State.rewords (w : Word × Word) : State :=
  (s.descWords q i w).gateTo q i (cfgBits Fld.cluPartCfgValid w.2 == 1)
    (cfgBits Fld.cluPartCfgValid (s.reg .cluPartCfg q i) == 1) (cfgBits Fld.cluPartCfgGate (s.reg .cluPartCfg q i))
    (cfgBits Fld.cluPartCfgGate w.2)

theorem State.partApply_eq (cfg : Bool) (v : Word) : s.partApply q i cfg v =
    if cfgBits Fld.cluPartCfgValid (s.reg .cluPartCfg q i) == 1 then
      (s.banksOf q i).foldl (fun (t : State) b => t.dropBank q b) (s.rewords q i (partWords s q i cfg v))
    else s.rewords q i (partWords s q i cfg v) := by
  unfold State.partApply State.rewords State.gateTo State.descWords
  generalize partWords s q i cfg v = w
  obtain ⟨b, c⟩ := w
  rfl

theorem State.rebanks_gateTo (valid was : Bool) {gate0 gate : Nat} (hgate : gate < 2) :
    (s.setFld Fld.cluPartCfgGate q i gate).Rebanks (s.gateTo q i valid was gate0 gate) := by
  unfold State.gateTo
  split
  · exact .refl _
  · split
    next hone =>
      rw [hone]
      exact s.rebanks_openPart q i
    next hone =>
      split
      · have hzero : gate = 0 := by omega
        rw [hzero]
        exact s.rebanks_closePart q i
      · exact .refl _

theorem State.sameRows_gateTo (valid was : Bool) (gate0 gate : Nat) : SameRows s (s.gateTo q i valid was gate0 gate) := by
  have hset : SameRows s (s.setFld Fld.cluPartCfgGate q i gate) := .of_clusters (State.clusters_setFld _ _ _ _ _)
  unfold State.gateTo
  split
  · exact hset
  · split
    · exact s.sameRows_openPart q i
    · split
      · exact s.sameRows_closePart q i
      · exact hset

theorem partBanks_addr_ne_cfg : Reg.cluPartBanks.addr q i ≠ Reg.cluPartCfg.addr q i := by
  simp only [Reg.addr, Reg.place]
  omega

/-- `t` holds the words `w` in a descriptor and has told nobody. -/
structure State.HoldsWords (s : State) (q i : Nat) (w : Word × Word) (t : State) : Prop where
  banks : t.reg .cluPartBanks q i = w.1
  cfg : t.reg .cluPartCfg q i = w.2
  out : t.out = s.out

theorem State.HoldsWords.rebanks {s t u : State} {q i : Nat} {w : Word × Word} (h : s.HoldsWords q i w t) (ht : t.Rebanks u)
    (hi : i < 64) : s.HoldsWords q i w u := by
  obtain ⟨hbanks, hcfg⟩ := ht.parts q i hi
  exact ⟨hbanks.trans h.banks, hcfg.trans h.cfg, ht.out.trans h.out⟩

theorem State.descWords_spec (hi : i < 64) (w : Word × Word) :
    s.HoldsWords q i (w.1, setBits w.2 62 1 (cfgBits Fld.cluPartCfgGate (s.reg .cluPartCfg q i))) (s.descWords q i w) ∧
    SameRows s (s.descWords q i w) := by
  have hset : ∀ c, s.HoldsWords q i (w.1, c) ((s.setReg .cluPartBanks q i w.1).setReg .cluPartCfg q i c) := fun c =>
    ⟨(State.reg_setReg_ne _ _ _ _ _ _ _ _ (partBanks_addr_ne_cfg q i)).trans (State.reg_setReg _ _ _ _ _), State.reg_setReg _ _ _ _ _,
      (State.setReg_out _ _ _ _ _).trans (State.setReg_out _ _ _ _ _)⟩
  have hrows : ∀ c, SameRows s ((s.setReg .cluPartBanks q i w.1).setReg .cluPartCfg q i c) := fun c =>
    .of_clusters ((State.setReg_clusters _ _ _ _ _).trans (State.setReg_clusters _ _ _ _ _))
  unfold State.descWords
  dsimp only
  split
  · exact ⟨(hset _).rebanks (.modCluster _ q _) hi, (hrows _).trans (sameRows_modCluster _ q fun _ => rfl)⟩
  · exact ⟨hset _, hrows _⟩

variable {q i}

theorem State.rewords_spec (hi : i < 64) (w : Word × Word) :
    s.HoldsWords q i w (s.rewords q i w) ∧ SameRows s (s.rewords q i w) := by
  obtain ⟨⟨hbanks, hcfg, hout⟩, hrows⟩ := s.descWords_spec q i hi w
  have hset : s.HoldsWords q i w ((s.descWords q i w).setFld Fld.cluPartCfgGate q i (cfgBits Fld.cluPartCfgGate w.2)) := by
    refine ⟨(State.reg_banks_setGate _ q i _).trans hbanks, ?_, (State.setFld_out _ _ _ _ _).trans hout⟩
    refine (State.reg_setReg _ _ _ _ _).trans ?_
    rw [show Fld.cluPartCfgGate.reg = .cluPartCfg from rfl, hcfg]
    exact setGate_setGate_getGate w.2 _
  exact ⟨hset.rebanks (State.rebanks_gateTo _ q i _ _ (getBits_lt _ _ _)) hi, hrows.trans (State.sameRows_gateTo _ q i _ _ _ _)⟩

/-- Dropping some banks leaves the rows of the others. -/
theorem State.row_dropBanks_ne (l : List Nat) {x a : Nat} (h : x ≠ q ∨ a / 1024 ∉ l) :
    (l.foldl (fun (t : State) b => t.dropBank q b) s).row x a = s.row x a := by
  refine List.foldlRecOn (motive := fun t : State => t.row x a = s.row x a) l _ rfl fun t ht b hb => ?_
  exact (t.row_dropBank_ne q b x a (h.imp_right fun hnot hx => hnot (hx ▸ hb))).trans ht

theorem State.not_mem_banksOf {b : Nat} (h : s.partMask q i / 2 ^ b % 2 = 0) : b ∉ s.banksOf q i := by
  simp [State.banksOf, h]

theorem State.partApply_spec (hi : i < 64) (cfg : Bool) (v : Word) :
    s.HoldsWords q i (partWords s q i cfg v) (s.partApply q i cfg v) ∧
    ∀ x a, (x ≠ q ∨ s.partMask q i / 2 ^ (a / 1024) % 2 = 0) → (s.partApply q i cfg v).row x a = s.row x a := by
  obtain ⟨hwords, hrows⟩ := s.rewords_spec hi (partWords s q i cfg v)
  rw [State.partApply_eq]
  split
  · refine ⟨hwords.rebanks (.foldl (fun t b => .dropBank t q b) _ _) hi, fun x a h => ?_⟩
    exact (State.row_dropBanks_ne _ _ (h.imp_right fun hmask => s.not_mem_banksOf hmask)).trans (hrows x a)
  · exact ⟨hwords, fun x a _ => hrows x a⟩

end

/-! ### Closures and fills of a bank (R161, R163, R164) -/

section
variable (s : State) (q b : Nat)

theorem State.cluster_dropBank : ((s.dropBank q b).cluster q).closing = (s.cluster q).closing ∧
    ((s.dropBank q b).cluster q).filling = (s.cluster q).filling := by
  unfold State.dropBank
  split
  · rw [State.zeroBank, State.cluster_of_modCluster, if_pos rfl, State.cluster_of_setBit]
    exact ⟨rfl, rfl⟩
  · exact ⟨rfl, rfl⟩

theorem State.sameRows_showPending : SameRows s (s.showPending q b) := .of_clusters (State.setBit_clusters _ _ _ _ _ _)

/-- The closures that wait for a bank taken from those of its cluster. -/
def State.endClosures : State := s.modCluster q (fun c => { c with closing := c.closing.filter (fun k => k / 64 != b) })

theorem State.closing_endClosures : ((s.endClosures q b).cluster q).closing.any (fun k => k / 64 == b) = false := by
  rw [State.endClosures, State.cluster_of_modCluster, if_pos rfl, List.any_eq_false]
  intro k hk
  have hne := (List.mem_filter.mp hk).2
  simpa using hne

theorem State.sameRows_endClosures : SameRows s (s.endClosures q b) := sameRows_modCluster s q fun _ => rfl

theorem State.rebanks_endClosures : s.Rebanks (s.endClosures q b) := .modCluster s q _

/-- A closure of a bank that takes effect. -/
def State.closeNow : State := ((s.endClosures q b).dropBank q b).showPending q b

theorem State.closureCheck_of_free (h : (s.cluster q).closing.any (fun k => k / 64 == b) = true) (hfree : s.inFlight q b = 0) :
    s.closureCheck q b = s.closeNow q b := if_pos ⟨h, hfree⟩

theorem State.closing_closeNow : ((s.closeNow q b).cluster q).closing.any (fun k => k / 64 == b) = false := by
  rw [State.closeNow, State.showPending, State.cluster_of_setBit, (State.cluster_dropBank _ q b).1]
  exact s.closing_endClosures q b

variable {s q b}

theorem State.closeNow_of_unwanted (hb : b < 48) (hpower : s.bankPowered q b = true) (hwanted : s.bankWanted q b = false) :
    (s.closeNow q b).bankPowered q b = false ∧ ∀ a, a / 1024 = b → (s.closeNow q b).row q a = 0 := by
  have hdrop := (s.endClosures q b).dropBank_of_unwanted q b hpower (((s.rebanks_endClosures q b).bankWanted q b).trans hwanted)
    (s.closing_endClosures q b)
  rw [State.closeNow, hdrop]
  refine ⟨?_, fun a ha => ?_⟩
  · refine (State.bankPowered_showPending _ q b b).trans ?_
    exact (State.bankPowered_setPower _ q b false hb).trans (if_pos rfl)
  · rw [State.sameRows_showPending, State.row_zeroBank, if_pos ⟨rfl, ha⟩]

theorem State.sameRows_closeNow (hwanted : s.bankWanted q b = true) : SameRows s (s.closeNow q b) := by
  rw [State.closeNow, State.dropBank_of_wanted _ q b (((s.rebanks_endClosures q b).bankWanted q b).trans hwanted)]
  exact (s.sameRows_endClosures q b).trans (State.sameRows_showPending _ q b)

theorem State.row_closeNow_ne {x a : Nat} (h : x ≠ q ∨ a / 1024 ≠ b) : (s.closeNow q b).row x a = s.row x a := by
  rw [State.closeNow, State.sameRows_showPending, State.row_dropBank_ne _ q b x a h]
  exact s.sameRows_endClosures q b x a

end

/-- Dropping a bank leaves a zero row zero. -/
theorem State.row_dropBank_eq_zero (s : State) {q b a : Nat} (h : s.row q a = 0) : (s.dropBank q b).row q a = 0 := by
  unfold State.dropBank
  split
  · rw [State.row_zeroBank]
    split
    · rfl
    · exact h
  · exact h

section
variable (s : State) (q b id : Nat)

/-- A bank whose ramp and fill are over, before what its power is for is looked at. -/
def State.fillEnds : State :=
  (((s.dropGrants (q / 24) (fun g => g.id == id)).modCluster q (fun c => { c with filling := Map.del c.filling b })).zeroBank
    q b).setBit Fld.cluBankPowerPowered q 0 b true

variable {s q b id}

theorem State.bankFilled_of_grant {x : Nat} (hfill : Map.find (s.cluster q).filling b = some id)
    (hgrant : s.grantStart? (q / 24) id = some x) (hend : x + 10272 ≤ s.now) :
    s.bankFilled q b = ((s.fillEnds q b id).dropBank q b).showPending q b := by
  have hover : (s.grantStart? (q / 24) id).any (fun x => decide (x + 10272 ≤ s.now)) = true := by
    rw [hgrant]
    exact decide_eq_true hend
  rw [State.bankFilled, hfill]
  exact if_pos hover

theorem State.rebanks_fillEnds : s.Rebanks (s.fillEnds q b id) :=
  .trans (.trans (.trans (.of_regs (t := s.dropGrants (q / 24) fun g => g.id == id) rfl) (.modCluster _ q _)) (.zeroBank _ q b))
    (.setBit _ (f := Fld.cluBankPowerPowered) (.inl rfl) q b true)

theorem State.row_fillEnds (y a : Nat) : (s.fillEnds q b id).row y a = if y = q ∧ a / 1024 = b then 0 else s.row y a := by
  have hdel : SameRows s ((s.dropGrants (q / 24) fun g => g.id == id).modCluster q fun c => { c with filling := Map.del c.filling b }) :=
    SameRows.trans (.of_clusters rfl) (sameRows_modCluster _ q fun _ => rfl)
  rw [State.fillEnds, State.row_of_clusters (State.setBit_clusters _ _ _ _ _ _), State.row_zeroBank, hdel]

theorem State.filling_fillEnds : Map.find ((s.fillEnds q b id).cluster q).filling b = none := by
  rw [State.fillEnds, State.cluster_of_setBit, State.zeroBank, State.cluster_of_modCluster, if_pos rfl, State.cluster_of_modCluster,
    if_pos rfl]
  exact (Map.find_del _ _ _).trans (if_pos rfl)

end

/-! ### O17 -/

section
variable {s : State} {t q i b : Nat} {p : Path}

theorem exec_partitionDescriptorWrite_refused (hq : validCluster q = true) (hi : i < 64) {cfg : Bool} {v : Word}
    (h : (s.at t).exposed q = false ∨ (s.at t).partRefused q i cfg v = true) : exec (.partitionDescriptorWrite t p q i cfg v) s =
      .next ((s.at t).completes p ((if cfg then Reg.cluPartCfg else .cluPartBanks).addr q i) false) := by
  have hwrite : (s.at t).writePart q i cfg v = (false, s.at t) :=
    if_pos (h.imp_left fun hexposed hup => Bool.false_ne_true (hexposed.symm.trans hup))
  change execPartitionDescriptorWrite t p q i cfg v s = _
  rw [execPartitionDescriptorWrite, hwrite]
  exact if_pos (by rw [validPart, hq, decide_eq_true hi]; rfl)

theorem exec_partitionDescriptorWrite_taken (hq : validCluster q = true) (hi : i < 64) {cfg : Bool} {v : Word}
    (hup : (s.at t).exposed q = true) (hok : (s.at t).partRefused q i cfg v = false) : exec (.partitionDescriptorWrite t p q i cfg v) s =
      .next (((s.at t).partApply q i cfg v).completes p ((if cfg then Reg.cluPartCfg else .cluPartBanks).addr q i) true) := by
  have hwrite : (s.at t).writePart q i cfg v = (true, (s.at t).partApply q i cfg v) := if_neg (by rw [hup, hok]; decide)
  change execPartitionDescriptorWrite t p q i cfg v s = _
  rw [execPartitionDescriptorWrite, hwrite]
  exact if_pos (by rw [validPart, hq, decide_eq_true hi]; rfl)

theorem exec_partitionClose (hq : validCluster q = true) (hi : i < 64) (hup : (s.at t).exposed q = true)
    (hvalid : (s.at t).partValid q i = true) (hopen : (s.at t).partOpen q i = true) : exec (.partitionClose t p q i) s =
      .next (((s.at t).closePart q i).completes p (Reg.cluPartCfg.addr q i) true) := by
  change execPartitionClose t p q i s = _
  rw [execPartitionClose, whenever_of_true (by rw [hup, hvalid, hopen]; rfl), hup]
  exact if_pos (by rw [validPart, hq, decide_eq_true hi]; rfl)

theorem exec_partitionOpen (hq : validCluster q = true) (hi : i < 64) (hup : (s.at t).exposed q = true)
    (hvalid : (s.at t).partValid q i = true) (hopen : (s.at t).partOpen q i = false) : exec (.partitionOpen t p q i) s =
      .next (((s.at t).openPart q i).completes p (Reg.cluPartCfg.addr q i) true) := by
  change execPartitionOpen t p q i s = _
  rw [execPartitionOpen, whenever_of_true (by rw [hup, hvalid, hopen]; rfl), hup]
  exact if_pos (by rw [validPart, hq, decide_eq_true hi]; rfl)

theorem exec_bankClosure (hq : validCluster q = true) (hb : b < 48) : exec (.bankClosure t q b) s =
    .next (whenever ((s.at t).onBankEdge q) (fun s => s.closureCheck q b) (s.at t)) :=
  if_pos (by rw [hq, validBank, decide_eq_true hb]; rfl)

theorem exec_bankFillDone (hq : validCluster q = true) (hb : b < 48) :
    exec (.bankFillDone t q b) s = .next ((s.at t).bankFilled q b) :=
  if_pos (by rw [hq, validBank, decide_eq_true hb]; rfl)

end

end Sys2Proof.Machine

namespace Sys2Proof
open Machine

/-- Settles O17: a write gives the words and then drops banks of the old mask alone; opening and closing run over the banks of the
mask, whose descriptors they leave (`State.Rebanks`), and the power of a bank is set or dropped for that bank alone. -/
theorem partitionsComplete : Obligations.PartitionsComplete := by
  unfold Obligations.PartitionsComplete
  intro t q i p s hq hi
  refine ⟨fun cfg v h => exec_partitionDescriptorWrite_refused hq hi h, fun cfg v hup hok => ?_, fun hup hvalid hopen => ?_,
    fun hup hvalid hopen => ?_, fun b hb hedge => ?_, fun b hb hedge hclosing hfree => ?_, fun b id x hb hfill hgrant hend => ?_⟩
  · obtain ⟨⟨hbanks, hcfg, hout⟩, hrows⟩ := (s.at t).partApply_spec (q := q) hi cfg v
    refine ⟨_, exec_partitionDescriptorWrite_taken hq hi hup hok, ?_, ?_, ?_, fun x a h => ?_⟩
    · rw [State.completes_out, hout]
    · rw [State.reg_of_completes, hbanks]
    · rw [State.reg_of_completes, hcfg]
    · rw [State.row_of_completes, hrows x a h]
  · have hre := (s.at t).rebanks_closePart q i
    refine ⟨_, exec_partitionClose hq hi hup hvalid hopen, ?_, fun x a => ?_, ?_, fun b hb => ?_⟩
    · rw [State.partOpen, State.fld_of_completes, ← State.partOpen, hre.partOpen hi]
      exact State.partOpen_setGate _ q i false
    · rw [State.row_of_completes, (s.at t).sameRows_closePart]
    · rw [State.completes_out, hre.out, State.setFld_out]
      rfl
    · obtain ⟨hmem, hpending⟩ := State.closureWaits_closePart hi hb
      rw [State.cluster_of_completes, State.bit, State.fld_of_completes]
      exact ⟨List.contains_iff_mem.mpr hmem, hpending⟩
  · have hre := (s.at t).rebanks_openPart q i
    refine ⟨_, exec_partitionOpen hq hi hup hvalid hopen, ?_, fun x a => ?_, ?_, ?_, fun b hb hpower hfill => ?_⟩
    · rw [State.partOpen, State.fld_of_completes, ← State.partOpen, hre.partOpen hi]
      exact State.partOpen_setGate _ q i true
    · rw [State.row_of_completes, (s.at t).sameRows_openPart]
    · rw [State.cluster_of_completes, State.opens_openPart hvalid]
    · rw [State.completes_out, hre.out, State.setFld_out]
      rfl
    · rw [State.hub_of_completes]
      exact State.powerAsked_openPart hi hb hpower hfill
  · rw [exec_bankClosure hq hb, whenever_of_false hedge]
  · refine ⟨(s.at t).closeNow q b, ?_, State.closing_closeNow _ q b, State.closeNow_of_unwanted hb, State.sameRows_closeNow,
      fun x a => State.row_closeNow_ne⟩
    rw [exec_bankClosure hq hb, whenever_of_true hedge, State.closureCheck_of_free _ q b hclosing hfree]
  · refine ⟨((s.at t).fillEnds q b id |>.dropBank q b).showPending q b, ?_, ?_, fun a ha => ?_, fun hwanted => ?_, fun y a h => ?_⟩
    · rw [exec_bankFillDone hq hb, State.bankFilled_of_grant hfill hgrant hend]
    · rw [State.showPending, State.cluster_of_setBit, (State.cluster_dropBank _ q b).2]
      exact State.filling_fillEnds
    · rw [State.sameRows_showPending]
      exact State.row_dropBank_eq_zero _ ((State.row_fillEnds q a).trans (if_pos ⟨rfl, ha⟩))
    · rw [State.dropBank_of_wanted _ q b ((State.rebanks_fillEnds.bankWanted q b).trans hwanted), State.bankPowered_showPending]
      exact (State.bankPowered_setPower _ q b true hb).trans (if_pos rfl)
    · rw [State.sameRows_showPending, State.row_dropBank_ne _ q b y a h]
      exact (State.row_fillEnds y a).trans (if_neg fun hin => h.elim (· hin.1) (· hin.2))

end Sys2Proof
end

section
/-! What an event leaves of calls and registers (R557), the calls of the norm watch (R355, R356), rows that the weight codec writes and
arrays that it programs (R178, R214 to R219, R353), and O42. -/

namespace Sys2Proof.Machine

/-! ### Events -/

/-- `t` differs from `s` in no cluster, in no engine's queue, and in no register but the count of dropped events. -/
structure State.Logs (s t : State) : Prop where
  clusters : t.clusters = s.clusters
  engines : ∀ n, (t.hub n).engines = (s.hub n).engines
  regs : ∀ a, a ≠ Reg.fltStreamStat.addr 0 0 → Map.find t.regs a = Map.find s.regs a

namespace State.Logs
variable {s t u : State}

theorem refl (s : State) : s.Logs s := ⟨rfl, fun _ => rfl, fun _ _ => rfl⟩

theorem trans (h : s.Logs t) (h' : t.Logs u) : s.Logs u :=
  ⟨h'.clusters.trans h.clusters, fun n => (h'.engines n).trans (h.engines n), fun a ha => (h'.regs a ha).trans (h.regs a ha)⟩

theorem ite {c : Prop} [Decidable c] (h : s.Logs t) (h' : s.Logs u) : s.Logs (if c then t else u) := by
  split
  · exact h
  · exact h'

theorem countDropped (s : State) (glob : Bool) (cap : Nat) (l : Log) : s.Logs (s.countDropped glob cap l) := by
  obtain ⟨hframe, hregs⟩ := s.onlyReg_countDropped glob cap l
  refine ⟨by rw [hframe], fun n => ?_, hregs⟩
  rw [hframe]
  rfl

theorem modLog (s : State) (n : Nat) (g : Log → Log) : s.Logs (s.modHub n (fun h => { h with log := g h.log })) := by
  refine ⟨rfl, fun m => ?_, fun _ _ => rfl⟩
  rw [State.hub_of_modHub]
  split
  next h => rw [h]
  next => rfl

theorem logRecord (s : State) (k : Source) (r : Rec) : s.Logs (s.logRecord k r) := by
  unfold State.logRecord
  extract_lets counted s'
  have hcounted : s.Logs { counted with globalLog := s.globalLog.push 16384 r } :=
    (countDropped s true 16384 s.globalLog).trans ⟨rfl, fun _ => rfl, fun _ _ => rfl⟩
  have hs' : s.Logs s' := .ite hcounted (.refl s)
  split
  next n _ => exact hs'.trans (.ite ((countDropped s' _ _ _).trans (.modLog _ n (fun l => l.push 4096 r))) (.refl s'))
  next => exact hs'

theorem modFold (s : State) (f : Nat) (g : Fold → Fold) : s.Logs (s.modFold f g) := ⟨rfl, fun _ => rfl, fun _ _ => rfl⟩

theorem report (s : State) (k : Source) (code p0 p1 : Nat) : s.Logs (s.report k code p0 p1) := by
  unfold State.report
  extract_lets r
  split
  · exact .ite (.refl s) ((modFold s _ _).trans (.logRecord _ k r))
  · exact .logRecord s k r

section
variable (h : s.Logs t)
include h

theorem cluster (q : Nat) : t.cluster q = s.cluster q := by rw [State.cluster, State.cluster, h.clusters]
theorem arr (q a : Nat) : t.arr q a = s.arr q a := by rw [State.arr, State.arr, h.cluster]
theorem normSlot (q i : Nat) : t.normSlot q i = s.normSlot q i := by rw [State.normSlot, State.normSlot, h.cluster]
theorem calls (n key : Nat) : t.calls n key = s.calls n key := by rw [State.calls, State.calls, h.engines]

theorem arrState (q a : Nat) : t.arrState q a = s.arrState q a := by
  have haddr : Fld.cluArrStateState.reg.addr q a ≠ Reg.fltStreamStat.addr 0 0 := by
    change Reg.cluArrState.addr q a ≠ _
    simp only [Reg.addr, Reg.place, Scope.origin, leaBase]
    omega
  rw [State.arrState, State.arrState, State.fld, State.fld, State.reg, State.reg, Map.get, Map.get, h.regs _ haddr]

end

end State.Logs

/-! ### The calls of the norm watch (R355, R356) -/

theorem State.calls_modCalls (s : State) (n key : Nat) (f : List EngCall → List EngCall) :
    (s.modCalls n key f).calls n key = f (s.calls n key) := by
  rw [State.calls, State.modCalls, State.hub_of_modHub, if_pos rfl]
  exact (Map.get_set _ _ _ _ _).trans (if_pos rfl)

/-- The calls of an engine once `c` has its reply. -/
def repliedCalls (c : EngCall) (r : EngReply) (l : List EngCall) : List EngCall :=
  l.map (fun x => if sameCall x c then { x with reply := some r } else x)

/-- `t` is `s` with a slot of the norm watch set: no row and no call of the norm watch differs. -/
structure State.NormStep (s : State) (q slot : Nat) (m : NormSlot) (t : State) : Prop where
  rows : SameRows s t
  calls : ∀ n, t.calls n 8 = s.calls n 8
  slot : t.normSlot q slot = m

section
variable {s t : State} {q fn slot : Nat} {c : EngCall} {r : EngReply} {m : NormSlot}

theorem State.NormStep.refl (s : State) (q slot : Nat) : s.NormStep q slot (s.normSlot q slot) s := ⟨.refl s, fun _ => rfl, rfl⟩

theorem State.NormStep.logs {u : State} (h : s.NormStep q slot m t) (hu : t.Logs u) : s.NormStep q slot m u :=
  ⟨h.rows.trans (.of_clusters hu.clusters), fun n => (hu.calls n 8).trans (h.calls n), (hu.normSlot q slot).trans h.slot⟩

theorem State.normStep_setNormSlot (s : State) (q slot : Nat) (m : NormSlot) : s.NormStep q slot m (s.setNormSlot q slot m) := by
  refine ⟨sameRows_modCluster s q fun _ => rfl, fun _ => rfl, ?_⟩
  rw [State.setNormSlot, State.normSlot, State.cluster_of_modCluster, if_pos rfl]
  exact (Map.get_set _ _ _ _ _).trans (if_pos rfl)

/-- The oldest call of a cluster that waits is one of that cluster. -/
theorem State.q_of_find (h : (s.calls (q / 24) 8).find? (fun c => c.reply.isNone && c.q == q) = some c) : c.q = q := by
  have hp := List.find?_some h
  rw [Bool.and_eq_true, beq_iff_eq] at hp
  exact hp.2

theorem State.serveNorm_spec {run : EngCall → State → EngReply × State}
    (hfind : (s.calls (q / 24) 8).find? (fun c => c.reply.isNone && c.q == q) = some c) (hfn : c.fn = fn)
    (hrun : run c s = (r, t)) (ht : s.NormStep q slot m t) :
    SameRows s (s.serveNorm q fn run) ∧ (s.serveNorm q fn run).calls (q / 24) 8 = repliedCalls c r (s.calls (q / 24) 8) ∧
    (s.serveNorm q fn run).normSlot q slot = m := by
  have hserve : s.serveNorm q fn run = t.modCalls (q / 24) 8 (repliedCalls c r) := by
    simp only [State.serveNorm, hfind, if_pos hfn, hrun]
    rfl
  rw [hserve, State.calls_modCalls, ht.calls]
  exact ⟨ht.rows.trans (.of_clusters rfl), rfl, ht.slot⟩

/-! #### What NORM_SET and NORM_SUBMIT make of a call -/

theorem runNormSet_bad (h : c.param 0 2 < 256 ∨ 271 < c.param 0 2 ∨ (c.param 2 1 ≠ 1 ∧ c.param 2 1 ≠ 3) ∨ c.param 3 1 = 0) :
    runNormSet c s = (emptyReply egBadBlock, s) := if_pos h

/-- A slot as NORM_SET starts it. -/
def NormSlot.started (m : NormSlot) (policy warmup hi lo : Nat) : NormSlot :=
  { m with policy := policy, warmup := warmup, hi := hi, lo := lo, left := warmup, state := 1 }

theorem NormSlot.configured_of_policy (m : NormSlot) {policy : Nat} (h : policy ≠ 0) (warmup hi lo : Nat) :
    m.configured policy warmup hi lo = m.started policy warmup hi lo := by
  rw [NormSlot.configured, if_neg h, if_neg h, NormSlot.started]

theorem runNormSet_good (h : ¬ (c.param 0 2 < 256 ∨ 271 < c.param 0 2 ∨ (c.param 2 1 ≠ 1 ∧ c.param 2 1 ≠ 3) ∨ c.param 3 1 = 0)) :
    runNormSet c s = (emptyReply egOk, s.setNormSlot c.q (c.param 0 2)
      ((s.normSlot c.q (c.param 0 2)).started (c.param 2 1) (c.param 3 1) (c.param 4 2) (c.param 6 2))) := by
  have hpolicy : c.param 2 1 ≠ 0 := by omega
  rw [← NormSlot.configured_of_policy _ hpolicy]
  exact if_neg h

theorem runNormSubmit_bad (h : c.param 0 2 < 256 ∨ 271 < c.param 0 2 ∨ (s.normSlot c.q (c.param 0 2)).policy = 2) :
    runNormSubmit c s = (emptyReply egBadBlock, s) := if_pos h

section
variable (h : ¬ (c.param 0 2 < 256 ∨ 271 < c.param 0 2 ∨ (s.normSlot c.q (c.param 0 2)).policy = 2))
include h

theorem runNormSubmit_nonfinite (hfin : (f32 (c.param 4 4)).isFin = false) :
    runNormSubmit c s = (emptyReply egNonfinite, s.noteOverflow c.fold c.core) :=
  (if_neg h).trans (if_pos (by rw [hfin]; decide))

/-- The status of a call whose norm the slot has judged. -/
def NormSlot.verdict (m : NormSlot) (hit : Bool) : Nat :=
  if hit = false then egOk else if m.policy = 1 then egNormTrigger else if m.policy = 3 then egNormFail else egOk

theorem runNormSubmit_judged (hfin : (f32 (c.param 4 4)).isFin = true) :
    ∃ t, runNormSubmit c s = (emptyReply ((s.normSlot c.q (c.param 0 2)).verdict
        ((s.normSlot c.q (c.param 0 2)).judge (c.param 4 4)).1), t) ∧
      s.NormStep c.q (c.param 0 2) ((s.normSlot c.q (c.param 0 2)).judge (c.param 4 4)).2 t := by
  unfold runNormSubmit
  extract_lets slot n m
  rw [if_neg h, if_neg (by rw [hfin]; decide)]
  have hset := s.normStep_setNormSlot c.q slot (m.judge n).2
  rcases hjudge : m.judge n with ⟨hit, m'⟩
  rw [hjudge] at hset
  cases hit with
  | false => exact ⟨_, rfl, hset⟩
  | true => exact ⟨_, rfl, hset.logs (.report _ _ _ _ _)⟩

end

end

/-! ### Rows that the codec writes to a scratchpad -/

theorem State.drams_writeRow (s : State) (q a writer : Nat) (r : Row) : (s.writeRow q a writer r).drams = s.drams := by
  have htag : (s.tagWrite q a writer).drams = s.drams := by
    unfold State.tagWrite
    extract_lets c f s'
    have hs' : s'.drams = s.drams := by
      dsimp only [s']
      split
      · split
        next t _ _ =>
          obtain ⟨m, folds, log, hubs, h⟩ :=
            (s.bump Fld.cluSpContractUnorderedCount q 0).report_frame (agentSource q f writer) 0x5008 a t.writer
          rw [h]
          rfl
        next => rfl
      · rfl
    exact hs'
  exact htag

section
variable {q : Nat}

theorem State.putRows_cons (s : State) (a : Nat) (r : Row) (l : List Row) :
    (s.putRows q a (r :: l)).2 = ((s.stewardRow q a r).putRows q (a + 1) l).2 := rfl

theorem State.takesRow_stewardRow (s : State) (a b : Nat) (r : Row) : (s.stewardRow q a r).takesRow q b = s.takesRow q b :=
  ((State.Grows.refl s).stewardWrite q a r).takesRow q b

theorem State.putRows_of_taken {s : State} {a : Nat} (rows : List Row) (h : ∀ i, i < rows.length → s.takesRow q (a + i) = true) :
    (s.putRows q a rows).2.drams = s.drams ∧ ∀ x b, (s.putRows q a rows).2.row x b =
      if x = q ∧ a ≤ b ∧ b < a + rows.length then rows.getD (b - a) 0 else s.row x b := by
  induction rows generalizing s a with
  | nil =>
    refine ⟨rfl, fun x b => ?_⟩
    rw [if_neg (by rw [List.length_nil]; omega)]
    rfl
  | cons r rows ih =>
    have hfirst : s.takesRow q a = true := h 0 (Nat.succ_pos _)
    have hrest : ∀ i, i < rows.length → (s.stewardRow q a r).takesRow q (a + 1 + i) = true := fun i hi => by
      rw [State.takesRow_stewardRow, Nat.add_assoc, Nat.add_comm 1]
      exact h (i + 1) (Nat.succ_lt_succ hi)
    obtain ⟨hdrams, hrows⟩ := ih hrest
    rw [State.putRows_cons]
    refine ⟨?_, fun x b => ?_⟩
    · rw [hdrams, State.stewardRow_of_taken _ _ _ _ hfirst, State.drams_writeRow]
    · rw [hrows, State.row_stewardRow, List.length_cons, hfirst]
      by_cases hb : b = a
      · have hiff : (x = q ∧ b = a ∧ true = true) ↔ (x = q ∧ a ≤ b ∧ b < a + (rows.length + 1)) :=
          ⟨fun hx => ⟨hx.1, by omega, by omega⟩, fun hx => ⟨hx.1, hb, rfl⟩⟩
        rw [if_neg (fun hx : x = q ∧ a + 1 ≤ b ∧ b < a + 1 + rows.length => by omega), hb, Nat.sub_self]
        exact if_congr (hb ▸ hiff) rfl rfl
      · have hiff : (x = q ∧ a + 1 ≤ b ∧ b < a + 1 + rows.length) ↔ (x = q ∧ a ≤ b ∧ b < a + (rows.length + 1)) := by omega
        rw [if_neg (fun hx : x = q ∧ b = a ∧ true = true => hb hx.2.1)]
        by_cases hin : x = q ∧ a ≤ b ∧ b < a + (rows.length + 1)
        · have hsub : b - a = b - (a + 1) + 1 := by omega
          rw [if_pos hin, if_pos (hiff.mpr hin), hsub, List.getD_cons_succ]
        · rw [if_neg hin, if_neg (mt hiff.mp hin)]

/-- The rows lie in partitions whose fold is idle or in its guard, and no access to them is refused. -/
def State.codecMay (s : State) (q row n : Nat) : Bool :=
  (List.range n).all (fun i => !s.rowRefused q (row + i) && (s.partOf q (row + i)).any (fun i =>
    s.foldState (s.partFold q i) == foldIdle || s.inGuard (s.partFold q i)))

theorem State.codecMay_iff {s : State} {row n : Nat} : s.codecMay q row n = true ↔ ∀ i, i < n →
    s.takesRow q (row + i) = true ∧ (s.partOf q (row + i)).any (fun i => s.stewardMay (s.partFold q i)) = true := by
  unfold State.codecMay
  rw [List.all_eq_true]
  refine forall_congr' fun i => ?_
  rw [List.mem_range]
  refine imp_congr_right fun _ => ?_
  rw [State.takesRow]
  cases s.partOf q (row + i) with
  | none => simp
  | some j => simp [State.stewardMay]

/-- The partition of each row of a chunk. -/
def State.chunkParts (s : State) (q row n : Nat) : List (Option Nat) :=
  (List.range n).map (fun i => if row + i < 49152 then s.partOf q (row + i) else none)

section
variable {s : State} {row : Nat} {rows : List Row}

theorem State.codecWrite_scratch_of_may (hend : row + rows.length ≤ 49152) (h : s.codecMay q row rows.length = true) :
    s.codecWrite .scratch q row rows = (s.putRows q row rows).2 := by
  have hpart : ∀ p ∈ s.chunkParts q row rows.length, p.any (fun i => s.stewardMay (s.partFold q i)) = true := fun p hp => by
    obtain ⟨i, hi, rfl⟩ := List.mem_map.mp hp
    have hi := List.mem_range.mp hi
    rw [if_pos (by omega)]
    exact (State.codecMay_iff.mp h i hi).2
  have hsome : (s.chunkParts q row rows.length).any Option.isNone = false := List.any_eq_false.mpr fun p hp => by
    have hp := hpart p hp
    cases p with
    | none => exact absurd hp Bool.false_ne_true
    | some i => exact Bool.false_ne_true
  exact (if_neg (Bool.eq_false_iff.mp hsome)).trans (if_pos (List.all_eq_true.mpr hpart))

theorem State.codecWrite_scratch_of_outside {i : Nat} (hi : i < rows.length) (h : 49152 ≤ row + i ∨ s.partOf q (row + i) = none) :
    s.codecWrite .scratch q row rows = s.overrun q row 1 (hubAddr (q / 24)) := by
  refine if_pos (List.any_eq_true.mpr ⟨none, List.mem_map.mpr ⟨i, List.mem_range.mpr hi, ?_⟩, rfl⟩)
  rcases h with hout | hnone
  · exact if_neg (by omega)
  · rw [hnone]
    exact ite_self _

end

end

/-! ### Cells as programming leaves them (R177, R216) -/

theorem Map.get_setList {α : Type} [DecidableEq α] (d : α) (m : Map α) (k : Nat) (vs : List α) (j : Nat) :
    Map.get d (Map.setList d m k vs) j = if k ≤ j ∧ j < k + vs.length then vs.getD (j - k) d else Map.get d m j := by
  induction vs generalizing m k with
  | nil => exact (if_neg (by rw [List.length_nil]; omega)).symm
  | cons v vs ih =>
    rw [Map.setList, ih, Map.get_set, List.length_cons]
    rcases Nat.lt_trichotomy j k with hj | rfl | hj
    · rw [if_neg (by omega), if_neg (by omega), if_neg (by omega)]
    · rw [if_neg (by omega), if_pos rfl, if_pos (by omega), Nat.sub_self]
      rfl
    · have hsub : j - k = j - (k + 1) + 1 := by omega
      rw [if_neg (Nat.ne_of_gt hj), hsub, List.getD_cons_succ]
      exact if_congr (by omega) rfl rfl

/-- Where two values of each element of a list stand once they are written in one row. -/
theorem getElem?_flatMap_pair {α β : Type} (f g : α → β) (l : List α) (c : Nat) :
    (l.flatMap (fun x => [f x, g x]))[2 * c]? = l[c]?.map f ∧ (l.flatMap (fun x => [f x, g x]))[2 * c + 1]? = l[c]?.map g := by
  induction l generalizing c with
  | nil => exact ⟨rfl, rfl⟩
  | cons x l ih =>
    cases c with
    | zero => exact ⟨rfl, rfl⟩
    | succ c => exact ih c

/-- The levels of the cells of a row. -/
def pairCells (ps : List PairSet) : List Nat := ps.flatMap (fun p => [p.plus, p.minus])

theorem length_pairCells (ps : List PairSet) : (pairCells ps).length = 2 * ps.length := by
  simp [pairCells, List.length_flatMap, Nat.mul_comm]

section
variable (cells : Map Nat) (row : Nat) (ps : List PairSet)

theorem cellWeight_setList_same {c : Nat} {p : PairSet} (h : ps[c]? = some p) :
    cellWeight (Map.setList 0 cells (1024 * row) (pairCells ps)) row c = (p.plus : Int) - (p.minus : Int) := by
  obtain ⟨hplus, hminus⟩ := getElem?_flatMap_pair PairSet.plus PairSet.minus ps c
  have hc : c < ps.length := (List.getElem?_eq_some_iff.mp h).1
  rw [h] at hplus hminus
  unfold cellWeight
  dsimp only
  rw [Map.get_setList, Map.get_setList, length_pairCells, if_pos (by omega), if_pos (by omega), Nat.add_sub_cancel_left,
    Nat.add_assoc, Nat.add_sub_cancel_left, List.getD_eq_getElem?_getD, List.getD_eq_getElem?_getD, pairCells, hplus, hminus]
  rfl

theorem cellWeight_setList_ne (hps : ps.length = 512) {r c : Nat} (hr : r ≠ row) (hc : c < 512) :
    cellWeight (Map.setList 0 cells (1024 * row) (pairCells ps)) r c = cellWeight cells r c := by
  unfold cellWeight
  dsimp only
  rw [Map.get_setList, Map.get_setList, length_pairCells, if_neg (by omega), if_neg (by omega)]

end

theorem length_rowWeights (w : BitVec 2048) : (rowWeights w).length = 512 := by
  rw [rowWeights, List.length_map, List.length_range]

theorem length_rowPairs (w : BitVec 2048) (stuck : List StuckCell) : (rowPairs w stuck).length = 512 := by
  rw [rowPairs, List.length_mapIdx, length_rowWeights]

theorem getElem?_rowPairs (w : BitVec 2048) (stuck : List StuckCell) {c : Nat} (hc : c < 512) : (rowPairs w stuck)[c]? =
    some (setPair ((rowWeights w).getD c 0) (stuckAt stuck c true) (stuckAt stuck c false)) := by
  have hlen : c < (rowWeights w).length := by rw [length_rowWeights]; exact hc
  rw [rowPairs, List.getElem?_mapIdx, List.getD_eq_getElem?_getD, List.getElem?_eq_getElem hlen]
  rfl

/-- R216: a pair that could be set stores its weight. -/
theorem setPair_weight (w : Int) (plus minus : Option Nat) (h : (setPair w plus minus).ok = true) :
    ((setPair w plus minus).plus : Int) - (setPair w plus minus).minus = w := by
  unfold setPair pairLevels at h ⊢
  cases plus with
  | none =>
    cases minus with
    | none =>
      dsimp only
      omega
    | some m =>
      dsimp only at h ⊢
      split
      · dsimp only
        omega
      next hout =>
        rw [if_neg hout] at h
        exact absurd h Bool.false_ne_true
  | some p =>
    cases minus with
    | none =>
      dsimp only at h ⊢
      split
      · dsimp only
        omega
      next hout =>
        rw [if_neg hout] at h
        exact absurd h Bool.false_ne_true
    | some m => exact of_decide_eq_true h

/-- A row of an array stores the weights of a programming row. -/
def Arr.Holds (x : Arr) (r : Nat) (w : BitVec 2048) : Prop := ∀ c, c < 512 → cellWeight x.cells r c = (rowWeights w).getD c 0

theorem Arr.holds_of_holdsRow {x : Arr} {r : Nat} {w : BitVec 2048} (h : x.holdsRow r w = true) : x.Holds r w := fun c hc =>
  beq_iff_eq.mp (List.all_eq_true.mp h c (List.mem_range.mpr hc))

theorem Arr.holds_of_set {x : Arr} {r : Nat} {w : BitVec 2048} {stuck : List StuckCell} (hok : (rowPairs w stuck).all PairSet.ok = true)
    {m : Map Nat} (hx : x.cells = Map.setList 0 m (1024 * r) (pairCells (rowPairs w stuck))) : x.Holds r w := fun c hc => by
  have hpair := getElem?_rowPairs w stuck hc
  rw [hx, cellWeight_setList_same m r _ hpair]
  exact setPair_weight _ _ _ (List.all_eq_true.mp hok _ (List.mem_of_getElem? hpair))

/-! ### Programming a row (R214, R217, R219) -/

section
variable (s : State) (q a : Nat)

theorem State.arr_modArr (f : Arr → Arr) : (s.modArr q a f).arr q a = f (s.arr q a) := by
  rw [State.arr, State.modArr, State.cluster_of_modCluster, if_pos rfl]
  exact (Map.get_set _ _ _ _ _).trans (if_pos rfl)

theorem State.sameRows_modArr (f : Arr → Arr) : SameRows s (s.modArr q a f) := sameRows_modCluster s q fun _ => rfl

theorem State.arrState_setArrState {v : Nat} (hv : v < 8) : (s.setArrState q a v).arrState q a = v := by
  rw [State.arrState, State.setArrState, State.fld_setFld _ _ _ _ _ (by decide)]
  exact Nat.mod_eq_of_lt hv

variable {s} in
theorem State.arrState_of_regs {t : State} (h : t.regs = s.regs) : t.arrState q a = s.arrState q a := State.fld_of_regs h _ _ _

variable {s} in
theorem State.arr_of_clusters {t : State} (h : t.clusters = s.clusters) : t.arr q a = s.arr q a := by
  rw [State.arr, State.arr, State.cluster, State.cluster, h]

theorem arrWear_addr_ne_state : Reg.cluArrState.addr q a ≠ Reg.cluArrWear.addr q a := by
  simp only [Reg.addr, Reg.place]
  omega

theorem State.wearRow_spec : (s.wearRow q a).clusters = s.clusters ∧ (s.wearRow q a).arrState q a = s.arrState q a := by
  have hset : ∀ (t : State) (f : Fld) v, f.reg = .cluArrWear →
      (t.setFld f q a v).clusters = t.clusters ∧ (t.setFld f q a v).arrState q a = t.arrState q a := fun t f v hf =>
    ⟨State.clusters_setFld _ _ _ _ _, State.fld_setFld_ne _ _ _ _ _ _ _ _ (hf ▸ arrWear_addr_ne_state q a)⟩
  unfold State.wearRow
  extract_lets rem
  split
  · obtain ⟨hclusters, hstate⟩ := hset s Fld.cluArrWearRowRem 0 rfl
    obtain ⟨hclusters', hstate'⟩ := hset (s.setFld Fld.cluArrWearRowRem q a 0) Fld.cluArrWearWearCount
      (Nat.min ((s.setFld Fld.cluArrWearRowRem q a 0).fld Fld.cluArrWearWearCount q a + 1) (2 ^ 32 - 1)) rfl
    exact ⟨hclusters'.trans hclusters, hstate'.trans hstate⟩
  · exact hset s Fld.cluArrWearRowRem rem rfl

/-- An array whose row is about to be programmed. -/
def State.beginRow : State :=
  (s.setArrState q a 1).modArr q a (fun x => { x with fresh := true, due := none, driven := 0, driveBeat := none })

/-- An array a row of which has taken pulses. -/
def State.pulseRow (row : Nat) (ps : List PairSet) : State :=
  let t := (s.modArr q a (fun x => { x with cells := Map.setList 0 x.cells (1024 * row) (pairCells ps) })).wearRow q a
  (t.bumpBy Fld.cluArrStateStuckPairs q a (ps.countP (fun p => p.stuck && p.ok))).recordCluster q

/-- An array a row of which could not be programmed. -/
def State.failRow : State := (s.setArrState q a 5).report (srcAgent q (s.foldOf q)) 0x4007 a 1

theorem State.programRow_eq (row : Nat) {w : BitVec 2048} (hw : badRow w = false) (drifted : Bool) (stuck : List StuckCell) :
    s.programRow q a row w drifted stuck =
      if ¬ s.takesPulses q a row w drifted then s.beginRow q a
      else if (rowPairs w stuck).all PairSet.ok then (s.beginRow q a).pulseRow q a row (rowPairs w stuck)
      else ((s.beginRow q a).pulseRow q a row (rowPairs w stuck)).failRow q a := by
  unfold State.programRow State.failRow State.pulseRow State.beginRow pairCells
  rw [if_neg (by rw [hw]; decide)]

/-- `t` is `s` after rows of an array from `row` on took pulses: the rows of the scratchpads and the earlier rows of the array stand,
and the array is PROGRAMMING or FAILED, with the weights `ws` where it is PROGRAMMING. -/
structure State.Programs (s : State) (q a row : Nat) (ws : List (BitVec 2048)) (t : State) : Prop where
  rows : SameRows s t
  state : t.arrState q a = 1 ∨ t.arrState q a = 5
  holds : t.arrState q a = 1 → ∀ i, i < ws.length → (t.arr q a).Holds (row + i) (ws.getD i 0)
  others : ∀ r c, r < row → c < 512 → cellWeight (t.arr q a).cells r c = cellWeight (s.arr q a).cells r c

theorem State.beginRow_spec : SameRows s (s.beginRow q a) ∧ (s.beginRow q a).arrState q a = 1 ∧
    ((s.beginRow q a).arr q a).cells = (s.arr q a).cells := by
  have hclusters : (s.setArrState q a 1).clusters = s.clusters := State.clusters_setFld _ _ _ _ _
  have hstate : (s.setArrState q a 1).arrState q a = 1 := s.arrState_setArrState q a (by decide)
  refine ⟨(SameRows.of_clusters hclusters).trans (State.sameRows_modArr _ q a _),
    (State.arrState_of_regs q a (State.modCluster_regs _ _ _)).trans hstate, ?_⟩
  rw [State.beginRow, State.arr_modArr, ← State.arr_of_clusters q a hclusters]

theorem State.pulseRow_spec (row : Nat) (ps : List PairSet) : SameRows s (s.pulseRow q a row ps) ∧
    (s.pulseRow q a row ps).arrState q a = s.arrState q a ∧
    ((s.pulseRow q a row ps).arr q a).cells = Map.setList 0 (s.arr q a).cells (1024 * row) (pairCells ps) := by
  unfold State.pulseRow
  extract_lets t
  have hset : ∀ x : Arr, ({ x with cells := Map.setList 0 x.cells (1024 * row) (pairCells ps) } : Arr).cells =
    Map.setList 0 x.cells (1024 * row) (pairCells ps) := fun _ => rfl
  obtain ⟨hclusters, hstate⟩ := (s.modArr q a (fun x => { x with
    cells := Map.setList 0 x.cells (1024 * row) (pairCells ps) })).wearRow_spec q a
  have hbump : (t.bumpBy Fld.cluArrStateStuckPairs q a (ps.countP (fun p => p.stuck && p.ok))).clusters = t.clusters :=
    State.clusters_setFld _ _ _ _ _
  have hfield : (t.bumpBy Fld.cluArrStateStuckPairs q a (ps.countP (fun p => p.stuck && p.ok))).arrState q a = t.arrState q a :=
    State.fld_setFld_beside _ Fld.cluArrStateStuckPairs Fld.cluArrStateState _ _ _ rfl (by decide) (by decide)
  refine ⟨?_, ?_, ?_⟩
  · exact ((State.sameRows_modArr s q a _).trans (.of_clusters (hbump.trans hclusters))).trans (sameRows_modCluster _ q fun _ => rfl)
  · calc
      _ = _ := State.arrState_of_regs q a (State.modCluster_regs _ _ _)
      _ = t.arrState q a := hfield
      _ = _ := hstate
      _ = s.arrState q a := State.arrState_of_regs q a (State.modCluster_regs _ _ _)
  · rw [State.arr, State.recordCluster, State.cluster_of_modCluster, if_pos rfl, State.cluster, hbump, hclusters, ← State.cluster]
    exact (congrArg Arr.cells (State.arr_modArr s q a _)).trans (hset _)

theorem State.failRow_spec : SameRows s (s.failRow q a) ∧ (s.failRow q a).arrState q a = 5 ∧ (s.failRow q a).arr q a = s.arr q a := by
  have hlogs := State.Logs.report (s.setArrState q a 5) (srcAgent q (s.foldOf q)) 0x4007 a 1
  have hclusters : (s.setArrState q a 5).clusters = s.clusters := State.clusters_setFld _ _ _ _ _
  refine ⟨.of_clusters (hlogs.clusters.trans hclusters), (hlogs.arrState q a).trans (s.arrState_setArrState q a (by decide)), ?_⟩
  exact (hlogs.arr q a).trans (State.arr_of_clusters q a hclusters)

variable {s q a}

theorem State.programRow_spec (row : Nat) {w : BitVec 2048} (hw : badRow w = false) (drifted : Bool) (stuck : List StuckCell) :
    s.Programs q a row [w] (s.programRow q a row w drifted stuck) := by
  obtain ⟨hrows, hstate, hcells⟩ := s.beginRow_spec q a
  obtain ⟨hrows', hstate', hcells'⟩ := (s.beginRow q a).pulseRow_spec q a row (rowPairs w stuck)
  obtain ⟨hrowsF, hstateF, harrF⟩ := ((s.beginRow q a).pulseRow q a row (rowPairs w stuck)).failRow_spec q a
  have hone : ∀ {t : State}, (t.arr q a).Holds row w → ∀ i, i < [w].length → (t.arr q a).Holds (row + i) ([w].getD i 0) :=
    fun h i hi => by
      obtain rfl : i = 0 := Nat.lt_one_iff.mp hi
      exact h
  have hkept : ∀ r c, r < row → c < 512 → cellWeight (((s.beginRow q a).pulseRow q a row (rowPairs w stuck)).arr q a).cells r c =
      cellWeight (s.arr q a).cells r c := fun r c hr hc => by
    rw [hcells', hcells, cellWeight_setList_ne _ _ _ (length_rowPairs w stuck) (Nat.ne_of_lt hr) hc]
  rw [State.programRow_eq s q a row hw]
  split
  next hquiet =>
    have hverifies : (s.arr q a).holdsRow row w = true := by
      rw [State.takesPulses, Bool.or_eq_true, Bool.not_eq_true', not_or, Bool.not_eq_false] at hquiet
      exact hquiet.2
    refine ⟨hrows, .inl hstate, fun _ => hone fun c hc => ?_, fun r c _ _ => by rw [hcells]⟩
    rw [hcells]
    exact Arr.holds_of_holdsRow hverifies c hc
  next =>
    split
    next hok => exact ⟨hrows.trans hrows', .inl (hstate'.trans hstate), fun _ => hone (Arr.holds_of_set hok hcells'), hkept⟩
    next =>
      refine ⟨(hrows.trans hrows').trans hrowsF, .inr hstateF, fun h => absurd (hstateF.symm.trans h) (by decide), fun r c hr hc => ?_⟩
      rw [harrF]
      exact hkept r c hr hc

theorem State.programRows_of_failed {l : List (BitVec 2048)} (h : s.arrState q a = 5) (row : Nat) :
    s.programRows q a row l = s.drew := by
  cases l with
  | nil => rfl
  | cons w l => exact if_pos h

/-- R216, R219: an array that may be programmed is PROGRAMMING with its weights at the end, or FAILED. -/
theorem State.programRows_spec (ws : List (BitVec 2048)) (row : Nat) (hws : ∀ w ∈ ws, badRow w = false)
    (hstate : s.arrState q a ≠ 5) (hbegun : s.arrState q a = 1 ∨ ws ≠ []) : s.Programs q a row ws (s.programRows q a row ws) := by
  induction ws generalizing s row with
  | nil =>
    have hone := hbegun.resolve_right (fun h => h rfl)
    exact ⟨.refl s, .inl hone, fun _ i hi => absurd hi (Nat.not_lt_zero i), fun _ _ _ _ => rfl⟩
  | cons w l ih =>
    have hstep : s.programRows q a row (w :: l) =
        (s.programRow q a row w (s.rowMet q a row).drifted (s.rowMet q a row).stuck).programRows q a (row + 1) l := if_neg hstate
    have ht := s.programRow_spec (q := q) (a := a) row (hws w List.mem_cons_self) (s.rowMet q a row).drifted (s.rowMet q a row).stuck
    rw [hstep]
    generalize s.programRow q a row w (s.rowMet q a row).drifted (s.rowMet q a row).stuck = t at ht
    obtain ⟨hrows, hst, hholds, hothers⟩ := ht
    rcases hst with hone | hfive
    · obtain ⟨hrows', hst', hholds', hothers'⟩ := ih (s := t) (row + 1) (fun x hx => hws x (List.mem_cons_of_mem _ hx))
        (by rw [hone]; decide) (.inl hone)
      refine ⟨hrows.trans hrows', hst', fun hend i hi => ?_, fun r c hr hc =>
        (hothers' r c (Nat.lt_succ_of_lt hr) hc).trans (hothers r c hr hc)⟩
      cases i with
      | zero => exact fun c hc => (hothers' row c (Nat.lt_succ_self row) hc).trans (hholds hone 0 Nat.one_pos c hc)
      | succ i =>
        have hheld := hholds' hend i (Nat.lt_of_succ_lt_succ hi)
        rw [Nat.add_assoc, Nat.add_comm 1] at hheld
        exact hheld
    · rw [State.programRows_of_failed hfive]
      exact ⟨hrows, .inr hfive, fun hend => absurd (hfive.symm.trans hend) (by decide), hothers⟩

theorem State.arrState_of_mayProgram (h : s.mayProgram q a = true) : s.arrState q a = 0 ∨ s.arrState q a = 1 := by
  simp only [State.mayProgram, Bool.and_eq_true, Bool.or_eq_true, beq_iff_eq] at h
  exact h.1.imp_left And.left

section
variable (h : s.mayProgram q a = true) {row : Nat} {ws : List (BitVec 2048)} (hend : row + ws.length ≤ 1024)
include h hend

theorem State.codecProgram_of_bad (hbad : ws.any badRow = true) :
    s.codecProgram q a row ws = s.report (srcAgent q (s.foldOf q)) 0x4007 a 0 :=
  (if_neg (not_or.mpr ⟨fun hn => hn h, Nat.not_lt.mpr hend⟩)).trans (if_pos hbad)

theorem State.codecProgram_of_leave (hgood : ws.any badRow = false) (hleave : s.codecLeave q = true) :
    s.codecProgram q a row ws = s.programRows q a row ws :=
  ((if_neg (not_or.mpr ⟨fun hn => hn h, Nat.not_lt.mpr hend⟩)).trans (if_neg (Bool.eq_false_iff.mp hgood))).trans (if_pos hleave)

end

end

/-! ### O42 -/

section
variable {s : State} {t q n unit row coding : Nat} {c : EngCall} {data : List (BitVec 8)} {rows : List Row}

theorem exec_normSet (hq : validCluster q = true) : exec (.normSet t q) s = .next ((s.at t).serveNorm q 0 runNormSet) := if_pos hq

theorem exec_normSubmit (hq : validCluster q = true) :
    exec (.normSubmit t q) s = .next ((s.at t).serveNorm q 1 runNormSubmit) := if_pos hq

section
variable (hrows : expand coding (chunkRows coding data data.length) data = some rows) (hn : n < 64)
include hrows hn

theorem exec_codecChunk_stack (hunit : unit < 64) :
    exec (.weightCodecChunk t n .stack unit row coding data) s = .next ((s.at t).codecWrite .stack unit row rows) := by
  change execWeightCodecChunk t n .stack unit row coding data s = _
  rw [execWeightCodecChunk, hrows]
  exact if_pos (by rw [validLea, validLea, decide_eq_true hn, decide_eq_true hunit]; rfl)

section
variable (hunit : validCluster unit = true) (hlea : unit / 24 = n)
include hunit hlea

theorem exec_codecChunk_scratch :
    exec (.weightCodecChunk t n .scratch unit row coding data) s = .next ((s.at t).codecWrite .scratch unit row rows) := by
  change execWeightCodecChunk t n .scratch unit row coding data s = _
  rw [execWeightCodecChunk, hrows]
  exact if_pos (by rw [validLea, decide_eq_true hn, hunit, hlea, beq_self_eq_true]; rfl)

theorem exec_codecChunk_array {a : Nat} (ha : a < 32) : exec (.weightCodecChunk t n (.array a) unit row coding data) s =
    .next ((s.at t).codecProgram unit a row (programmingRows rows)) := by
  change execWeightCodecChunk t n (.array a) unit row coding data s = _
  rw [execWeightCodecChunk, hrows]
  exact if_pos (by rw [validLea, decide_eq_true hn, validArray, hunit, decide_eq_true ha, hlea, beq_self_eq_true]; rfl)

end

end

/-- Some row of a chunk lies in a region of a fold that is ARMED or RUNNING outside its guard (R354). -/
def State.regionBusy (s : State) (unit row n : Nat) : Bool :=
  (List.range n).any (fun i => (s.regionOf unit (row + i)).any (fun r =>
    s.foldBusy (s.regionFold unit r) && !s.inGuard (s.regionFold unit r)))

theorem State.codecWrite_stack_of_busy (h : s.regionBusy unit row rows.length = true) : s.codecWrite .stack unit row rows = s := if_pos h

/-- The rows of a chunk asked of a stack's controller. -/
def State.askStack (s : State) (unit row : Nat) (rows : List Row) : State := s.modDram unit (fun d => { d with
  agents := d.agents ++ [⟨.codec, agentReq s.nextTag unit row rows.length 0 true rows⟩] })

theorem State.codecWrite_stack_of_free (h : s.regionBusy unit row rows.length = false) :
    OnlyStack unit { s with nextTag := s.nextTag + 1 } (s.codecWrite .stack unit row rows) ∧
    (s.codecWrite .stack unit row rows).dram unit = { s.dram unit with
      agents := (s.dram unit).agents ++ [⟨.codec, agentReq s.nextTag unit row rows.length 0 true rows⟩] } := by
  have hwrite : s.codecWrite .stack unit row rows = (s.askStack unit row rows).drawTag := if_neg (Bool.eq_false_iff.mp h)
  obtain ⟨_, hother⟩ : OnlyStack unit s (s.askStack unit row rows) := onlyStack_modDram s unit _
  have hsame : (s.askStack unit row rows).dram unit = _ := (State.dram_of_modDram s unit _ unit).trans (if_pos rfl)
  rw [hwrite]
  exact ⟨⟨rfl, fun x hx => hother x hx⟩, hsame⟩

end

end Sys2Proof.Machine

namespace Sys2Proof
open Machine

/-- Settles O42: a call is served in a state that differs from the old one in its slot alone (`State.NormStep`), rows are written one
by one where each is taken, and an array that takes rows stays PROGRAMMING with their weights until a row fails. -/
theorem normCallsAndCodecWrite : Obligations.NormCallsAndCodecWrite := by
  unfold Obligations.NormCallsAndCodecWrite
  intro t q n c s hq hn
  refine ⟨fun hfind => ?_, fun unit row coding data rows hrows => ⟨fun hunit => ⟨fun hbusy => ?_, fun hfree => ?_⟩,
    fun hunit hlea hend hmay => ?_, fun i hunit hlea hi hout => ?_, fun a hunit ha hlea hmay hend => ⟨fun hbad => ?_,
      fun hgood hleave hsome => ?_⟩⟩⟩
  · obtain rfl := State.q_of_find hfind
    refine ⟨fun hfn => ⟨_, exec_normSet hq, ?_⟩, fun hfn => ⟨_, exec_normSubmit hq, ?_⟩⟩
    · by_cases hslot : c.param 0 2 < 256 ∨ 271 < c.param 0 2 ∨ (c.param 2 1 ≠ 1 ∧ c.param 2 1 ≠ 3) ∨ c.param 3 1 = 0
      · rw [if_pos hslot]
        exact State.serveNorm_spec hfind hfn (runNormSet_bad hslot) (.refl _ _ _)
      · rw [if_neg hslot]
        exact State.serveNorm_spec hfind hfn (runNormSet_good hslot) (State.normStep_setNormSlot _ _ _ _)
    · by_cases hslot : c.param 0 2 < 256 ∨ 271 < c.param 0 2 ∨ ((s.at t).normSlot c.q (c.param 0 2)).policy = 2
      · rw [if_pos hslot]
        exact State.serveNorm_spec hfind hfn (runNormSubmit_bad hslot) (.refl _ _ _)
      · rw [if_neg hslot]
        cases hfin : (f32 (c.param 4 4)).isFin with
        | false =>
          rw [if_pos rfl]
          exact State.serveNorm_spec hfind hfn (runNormSubmit_nonfinite hslot hfin) ((State.NormStep.refl _ _ _).logs (.modFold _ _ _))
        | true =>
          rw [if_neg (by decide)]
          obtain ⟨u, hrun, hu⟩ := runNormSubmit_judged hslot hfin
          exact (State.serveNorm_spec hfind hfn hrun hu).imp_right And.symm
  · rw [exec_codecChunk_stack hrows hn hunit, State.codecWrite_stack_of_busy hbusy]
  · exact ⟨_, exec_codecChunk_stack hrows hn hunit, State.codecWrite_stack_of_free hfree⟩
  · have htaken : ∀ i, i < rows.length → (s.at t).takesRow unit (row + i) = true := fun i hi => (State.codecMay_iff.mp hmay i hi).1
    obtain ⟨hdrams, hput⟩ := State.putRows_of_taken rows htaken
    refine ⟨_, exec_codecChunk_scratch hrows hn hunit hlea, ?_⟩
    rw [State.codecWrite_scratch_of_may hend hmay]
    exact ⟨fun n a => by rw [State.dram, State.dram, hdrams], hput⟩
  · rw [exec_codecChunk_scratch hrows hn hunit hlea, State.codecWrite_scratch_of_outside hi hout]
  · have hlogs := State.Logs.report (s.at t) (srcAgent unit ((s.at t).foldOf unit)) 0x4007 a 0
    refine ⟨_, exec_codecChunk_array hrows hn hunit hlea ha, ?_⟩
    rw [State.codecProgram_of_bad hmay hend hbad]
    exact ⟨.of_clusters hlogs.clusters, hlogs.arr unit a, hlogs.arrState unit a⟩
  · have hstate : (s.at t).arrState unit a ≠ 5 := by
      have hmayState := State.arrState_of_mayProgram hmay
      omega
    obtain ⟨hsame, hst, hholds, _⟩ := (s.at t).programRows_spec (programmingRows rows) row
      (fun w hw => Bool.eq_false_iff.mpr (List.any_eq_false.mp hgood w hw)) hstate (.inr hsome)
    refine ⟨_, exec_codecChunk_array hrows hn hunit hlea ha, ?_⟩
    rw [State.codecProgram_of_leave hmay hend hgood hleave]
    exact ⟨hsame, hst, fun hone i c hi hc => hholds hone i hi c hc⟩

end Sys2Proof
end
